-- ==== Sys2Proof/Word.lean ====
section
/-! DEFINITION. The word types of the model and their plainest arithmetic (00_scope.md R6, R7, R10). -/

namespace Sys2Proof

/-- A byte: the smallest unit of every store (R7). -/
abbrev Byte := BitVec 8

/-- A control-space word (R10). -/
abbrev W32 := BitVec 32

/-- A 64-bit word: operand words, watch-line words, atomics. -/
abbrev W64 := BitVec 64

end Sys2Proof
end

