-- ==== Sys2Proof/Syntax.lean ====
section
/-! DEFINITION. The commands of the module: one constructor per row of spec/opcode_table.json, in the table's order, with
the operands the row's rules give it.  What the tray, another module, firmware or a sensor supplies (a packet, a message,
a pin level, a measurement) is an operand; what the module holds is not. -/

namespace Sys2Proof

/-- A Camsound packet: its header fields (12_fabric_links.md R491) and its payload granules' 64 data bytes, with a mark on
each granule that its check bytes do not correct (R503). -/
structure Packet where
  opc    : BitVec 8
  hops   : BitVec 4
  src    : BitVec 16
  dst    : BitVec 16
  ngm1   : BitVec 10
  status : BitVec 4
  pseq   : W32
  dep    : Option W32
  rtag   : BitVec 12
  atop   : BitVec 4
  issuer : BitVec 8
  gen    : BitVec 8
  win    : BitVec 12
  pver   : BitVec 4
  offset : BitVec 36
  be     : BitVec 8
  imm    : W64
  gran   : List (List Byte)
  badGranule : Bool
  deriving DecidableEq, Repr

/-- One TIME exchange stamp: nanoseconds with a fraction in 1/65,536 ns (R520). -/
structure Stamp where
  ns   : W64
  frac : BitVec 16
  deriving DecidableEq, Repr

/-- What the module measures over one epoch (14_power.md R609, R611, R612; 10_sheets.md R428; 18 R719, R720)
(DESIGN CHOICE, log entry 7). -/
structure EpochMeas where
  railUJ   : List Nat
  inputUJ  : Nat
  quireUJ  : List Nat
  sheetLines : List Nat
  fx16     : Nat
  inputW   : Nat
  inputMV  : Nat
  holdMJ   : Nat
  railMinMV : List Nat
  railPeakA : List Nat
  railAvgA  : List Nat
  roCounts : List Nat
  worst    : List (Nat × Nat)
  deriving DecidableEq, Repr

/-- What firmware on the Quill settles for a SUBMIT, and the spec leaves to it (09_serving.md R375, R384, R385, R423; 13 R569):
where the page list, the rubric list and the slip image go; the prefix record and the list of page numbers a publication takes;
the staged gloss directories of the sheet; the page slots it allocates for the hot set of an adopted request (DEDUCED, log entry 34). -/
structure SubmitPlan where
  plist   : BitVec 48
  rlist   : BitVec 48
  image   : BitVec 48
  prec    : BitVec 16
  pubList : BitVec 48
  dirs    : List (BitVec 48)
  hot     : List (BitVec 32)
  deriving DecidableEq, Repr

/-- One of the operations of a kind that a DMA queue is running: the `k`th of those with units left, in the order they were taken
(06_dma_pages.md R222, R223). -/
structure QueueOp where
  queue : Fin 128
  k     : Nat
  deriving DecidableEq, Repr

/-- How a line reads when patrol scrubbing comes to it: what its bytes have lost since the last read, and how often its transfer fails
(05_memory.md R213, R214; 18_module_interfaces.md R711, R713). -/
structure ScrubRead where
  err   : List (Fin 68 × Byte)
  fails : Nat
  deriving DecidableEq, Repr

/-- What a port sees at its far end (12_fabric.md R526, R540; 18_module_interfaces.md R717): the identity memory of a cable that has
been plugged, or no bytes, whether a memory had been unreadable for at least 1 s, and whether the memory does not answer. -/
structure FarEnd where
  port   : Fin 10
  gap    : Bool
  silent : Bool
  cable  : List Byte
  deriving DecidableEq, Repr

/-- A position of the four boards of mate-detect contacts (18_module_interfaces.md R702, R719). -/
inductive MateContact where
  | hsa0 | hsa1 | hsb0 | hsb1 | sb
  deriving DecidableEq, Repr

/-- The stores patrol scrubbing reads (05_memory.md R214). -/
inductive ScrubStore where
  | t0 | t1 | t2cx0 | t2cx1
  deriving DecidableEq, Repr

/-- The commands.  Quires are `q`, scribes `k`, sheets `s`, contexts `c`, ports `p`, DMA queues `qn`, job slots `j`, routes `r`. -/
inductive Instr where
  -- start-up, resets, control space
  | powerGood (straps : BitVec 13) (feed : Bool)
  | strapchg (straps : BitVec 13)
  | channelTrainingDone (ch : Fin 24) (ok : Bool)
  | cxlEnumerationDone (cap0 cap1 w0 r0 w1 r1 : Nat)
  | svcReady
  | moduleReset
  | quillReset
  | registerWrite (off : BitVec 20) (v : W32)
  | readToClear (off : BitVec 20)
  | counterLoRead (off : BitVec 20)
  | csaccess (off : BitVec 32) (size : Nat) (write : Bool)
  | proxyAccess (ch : Fin 4) (v : W32)
  -- strokes
  | nop (q : Fin 64) (k : Fin 8) (lost : Nat)
  | matmul (q : Fin 64) (k : Fin 8) (lost : Nat)
  | down (q : Fin 64) (k : Fin 8) (lost : Nat)
  | up (q : Fin 64) (k : Fin 8) (lost : Nat)
  | fwd (q : Fin 64) (k : Fin 8) (lost : Nat)
  | prob (q : Fin 64) (k : Fin 8) (lost : Nat)
  | vecAdd (q : Fin 64) (k : Fin 8) (lost : Nat)
  | vecSub (q : Fin 64) (k : Fin 8) (lost : Nat)
  | vecMul (q : Fin 64) (k : Fin 8) (lost : Nat)
  | vecFma (q : Fin 64) (k : Fin 8) (lost : Nat)
  | vecMin (q : Fin 64) (k : Fin 8) (lost : Nat)
  | vecMax (q : Fin 64) (k : Fin 8) (lost : Nat)
  | vecAbs (q : Fin 64) (k : Fin 8) (lost : Nat)
  | vecSel (q : Fin 64) (k : Fin 8) (lost : Nat)
  | vecScale (q : Fin 64) (k : Fin 8) (lost : Nat)
  | vecExp2 (q : Fin 64) (k : Fin 8) (lost : Nat)
  | vecRcp (q : Fin 64) (k : Fin 8) (lost : Nat)
  | vecRsqrt (q : Fin 64) (k : Fin 8) (lost : Nat)
  | rowmul (q : Fin 64) (k : Fin 8) (lost : Nat)
  | rowdiv (q : Fin 64) (k : Fin 8) (lost : Nat)
  | cvt (q : Fin 64) (k : Fin 8) (lost : Nat)
  | redSum (q : Fin 64) (k : Fin 8) (lost : Nat)
  | redMax (q : Fin 64) (k : Fin 8) (lost : Nat)
  | sumsq (q : Fin 64) (k : Fin 8) (lost : Nat)
  | rmsr (q : Fin 64) (k : Fin 8) (lost : Nat)
  | quant (q : Fin 64) (k : Fin 8) (lost : Nat)
  | residualDowncast (q : Fin 64) (k : Fin 8) (lost : Nat)
  | kvputKey (q : Fin 64) (k : Fin 8) (lost : Nat)
  | kvputValue (q : Fin 64) (k : Fin 8) (lost : Nat)
  | move (q : Fin 64) (k : Fin 8) (lost : Nat)
  | rule (q : Fin 64) (k : Fin 8) (lost : Nat)
  | return_ (q : Fin 64) (k : Fin 8) (lost : Nat)
  | waitGe (q : Fin 64) (k : Fin 8)
  | waitEq (q : Fin 64) (k : Fin 8)
  | waitNe (q : Fin 64) (k : Fin 8)
  | step (q : Fin 64) (k : Fin 8)
  | watchWake (line : BitVec 42)
  | flagStore (q : Fin 64) (k : Fin 8)
  | flagAdd (q : Fin 64) (k : Fin 8)
  | liveany (q : Fin 64) (k : Fin 8)
  | cmp (q : Fin 64) (k : Fin 8)
  | variant (q : Fin 64) (k : Fin 8)
  | ret (q : Fin 64) (k : Fin 8) (lost : Nat)
  | end_ (q : Fin 64) (k : Fin 8) (lost : Nat)
  | strokeOverrun (q : Fin 64) (k : Fin 8)
  | liveMaskSample (q : Fin 64) (k : Fin 8)
  -- sheets and contexts
  | quantumExpiry (s : Fin 16)
  | yieldExpiry (s : Fin 16)
  | saveComplete (s : Fin 16)
  | restoreComplete (s : Fin 16)
  | waitingWake (line : BitVec 42)
  | assign (s : Fin 16)
  | sheetWakeComplete (s : Fin 16)
  | drain (s : Fin 16)
  | reopen (s : Fin 16)
  | reshape (s : Fin 16)
  | sheetRelease (s : Fin 16)
  | teardown (s : Fin 16)
  | sheetDrained (s : Fin 16)
  | contextStart (s : Fin 16) (c : Fin 8)
  | contextStop (s : Fin 16) (c : Fin 8)
  | contextReset (s : Fin 16) (c : Fin 8)
  -- memory tiers
  | map
  | unmap
  | dry
  | undry
  | pin
  | unpin
  | tierMove
  | tierAbort
  | moveFlip (g : BitVec 26)
  | moveSourceFree (g : BitVec 26)
  | t1Demotion (s : Fin 16)
  | eviction
  | patrolScrub (st : ScrubStore) (g : Nat) (line : Fin 1024) (read : ScrubRead)
  | mirrorT2Write (v : W32)
  | cxlPortDown (n : Fin 2)
  | quillCoreStore (addr : BitVec 48) (data : List Byte)
  -- DMA
  | queueEnable (qn : Fin 128) (v : W32)
  | copy (op : QueueOp) (n : Nat)
  | folio (op : QueueOp) (n : Nat)
  | walk (op : QueueOp) (n : Nat)
  | stream (op : QueueOp) (n : Nat)
  | readyWrite (qn : Fin 128)
  | gloss (op : QueueOp)
  | dmaCancel (qn : Fin 128)
  | dmaAbort (qn : Fin 128)
  | descriptorComplete (qn : Fin 128)
  -- expert routing
  | dispatch (p : Packet)
  | poolans (p : Packet)
  | close (p : Packet)
  | retrow (p : Packet)
  | rethdr (p : Packet)
  | vsel (v : W32)
  | vtimeout (s : Fin 16) (r : Fin 256)
  | tpend (s : Fin 16)
  | mpend (s : Fin 16)
  -- the Roll
  | admitSlip
  | prefilling
  | activate
  | shipping
  | landed
  | handed
  | retry
  | pause
  | resume
  | cancel
  | fail
  | release
  | mset
  | mfree
  | headerAction (j : Fin 16)
  | stepCommit (j : Fin 16)
  | deadlineSweep (j : Fin 16)
  | slip (p : Packet)
  | entries (p : Packet)
  | post (p : Packet)
  | mask (p : Packet)
  | header (p : Packet)
  | commit (p : Packet)
  | maskword (p : Packet)
  -- the endpoint
  | submit (j : Fin 16) (msg : List Byte) (plan : SubmitPlan) (adopt : Option (Fin 16))
  | clientCancel (j : Fin 16) (msg : List Byte)
  | draft (j : Fin 16) (msg : List Byte)
  | tokens (j : Fin 16)
  -- fabric operations
  | windowOpen (w : BitVec 12)
  | windowClose (w : BitVec 12)
  | closeComplete
  | reachMark (pos : BitVec 16)
  | reachClear (pos : BitVec 16)
  | tlostTimeout (pos : BitVec 16)
  | load8 (p : Packet)
  | load64 (p : Packet)
  | bulkr (p : Packet)
  | store8 (p : Packet)
  | store64 (p : Packet)
  | bulkw (p : Packet)
  | atomicAdd (p : Packet)
  | atomicMin (p : Packet)
  | atomicMax (p : Packet)
  | swap (p : Packet)
  | cas (p : Packet)
  | flaggedStore (p : Packet)
  | flaggedAdd (p : Packet)
  | flagApply (src : BitVec 16)
  | heldPacketRelease (src : BitVec 16)
  | rdata (p : Packet)
  | ack (p : Packet)
  | refuse (p : Packet)
  | refuseResend (pos : BitVec 16)
  | e2eResend (pos : BitVec 16)
  | gatherTimeout (pos : BitVec 16)
  | quillLoad (aper : BitVec 48) (line : Bool)
  | quillStore (aper : BitVec 48) (be : BitVec 8) (data : List Byte)
  | quillAtomic (aper : BitVec 48) (op : BitVec 4) (a b : W64)
  | bulkRead
  | bulkWrite
  | bulkAbort
  | bulkComplete (p : Packet)
  -- links
  | flitReceive (p : Fin 10) (flit : List Byte) (corr unc : Nat)
  | replayTimeout (p : Fin 10)
  | forward (p : Fin 10) (pkt : Packet)
  | laneFail (p : Fin 10) (lane : Fin 8)
  | portDown (p : Fin 10)
  | portDownResend (p : Fin 10)
  | flitLock (p : Fin 10) (lanes : BitVec 8)
  | version (p : Fin 10) (imm : W64)
  | width (p : Fin 10) (imm : W64)
  | borrow (p : Fin 10) (imm : W64)
  | unreach (p : Fin 10) (imm : W64)
  | reachable (p : Fin 10) (imm : W64)
  | ringmap (p : Fin 10) (imm : W64)
  | ringmapTimeout (pos : BitVec 16)
  -- discovery and cables
  | ident (p : Fin 10) (frame : List Byte)
  | identTimer (p : Fin 10)
  | absentDeadline
  | cableUsageWrite (p : Fin 10) (ok : Bool)
  -- time
  | syncInterval
  | sync (p : Fin 10) (src : BitVec 16) (gr : List Byte)
  | reply (p : Fin 10) (gr : List Byte) (t4 : Stamp)
  | phaseEnd
  | refloss
  | refclkReturn
  | epochBoundary (m : EpochMeas)
  -- power
  | phaseCopyComplete
  | phaseBoundary (q : Fin 64) (ns obs : Nat) (fx16 : Nat)
  | pointRaiseSettled (q : Fin 64)
  | intent (p : Fin 10) (gr : List Byte) (hops : BitVec 4)
  | tray (p : Fin 10) (gr : List Byte) (hops : BitVec 4)
  | trayLeadTimer
  | baselineDeadline
  | droopTrip (q : Fin 64) (det : Fin 2)
  | droopRelease (q : Fin 64)
  | clamp (r : Fin 8)
  | clampRelease (r : Fin 8)
  | thermalSample (quires groups : List (BitVec 16))
  | railSample (r : Fin 8) (die : Fin 5) (mv us : Nat)
  | inputLoss
  | overvoltage
  | latchOpen
  | mateDetectOpen (m : MateContact)
  | battLow (low : Bool)
  -- mirroring
  | mirrorStepTrigger (j : Fin 16)
  | mirrorStepComplete (j : Fin 16)
  | mirrorBatchTrigger (j : Fin 16)
  | resync
  | resyncComplete
  -- turns
  | cspend
  | rtpend
  | htpend (j : Fin 16)
  | ptpend
  | recipeTurnRequest (mask : BitVec 16)
  -- calibration and self-test
  | laneRecalibration (p : Fin 10) (lane : Fin 8)
  | droopCalibration (q : Fin 64) (det : Fin 2)
  | thermalCalibration (g : Bool) (n : Fin 64)
  | channelRetrain (ch : Fin 24)
  | calibrationComplete (ok : Bool)
  | selftestStart (w : W32)
  | selftestDeferredStart
  | selftestAbort
  | selftestComplete (faults : List (BitVec 64))
  -- update, owner, attestation
  | stage
  | commitUpdate
  | updateAbort
  | discard
  | colophon
  | sectorProgrammed (ok : Bool)
  | updateComplete (ok : Bool)
  | portReload (p : Fin 10)
  | lockSet
  | unlock
  | transfer
  | enroll
  | revokekey
  | report
  | chain
  -- the event log
  | elogEnable (v : W32)
  | econsWrite (v : W32)
  | hpop
  | heldRecordFlush
  -- later rows
  | inputVoltageChange (mv : Nat)
  | powerLoss
  | latchClose
  | mateDetectClose (m : MateContact)
  | farEndDetect (e : FarEnd)
  | ductusReloadDone
  | quillResetComplete
  | imagesLoaded (ok : Bool)
  deriving DecidableEq, Repr

end Sys2Proof
end

