-- ==== Sys2Proof/Machine/Arith.lean ====
section
/-! DEFINITION. Exact arithmetic and its one rounding to FP32 (02_formats.md R36, R37, R53; 03_scribe.md R78, R79, R83 to R85).
A finite value is (-1)^s · m · 2^e with m a natural number, so every sum and product is exact until it is rounded. -/

namespace Sys2Proof.Machine

/-- A decoded value: NaN, an infinity, or a finite dyadic number with the sign of its zero. -/
inductive Fp where
  | nan
  | inf (s : Bool)
  | fin (s : Bool) (m : Nat) (e : Int)
  deriving DecidableEq, Repr

/-- Canonical FP32 NaN (R37). -/
def nan32 : W32 := 0x7FC00000

/-- Decode an FP32 code (R36). -/
def Fp.of32 (w : W32) : Fp :=
  let n : Nat := w.toNat
  let s : Bool := n / 2 ^ 31 == 1
  let e : Nat := n / 2 ^ 23 % 256
  let m : Nat := n % 2 ^ 23
  if e = 255 then (if m = 0 then .inf s else .nan)
  else if e = 0 then .fin s m (-149)
  else .fin s (2 ^ 23 + m) ((e : Int) - 150)

/-- The FP32 infinity of a sign. -/
def inf32 (s : Bool) : W32 := if s then 0xFF800000 else 0x7F800000

/-- Shift a natural number right by d, rounding to nearest, ties to even. -/
def shiftRne (m d : Nat) : Nat :=
  if d = 0 then m else
  let q := m / 2 ^ d
  let r := m % 2 ^ d
  if 2 ^ (d - 1) < r || (r == 2 ^ (d - 1) && q % 2 == 1) then q + 1 else q

/-- Round (-1)^s·m·2^e to FP32, to nearest even (R83). -/
def round32 (s : Bool) (m : Nat) (e : Int) : W32 :=
  if m = 0 then (if s then 0x80000000 else 0) else
  let top : Int := (Nat.log2 m : Int) + e
  let u : Int := max (top - 23) (-149)
  let q := if u ≤ e then m * 2 ^ (e - u).toNat else shiftRne m (u - e).toNat
  let b := (u + 149).toNat * 2 ^ 23 + q
  if b ≥ 0x7F800000 then inf32 s else BitVec.ofNat 32 (b + if s then 2 ^ 31 else 0)

/-- Round a value to FP32. -/
def Fp.to32 : Fp → W32
  | .nan => nan32
  | .inf s => inf32 s
  | .fin s m e => round32 s m e

/-- Signed integer of a finite value at exponent e0 ≤ e. -/
def scaled (s : Bool) (m : Nat) (e e0 : Int) : Int :=
  let v : Int := m * 2 ^ (e - e0).toNat
  if s then -v else v

/-- Exact sum; a zero sum of opposite signs is +0 (R79). -/
def Fp.add : Fp → Fp → Fp
  | .nan, _ => .nan
  | _, .nan => .nan
  | .inf a, .inf b => if a = b then .inf a else .nan
  | .inf a, _ => .inf a
  | _, .inf b => .inf b
  | .fin a m e, .fin b n f =>
    if m = 0 && n = 0 then .fin (a && b) 0 0 else
    let e0 := min e f
    let t := scaled a m e e0 + scaled b n f e0
    .fin (decide (t < 0)) t.natAbs e0

/-- Exact product (R79). -/
def Fp.mul : Fp → Fp → Fp
  | .nan, _ => .nan
  | _, .nan => .nan
  | .inf a, .inf b => .inf (a != b)
  | .inf a, .fin b n _ => if n = 0 then .nan else .inf (a != b)
  | .fin a m _, .inf b => if m = 0 then .nan else .inf (a != b)
  | .fin a m e, .fin b n f => .fin (a != b) (m * n) (e + f)

/-- Negation. -/
def Fp.neg : Fp → Fp
  | .nan => .nan
  | .inf s => .inf (!s)
  | .fin s m e => .fin (!s) m e

/-- FP32 addition. -/
def fadd (a b : W32) : W32 := ((Fp.of32 a).add (Fp.of32 b)).to32
/-- FP32 subtraction. -/
def fsub (a b : W32) : W32 := ((Fp.of32 a).add (Fp.of32 b).neg).to32
/-- FP32 multiplication. -/
def fmul (a b : W32) : W32 := ((Fp.of32 a).mul (Fp.of32 b)).to32
/-- Fused multiply-add with one rounding (R83). -/
def ffma (a b c : W32) : W32 := (((Fp.of32 a).mul (Fp.of32 b)).add (Fp.of32 c)).to32

/-- Is the first finite value below the second? -/
def ltFin (a : Bool) (m : Nat) (e : Int) (b : Bool) (n : Nat) (f : Int) : Bool :=
  let e0 := min e f
  decide (scaled a m e e0 < scaled b n f e0)

/-- Numeric order of two values; false when one is NaN. -/
def Fp.lt : Fp → Fp → Bool
  | .nan, _ => false
  | _, .nan => false
  | .inf a, .inf b => a && !b
  | .inf a, .fin _ _ _ => a
  | .fin _ _ _, .inf b => !b
  | .fin a m e, .fin b n f => ltFin a m e b n f

/-- Is a value NaN? -/
def Fp.isNan : Fp → Bool
  | .nan => true
  | _ => false

/-- Is a value finite? -/
def Fp.isFin : Fp → Bool
  | .fin _ _ _ => true
  | _ => false

/-- Is a value zero? -/
def Fp.isZero : Fp → Bool
  | .fin _ m _ => m == 0
  | _ => false

/-- The sign of a value. -/
def Fp.sign : Fp → Bool
  | .nan => false
  | .inf s => s
  | .fin s _ _ => s

/-- The order of min and max, with −0 below +0 (R84). -/
def Fp.below (a b : Fp) : Bool := a.lt b || (a.isZero && b.isZero && a.sign && !b.sign)

/-- FP32 minimum (R84). -/
def fmin (a b : W32) : W32 :=
  let x := Fp.of32 a
  let y := Fp.of32 b
  if x.isNan then (if y.isNan then nan32 else b) else if y.isNan then a else if y.below x then b else a

/-- FP32 maximum (R84). -/
def fmax (a b : W32) : W32 :=
  let x := Fp.of32 a
  let y := Fp.of32 b
  if x.isNan then (if y.isNan then nan32 else b) else if y.isNan then a else if x.below y then b else a

/-- FP32 absolute value. -/
def fabs (a : W32) : W32 := if (Fp.of32 a).isNan then nan32 else BitVec.ofNat 32 (a.toNat % 2 ^ 31)

/-- Round a quotient num/den · 2^e to FP32: 60 and more quotient bits and a sticky bit decide the rounding. -/
def roundRat (s : Bool) (num den : Nat) (e : Int) : W32 :=
  if num = 0 then (if s then 0x80000000 else 0) else
  let k := 60 + Nat.log2 den
  let n := num * 2 ^ k
  round32 s (2 * (n / den) + if n % den = 0 then 0 else 1) (e - k - 1)

/-- FP32 division with one rounding (the quotient v / r of R56 and R274). -/
def fdiv (a b : W32) : W32 :=
  match Fp.of32 a, Fp.of32 b with
  | .nan, _ => nan32
  | _, .nan => nan32
  | .inf _, .inf _ => nan32
  | .inf x, .fin y _ _ => inf32 (x != y)
  | .fin x _ _, .inf y => if x != y then 0x80000000 else 0
  | .fin x m e, .fin y n f =>
    if n = 0 then (if m = 0 then nan32 else inf32 (x != y)) else roundRat (x != y) m n (e - f)

/-- Reciprocal (R84). -/
def frcp (a : W32) : W32 := fdiv 0x3F800000 a

/-- Integer square root, one result bit per unit of fuel, from bit fuel-1 down. -/
def isqrtAux : Nat → Nat → Nat → Nat
  | 0, _, r => r
  | i + 1, n, r => isqrtAux i n (if (r + 2 ^ i) * (r + 2 ^ i) ≤ n then r + 2 ^ i else r)

/-- Integer square root. -/
def isqrt (n : Nat) : Nat := isqrtAux (Nat.log2 n / 2 + 1) n 0

/-- Reciprocal square root (R84). -/
def frsqrt (a : W32) : W32 :=
  match Fp.of32 a with
  | .nan => nan32
  | .inf s => if s then nan32 else 0
  | .fin s m e =>
    if m = 0 then inf32 s else if s then nan32 else
    let m' := if e % 2 = 0 then m else 2 * m
    let e' := if e % 2 = 0 then e else e - 1
    let k := 40 + Nat.log2 m'
    let n := 2 ^ (2 * k)
    let q := isqrt (n / m')
    round32 false (2 * q + if q * q * m' = n then 0 else 1) (-(e' / 2) - k - 1)

/-- ln 2 in units of 2^-p: the sum of 1/(i·2^i). -/
def ln2Fix (p : Nat) : Nat := ((List.range p).map fun i => 2 ^ p / ((i + 1) * 2 ^ (i + 1))).foldl (· + ·) 0

/-- Terms of the exponential series: `term` is t^i/i! in units of 2^-p. -/
def expSum : Nat → Nat → Nat → Nat → Nat → Nat
  | 0, _, _, _, _ => 0
  | n + 1, p, t, i, term => term + expSum n p t (i + 1) (term * t / 2 ^ p / (i + 1))

/-- 2^x rounded once (R84).  The series is taken to 256 bits: a result other than a power of two is irrational, so it lies on
no rounding boundary, and 200 bits more than FP32 holds decide it (DEDUCED in part, log entry 57). -/
def fexp2 (a : W32) : W32 :=
  match Fp.of32 a with
  | .nan => nan32
  | .inf s => if s then 0 else inf32 false
  | .fin s m e =>
    if m = 0 then 0x3F800000 else
    let x : Int := scaled s m e (min e 0) -- x in units of 2^(min e 0)
    let d : Nat := 2 ^ (-(min e 0)).toNat
    let i : Int := x / (d : Int)
    let r : Nat := (x % (d : Int)).toNat
    if i ≥ 128 then inf32 false else if i < -160 then 0 else
    if r = 0 then round32 false 1 i else
    let t := r * 2 ^ 256 / d * ln2Fix 256 / 2 ^ 256
    round32 false (2 * expSum 70 256 t 0 (2 ^ 256) + 1) (i - 257)

/-- The reduction tree of R85 over a list of lanes. -/
def pairUp (f : W32 → W32 → W32) : List W32 → List W32
  | a :: b :: t => f a b :: pairUp f t
  | l => l

/-- Apply the tree six times: 64 lanes give one value (R85). -/
def laneTree (f : W32 → W32 → W32) (l : List W32) : W32 :=
  ((List.range 6).foldl (fun l _ => pairUp f l) l).headD 0

end Sys2Proof.Machine
end

