-- ==== Sys2Proof/Config.lean ====
section
/-! DEFINITION. The free values: what the specification leaves to the part and gives no value for.  None has a body, so no
proof can see what it is (log entries 6, 14, 35, 152, 159, 160 and 177). -/

namespace Sys2Proof.Config

/-- The random source of the security engine: the owner-command nonce of each draw (00_scope.md R9, 17 R686). -/
opaque nonce : Nat → BitVec 128

/-- The identity signature over a 32-byte digest, of 1 to 1,280 bytes (17 R689, R692): the private key is in no register. -/
opaque signature : List Byte → Nat → List Byte

/-- Which of the usable paths a packet takes (12_fabric_links.md R500). -/
opaque path : Nat → Nat

/-- Which base die a T1 placement takes when the command leaves it to the module (05_memory.md R183 DANY, R196). -/
opaque die : Nat → Nat

/-- Which free location of a tier a placement takes (05_memory.md R196 names the tier, not the location). -/
opaque slot : Nat → Nat

/-- The outcome code in PUB of an END message (09_serving.md R385, R387): the spec gives the outcomes no codes. -/
opaque pubCode : Nat → BitVec 8

/-- The commit rack time in a TOKENS message that repeats ETOK (09_serving.md R387, 13 R561): a recovery line holds none. -/
opaque resendTime : Nat → BitVec 64

/-- 64 KiB units, or quires, that a stopped self-test had tested (16_startup_config.md R664, R665). -/
opaque testProgress : Nat → Nat

/-- The first failing address that a stopped self-test had met, or 0 (16_startup_config.md R664, R665). -/
opaque testFault : Nat → BitVec 64

/-- Credits that a port's receive buffer of a virtual lane gives at link-up, in units of 64 bytes (12_fabric_links.md R483, R488). -/
opaque rxBuffer : Nat → Nat → BitVec 16

/-- A colophon copy of the layout version before the present one, converted (16_startup_config.md R640): the spec gives no such layout. -/
opaque convertCopy : List Byte → List Byte

end Sys2Proof.Config
end

