-- ==== Sys2Proof/Machine/Regs.lean ====
section
/-! DEFINITION. The register map of control space (19_registers.md R721): one offset definition per register,
and one description row per register with the access code and reset value of each field (00_scope.md R9, R11).
The rows are those of the field maps of the chapters R721 names. -/

namespace Sys2Proof.Machine

/-- The access codes of 00_scope.md R11. -/
inductive Access where
  | ro | rw | w1c | w1s | wo | rc
  deriving DecidableEq, Repr

/-- One field of a register: bits [hi:lo], its access code and its numeric reset value (0 where the map names a source). -/
structure Field where
  hi : Nat
  lo : Nat
  acc : Access
  rst : Nat
  deriving DecidableEq, Repr

/-- One register: offset of its first copy, the strides and counts of its copies, and its fields. -/
structure RegDesc where
  base : Nat
  dims : List (Nat × Nat)
  fields : List Field
  deriving DecidableEq, Repr

/-- MON BLOT_WIN, 02_formats.md R66. -/
def Reg.BLOT_WIN (s : Nat) : Nat := 0x37000 + 0x4 * s
/-- MON BLOT_EVT, 02_formats.md R66. -/
def Reg.BLOT_EVT : Nat := 0x37040
/-- MON BLOT_FOLIOS, 02_formats.md R66. -/
def Reg.BLOT_FOLIOS (s p : Nat) : Nat := 0x38000 + 0x800 * s + 0x8 * p
/-- MON BLOT_COUNT, 02_formats.md R66. -/
def Reg.BLOT_COUNT (s p : Nat) : Nat := 0x38004 + 0x800 * s + 0x8 * p
/-- SHT QUIRE_STAT, 03_scribe.md R116. -/
def Reg.QUIRE_STAT (q : Nat) : Nat := 0x4C000 + 0x20 * q
/-- SHT CONF_CYCLES, 03_scribe.md R116. -/
def Reg.CONF_CYCLES (q : Nat) : Nat := 0x4C004 + 0x20 * q
/-- SHT STROKES, 03_scribe.md R116. -/
def Reg.STROKES (q : Nat) : Nat := 0x4C008 + 0x20 * q
/-- SHT OVERRUN, 03_scribe.md R116. -/
def Reg.OVERRUN (q : Nat) : Nat := 0x4C00C + 0x20 * q
/-- SHT CLOCK, 03_scribe.md R116. -/
def Reg.CLOCK (q : Nat) : Nat := 0x4C010 + 0x20 * q
/-- MEM CAP_T0, 05_memory.md R217. -/
def Reg.CAP_T0 : Nat := 0x80000
/-- MEM CAP_T1, 05_memory.md R217. -/
def Reg.CAP_T1 : Nat := 0x80004
/-- MEM CAP_T2, 05_memory.md R217. -/
def Reg.CAP_T2 : Nat := 0x80008
/-- MEM MIRROR_T2, 05_memory.md R217. -/
def Reg.MIRROR_T2 : Nat := 0x8000C
/-- MEM MCQ_BASE_LO, 05_memory.md R217. -/
def Reg.MCQ_BASE_LO : Nat := 0x80010
/-- MEM MCQ_BASE_HI, 05_memory.md R217. -/
def Reg.MCQ_BASE_HI : Nat := 0x80014
/-- MEM MCQ_CONS, 05_memory.md R217. -/
def Reg.MCQ_CONS : Nat := 0x80018
/-- MEM MOVES, 05_memory.md R217. -/
def Reg.MOVES : Nat := 0x8001C
/-- MEM CE_COUNT, 05_memory.md R217. -/
def Reg.CE_COUNT : Nat := 0x80020
/-- MEM UE_COUNT, 05_memory.md R217. -/
def Reg.UE_COUNT : Nat := 0x80024
/-- MEM UE_ADDR_LO, 05_memory.md R217. -/
def Reg.UE_ADDR_LO : Nat := 0x80028
/-- MEM UE_ADDR_HI, 05_memory.md R217. -/
def Reg.UE_ADDR_HI : Nat := 0x8002C
/-- MEM UE_INFO, 05_memory.md R217. -/
def Reg.UE_INFO : Nat := 0x80030
/-- MEM SCRUB_CTL, 05_memory.md R217. -/
def Reg.SCRUB_CTL : Nat := 0x80034
/-- MEM SLICES_LO, 05_memory.md R218. -/
def Reg.SLICES_LO (s : Nat) : Nat := 0x81000 + 0x40 * s
/-- MEM SLICES_HI, 05_memory.md R218. -/
def Reg.SLICES_HI (s : Nat) : Nat := 0x81004 + 0x40 * s
/-- MEM TBASE, 05_memory.md R218. -/
def Reg.TBASE (s : Nat) : Nat := 0x81008 + 0x40 * s
/-- MEM TLIMIT, 05_memory.md R218. -/
def Reg.TLIMIT (s : Nat) : Nat := 0x8100C + 0x40 * s
/-- MEM Q1, 05_memory.md R218. -/
def Reg.Q1 (s : Nat) : Nat := 0x81010 + 0x40 * s
/-- MEM Q2, 05_memory.md R218. -/
def Reg.Q2 (s : Nat) : Nat := 0x81014 + 0x40 * s
/-- MEM U0, 05_memory.md R218. -/
def Reg.U0 (s : Nat) : Nat := 0x81018 + 0x40 * s
/-- MEM U1, 05_memory.md R218. -/
def Reg.U1 (s : Nat) : Nat := 0x8101C + 0x40 * s
/-- MEM U2, 05_memory.md R218. -/
def Reg.U2 (s : Nat) : Nat := 0x81020 + 0x40 * s
/-- MEM WR, 05_memory.md R218. -/
def Reg.WR (s : Nat) : Nat := 0x81024 + 0x40 * s
/-- MEM WQ, 05_memory.md R218. -/
def Reg.WQ (s : Nat) : Nat := 0x81028 + 0x40 * s
/-- DMA DMA_CAP, 06_dma_pages.md R258. -/
def Reg.DMA_CAP : Nat := 0x70000
/-- DMA QBASE_LO, 06_dma_pages.md R258. -/
def Reg.QBASE_LO (q : Nat) : Nat := 0x71000 + 0x20 * q
/-- DMA QBASE_HI, 06_dma_pages.md R258. -/
def Reg.QBASE_HI (q : Nat) : Nat := 0x71004 + 0x20 * q
/-- DMA QCFG, 06_dma_pages.md R258. -/
def Reg.QCFG (q : Nat) : Nat := 0x71008 + 0x20 * q
/-- DMA QCONS, 06_dma_pages.md R258. -/
def Reg.QCONS (q : Nat) : Nat := 0x7100C + 0x20 * q
/-- DMA QINFL, 06_dma_pages.md R258. -/
def Reg.QINFL (q : Nat) : Nat := 0x71010 + 0x20 * q
/-- DMA QDONE, 06_dma_pages.md R258. -/
def Reg.QDONE (q : Nat) : Nat := 0x71014 + 0x20 * q
/-- DMA STALLS, 06_dma_pages.md R259. -/
def Reg.STALLS (s : Nat) : Nat := 0x73000 + 0x20 * s
/-- DMA STALL_NS, 06_dma_pages.md R259. -/
def Reg.STALL_NS (s : Nat) : Nat := 0x73004 + 0x20 * s
/-- DMA WALK_PAGES, 06_dma_pages.md R259. -/
def Reg.WALK_PAGES (s : Nat) : Nat := 0x73008 + 0x20 * s
/-- DMA WALK_SKIP, 06_dma_pages.md R259. -/
def Reg.WALK_SKIP (s : Nat) : Nat := 0x7300C + 0x20 * s
/-- DMA CANCELS, 06_dma_pages.md R259. -/
def Reg.DMA_CANCELS (s : Nat) : Nat := 0x73010 + 0x20 * s
/-- DMA ABORTS, 06_dma_pages.md R259. -/
def Reg.ABORTS (s : Nat) : Nat := 0x73014 + 0x20 * s
/-- RUL RUL_CAP, 08_experts.md R335. -/
def Reg.RUL_CAP : Nat := 0x60000
/-- RUL VSEL, 08_experts.md R335. -/
def Reg.VSEL : Nat := 0x60004
/-- RUL VSEL_STAT, 08_experts.md R335. -/
def Reg.VSEL_STAT : Nat := 0x60008
/-- RUL RCFG, 08_experts.md R337. -/
def Reg.RCFG (s : Nat) : Nat := 0x61000 + 0x40 * s
/-- RUL PLC_LO, 08_experts.md R337. -/
def Reg.PLC_LO (s : Nat) : Nat := 0x61004 + 0x40 * s
/-- RUL PLC_HI, 08_experts.md R337. -/
def Reg.PLC_HI (s : Nat) : Nat := 0x61008 + 0x40 * s
/-- RUL MSTEP, 08_experts.md R337. -/
def Reg.MSTEP (s : Nat) : Nat := 0x6100C + 0x40 * s
/-- RUL TSTEP, 08_experts.md R337. -/
def Reg.TSTEP (s : Nat) : Nat := 0x61010 + 0x40 * s
/-- RUL DISPATCHED, 08_experts.md R337. -/
def Reg.DISPATCHED (s : Nat) : Nat := 0x61014 + 0x40 * s
/-- RUL DROPS, 08_experts.md R337. -/
def Reg.DROPS (s : Nat) : Nat := 0x61018 + 0x40 * s
/-- RUL POOL_ADM, 08_experts.md R337. -/
def Reg.POOL_ADM (s : Nat) : Nat := 0x6101C + 0x40 * s
/-- RUL POOL_REJ, 08_experts.md R337. -/
def Reg.POOL_REJ (s : Nat) : Nat := 0x61020 + 0x40 * s
/-- RUL VTIMEOUT, 08_experts.md R337. -/
def Reg.VTIMEOUT (s : Nat) : Nat := 0x61024 + 0x40 * s
/-- RUL VLATE, 08_experts.md R337. -/
def Reg.VLATE (s : Nat) : Nat := 0x61028 + 0x40 * s
/-- RUL STALE, 08_experts.md R337. -/
def Reg.STALE (s : Nat) : Nat := 0x6102C + 0x40 * s
/-- RUL SCOREFLT, 08_experts.md R337. -/
def Reg.SCOREFLT (s : Nat) : Nat := 0x61030 + 0x40 * s
/-- ROL ROL_CAP, 09_serving.md R392. -/
def Reg.ROL_CAP : Nat := 0x50000
/-- ROL RCQ_BASE_LO, 09_serving.md R392. -/
def Reg.RCQ_BASE_LO : Nat := 0x50004
/-- ROL RCQ_BASE_HI, 09_serving.md R392. -/
def Reg.RCQ_BASE_HI : Nat := 0x50008
/-- ROL RCQ_CONS, 09_serving.md R392. -/
def Reg.RCQ_CONS : Nat := 0x5000C
/-- ROL CMD_REJ, 09_serving.md R392. -/
def Reg.CMD_REJ : Nat := 0x50010
/-- ROL JCFG, 09_serving.md R393. -/
def Reg.JCFG (j : Nat) : Nat := 0x51000 + 0x40 * j
/-- ROL SBASE, 09_serving.md R393. -/
def Reg.SBASE (j : Nat) : Nat := 0x51004 + 0x40 * j
/-- ROL SCOUNT, 09_serving.md R393. -/
def Reg.SCOUNT (j : Nat) : Nat := 0x51008 + 0x40 * j
/-- ROL JREC_LO, 09_serving.md R393. -/
def Reg.JREC_LO (j : Nat) : Nat := 0x5100C + 0x40 * j
/-- ROL JREC_HI, 09_serving.md R393. -/
def Reg.JREC_HI (j : Nat) : Nat := 0x51010 + 0x40 * j
/-- ROL STEP_LO, 09_serving.md R393. -/
def Reg.STEP_LO (j : Nat) : Nat := 0x51014 + 0x40 * j
/-- ROL STEP_HI, 09_serving.md R393. -/
def Reg.STEP_HI (j : Nat) : Nat := 0x51018 + 0x40 * j
/-- ROL ACTIVE, 09_serving.md R393. -/
def Reg.ACTIVE (j : Nat) : Nat := 0x5101C + 0x40 * j
/-- ROL COMMITS, 09_serving.md R393. -/
def Reg.COMMITS (j : Nat) : Nat := 0x51020 + 0x40 * j
/-- ROL ADMITS, 09_serving.md R393. -/
def Reg.ADMITS (j : Nat) : Nat := 0x51024 + 0x40 * j
/-- ROL CANCELS, 09_serving.md R393. -/
def Reg.ROL_CANCELS (j : Nat) : Nat := 0x51028 + 0x40 * j
/-- ROL LATECAN, 09_serving.md R393. -/
def Reg.LATECAN (j : Nat) : Nat := 0x5102C + 0x40 * j
/-- ROL FAILS, 09_serving.md R393. -/
def Reg.FAILS (j : Nat) : Nat := 0x51030 + 0x40 * j
/-- ROL EGSTALL, 09_serving.md R393. -/
def Reg.EGSTALL (j : Nat) : Nat := 0x51034 + 0x40 * j
/-- ROL DEFER, 09_serving.md R393. -/
def Reg.DEFER (j : Nat) : Nat := 0x51038 + 0x40 * j
/-- SHT SCTL, 10_sheets.md R431. -/
def Reg.SCTL (s : Nat) : Nat := 0x40000 + 0x80 * s
/-- SHT SCMD, 10_sheets.md R431. -/
def Reg.SCMD (s : Nat) : Nat := 0x40004 + 0x80 * s
/-- SHT SCMD_STAT, 10_sheets.md R431. -/
def Reg.SCMD_STAT (s : Nat) : Nat := 0x40008 + 0x80 * s
/-- SHT QMASK_LO, 10_sheets.md R431. -/
def Reg.QMASK_LO (s : Nat) : Nat := 0x4000C + 0x80 * s
/-- SHT QMASK_HI, 10_sheets.md R431. -/
def Reg.QMASK_HI (s : Nat) : Nat := 0x40010 + 0x80 * s
/-- SHT OWNER, 10_sheets.md R431. -/
def Reg.OWNER (s : Nat) : Nat := 0x40014 + 0x80 * s
/-- SHT SEED_LO, 10_sheets.md R431. -/
def Reg.SEED_LO (s : Nat) : Nat := 0x40018 + 0x80 * s
/-- SHT SEED_HI, 10_sheets.md R431. -/
def Reg.SEED_HI (s : Nat) : Nat := 0x4001C + 0x80 * s
/-- SHT SCB_LO, 10_sheets.md R431. -/
def Reg.SCB_LO (s : Nat) : Nat := 0x40020 + 0x80 * s
/-- SHT SCB_HI, 10_sheets.md R431. -/
def Reg.SCB_HI (s : Nat) : Nat := 0x40024 + 0x80 * s
/-- SHT QUANTUM, 10_sheets.md R431. -/
def Reg.QUANTUM (s : Nat) : Nat := 0x40028 + 0x80 * s
/-- SHT YIELD, 10_sheets.md R431. -/
def Reg.YIELD (s : Nat) : Nat := 0x4002C + 0x80 * s
/-- SHT BUSY, 10_sheets.md R431. -/
def Reg.BUSY (s : Nat) : Nat := 0x40030 + 0x80 * s
/-- SHT ENERGY_LO, 10_sheets.md R431. -/
def Reg.ENERGY_LO (s : Nat) : Nat := 0x40034 + 0x80 * s
/-- SHT ENERGY_HI, 10_sheets.md R431. -/
def Reg.ENERGY_HI (s : Nat) : Nat := 0x40038 + 0x80 * s
/-- SHT SWITCHES, 10_sheets.md R431. -/
def Reg.SWITCHES (s : Nat) : Nat := 0x4003C + 0x80 * s
/-- SHT STALE_LOADS, 10_sheets.md R431. -/
def Reg.STALE_LOADS (s : Nat) : Nat := 0x40040 + 0x80 * s
/-- SHT FAULTS, 10_sheets.md R431. -/
def Reg.FAULTS (s : Nat) : Nat := 0x40044 + 0x80 * s
/-- SHT CCFG, 10_sheets.md R432. -/
def Reg.CCFG (s c : Nat) : Nat := 0x41000 + 0x100 * s + 0x20 * c
/-- SHT CSTAT, 10_sheets.md R432. -/
def Reg.CSTAT (s c : Nat) : Nat := 0x41004 + 0x100 * s + 0x20 * c
/-- SHT CCMD, 10_sheets.md R432. -/
def Reg.CCMD (s c : Nat) : Nat := 0x41008 + 0x100 * s + 0x20 * c
/-- SHT RUNTIME, 10_sheets.md R432. -/
def Reg.RUNTIME (s c : Nat) : Nat := 0x4100C + 0x100 * s + 0x20 * c
/-- SHT CENERGY_LO, 10_sheets.md R432. -/
def Reg.CENERGY_LO (s c : Nat) : Nat := 0x41010 + 0x100 * s + 0x20 * c
/-- SHT CENERGY_HI, 10_sheets.md R432. -/
def Reg.CENERGY_HI (s c : Nat) : Nat := 0x41014 + 0x100 * s + 0x20 * c
/-- SHT PREEMPTS, 10_sheets.md R432. -/
def Reg.PREEMPTS (s c : Nat) : Nat := 0x41018 + 0x100 * s + 0x20 * c
/-- SHT SHT_CAP, 10_sheets.md R433. -/
def Reg.SHT_CAP : Nat := 0x43000
/-- SHT EVICT_CTL, 10_sheets.md R433. -/
def Reg.EVICT_CTL : Nat := 0x43004
/-- SHT T1FREE, 10_sheets.md R433. -/
def Reg.T1FREE : Nat := 0x43008
/-- SHT EVICTED, 10_sheets.md R433. -/
def Reg.EVICTED : Nat := 0x4300C
/-- SHT UNATTR_LO, 10_sheets.md R433. -/
def Reg.UNATTR_LO : Nat := 0x43010
/-- SHT UNATTR_HI, 10_sheets.md R433. -/
def Reg.UNATTR_HI : Nat := 0x43014
/-- FAB FOPS_CAP, 11_fabric_ops.md R481. -/
def Reg.FOPS_CAP : Nat := 0x90000
/-- FAB WTAB_LO, 11_fabric_ops.md R481. -/
def Reg.WTAB_LO : Nat := 0x90004
/-- FAB WTAB_HI, 11_fabric_ops.md R481. -/
def Reg.WTAB_HI : Nat := 0x90008
/-- FAB WCMD, 11_fabric_ops.md R481. -/
def Reg.WCMD : Nat := 0x9000C
/-- FAB WCMD_STAT, 11_fabric_ops.md R481. -/
def Reg.WCMD_STAT : Nat := 0x90010
/-- FAB GATHER_CTL, 11_fabric_ops.md R481. -/
def Reg.GATHER_CTL : Nat := 0x90014
/-- FAB TLOST_CTL, 11_fabric_ops.md R481. -/
def Reg.TLOST_CTL : Nat := 0x90018
/-- FAB QIMP_LO, 11_fabric_ops.md R481. -/
def Reg.QIMP_LO : Nat := 0x9001C
/-- FAB QIMP_HI, 11_fabric_ops.md R481. -/
def Reg.QIMP_HI : Nat := 0x90020
/-- FAB QF_ISSUED, 11_fabric_ops.md R481. -/
def Reg.QF_ISSUED : Nat := 0x90024
/-- FAB QF_DONE, 11_fabric_ops.md R481. -/
def Reg.QF_DONE : Nat := 0x90028
/-- FAB QF_FAILED, 11_fabric_ops.md R481. -/
def Reg.QF_FAILED : Nat := 0x9002C
/-- FAB BQ_BASE_LO, 11_fabric_ops.md R481. -/
def Reg.BQ_BASE_LO : Nat := 0x90030
/-- FAB BQ_BASE_HI, 11_fabric_ops.md R481. -/
def Reg.BQ_BASE_HI : Nat := 0x90034
/-- FAB BQ_CONS, 11_fabric_ops.md R481. -/
def Reg.BQ_CONS : Nat := 0x90038
/-- FAB GATHERED, 11_fabric_ops.md R481. -/
def Reg.GATHERED : Nat := 0x9003C
/-- FAB BULKW_SENT, 11_fabric_ops.md R481. -/
def Reg.BULKW_SENT : Nat := 0x90040
/-- FAB BULKR_SENT, 11_fabric_ops.md R481. -/
def Reg.BULKR_SENT : Nat := 0x90044
/-- FAB SINGLES, 11_fabric_ops.md R481. -/
def Reg.SINGLES : Nat := 0x90048
/-- FAB INFAIL, 11_fabric_ops.md R481. -/
def Reg.INFAIL : Nat := 0x9004C
/-- FAB LOSTS, 11_fabric_ops.md R481. -/
def Reg.LOSTS : Nat := 0x90050
/-- FAB LATE_REPLY, 11_fabric_ops.md R481. -/
def Reg.LATE_REPLY : Nat := 0x90054
/-- FAB FLAGS_HELD, 11_fabric_ops.md R481. -/
def Reg.FLAGS_HELD : Nat := 0x90058
/-- FAB REACH, 11_fabric_ops.md R481. -/
def Reg.REACH : Nat := 0x9005C
/-- FAB QW_PEND_LO, 11_fabric_ops.md R481. -/
def Reg.QW_PEND_LO : Nat := 0x90060
/-- FAB QW_PEND_HI, 11_fabric_ops.md R481. -/
def Reg.QW_PEND_HI : Nat := 0x90064
/-- FAB QW_ADDR_LO, 11_fabric_ops.md R481. -/
def Reg.QW_ADDR_LO (n : Nat) : Nat := 0x90080 + 0x8 * n
/-- FAB QW_ADDR_HI, 11_fabric_ops.md R481. -/
def Reg.QW_ADDR_HI (n : Nat) : Nat := 0x90084 + 0x8 * n
/-- FAB IMPT_LO, 11_fabric_ops.md R481. -/
def Reg.IMPT_LO (s : Nat) : Nat := 0x90400 + 0x10 * s
/-- FAB IMPT_HI, 11_fabric_ops.md R481. -/
def Reg.IMPT_HI (s : Nat) : Nat := 0x90404 + 0x10 * s
/-- FAB LINK_CAP, 12_fabric_links.md R524. -/
def Reg.LINK_CAP : Nat := 0x91000
/-- FAB E2E_CTL, 12_fabric_links.md R524. -/
def Reg.E2E_CTL : Nat := 0x91004
/-- FAB RTAB_LO, 12_fabric_links.md R524. -/
def Reg.RTAB_LO : Nat := 0x91008
/-- FAB RTAB_HI, 12_fabric_links.md R524. -/
def Reg.RTAB_HI : Nat := 0x9100C
/-- FAB RTCTL, 12_fabric_links.md R524. -/
def Reg.RTCTL : Nat := 0x91010
/-- FAB RESENDS, 12_fabric_links.md R524. -/
def Reg.RESENDS : Nat := 0x91014
/-- FAB DUPS, 12_fabric_links.md R524. -/
def Reg.DUPS : Nat := 0x91018
/-- FAB DUPREPLY, 12_fabric_links.md R524. -/
def Reg.DUPREPLY : Nat := 0x9101C
/-- FAB HDR_ERR, 12_fabric_links.md R524. -/
def Reg.HDR_ERR : Nat := 0x91020
/-- FAB PAY_ERR, 12_fabric_links.md R524. -/
def Reg.PAY_ERR : Nat := 0x91024
/-- FAB BADVER, 12_fabric_links.md R524. -/
def Reg.BADVER : Nat := 0x91028
/-- FAB REFUSED, 12_fabric_links.md R524. -/
def Reg.REFUSED : Nat := 0x9102C
/-- FAB HELD, 12_fabric_links.md R524. -/
def Reg.HELD : Nat := 0x91030
/-- FAB PEER_OLD, 12_fabric_links.md R524. -/
def Reg.PEER_OLD (i : Nat) : Nat := 0x91040 + 0x4 * i
/-- FAB PORT_STAT, 12_fabric_links.md R525. -/
def Reg.PORT_STAT (p : Nat) : Nat := 0x92000 + 0x40 * p
/-- FAB PORT_CTL, 12_fabric_links.md R525. -/
def Reg.PORT_CTL (p : Nat) : Nat := 0x92004 + 0x40 * p
/-- FAB LANE_FAIL, 12_fabric_links.md R525. -/
def Reg.LANE_FAIL (p : Nat) : Nat := 0x92008 + 0x40 * p
/-- FAB CRC_ERR, 12_fabric_links.md R525. -/
def Reg.CRC_ERR (p : Nat) : Nat := 0x9200C + 0x40 * p
/-- FAB REPLAYS, 12_fabric_links.md R525. -/
def Reg.REPLAYS (p : Nat) : Nat := 0x92010 + 0x40 * p
/-- FAB WIDTH_CHG, 12_fabric_links.md R525. -/
def Reg.WIDTH_CHG (p : Nat) : Nat := 0x92014 + 0x40 * p
/-- FAB BORROWS, 12_fabric_links.md R525. -/
def Reg.BORROWS (p : Nat) : Nat := 0x92018 + 0x40 * p
/-- FAB FLITS_TX, 12_fabric_links.md R525. -/
def Reg.FLITS_TX (p : Nat) : Nat := 0x9201C + 0x40 * p
/-- FAB FLITS_RX, 12_fabric_links.md R525. -/
def Reg.FLITS_RX (p : Nat) : Nat := 0x92020 + 0x40 * p
/-- FAB TRANSIT, 12_fabric_links.md R525. -/
def Reg.TRANSIT (p : Nat) : Nat := 0x92024 + 0x40 * p
/-- FAB TOPO_STAT, 13_topology_failover.md R573. -/
def Reg.TOPO_STAT : Nat := 0x93000
/-- FAB PLANE_MAP, 13_topology_failover.md R573. -/
def Reg.PLANE_MAP : Nat := 0x93004
/-- FAB TOPO_CFG, 13_topology_failover.md R573. -/
def Reg.TOPO_CFG : Nat := 0x93008
/-- FAB BUDDY, 13_topology_failover.md R573. -/
def Reg.BUDDY : Nat := 0x9300C
/-- FAB MIRR_CTL, 13_topology_failover.md R573. -/
def Reg.MIRR_CTL : Nat := 0x93010
/-- FAB MIRR_WL_LO, 13_topology_failover.md R573. -/
def Reg.MIRR_WL_LO : Nat := 0x93014
/-- FAB MIRR_WL_HI, 13_topology_failover.md R573. -/
def Reg.MIRR_WL_HI : Nat := 0x93018
/-- FAB EPT_LO, 13_topology_failover.md R573. -/
def Reg.EPT_LO : Nat := 0x9301C
/-- FAB EPT_HI, 13_topology_failover.md R573. -/
def Reg.EPT_HI : Nat := 0x93020
/-- FAB MIRR_PAGES, 13_topology_failover.md R573. -/
def Reg.MIRR_PAGES : Nat := 0x93024
/-- FAB MIRR_MISS, 13_topology_failover.md R573. -/
def Reg.MIRR_MISS : Nat := 0x93028
/-- FAB MIRR_ERR, 13_topology_failover.md R573. -/
def Reg.MIRR_ERR : Nat := 0x9302C
/-- FAB MTAB_LO, 13_topology_failover.md R573. -/
def Reg.MTAB_LO (s : Nat) : Nat := 0x93040 + 0x8 * s
/-- FAB MTAB_HI, 13_topology_failover.md R573. -/
def Reg.MTAB_HI (s : Nat) : Nat := 0x93044 + 0x8 * s
/-- FAB IDM, 13_topology_failover.md R574. -/
def Reg.IDM (p : Nat) : Nat := 0x93400 + 0x40 * p
/-- FAB FAR_SER_LO, 13_topology_failover.md R574. -/
def Reg.FAR_SER_LO (p : Nat) : Nat := 0x93404 + 0x40 * p
/-- FAB FAR_SER_HI, 13_topology_failover.md R574. -/
def Reg.FAR_SER_HI (p : Nat) : Nat := 0x93408 + 0x40 * p
/-- FAB CBL_STAT, 13_topology_failover.md R574. -/
def Reg.CBL_STAT (p : Nat) : Nat := 0x9340C + 0x40 * p
/-- FAB CBL_MATES, 13_topology_failover.md R574. -/
def Reg.CBL_MATES (p : Nat) : Nat := 0x93410 + 0x40 * p
/-- FAB CBL_HOURS, 13_topology_failover.md R574. -/
def Reg.CBL_HOURS (p : Nat) : Nat := 0x93414 + 0x40 * p
/-- FAB CBL_SER_LO, 13_topology_failover.md R574. -/
def Reg.CBL_SER_LO (p : Nat) : Nat := 0x93418 + 0x40 * p
/-- FAB CBL_SER_HI, 13_topology_failover.md R574. -/
def Reg.CBL_SER_HI (p : Nat) : Nat := 0x9341C + 0x40 * p
/-- PWR PWR_STAT, 14_power.md R614. -/
def Reg.PWR_STAT : Nat := 0x20000
/-- PWR MCAP, 14_power.md R614. -/
def Reg.MCAP : Nat := 0x20004
/-- PWR GRANT, 14_power.md R614. -/
def Reg.GRANT : Nat := 0x20008
/-- PWR RACKG, 14_power.md R614. -/
def Reg.RACKG : Nat := 0x2000C
/-- PWR RCAP_NEXT, 14_power.md R614. -/
def Reg.RCAP_NEXT : Nat := 0x20010
/-- PWR RCAP_EPOCH, 14_power.md R614. -/
def Reg.RCAP_EPOCH : Nat := 0x20014
/-- PWR RCAP_CUR, 14_power.md R614. -/
def Reg.RCAP_CUR : Nat := 0x20018
/-- PWR BL_CFG, 14_power.md R614. -/
def Reg.BL_CFG : Nat := 0x2001C
/-- PWR BL_MISS, 14_power.md R614. -/
def Reg.BL_MISS : Nat := 0x20020
/-- PWR BL_FORCED, 14_power.md R614. -/
def Reg.BL_FORCED : Nat := 0x20024
/-- PWR PTAB_LO, 14_power.md R614. -/
def Reg.PTAB_LO : Nat := 0x20028
/-- PWR PTAB_HI, 14_power.md R614. -/
def Reg.PTAB_HI : Nat := 0x2002C
/-- PWR PTCTL, 14_power.md R614. -/
def Reg.PTCTL : Nat := 0x20030
/-- PWR HOLDUP, 14_power.md R614. -/
def Reg.HOLDUP : Nat := 0x20034
/-- PWR INPUT_W, 14_power.md R614. -/
def Reg.INPUT_W : Nat := 0x20038
/-- PWR CLAMPS, 14_power.md R614. -/
def Reg.CLAMPS (r : Nat) : Nat := 0x20040 + 0x4 * r
/-- PWR RAILE_LO, 14_power.md R614. -/
def Reg.RAILE_LO (r : Nat) : Nat := 0x20080 + 0x8 * r
/-- PWR RAILE_HI, 14_power.md R614. -/
def Reg.RAILE_HI (r : Nat) : Nat := 0x20084 + 0x8 * r
/-- PWR TOTAL_E_LO, 14_power.md R614. -/
def Reg.TOTAL_E_LO : Nat := 0x200C0
/-- PWR TOTAL_E_HI, 14_power.md R614. -/
def Reg.TOTAL_E_HI : Nat := 0x200C4
/-- PWR INPUT_E_LO, 14_power.md R614. -/
def Reg.INPUT_E_LO : Nat := 0x200C8
/-- PWR INPUT_E_HI, 14_power.md R614. -/
def Reg.INPUT_E_HI : Nat := 0x200CC
/-- MON QTEMP, 14_power.md R615. -/
def Reg.QTEMP (q : Nat) : Nat := 0x30000 + 0x10 * q
/-- MON QRO, 14_power.md R615. -/
def Reg.QRO (q : Nat) : Nat := 0x30004 + 0x10 * q
/-- MON QDROOP, 14_power.md R615. -/
def Reg.QDROOP (q : Nat) : Nat := 0x30008 + 0x10 * q
/-- MON QPT, 14_power.md R615. -/
def Reg.QPT (q : Nat) : Nat := 0x3000C + 0x10 * q
/-- MON STEMP, 14_power.md R615. -/
def Reg.STEMP (g : Nat) : Nat := 0x30800 + 0x4 * g
/-- MON RAILV, 14_power.md R615. -/
def Reg.RAILV (r : Nat) : Nat := 0x30880 + 0x4 * r
/-- MON RAILI, 14_power.md R615. -/
def Reg.RAILI (r : Nat) : Nat := 0x308C0 + 0x4 * r
/-- MON THERM_CFG, 14_power.md R615. -/
def Reg.THERM_CFG : Nat := 0x30900
/-- MON DROOP_CFG, 14_power.md R615. -/
def Reg.DROOP_CFG : Nat := 0x30904
/-- MON MON_EVT, 14_power.md R615. -/
def Reg.MON_EVT : Nat := 0x30908
/-- TIM TIM_STAT, 15_clocks_time.md R633. -/
def Reg.TIM_STAT : Nat := 0xA0000
/-- TIM RT_LO, 15_clocks_time.md R633. -/
def Reg.RT_LO : Nat := 0xA0004
/-- TIM RT_HI, 15_clocks_time.md R633. -/
def Reg.RT_HI : Nat := 0xA0008
/-- TIM RT_FRAC, 15_clocks_time.md R633. -/
def Reg.RT_FRAC : Nat := 0xA000C
/-- TIM EPOCH, 15_clocks_time.md R633. -/
def Reg.EPOCH : Nat := 0xA0010
/-- TIM OFFSET, 15_clocks_time.md R633. -/
def Reg.OFFSET : Nat := 0xA0014
/-- TIM DELAY, 15_clocks_time.md R633. -/
def Reg.DELAY : Nat := 0xA0018
/-- TIM RATE, 15_clocks_time.md R633. -/
def Reg.RATE : Nat := 0xA001C
/-- TIM MCFG, 15_clocks_time.md R633. -/
def Reg.MCFG : Nat := 0xA0020
/-- TIM SYNCS, 15_clocks_time.md R633. -/
def Reg.SYNCS : Nat := 0xA0024
/-- TIM TFAULTS, 15_clocks_time.md R633. -/
def Reg.TFAULTS : Nat := 0xA0028
/-- TIM MSWITCH, 15_clocks_time.md R633. -/
def Reg.MSWITCH : Nat := 0xA002C
/-- CFG CFG_STAT, 16_startup_config.md R667. -/
def Reg.CFG_STAT : Nat := 0x10000
/-- CFG COLO_SEQ_LO, 16_startup_config.md R667. -/
def Reg.COLO_SEQ_LO : Nat := 0x10004
/-- CFG COLO_SEQ_HI, 16_startup_config.md R667. -/
def Reg.COLO_SEQ_HI : Nat := 0x10008
/-- CFG COLO_VER, 16_startup_config.md R667. -/
def Reg.COLO_VER : Nat := 0x1000C
/-- CFG START_STAT, 16_startup_config.md R667. -/
def Reg.START_STAT : Nat := 0x10010
/-- CFG CSET_LO, 16_startup_config.md R667. -/
def Reg.CSET_LO : Nat := 0x10014
/-- CFG CSET_HI, 16_startup_config.md R667. -/
def Reg.CSET_HI : Nat := 0x10018
/-- CFG CSCTL, 16_startup_config.md R667. -/
def Reg.CSCTL : Nat := 0x1001C
/-- CFG CS_TEPOCH, 16_startup_config.md R667. -/
def Reg.CS_TEPOCH : Nat := 0x10020
/-- CFG CT_SKIP, 16_startup_config.md R667. -/
def Reg.CT_SKIP : Nat := 0x10024
/-- CFG RECIPE_TURN, 16_startup_config.md R667. -/
def Reg.RECIPE_TURN : Nat := 0x10028
/-- CFG RECIPE_SIDE, 16_startup_config.md R667. -/
def Reg.RECIPE_SIDE : Nat := 0x1002C
/-- CFG RST_CMD, 16_startup_config.md R667. -/
def Reg.RST_CMD : Nat := 0x10030
/-- CFG STCMD, 16_startup_config.md R667. -/
def Reg.STCMD : Nat := 0x10040
/-- CFG STREC_LO, 16_startup_config.md R667. -/
def Reg.STREC_LO : Nat := 0x10044
/-- CFG STREC_HI, 16_startup_config.md R667. -/
def Reg.STREC_HI : Nat := 0x10048
/-- CFG STSTAT, 16_startup_config.md R667. -/
def Reg.STSTAT : Nat := 0x1004C
/-- CFG CALCTL, 16_startup_config.md R667. -/
def Reg.CALCTL : Nat := 0x10050
/-- CFG CAL_LANE, 16_startup_config.md R667. -/
def Reg.CAL_LANE : Nat := 0x10054
/-- CFG CAL_QUIRE, 16_startup_config.md R667. -/
def Reg.CAL_QUIRE : Nat := 0x10058
/-- CFG CAL_MEM, 16_startup_config.md R667. -/
def Reg.CAL_MEM : Nat := 0x1005C
/-- CFG CAL_FAIL, 16_startup_config.md R667. -/
def Reg.CAL_FAIL : Nat := 0x10060
/-- SEC SEC_STAT, 17_firmware_security.md R695. -/
def Reg.SEC_STAT : Nat := 0xB0000
/-- SEC UPD_SRC_LO, 17_firmware_security.md R695. -/
def Reg.UPD_SRC_LO : Nat := 0xB0004
/-- SEC UPD_SRC_HI, 17_firmware_security.md R695. -/
def Reg.UPD_SRC_HI : Nat := 0xB0008
/-- SEC UPD_LEN, 17_firmware_security.md R695. -/
def Reg.UPD_LEN : Nat := 0xB000C
/-- SEC UPD_REC_LO, 17_firmware_security.md R695. -/
def Reg.UPD_REC_LO : Nat := 0xB0010
/-- SEC UPD_REC_HI, 17_firmware_security.md R695. -/
def Reg.UPD_REC_HI : Nat := 0xB0014
/-- SEC UPD_CMD, 17_firmware_security.md R695. -/
def Reg.UPD_CMD : Nat := 0xB0018
/-- SEC UPD_STAT, 17_firmware_security.md R695. -/
def Reg.UPD_STAT : Nat := 0xB001C
/-- SEC UPD_REFUSED, 17_firmware_security.md R695. -/
def Reg.UPD_REFUSED : Nat := 0xB0020
/-- SEC RUN_VER, 17_firmware_security.md R695. -/
def Reg.RUN_VER (k : Nat) : Nat := 0xB0040 + 0x8 * k
/-- SEC RUN_INFO, 17_firmware_security.md R695. -/
def Reg.RUN_INFO (k : Nat) : Nat := 0xB0044 + 0x8 * k
/-- SEC LOCK_CMD, 17_firmware_security.md R695. -/
def Reg.LOCK_CMD : Nat := 0xB0080
/-- SEC LOCK_TOK_LO, 17_firmware_security.md R695. -/
def Reg.LOCK_TOK_LO : Nat := 0xB0084
/-- SEC LOCK_TOK_HI, 17_firmware_security.md R695. -/
def Reg.LOCK_TOK_HI : Nat := 0xB0088
/-- SEC NONCE, 17_firmware_security.md R695. -/
def Reg.NONCE (i : Nat) : Nat := 0xB0090 + 0x4 * i
/-- SEC ATT_CMD, 17_firmware_security.md R695. -/
def Reg.ATT_CMD : Nat := 0xB00A0
/-- SEC ATT_BUF_LO, 17_firmware_security.md R695. -/
def Reg.ATT_BUF_LO : Nat := 0xB00A4
/-- SEC ATT_BUF_HI, 17_firmware_security.md R695. -/
def Reg.ATT_BUF_HI : Nat := 0xB00A8
/-- SEC ATT_STAT, 17_firmware_security.md R695. -/
def Reg.ATT_STAT : Nat := 0xB00AC
/-- PWR SB_STAT, 18_module_interfaces.md R719. -/
def Reg.SB_STAT : Nat := 0x20100
/-- PWR VIN_STAT, 18_module_interfaces.md R719. -/
def Reg.VIN_STAT : Nat := 0x20104
/-- FAB LFEC_CORR, 18_module_interfaces.md R720. -/
def Reg.LFEC_CORR (p : Nat) : Nat := 0x92800 + 0x40 * p
/-- FAB LFEC_UNC, 18_module_interfaces.md R720. -/
def Reg.LFEC_UNC (p : Nat) : Nat := 0x92804 + 0x40 * p
/-- FAB LFEC_WORST, 18_module_interfaces.md R720. -/
def Reg.LFEC_WORST (p : Nat) : Nat := 0x92808 + 0x40 * p
/-- IDB IDENT, 19_registers.md R729. -/
def Reg.IDENT : Nat := 0x0
/-- IDB SERIAL_LO, 19_registers.md R729. -/
def Reg.SERIAL_LO : Nat := 0x4
/-- IDB SERIAL_HI, 19_registers.md R729. -/
def Reg.SERIAL_HI : Nat := 0x8
/-- IDB POSITION, 19_registers.md R729. -/
def Reg.POSITION : Nat := 0xC
/-- IDB QUIRES, 19_registers.md R729. -/
def Reg.QUIRES : Nat := 0x10
/-- IDB FUSE, 19_registers.md R729. -/
def Reg.FUSE (d : Nat) : Nat := 0x14 + 0x4 * d
/-- IDB GSTAT, 19_registers.md R729. -/
def Reg.GSTAT : Nat := 0x24
/-- IDB MAC_MGMT_LO, 19_registers.md R729. -/
def Reg.MAC_MGMT_LO : Nat := 0x28
/-- IDB MAC_MGMT_HI, 19_registers.md R729. -/
def Reg.MAC_MGMT_HI : Nat := 0x2C
/-- IDB MAC_SVC0_LO, 19_registers.md R729. -/
def Reg.MAC_SVC0_LO : Nat := 0x30
/-- IDB MAC_SVC0_HI, 19_registers.md R729. -/
def Reg.MAC_SVC0_HI : Nat := 0x34
/-- IDB MAC_SVC1_LO, 19_registers.md R729. -/
def Reg.MAC_SVC1_LO : Nat := 0x38
/-- IDB MAC_SVC1_HI, 19_registers.md R729. -/
def Reg.MAC_SVC1_HI : Nat := 0x3C
/-- IDB ACC_MGMT, 19_registers.md R729. -/
def Reg.ACC_MGMT : Nat := 0x40
/-- IDB ACC_FAB, 19_registers.md R729. -/
def Reg.ACC_FAB : Nat := 0x44
/-- IDB PXY_DATA, 19_registers.md R729. -/
def Reg.PXY_DATA (k : Nat) : Nat := 0x100 + 0x10 * k
/-- IDB PXY_ADDR, 19_registers.md R729. -/
def Reg.PXY_ADDR (k : Nat) : Nat := 0x104 + 0x10 * k
/-- IDB PXY_STAT, 19_registers.md R729. -/
def Reg.PXY_STAT (k : Nat) : Nat := 0x108 + 0x10 * k
/-- ERL ELOG_BASE_LO, 19_registers.md R740. -/
def Reg.ELOG_BASE_LO : Nat := 0xC0000
/-- ERL ELOG_BASE_HI, 19_registers.md R740. -/
def Reg.ELOG_BASE_HI : Nat := 0xC0004
/-- ERL ELOG_CFG, 19_registers.md R740. -/
def Reg.ELOG_CFG : Nat := 0xC0008
/-- ERL EPROD, 19_registers.md R740. -/
def Reg.EPROD : Nat := 0xC000C
/-- ERL ECONS, 19_registers.md R740. -/
def Reg.ECONS : Nat := 0xC0010
/-- ERL ESEQ, 19_registers.md R740. -/
def Reg.ESEQ : Nat := 0xC0014
/-- ERL EHELD, 19_registers.md R740. -/
def Reg.EHELD : Nat := 0xC0018
/-- ERL ELOST, 19_registers.md R740. -/
def Reg.ELOST : Nat := 0xC001C
/-- ERL ESTAT, 19_registers.md R740. -/
def Reg.ESTAT : Nat := 0xC0020
/-- ERL FLOG_HEAD, 19_registers.md R740. -/
def Reg.FLOG_HEAD : Nat := 0xC0024
/-- ERL HPOP, 19_registers.md R740. -/
def Reg.HPOP : Nat := 0xC0028
/-- ERL HBUF, 19_registers.md R740. -/
def Reg.HBUF (i w : Nat) : Nat := 0xC1000 + 0x40 * i + 0x4 * w

/-- Registers of block IDB. -/
def regsIdb : List RegDesc := [
  ⟨0x0, [], [⟨31, 16, .ro, 19542⟩, ⟨15, 8, .ro, 0⟩, ⟨7, 0, .ro, 0⟩]⟩,
  ⟨0x4, [], [⟨31, 0, .ro, 0⟩]⟩,
  ⟨0x8, [], [⟨31, 0, .ro, 0⟩]⟩,
  ⟨0xC, [], [⟨16, 16, .ro, 0⟩, ⟨15, 0, .ro, 0⟩]⟩,
  ⟨0x10, [], [⟨15, 8, .ro, 0⟩, ⟨7, 0, .ro, 0⟩]⟩,
  ⟨0x14, [(0x4, 4)], [⟨16, 0, .ro, 0⟩]⟩,
  ⟨0x24, [], [⟨31, 31, .ro, 0⟩, ⟨30, 30, .ro, 0⟩, ⟨29, 28, .ro, 0⟩, ⟨19, 16, .ro, 0⟩, ⟨15, 12, .ro, 0⟩, ⟨2, 0, .ro, 0⟩]⟩,
  ⟨0x28, [], [⟨31, 0, .ro, 0⟩]⟩,
  ⟨0x2C, [], [⟨15, 0, .ro, 0⟩]⟩,
  ⟨0x30, [], [⟨31, 0, .ro, 0⟩]⟩,
  ⟨0x34, [], [⟨15, 0, .ro, 0⟩]⟩,
  ⟨0x38, [], [⟨31, 0, .ro, 0⟩]⟩,
  ⟨0x3C, [], [⟨15, 0, .ro, 0⟩]⟩,
  ⟨0x40, [], [⟨12, 0, .rw, 0⟩]⟩,
  ⟨0x44, [], [⟨12, 0, .rw, 0⟩]⟩,
  ⟨0x100, [(0x10, 4)], [⟨31, 0, .rw, 0⟩]⟩,
  ⟨0x104, [(0x10, 4)], [⟨31, 30, .wo, 0⟩, ⟨29, 29, .wo, 0⟩, ⟨19, 0, .wo, 0⟩]⟩,
  ⟨0x108, [(0x10, 4)], [⟨1, 0, .ro, 0⟩]⟩]

/-- Registers of block CFG. -/
def regsCfg : List RegDesc := [
  ⟨0x10000, [], [⟨2, 2, .ro, 0⟩, ⟨1, 1, .ro, 0⟩, ⟨0, 0, .ro, 0⟩]⟩,
  ⟨0x10004, [], [⟨31, 0, .ro, 0⟩]⟩,
  ⟨0x10008, [], [⟨31, 0, .ro, 0⟩]⟩,
  ⟨0x1000C, [], [⟨7, 0, .ro, 0⟩]⟩,
  ⟨0x10010, [], [⟨7, 4, .ro, 0⟩, ⟨3, 0, .ro, 0⟩]⟩,
  ⟨0x10014, [], [⟨31, 20, .rw, 0⟩]⟩,
  ⟨0x10018, [], [⟨15, 0, .rw, 0⟩]⟩,
  ⟨0x1001C, [], [⟨31, 31, .w1s, 0⟩, ⟨30, 30, .ro, 0⟩, ⟨29, 28, .ro, 0⟩]⟩,
  ⟨0x10020, [], [⟨31, 0, .rw, 0⟩]⟩,
  ⟨0x10024, [], [⟨31, 0, .rc, 0⟩]⟩,
  ⟨0x10028, [], [⟨15, 0, .w1s, 0⟩]⟩,
  ⟨0x1002C, [], [⟨15, 0, .ro, 0⟩]⟩,
  ⟨0x10030, [], [⟨31, 24, .wo, 0⟩, ⟨1, 0, .wo, 0⟩]⟩,
  ⟨0x10040, [], [⟨31, 28, .wo, 0⟩, ⟨27, 24, .wo, 0⟩, ⟨23, 20, .wo, 0⟩, ⟨19, 19, .wo, 0⟩]⟩,
  ⟨0x10044, [], [⟨31, 6, .rw, 0⟩]⟩,
  ⟨0x10048, [], [⟨15, 0, .rw, 0⟩]⟩,
  ⟨0x1004C, [], [⟨1, 0, .ro, 0⟩]⟩,
  ⟨0x10050, [], [⟨31, 31, .rw, 1⟩, ⟨30, 30, .rw, 1⟩, ⟨29, 29, .rw, 1⟩, ⟨28, 28, .rw, 1⟩, ⟨9, 0, .rw, 10⟩]⟩,
  ⟨0x10054, [], [⟨31, 0, .ro, 0⟩]⟩,
  ⟨0x10058, [], [⟨31, 0, .ro, 0⟩]⟩,
  ⟨0x1005C, [], [⟨31, 0, .ro, 0⟩]⟩,
  ⟨0x10060, [], [⟨31, 0, .rc, 0⟩]⟩]

/-- Registers of block PWR. -/
def regsPwr : List RegDesc := [
  ⟨0x20000, [], [⟨29, 29, .ro, 0⟩, ⟨28, 28, .ro, 0⟩, ⟨27, 27, .ro, 0⟩, ⟨26, 26, .ro, 0⟩, ⟨25, 25, .ro, 0⟩, ⟨11, 0, .ro, 600⟩]⟩,
  ⟨0x20004, [], [⟨11, 0, .rw, 0⟩]⟩,
  ⟨0x20008, [], [⟨11, 0, .ro, 600⟩]⟩,
  ⟨0x2000C, [], [⟨17, 0, .ro, 0⟩]⟩,
  ⟨0x20010, [], [⟨17, 0, .rw, 0⟩]⟩,
  ⟨0x20014, [], [⟨31, 0, .rw, 0⟩]⟩,
  ⟨0x20018, [], [⟨17, 0, .ro, 0⟩]⟩,
  ⟨0x2001C, [], [⟨31, 31, .rw, 0⟩, ⟨30, 30, .rw, 0⟩, ⟨29, 29, .rw, 1⟩, ⟨13, 0, .rw, 0⟩]⟩,
  ⟨0x20020, [], [⟨31, 0, .rc, 0⟩]⟩,
  ⟨0x20024, [], [⟨31, 0, .rc, 0⟩]⟩,
  ⟨0x20028, [], [⟨31, 20, .rw, 0⟩]⟩,
  ⟨0x2002C, [], [⟨15, 0, .rw, 0⟩]⟩,
  ⟨0x20030, [], [⟨31, 31, .w1s, 0⟩, ⟨30, 30, .ro, 0⟩, ⟨29, 29, .ro, 0⟩, ⟨28, 28, .rw, 1⟩, ⟨25, 10, .rw, 640⟩, ⟨9, 0, .rw, 100⟩]⟩,
  ⟨0x20034, [], [⟨31, 31, .ro, 0⟩, ⟨30, 30, .ro, 0⟩, ⟨15, 0, .ro, 0⟩]⟩,
  ⟨0x20038, [], [⟨11, 0, .ro, 0⟩]⟩,
  ⟨0x20040, [(0x4, 8)], [⟨31, 0, .rc, 0⟩]⟩,
  ⟨0x20080, [(0x8, 8)], [⟨31, 0, .ro, 0⟩]⟩,
  ⟨0x20084, [(0x8, 8)], [⟨31, 0, .ro, 0⟩]⟩,
  ⟨0x200C0, [], [⟨31, 0, .ro, 0⟩]⟩,
  ⟨0x200C4, [], [⟨31, 0, .ro, 0⟩]⟩,
  ⟨0x200C8, [], [⟨31, 0, .ro, 0⟩]⟩,
  ⟨0x200CC, [], [⟨31, 0, .ro, 0⟩]⟩,
  ⟨0x20100, [], [⟨31, 31, .ro, 0⟩, ⟨30, 30, .ro, 0⟩, ⟨29, 29, .ro, 0⟩, ⟨28, 28, .ro, 0⟩, ⟨27, 24, .ro, 0⟩, ⟨23, 23, .ro, 0⟩, ⟨22, 22, .ro, 0⟩, ⟨12, 0, .ro, 0⟩]⟩,
  ⟨0x20104, [], [⟨31, 31, .ro, 0⟩, ⟨30, 30, .ro, 0⟩, ⟨15, 0, .ro, 0⟩]⟩]

/-- Registers of block MON. -/
def regsMon : List RegDesc := [
  ⟨0x37000, [(0x4, 16)], [⟨10, 0, .rw, 0⟩]⟩,
  ⟨0x37040, [], [⟨15, 0, .w1c, 0⟩]⟩,
  ⟨0x38000, [(0x800, 16), (0x8, 256)], [⟨31, 0, .ro, 0⟩]⟩,
  ⟨0x38004, [(0x800, 16), (0x8, 256)], [⟨31, 0, .ro, 0⟩]⟩,
  ⟨0x30000, [(0x10, 64)], [⟨15, 0, .ro, 0⟩]⟩,
  ⟨0x30004, [(0x10, 64)], [⟨31, 0, .ro, 0⟩]⟩,
  ⟨0x30008, [(0x10, 64)], [⟨31, 0, .rc, 0⟩]⟩,
  ⟨0x3000C, [(0x10, 64)], [⟨23, 16, .ro, 0⟩, ⟨15, 8, .ro, 0⟩, ⟨7, 0, .ro, 0⟩]⟩,
  ⟨0x30800, [(0x4, 16)], [⟨15, 0, .ro, 0⟩]⟩,
  ⟨0x30880, [(0x4, 8)], [⟨31, 16, .ro, 0⟩, ⟨15, 0, .ro, 0⟩]⟩,
  ⟨0x308C0, [(0x4, 8)], [⟨31, 16, .ro, 0⟩, ⟨15, 0, .ro, 0⟩]⟩,
  ⟨0x30900, [], [⟨31, 24, .rw, 95⟩, ⟨23, 16, .rw, 85⟩, ⟨15, 8, .ro, 105⟩, ⟨7, 0, .ro, 115⟩]⟩,
  ⟨0x30904, [], [⟨25, 16, .rw, 64⟩, ⟨15, 8, .rw, 32⟩, ⟨7, 0, .rw, 0⟩]⟩,
  ⟨0x30908, [], [⟨4, 0, .w1c, 0⟩]⟩]

/-- Registers of block SHT, part 0. -/
def regsSht0 : List RegDesc := [
  ⟨0x4C000, [(0x20, 64)], [⟨23, 20, .ro, 0⟩, ⟨15, 8, .ro, 0⟩, ⟨2, 0, .ro, 0⟩]⟩,
  ⟨0x4C004, [(0x20, 64)], [⟨31, 0, .rc, 0⟩]⟩,
  ⟨0x4C008, [(0x20, 64)], [⟨31, 0, .ro, 0⟩]⟩,
  ⟨0x4C00C, [(0x20, 64)], [⟨31, 0, .rc, 0⟩]⟩,
  ⟨0x4C010, [(0x20, 64)], [⟨15, 0, .ro, 0⟩]⟩,
  ⟨0x40000, [(0x80, 16)], [⟨10, 8, .ro, 0⟩, ⟨5, 5, .rw, 0⟩, ⟨4, 4, .rw, 0⟩, ⟨3, 3, .rw, 0⟩, ⟨2, 0, .ro, 0⟩]⟩,
  ⟨0x40004, [(0x80, 16)], [⟨3, 0, .wo, 0⟩]⟩,
  ⟨0x40008, [(0x80, 16)], [⟨1, 0, .ro, 0⟩]⟩,
  ⟨0x4000C, [(0x80, 16)], [⟨31, 0, .rw, 0⟩]⟩,
  ⟨0x40010, [(0x80, 16)], [⟨31, 0, .rw, 0⟩]⟩,
  ⟨0x40014, [(0x80, 16)], [⟨15, 0, .rw, 0⟩]⟩,
  ⟨0x40018, [(0x80, 16)], [⟨31, 0, .rw, 0⟩]⟩,
  ⟨0x4001C, [(0x80, 16)], [⟨31, 0, .rw, 0⟩]⟩,
  ⟨0x40020, [(0x80, 16)], [⟨31, 16, .rw, 0⟩]⟩,
  ⟨0x40024, [(0x80, 16)], [⟨15, 0, .rw, 0⟩]⟩,
  ⟨0x40028, [(0x80, 16)], [⟨13, 0, .rw, 200⟩]⟩,
  ⟨0x4002C, [(0x80, 16)], [⟨15, 0, .rw, 2000⟩]⟩,
  ⟨0x40030, [(0x80, 16)], [⟨13, 0, .ro, 0⟩]⟩,
  ⟨0x40034, [(0x80, 16)], [⟨31, 0, .ro, 0⟩]⟩,
  ⟨0x40038, [(0x80, 16)], [⟨31, 0, .ro, 0⟩]⟩,
  ⟨0x4003C, [(0x80, 16)], [⟨31, 0, .ro, 0⟩]⟩,
  ⟨0x40040, [(0x80, 16)], [⟨31, 0, .rc, 0⟩]⟩,
  ⟨0x40044, [(0x80, 16)], [⟨31, 0, .rc, 0⟩]⟩,
  ⟨0x41000, [(0x100, 16), (0x20, 8)], [⟨31, 31, .ro, 0⟩, ⟨9, 9, .rw, 0⟩, ⟨8, 5, .rw, 0⟩, ⟨4, 4, .rw, 0⟩, ⟨2, 0, .rw, 0⟩]⟩,
  ⟨0x41004, [(0x100, 16), (0x20, 8)], [⟨15, 8, .ro, 0⟩, ⟨2, 0, .ro, 0⟩]⟩]
/-- Registers of block SHT, part 1. -/
def regsSht1 : List RegDesc := [
  ⟨0x41008, [(0x100, 16), (0x20, 8)], [⟨3, 0, .wo, 0⟩]⟩,
  ⟨0x4100C, [(0x100, 16), (0x20, 8)], [⟨31, 0, .ro, 0⟩]⟩,
  ⟨0x41010, [(0x100, 16), (0x20, 8)], [⟨31, 0, .ro, 0⟩]⟩,
  ⟨0x41014, [(0x100, 16), (0x20, 8)], [⟨31, 0, .ro, 0⟩]⟩,
  ⟨0x41018, [(0x100, 16), (0x20, 8)], [⟨31, 0, .ro, 0⟩]⟩,
  ⟨0x43000, [], [⟨15, 8, .ro, 64⟩, ⟨7, 0, .ro, 16⟩]⟩,
  ⟨0x43004, [], [⟨20, 0, .rw, 0⟩]⟩,
  ⟨0x43008, [], [⟨20, 0, .ro, 1409024⟩]⟩,
  ⟨0x4300C, [], [⟨31, 0, .ro, 0⟩]⟩,
  ⟨0x43010, [], [⟨31, 0, .ro, 0⟩]⟩,
  ⟨0x43014, [], [⟨31, 0, .ro, 0⟩]⟩]

/-- Registers of block ROL. -/
def regsRol : List RegDesc := [
  ⟨0x50000, [], [⟨31, 0, .ro, 262144⟩]⟩,
  ⟨0x50004, [], [⟨31, 6, .rw, 0⟩]⟩,
  ⟨0x50008, [], [⟨15, 0, .rw, 0⟩]⟩,
  ⟨0x5000C, [], [⟨31, 0, .ro, 0⟩]⟩,
  ⟨0x50010, [], [⟨31, 0, .rc, 0⟩]⟩,
  ⟨0x51000, [(0x40, 16)], [⟨31, 31, .rw, 0⟩, ⟨30, 30, .rw, 0⟩, ⟨29, 29, .rw, 0⟩, ⟨28, 28, .w1s, 0⟩, ⟨27, 27, .ro, 0⟩, ⟨23, 20, .rw, 0⟩]⟩,
  ⟨0x51004, [(0x40, 16)], [⟨17, 0, .rw, 0⟩]⟩,
  ⟨0x51008, [(0x40, 16)], [⟨18, 0, .rw, 0⟩]⟩,
  ⟨0x5100C, [(0x40, 16)], [⟨31, 6, .rw, 0⟩]⟩,
  ⟨0x51010, [(0x40, 16)], [⟨15, 0, .rw, 0⟩]⟩,
  ⟨0x51014, [(0x40, 16)], [⟨31, 0, .rw, 0⟩]⟩,
  ⟨0x51018, [(0x40, 16)], [⟨31, 0, .rw, 0⟩]⟩,
  ⟨0x5101C, [(0x40, 16)], [⟨31, 31, .ro, 0⟩, ⟨12, 0, .ro, 0⟩]⟩,
  ⟨0x51020, [(0x40, 16)], [⟨31, 0, .ro, 0⟩]⟩,
  ⟨0x51024, [(0x40, 16)], [⟨31, 0, .ro, 0⟩]⟩,
  ⟨0x51028, [(0x40, 16)], [⟨31, 0, .ro, 0⟩]⟩,
  ⟨0x5102C, [(0x40, 16)], [⟨31, 0, .rc, 0⟩]⟩,
  ⟨0x51030, [(0x40, 16)], [⟨31, 0, .rc, 0⟩]⟩,
  ⟨0x51034, [(0x40, 16)], [⟨31, 0, .rc, 0⟩]⟩,
  ⟨0x51038, [(0x40, 16)], [⟨31, 0, .rc, 0⟩]⟩]

/-- Registers of block RUL. -/
def regsRul : List RegDesc := [
  ⟨0x60000, [], [⟨31, 16, .ro, 32768⟩, ⟨15, 0, .ro, 1024⟩]⟩,
  ⟨0x60004, [], [⟨31, 20, .wo, 0⟩, ⟨19, 16, .wo, 0⟩, ⟨15, 8, .wo, 0⟩, ⟨4, 0, .wo, 0⟩]⟩,
  ⟨0x60008, [], [⟨1, 0, .ro, 0⟩]⟩,
  ⟨0x61000, [(0x40, 16)], [⟨31, 31, .rw, 0⟩, ⟨30, 30, .w1s, 0⟩, ⟨29, 29, .ro, 0⟩, ⟨28, 28, .w1s, 0⟩, ⟨5, 4, .rw, 1⟩, ⟨3, 3, .rw, 0⟩, ⟨1, 0, .ro, 1⟩]⟩,
  ⟨0x61004, [(0x40, 16)], [⟨31, 6, .rw, 0⟩]⟩,
  ⟨0x61008, [(0x40, 16)], [⟨15, 0, .rw, 0⟩]⟩,
  ⟨0x6100C, [(0x40, 16)], [⟨31, 0, .rw, 0⟩]⟩,
  ⟨0x61010, [(0x40, 16)], [⟨31, 0, .rw, 0⟩]⟩,
  ⟨0x61014, [(0x40, 16)], [⟨31, 0, .ro, 0⟩]⟩,
  ⟨0x61018, [(0x40, 16)], [⟨31, 0, .rc, 0⟩]⟩,
  ⟨0x6101C, [(0x40, 16)], [⟨31, 0, .ro, 0⟩]⟩,
  ⟨0x61020, [(0x40, 16)], [⟨31, 0, .rc, 0⟩]⟩,
  ⟨0x61024, [(0x40, 16)], [⟨31, 0, .rc, 0⟩]⟩,
  ⟨0x61028, [(0x40, 16)], [⟨31, 0, .rc, 0⟩]⟩,
  ⟨0x6102C, [(0x40, 16)], [⟨31, 0, .rc, 0⟩]⟩,
  ⟨0x61030, [(0x40, 16)], [⟨31, 0, .rc, 0⟩]⟩]

/-- Registers of block DMA. -/
def regsDma : List RegDesc := [
  ⟨0x70000, [], [⟨15, 8, .ro, 128⟩, ⟨7, 0, .ro, 32⟩]⟩,
  ⟨0x71000, [(0x20, 128)], [⟨31, 6, .rw, 0⟩]⟩,
  ⟨0x71004, [(0x20, 128)], [⟨31, 31, .rw, 0⟩, ⟨15, 0, .rw, 0⟩]⟩,
  ⟨0x71008, [(0x20, 128)], [⟨31, 31, .rw, 0⟩, ⟨27, 24, .rw, 0⟩, ⟨23, 21, .rw, 0⟩, ⟨20, 20, .ro, 0⟩, ⟨19, 18, .rw, 0⟩, ⟨17, 16, .rw, 0⟩, ⟨3, 0, .rw, 0⟩]⟩,
  ⟨0x7100C, [(0x20, 128)], [⟨31, 0, .ro, 0⟩]⟩,
  ⟨0x71010, [(0x20, 128)], [⟨6, 0, .ro, 0⟩]⟩,
  ⟨0x71014, [(0x20, 128)], [⟨31, 0, .ro, 0⟩]⟩,
  ⟨0x73000, [(0x20, 16)], [⟨31, 0, .rc, 0⟩]⟩,
  ⟨0x73004, [(0x20, 16)], [⟨31, 0, .rc, 0⟩]⟩,
  ⟨0x73008, [(0x20, 16)], [⟨31, 0, .ro, 0⟩]⟩,
  ⟨0x7300C, [(0x20, 16)], [⟨31, 0, .rc, 0⟩]⟩,
  ⟨0x73010, [(0x20, 16)], [⟨31, 0, .ro, 0⟩]⟩,
  ⟨0x73014, [(0x20, 16)], [⟨31, 0, .rc, 0⟩]⟩]

/-- Registers of block MEM. -/
def regsMem : List RegDesc := [
  ⟨0x80000, [], [⟨31, 0, .ro, 40448⟩]⟩,
  ⟨0x80004, [], [⟨31, 0, .ro, 1409024⟩]⟩,
  ⟨0x80008, [], [⟨31, 0, .ro, 0⟩]⟩,
  ⟨0x8000C, [], [⟨31, 0, .rw, 0⟩]⟩,
  ⟨0x80010, [], [⟨31, 6, .rw, 0⟩]⟩,
  ⟨0x80014, [], [⟨15, 0, .rw, 0⟩]⟩,
  ⟨0x80018, [], [⟨31, 0, .ro, 0⟩]⟩,
  ⟨0x8001C, [], [⟨6, 0, .ro, 0⟩]⟩,
  ⟨0x80020, [], [⟨31, 0, .rc, 0⟩]⟩,
  ⟨0x80024, [], [⟨31, 0, .rc, 0⟩]⟩,
  ⟨0x80028, [], [⟨31, 0, .ro, 0⟩]⟩,
  ⟨0x8002C, [], [⟨15, 0, .ro, 0⟩]⟩,
  ⟨0x80030, [], [⟨31, 31, .w1c, 0⟩, ⟨30, 28, .ro, 0⟩, ⟨25, 16, .ro, 0⟩, ⟨3, 0, .ro, 0⟩]⟩,
  ⟨0x80034, [], [⟨0, 0, .rw, 1⟩]⟩,
  ⟨0x81000, [(0x40, 16)], [⟨31, 0, .rw, 0⟩]⟩,
  ⟨0x81004, [(0x40, 16)], [⟨31, 0, .rw, 0⟩]⟩,
  ⟨0x81008, [(0x40, 16)], [⟨25, 0, .rw, 0⟩]⟩,
  ⟨0x8100C, [(0x40, 16)], [⟨26, 0, .rw, 0⟩]⟩,
  ⟨0x81010, [(0x40, 16)], [⟨20, 0, .rw, 0⟩]⟩,
  ⟨0x81014, [(0x40, 16)], [⟨25, 0, .rw, 0⟩]⟩,
  ⟨0x81018, [(0x40, 16)], [⟨15, 0, .ro, 0⟩]⟩,
  ⟨0x8101C, [(0x40, 16)], [⟨20, 0, .ro, 0⟩]⟩,
  ⟨0x81020, [(0x40, 16)], [⟨25, 0, .ro, 0⟩]⟩,
  ⟨0x81024, [(0x40, 16)], [⟨20, 0, .ro, 0⟩]⟩,
  ⟨0x81028, [(0x40, 16)], [⟨20, 0, .rw, 0⟩]⟩]

/-- Registers of block FAB, part 0. -/
def regsFab0 : List RegDesc := [
  ⟨0x90000, [], [⟨31, 16, .ro, 4096⟩, ⟨15, 0, .ro, 4096⟩]⟩,
  ⟨0x90004, [], [⟨31, 6, .rw, 0⟩]⟩,
  ⟨0x90008, [], [⟨15, 0, .rw, 0⟩]⟩,
  ⟨0x9000C, [], [⟨31, 28, .wo, 0⟩, ⟨11, 0, .wo, 0⟩]⟩,
  ⟨0x90010, [], [⟨31, 31, .ro, 0⟩, ⟨1, 0, .ro, 0⟩]⟩,
  ⟨0x90014, [], [⟨31, 31, .rw, 1⟩, ⟨11, 0, .rw, 2000⟩]⟩,
  ⟨0x90018, [], [⟨9, 0, .rw, 0⟩]⟩,
  ⟨0x9001C, [], [⟨31, 16, .rw, 0⟩]⟩,
  ⟨0x90020, [], [⟨15, 0, .rw, 0⟩]⟩,
  ⟨0x90024, [], [⟨31, 0, .ro, 0⟩]⟩,
  ⟨0x90028, [], [⟨31, 0, .ro, 0⟩]⟩,
  ⟨0x9002C, [], [⟨31, 0, .rc, 0⟩]⟩,
  ⟨0x90030, [], [⟨31, 6, .rw, 0⟩]⟩,
  ⟨0x90034, [], [⟨15, 0, .rw, 0⟩]⟩,
  ⟨0x90038, [], [⟨31, 0, .ro, 0⟩]⟩,
  ⟨0x9003C, [], [⟨31, 0, .ro, 0⟩]⟩,
  ⟨0x90040, [], [⟨31, 0, .ro, 0⟩]⟩,
  ⟨0x90044, [], [⟨31, 0, .ro, 0⟩]⟩,
  ⟨0x90048, [], [⟨31, 0, .rc, 0⟩]⟩,
  ⟨0x9004C, [], [⟨31, 0, .rc, 0⟩]⟩,
  ⟨0x90050, [], [⟨31, 0, .rc, 0⟩]⟩,
  ⟨0x90054, [], [⟨31, 0, .rc, 0⟩]⟩,
  ⟨0x90058, [], [⟨10, 0, .ro, 0⟩]⟩,
  ⟨0x9005C, [], [⟨31, 30, .wo, 0⟩, ⟨15, 0, .wo, 0⟩]⟩,
  ⟨0x90060, [], [⟨31, 0, .w1c, 0⟩]⟩]
/-- Registers of block FAB, part 1. -/
def regsFab1 : List RegDesc := [
  ⟨0x90064, [], [⟨31, 0, .w1c, 0⟩]⟩,
  ⟨0x90080, [(0x8, 64)], [⟨31, 6, .rw, 0⟩, ⟨0, 0, .rw, 0⟩]⟩,
  ⟨0x90084, [(0x8, 64)], [⟨31, 31, .rw, 0⟩, ⟨15, 0, .rw, 0⟩]⟩,
  ⟨0x90400, [(0x10, 16)], [⟨31, 16, .rw, 0⟩]⟩,
  ⟨0x90404, [(0x10, 16)], [⟨15, 0, .rw, 0⟩]⟩,
  ⟨0x91000, [], [⟨31, 24, .ro, 1⟩, ⟨23, 16, .ro, 1⟩, ⟨15, 8, .ro, 1⟩, ⟨7, 0, .ro, 1⟩]⟩,
  ⟨0x91004, [], [⟨6, 0, .rw, 16⟩]⟩,
  ⟨0x91008, [], [⟨31, 12, .rw, 0⟩]⟩,
  ⟨0x9100C, [], [⟨15, 0, .rw, 0⟩]⟩,
  ⟨0x91010, [], [⟨31, 31, .w1s, 0⟩, ⟨30, 30, .ro, 0⟩]⟩,
  ⟨0x91014, [], [⟨31, 0, .rc, 0⟩]⟩,
  ⟨0x91018, [], [⟨31, 0, .rc, 0⟩]⟩,
  ⟨0x9101C, [], [⟨31, 0, .rc, 0⟩]⟩,
  ⟨0x91020, [], [⟨31, 0, .rc, 0⟩]⟩,
  ⟨0x91024, [], [⟨31, 0, .rc, 0⟩]⟩,
  ⟨0x91028, [], [⟨31, 0, .rc, 0⟩]⟩,
  ⟨0x9102C, [], [⟨31, 0, .rc, 0⟩]⟩,
  ⟨0x91030, [], [⟨10, 0, .ro, 0⟩]⟩,
  ⟨0x91040, [(0x4, 8)], [⟨31, 0, .rw, 0⟩]⟩,
  ⟨0x92000, [(0x40, 10)], [⟨23, 16, .ro, 0⟩, ⟨15, 12, .ro, 0⟩, ⟨11, 8, .ro, 0⟩, ⟨2, 0, .ro, 0⟩]⟩,
  ⟨0x92004, [(0x40, 10)], [⟨0, 0, .rw, 0⟩]⟩,
  ⟨0x92008, [(0x40, 10)], [⟨7, 0, .ro, 0⟩]⟩,
  ⟨0x9200C, [(0x40, 10)], [⟨31, 0, .rc, 0⟩]⟩,
  ⟨0x92010, [(0x40, 10)], [⟨31, 0, .rc, 0⟩]⟩,
  ⟨0x92014, [(0x40, 10)], [⟨31, 0, .rc, 0⟩]⟩]
/-- Registers of block FAB, part 2. -/
def regsFab2 : List RegDesc := [
  ⟨0x92018, [(0x40, 10)], [⟨31, 0, .ro, 0⟩]⟩,
  ⟨0x9201C, [(0x40, 10)], [⟨31, 0, .ro, 0⟩]⟩,
  ⟨0x92020, [(0x40, 10)], [⟨31, 0, .ro, 0⟩]⟩,
  ⟨0x92024, [(0x40, 10)], [⟨31, 0, .ro, 0⟩]⟩,
  ⟨0x93000, [], [⟨23, 20, .ro, 0⟩, ⟨2, 0, .ro, 0⟩]⟩,
  ⟨0x93004, [], [⟨31, 0, .ro, 1985229328⟩]⟩,
  ⟨0x93008, [], [⟨1, 1, .ro, 0⟩, ⟨0, 0, .rw, 0⟩]⟩,
  ⟨0x9300C, [], [⟨16, 16, .rw, 0⟩, ⟨15, 0, .rw, 0⟩]⟩,
  ⟨0x93010, [], [⟨31, 31, .rw, 0⟩, ⟨30, 30, .w1s, 0⟩, ⟨29, 28, .ro, 0⟩, ⟨11, 0, .rw, 0⟩]⟩,
  ⟨0x93014, [], [⟨31, 8, .rw, 0⟩]⟩,
  ⟨0x93018, [], [⟨15, 0, .rw, 0⟩]⟩,
  ⟨0x9301C, [], [⟨31, 6, .rw, 0⟩]⟩,
  ⟨0x93020, [], [⟨15, 0, .rw, 0⟩]⟩,
  ⟨0x93024, [], [⟨31, 0, .ro, 0⟩]⟩,
  ⟨0x93028, [], [⟨31, 0, .rc, 0⟩]⟩,
  ⟨0x9302C, [], [⟨31, 0, .rc, 0⟩]⟩,
  ⟨0x93040, [(0x8, 16)], [⟨31, 6, .rw, 0⟩, ⟨0, 0, .rw, 0⟩]⟩,
  ⟨0x93044, [(0x8, 16)], [⟨15, 0, .rw, 0⟩]⟩,
  ⟨0x93400, [(0x40, 10)], [⟨31, 28, .ro, 0⟩, ⟨23, 16, .ro, 0⟩, ⟨15, 0, .ro, 0⟩]⟩,
  ⟨0x93404, [(0x40, 10)], [⟨31, 0, .ro, 0⟩]⟩,
  ⟨0x93408, [(0x40, 10)], [⟨31, 0, .ro, 0⟩]⟩,
  ⟨0x9340C, [(0x40, 10)], [⟨17, 16, .ro, 0⟩, ⟨9, 0, .ro, 0⟩]⟩,
  ⟨0x93410, [(0x40, 10)], [⟨31, 0, .ro, 0⟩]⟩,
  ⟨0x93414, [(0x40, 10)], [⟨31, 0, .ro, 0⟩]⟩,
  ⟨0x93418, [(0x40, 10)], [⟨31, 0, .ro, 0⟩]⟩]
/-- Registers of block FAB, part 3. -/
def regsFab3 : List RegDesc := [
  ⟨0x9341C, [(0x40, 10)], [⟨31, 0, .ro, 0⟩]⟩,
  ⟨0x92800, [(0x40, 10)], [⟨31, 0, .rc, 0⟩]⟩,
  ⟨0x92804, [(0x40, 10)], [⟨31, 0, .rc, 0⟩]⟩,
  ⟨0x92808, [(0x40, 10)], [⟨18, 16, .ro, 0⟩, ⟨15, 0, .ro, 0⟩]⟩]

/-- Registers of block TIM. -/
def regsTim : List RegDesc := [
  ⟨0xA0000, [], [⟨31, 31, .ro, 0⟩, ⟨30, 30, .ro, 0⟩, ⟨29, 29, .ro, 0⟩, ⟨28, 28, .ro, 0⟩, ⟨27, 26, .ro, 0⟩, ⟨23, 16, .ro, 0⟩, ⟨15, 0, .ro, 0⟩]⟩,
  ⟨0xA0004, [], [⟨31, 0, .ro, 0⟩]⟩,
  ⟨0xA0008, [], [⟨31, 0, .ro, 0⟩]⟩,
  ⟨0xA000C, [], [⟨31, 16, .ro, 0⟩]⟩,
  ⟨0xA0010, [], [⟨31, 0, .ro, 0⟩]⟩,
  ⟨0xA0014, [], [⟨31, 0, .ro, 0⟩]⟩,
  ⟨0xA0018, [], [⟨31, 0, .ro, 0⟩]⟩,
  ⟨0xA001C, [], [⟨31, 0, .ro, 0⟩]⟩,
  ⟨0xA0020, [], [⟨31, 16, .ro, 0⟩, ⟨15, 0, .ro, 0⟩]⟩,
  ⟨0xA0024, [], [⟨31, 0, .ro, 0⟩]⟩,
  ⟨0xA0028, [], [⟨31, 0, .rc, 0⟩]⟩,
  ⟨0xA002C, [], [⟨31, 0, .rc, 0⟩]⟩]

/-- Registers of block SEC. -/
def regsSec : List RegDesc := [
  ⟨0xB0000, [], [⟨31, 31, .ro, 0⟩, ⟨30, 30, .ro, 0⟩, ⟨29, 28, .ro, 0⟩, ⟨27, 27, .ro, 0⟩, ⟨26, 26, .ro, 0⟩, ⟨25, 25, .ro, 0⟩, ⟨24, 24, .ro, 0⟩, ⟨23, 23, .ro, 0⟩, ⟨22, 22, .ro, 0⟩, ⟨19, 16, .ro, 0⟩]⟩,
  ⟨0xB0004, [], [⟨31, 6, .rw, 0⟩]⟩,
  ⟨0xB0008, [], [⟨15, 0, .rw, 0⟩]⟩,
  ⟨0xB000C, [], [⟨26, 0, .rw, 0⟩]⟩,
  ⟨0xB0010, [], [⟨31, 6, .rw, 0⟩]⟩,
  ⟨0xB0014, [], [⟨15, 0, .rw, 0⟩]⟩,
  ⟨0xB0018, [], [⟨31, 28, .wo, 0⟩, ⟨23, 16, .wo, 0⟩]⟩,
  ⟨0xB001C, [], [⟨1, 0, .ro, 0⟩]⟩,
  ⟨0xB0020, [], [⟨31, 0, .rc, 0⟩]⟩,
  ⟨0xB0040, [(0x8, 7)], [⟨31, 0, .ro, 0⟩]⟩,
  ⟨0xB0044, [(0x8, 7)], [⟨31, 16, .ro, 0⟩, ⟨15, 8, .ro, 0⟩, ⟨7, 0, .ro, 0⟩]⟩,
  ⟨0xB0080, [], [⟨31, 28, .wo, 0⟩, ⟨23, 16, .wo, 0⟩, ⟨1, 0, .ro, 0⟩]⟩,
  ⟨0xB0084, [], [⟨31, 6, .rw, 0⟩]⟩,
  ⟨0xB0088, [], [⟨15, 0, .rw, 0⟩]⟩,
  ⟨0xB0090, [(0x4, 4)], [⟨31, 0, .ro, 0⟩]⟩,
  ⟨0xB00A0, [], [⟨31, 28, .wo, 0⟩]⟩,
  ⟨0xB00A4, [], [⟨31, 6, .rw, 0⟩]⟩,
  ⟨0xB00A8, [], [⟨15, 0, .rw, 0⟩]⟩,
  ⟨0xB00AC, [], [⟨1, 0, .ro, 0⟩]⟩]

/-- Registers of block ERL. -/
def regsErl : List RegDesc := [
  ⟨0xC0000, [], [⟨31, 6, .rw, 0⟩]⟩,
  ⟨0xC0004, [], [⟨15, 0, .rw, 0⟩]⟩,
  ⟨0xC0008, [], [⟨31, 31, .rw, 0⟩, ⟨3, 0, .rw, 0⟩]⟩,
  ⟨0xC000C, [], [⟨31, 0, .ro, 0⟩]⟩,
  ⟨0xC0010, [], [⟨31, 0, .rw, 0⟩]⟩,
  ⟨0xC0014, [], [⟨31, 0, .ro, 0⟩]⟩,
  ⟨0xC0018, [], [⟨6, 0, .ro, 0⟩]⟩,
  ⟨0xC001C, [], [⟨31, 0, .rc, 0⟩]⟩,
  ⟨0xC0020, [], [⟨31, 31, .w1c, 0⟩, ⟨2, 0, .w1c, 0⟩]⟩,
  ⟨0xC0024, [], [⟨31, 0, .ro, 0⟩]⟩,
  ⟨0xC0028, [], [⟨0, 0, .wo, 0⟩]⟩,
  ⟨0xC1000, [(0x40, 64), (0x4, 16)], [⟨31, 0, .ro, 0⟩]⟩]

/-- The registers of one block (R721). -/
def regsOfBlock (b : Nat) : List RegDesc :=
  match b with
  | 0 => regsIdb
  | 1 => regsCfg
  | 2 => regsPwr
  | 3 => regsMon
  | 4 => regsSht0 ++ regsSht1
  | 5 => regsRol
  | 6 => regsRul
  | 7 => regsDma
  | 8 => regsMem
  | 9 => regsFab0 ++ regsFab1 ++ regsFab2 ++ regsFab3
  | 10 => regsTim
  | 11 => regsSec
  | 12 => regsErl
  | _ => []

/-- Is `d` a multiple of the strides within their counts, the largest stride first? -/
def dimsHit : List (Nat × Nat) → Nat → Bool
  | [], d => d == 0
  | (st, n) :: rest, d => d / st < n && dimsHit rest (d % st)

/-- The register that lies at a control-space offset, if one does (R722). -/
def regAt (off : Nat) : Option RegDesc :=
  (regsOfBlock (off / 0x10000)).find? fun r => r.base ≤ off && dimsHit r.dims (off - r.base)

/-- The word a list of fields holds when each has its numeric reset value. -/
def fieldsReset : List Field → Nat
  | [] => 0
  | f :: rest => f.rst * 2 ^ f.lo + fieldsReset rest

/-- The numeric reset word of the register at an offset; zero where none lies (R722). -/
def regReset (off : Nat) : BitVec 32 :=
  match regAt off with
  | some r => BitVec.ofNat 32 (fieldsReset r.fields)
  | none => 0

end Sys2Proof.Machine
end

