-- ==== Sys2Proof/Machine/State.lean ====
section
/-! DEFINITION. The state of the module as plain data, the reasons a step can stop, and the state after reset.
Every control-space register is one word of `csr` (an offset that is not listed holds its reset word); every store is in
`mem`; the other fields are what the rules give the engines besides. -/

namespace Sys2Proof.Machine

/-- A finite map in ascending key order: the sparse form of every table that is not a byte store. -/
abbrev Map (α : Type) := List (Nat × α)

/-- Why the machine stops.  Nothing of the specification stops the module for good; the one case is the model's own. -/
inductive Fault where
  /-- Raised by every command that carries a packet, a flit, a record or a message whose operand lists do not have the
  lengths their own header gives: no such thing exists on a link.  Safe: the machine stops, it does not go on wrongly. -/
  | malformed
  deriving DecidableEq, Repr

/-- Why a command is refused. -/
inductive Refusal where
  /-- Raised by an arm of exec that has no meaning yet, by name.  Safe. -/
  | notModelled (mnemonic : String)
  deriving DecidableEq, Repr

/-- What manufacture puts into a certificate of the module's chain (17_firmware_security.md R690). -/
structure Cert where
  subject : W64
  notBefore : W64
  notAfter : W64
  pubkey : List Byte
  sig : List Byte
  deriving DecidableEq, Repr

/-- What manufacture fixes and the security engine keeps: fuses, boot ROM contents and owner state (DESIGN CHOICE, log entry 3). -/
structure Chip where
  lv60 : Bool
  stepping : BitVec 8
  serial : W64
  fuses : List Nat
  macs : List Nat
  voff : List Nat
  roBase : List Nat
  carveBase : Nat
  ttBase : Nat
  tbBase : Nat
  ownerDigest : List (Option (List Byte))
  ownerRevoked : List Bool
  lock : Bool
  keyRevoked : List Bool
  floors : List Nat
  dataVer : Nat
  dataCopies : List Nat
  nyfKeys : List (List Byte)
  certs : List Cert
  rom : List Byte
  deriving DecidableEq, Repr

/-- One event record (19_registers.md R732). -/
structure EventRec where
  rtime : Nat
  seq : Nat
  code : Nat
  sev : Nat
  prestep : Bool
  posid : Nat
  count : Nat
  args : List Nat
  deriving DecidableEq, Repr

/-- Suppression state of one event code and A0 (R734): epoch of the last record and occurrences not posted. -/
structure EventGate where
  epoch : Nat
  held : Nat
  deriving DecidableEq, Repr

/-- A scribe's sequencer (03_scribe.md R95, R98, R104; 04_strokes.md R122, R153, R154, R163; 02_formats.md R71).  `capt` is what
a stroke that waits for fabric data read when it started: space, address, length and bytes (R131, R149, 02 R71, 07 R270, R286),
`watchAt` when its watch state began (10 R405). -/
structure ScribeRt where
  pc : Nat
  ret : Nat
  ext0 : Nat
  ext0n : Nat
  ext1 : Nat
  ext1n : Nat
  watch : Option Nat
  atBarrier : Bool
  dropped : List Nat
  stallFrom : Option Nat
  last : W64
  side : Nat
  capt : List (Nat × Nat × Nat × List Byte)
  watchAt : Nat
  deriving DecidableEq, Repr

/-- What the eight scribes of a quire share (R153, R156, R161, R163, R455), with its Ductus state (R586 to R597).  `stepAt` is the word
of its last STEP wait, whose writes it judges (R153), and `calHeld` has a bit per droop detector (16_startup_config.md R661). -/
structure QuireRt where
  preds : BitVec 8
  lastStep : W64
  variantAt : Nat
  entry : Nat
  phase : Nat
  issued : Nat
  acked : Nat
  failed : Nat
  raise_ : Option Nat
  thr : Nat
  dlim : List Nat
  trips : Nat
  stretched : Bool
  testFrom : Option Nat
  calHeld : BitVec 2
  roRef : Nat
  stepAt : Option Nat
  deriving DecidableEq, Repr

/-- A context beside its registers and its record (R405, R410, R456), with the step it started last and that step's recipe
side (02_formats.md R70, R71); `atDrain`: its saved state shows every scribe at its drain point (R418); `stalls`: the scribes saved in
a stall on a READY word, by their place in the save area, and when each began (06_dma_pages.md R245, R259). -/
structure CtxRt where
  begun : Bool
  restored : Bool
  epochNs : Nat
  since : Option Nat
  usRem : Nat
  step : Option Nat
  stepSide : Nat
  atDrain : Bool
  steps : List (Nat × Nat)
  stalls : Map Nat
  returns : List Nat
  deriving DecidableEq, Repr

/-- A sheet beside its registers: the masks its last ASSIGN or RESHAPE applied (R394), its switch in progress (R405),
whether a waking sheet is zero already (05_memory.md R203), when its context was restored (R405), and the granules R426 took from it
in an epoch (R427). -/
structure SheetRt where
  qmask : Nat
  slices : Nat
  cur : Option Nat
  saving : Option Nat
  restoring : Option Nat
  early : Bool
  wakeTo : Nat
  resSince : Nat
  ran : Bool
  busyHist : Nat
  zeroed : Bool
  curAt : Nat
  evicts : Nat × Nat
  deriving DecidableEq, Repr

/-- A running tier command (05_memory.md R184 to R188); `abortBy`: the records of the ABORTs that wait for its granule boundary, and
when each came. -/
structure TierCmd where
  op : Nat
  crec : Nat
  sheet : Nat
  gran : Nat
  count : Nat
  done : Nat
  dtier : Nat
  dany : Bool
  die : Nat
  abortBy : List (Nat × Nat)
  deriving DecidableEq, Repr

/-- A granule move in progress (R189): the source stays in the entry, the destination is reserved. -/
structure Move where
  g : Nat
  sheet : Nat
  dtier : Nat
  dloc : Nat
  cmd : Option Nat
  deriving DecidableEq, Repr

/-- A line that a descriptor writes to an aperture once the one before it is acknowledged (06_dma_pages.md R255): the address it was
read from, where it goes, its bytes, and whether it counts as a delivered line. -/
structure WaitingLine where
  src : Nat
  dst : Nat
  data : List Byte
  counts : Bool
  deriving DecidableEq, Repr

/-- A taken DMA descriptor that is not terminal (06_dma_pages.md R223 to R257): `num` its number in its queue, `total` units of
which `units` and `lines` are done; a walk's selection `sel` (index and page), its NRUB, L and |S|; a gloss's home entry; the
folios a STREAM has published; writes not acknowledged yet; whether its last writes are made; how it ends once they are
acknowledged (outcome, FADDR, ABRQ, data address of the fault); the CANCEL and ABORT descriptors that wait for its record; the first
line whose write failed, with its address; and the lines that wait for an acknowledgement to be written. -/
structure DmaOp where
  qn : Nat
  num : Nat
  desc : Nat
  started : Bool
  engine : Nat
  units : Nat
  lines : Nat
  total : Nat
  sel : List (Nat × Nat)
  nrub : Nat
  lenT : Nat
  selLen : Nat
  entry : Nat
  published : Nat
  owed : Nat
  lastDone : Bool
  ending : Option (Nat × Nat × Nat × Nat)
  waiters : List (Nat × Nat)
  bad : Option (Nat × Nat)
  wbuf : List WaitingLine
  deriving DecidableEq, Repr

/-- One choice of a routed row (08_experts.md R308, R311): state 0 waiting, 1 delivered, 2 dropped. -/
structure Choice where
  expert : Nat
  replica : Nat
  st : Nat
  score : W32
  deriving DecidableEq, Repr

/-- The Ruling unit's source side for one sheet and route in one step of context `ctx` (R311 to R320, R331). -/
structure RulSrc where
  ctx : Nat
  step : Nat
  side : Nat
  quire : Nat
  slots : List (Nat × List Choice)
  used : Map Nat
  sent : Map Nat
  last : Bool
  routed : Bool
  returned : Nat
  deriving DecidableEq, Repr

/-- The Ruling unit's home side for one sheet and route in one step of context `ctx` (R312, R322 to R328); sel: 0 none, 1 pending,
2 written. -/
structure RulHome where
  ctx : Nat
  step : Nat
  side : Nat
  rows : Map Nat
  pool : Map Nat
  closes : Map Nat
  closed : Bool
  sel : Nat
  retRows : Map Nat
  deriving DecidableEq, Repr

/-- Who an acknowledgement or reply is counted to (11_fabric_ops.md R455): kind 0 a quire of a context (a sheet, b context,
c quire, d generation, e scribe, at_ the stroke), 1 a DMA operation (a queue, b number, c 1 for a write, e its line), 2 the Quill
(a issue number), 3 a bulk transfer (a record), 4 a system unit (a unit, b job). -/
structure Issuer where
  kind : Nat
  a : Nat
  b : Nat
  c : Nat
  d : Nat
  e : Nat
  at_ : Nat
  deriving DecidableEq, Repr

/-- An operation this module sent that has no answer yet (12_fabric_links.md R501, R502). -/
structure OutOp where
  pkt : Packet
  write : Bool
  issuers : List Issuer
  apers : List Nat
  path : Nat
  sentAt : Nat
  refused : Bool
  deriving DecidableEq, Repr

/-- Pair sequence state of a position (R498, R501) and its LOST mark (R473); an answer kept for a duplicate holds its STATUS, its IMM and
the granules of an EACH BULKW's (R454). -/
structure Peer where
  next : Nat
  low : Nat
  answered : Map (Nat × Nat × List (List Byte))
  lost : Bool
  deriving DecidableEq, Repr

/-- A line of a stroke's or a descriptor's aperture read that has arrived: issuer, aperture address, status, data. -/
structure Arrived where
  iss : Issuer
  aper : Nat
  status : Nat
  data : List Byte
  deriving DecidableEq, Repr

/-- A window that OPEN made effective (R435, R438). -/
structure WinEnt where
  base : Nat
  len : Nat
  kind : Nat
  sheet : Nat
  perm : Nat
  pmask : Nat
  pmatch : Nat
  deriving DecidableEq, Repr

/-- A gather of the Feed gateway (R462): lines with window, offset, data and the stores' issuers and
aperture addresses. -/
structure Gather where
  dst : Nat
  lines : List (Nat × Nat × List Byte × List (Issuer × Nat))
  since : Nat
  deriving DecidableEq, Repr

/-- A bulk request taken and not terminal (R467 to R470): its local failure, and the ABORTs that wait for its acknowledgement, with
when each came. -/
structure BulkJob where
  req : Nat
  localFail : Nat
  abortBy : List (Nat × Nat)
  deriving DecidableEq, Repr

/-- A flit that is not NULL, kept until a FACK covers it (R483, R487). -/
structure Flit where
  seq : Nat
  vl : Nat
  stream : List Byte
  deriving DecidableEq, Repr

/-- A packet that waits for flits of a virtual lane, with how many of its bytes have left (R489). -/
structure Queued where
  vl : Nat
  pkt : Packet
  off : Nat
  deriving DecidableEq, Repr

/-- A link unit (R483 to R488, R504, R509, R511, R514, R518; 13 R537).  `quiet` counts the flits sent since the last one of forwarded
traffic, `lastT` is the transit lane that had it, `noid` says that the cable's memory did not answer (18 R717), `heard` counts the flits
accepted of each lane, `lap` the flits sent for the turn of CVL, `wire` the flits sent, oldest first, `laneCheck` the check R487 starts,
`retrained` when each lane was last retrained (R509), and `wornAt` when the cable was last reported WORN (13 R542). -/
structure PortRt where
  rxSeq : Nat
  nak : Bool
  txSeq : Nat
  unacked : List Flit
  sendq : List Queued
  replays : Nat
  granted : List Nat
  consumed : List Nat
  stream : List (List Byte)
  borrowed : Option Nat
  proposed : Nat
  farVer : Option Nat
  farHold : Bool
  frame : Option (Nat × Nat × Nat)
  frameKind : Nat
  framePlane : Nat
  frameFlags : Nat
  lastMatch : Nat
  unreach : List Nat
  downAt : Option Nat
  reload : Bool
  workCrc : Nat
  mates : Nat
  hours : Nat
  hoursFrom : Int
  quiet : Nat
  lastT : Nat
  noid : Bool
  heard : List Nat
  lap : Nat
  wire : List (List Byte)
  laneCheck : Bool
  retrained : Map Nat
  wornAt : Int
  deriving DecidableEq, Repr

/-- Rack time (15_clocks_time.md R622 to R632); `rack` counts units of 2^-32 ns. The copies that fabric ports, base dies and islands
keep of it (R623) equal it (DESIGN CHOICE, log entry 179). -/
structure TimeRt where
  rack : Nat
  adj : Int
  rate : Int
  phase : Int
  ticksLeft : Nat
  lastEpoch : Nat
  misses : Nat
  good : Nat
  waiting : Bool
  lostBoth : Bool
  readyOnce : Bool
  deriving DecidableEq, Repr

/-- The decision of R603 that applies at the next epoch (R604). -/
structure Decision where
  g : Nat
  capr : Nat
  grant : Nat
  fill : Bool
  forced : Bool
  deriving DecidableEq, Repr

/-- The Baseline governor (14_power.md R598 to R608): `seen` are the TRAY records of the own tray already forwarded in the epoch (R598),
and `rcapDone` says that the RCAP_NEXT named by RCAP_EPOCH has been copied (R608). -/
structure BaseRt where
  intents : Map (List Byte)
  trays : Map (List Byte)
  conflict : List Nat
  count : Nat
  decision : Option Decision
  incomplete : Bool
  ownMissing : Bool
  done : Bool
  seen : List (List Byte)
  rcapDone : Bool
  deriving DecidableEq, Repr

/-- The Ductus controller and the monitor hub (R583, R590 to R597, R609, R610), whether the next INTENT record carries WANT 600 (R613), and
the mate-detect contacts that have opened and not closed again, by their bit of SB_STAT (17 R675, 18 R719). -/
structure PowerRt where
  clamped : List Nat
  crit : Bool
  alertLatched : Bool
  fx16 : Nat
  lastTurn : Nat
  ductusReload : Bool
  leaving : Bool
  inMV : Nat
  overPool : Bool
  wantLow : Bool
  unmated : List Nat
  deriving DecidableEq, Repr

/-- Start-up progress (16_startup_config.md R646 to R649) and the plan in force (R641, R656). -/
structure StartRt where
  chans : List Nat
  chanTries : Map Nat
  cxlDone : Bool
  images : Bool
  matched : Bool
  linksFrom : Nat
  deadline : Bool
  plan : List Byte
  planDigest : List Byte
  colDigest : List Byte
  regs : List Byte
  update : List Byte
  rkind : Nat
  deriving DecidableEq, Repr

/-- An update in progress (17_firmware_security.md R675 to R682); cmd 1 STAGE, 5 COLOPHON.  It programs `copies` sectors from
one slot into the other, then the sectors of the buffer. -/
structure UpdJob where
  cmd : Nat
  kind : Nat
  src : Nat
  len : Nat
  dest : Nat
  copyFrom : Nat
  copyTo : Nat
  copies : Nat
  total : Nat
  done : Nat
  inplace : Bool
  rec_ : Nat
  deriving DecidableEq, Repr

/-- An active image as attestation measures it (R692, R693). -/
structure Measured where
  src : Nat
  version : Nat
  gen : Nat
  floor : Nat
  dataVer : Nat
  digest : List Byte
  deriving DecidableEq, Repr

/-- The security engine (R672 to R696); `copied`: the inactive slot holds a copy of the active one (R679). -/
structure SecRt where
  upd : Option UpdJob
  active : Map Measured
  pendIn : Map Measured
  linkPending : List Nat
  scribeOld : List Nat
  memDone : List Nat
  copied : Bool
  deriving DecidableEq, Repr

/-- A self-test (R662 to R666). -/
structure SelfTest where
  kind : Nat
  sheet : Nat
  rec_ : Nat
  running : Bool
  start : Nat
  deriving DecidableEq, Repr

/-- A calibration in progress (R658 to R661): kind 0 lane, 1 droop detector, 2 quire sensor, 3 group sensor, 4 channel. -/
structure Calib where
  kind : Nat
  unit : Nat
  sub : Nat
  deriving DecidableEq, Repr

/-- The mirror engine and the endpoint for one job slot (13 R553 to R557, 09 R366, R390): the step mirror that runs, which of them it is,
and its writes not acknowledged OK yet; the slips changed since each copy was written; the batch that runs, its records not acknowledged
yet, those that wait; the last MSEQ acknowledged, and the last written. -/
structure MirrorRt where
  stepRun : Nat
  stepOwed : Nat
  stepOf : Option Nat
  dirty0 : List Nat
  dirty1 : List Nat
  batchOwed : Nat
  batchOf : Option Nat
  acked : Nat
  batchQ : List Nat
  mseq : Nat
  deriving DecidableEq, Repr

/-- What the lead publishes for a request (09_serving.md R385, R388): the prefix length in tokens, the handle, TTL, gloss,
digest, prefix record and list of page numbers. -/
structure Publish where
  len : Nat
  handle : Nat
  ttl : Nat
  gv : Bool
  gloss : Nat
  digest : Nat
  prec : Nat
  list_ : Nat
  deriving DecidableEq, Repr

/-- A request the endpoint serves (09 R386 to R391): its RID, slip and generation, positions sent, prefix outcome (R383); the state
and reason of an end outside a step that is still to be told; the recovery line and the count of dropped rubric indices that an
adopted request is still to be sent (13 R570); what is to be published, and how that went: 0 not asked or not yet, 1 published,
2 an entry stood. -/
structure Request where
  rid : Nat
  slip : Nat
  gen : Nat
  job : Nat
  sent : Nat
  lastPos : Nat
  ended : Bool
  pfx : Nat
  untold : Option (Nat × Nat)
  owed : Option (Nat × Nat)
  pub : Option Publish
  pubRes : Nat
  deriving DecidableEq, Repr

/-- A prefill order (09_serving.md R376): the decode job, slip and GEN, n, the decode prefix length, the prompt's bytes, the gloss
when one is named, DEADLINE. -/
structure PrefillOrder where
  job : Nat
  slip : Nat
  gen : Nat
  n : Nat
  prefix_ : Nat
  prompt : List Byte
  gloss : Option Nat
  deadline : Nat
  deriving DecidableEq, Repr

/-- A slip record a partner lead has loaded (13_topology_failover.md R569): the job slot that adopts it, its index, the slip and its
recovery line, and when it was loaded. -/
structure SlipRecord where
  job : Nat
  idx : Nat
  slip : Nat
  line : Nat
  at_ : Nat
  deriving DecidableEq, Repr

/-- What the endpoint awaits from a Roll command that firmware posts for it: a client's CANCEL, or an ADMIT, with the request to
serve, the count of dropped rubric indices and, without local prefill, the order to send (09_serving.md R369, R375, R376). -/
inductive Wish where
  | cancel
  | enter (r : Request) (dropped : Nat) (order : Option PrefillOrder)
  deriving DecidableEq, Repr

/-- A Roll command that firmware posts for the endpoint: its entry, its place in the ring once it is written there, the job slot, the
client's RID and what the endpoint awaits (09_serving.md R350, R369, R375). -/
structure RollPost where
  at_ : Option Nat
  entry : Nat
  job : Nat
  rid : Nat
  wish : Wish
  deriving DecidableEq, Repr

/-- The whole module. -/
structure State where
  pending : List Instr
  draws : Nat
  powered : Bool
  chip : Chip
  straps : BitVec 13
  strapPins : BitVec 13
  feed : Bool
  csr : Map W32
  latched : Map W32
  mem : List Host.Cell
  upsets : Map (Map Byte)
  failing : List Nat
  badEntries : List Nat
  t2Gran : List Nat
  t2Up : List Bool
  gates : Map EventGate
  heldEvents : List EventRec
  dropCount : Nat
  dropSev : Nat
  quires : Map QuireRt
  scribes : Map ScribeRt
  ctxs : Map CtxRt
  sheets : Map SheetRt
  tierCmds : List TierCmd
  moves : List Move
  freeing : Map (Nat × Nat)
  hands : Map Nat
  dma : List DmaOp
  ringBad : Map Nat
  rulSrc : Map RulSrc
  rulHome : Map RulHome
  blotWin : Map (Nat × Nat)
  windows : Map WinEnt
  closing : Option Nat
  peers : Map Peer
  outOps : List OutOp
  rtagNext : Nat
  heldFlags : List Packet
  heldPkts : List Packet
  gathers : List Gather
  bulks : List BulkJob
  quillDone : List Nat
  ports : Map PortRt
  ringMap : Map (Bool × Bool × Nat)
  tx : List (Nat × Packet)
  svc : List (List Byte)
  answers : List (Nat × List Byte)
  arrived : List Arrived
  time : TimeRt
  base : BaseRt
  power : PowerRt
  start : StartRt
  sec : SecRt
  selftest : Option SelfTest
  calib : List Calib
  calFails : Map Nat
  mirror : Map MirrorRt
  requests : List Request
  posts : List RollPost
  orders : List PrefillOrder
  records : List SlipRecord
  pendFail : List Nat
  egStall : List Nat
  deriving DecidableEq, Repr

/-- A part of order code NYF-LV64-M with nothing programmed: the values are the model's own (DESIGN CHOICE, log
entries 3 and 9). -/
def Chip.blank : Chip where
  lv60 := false
  stepping := 0
  serial := 0
  fuses := [0xFFFF, 0xFFFF, 0xFFFF, 0xFFFF]
  macs := [0, 0, 0]
  voff := []
  roBase := []
  carveBase := 0
  ttBase := 0
  tbBase := 0x20000000
  ownerDigest := [none, none, none, none]
  ownerRevoked := [false, false, false, false]
  lock := false
  keyRevoked := [false, false, false, false]
  floors := [0, 0, 0, 0, 0, 0]
  dataVer := 0
  dataCopies := [0]
  nyfKeys := [[], [], [], []]
  certs := List.replicate 3 ⟨0, 0, 0, [], []⟩
  rom := []

/-- A sequencer of a gated quire. -/
def ScribeRt.zero : ScribeRt := ⟨0, 0, 0, 0, 0, 0, none, false, [], none, 0, 0, [], 0⟩

/-- A gated quire. -/
def QuireRt.zero : QuireRt := ⟨0, 0, 0, 0, 0, 0, 0, 0, none, 0, [], 0, false, none, 0, 0, none⟩

/-- A context that is OFF and has not run. -/
def CtxRt.zero : CtxRt := ⟨false, false, 0, none, 0, none, 0, false, [], [], []⟩

/-- An EMPTY sheet. -/
def SheetRt.zero : SheetRt := ⟨0, 0, none, none, none, false, 2, 0, false, 0, false, 0, (0, 0)⟩

/-- A pair before its first operation (R498). -/
def Peer.zero : Peer := ⟨1, 1, [], false⟩

/-- A port with no far end (DEDUCED in part, log entry 51). -/
def PortRt.zero : PortRt :=
  ⟨0, false, 0, [], [], 0, [0, 0, 0, 0, 0], [0, 0, 0, 0, 0], [[], [], [], [], []], none, 0, none, false, none, 0, 0, 0, 0, [],
    none, false, 0, 0, 0, 0, 0, 3, false, [0, 0, 0, 0, 0], 0, [], false, [], 0⟩

/-- A mirror engine that has done nothing for a job slot. -/
def MirrorRt.zero : MirrorRt := ⟨0, 0, none, [], [], 0, none, 0, [], 0⟩

/-- The timebase at power-good (R622). -/
def TimeRt.zero : TimeRt := ⟨0, 0, 0, 0, 0, 0, 0, 0, false, false, false⟩

/-- The Baseline governor at power-good (R603). -/
def BaseRt.zero : BaseRt := ⟨[], [], [], 0, none, false, false, false, [], false⟩

/-- The Ductus controller at power-good. -/
def PowerRt.zero : PowerRt := ⟨[], false, false, 0, 0, false, false, 0, false, false, []⟩

/-- Start-up with nothing done. -/
def StartRt.zero : StartRt := ⟨[], [], false, false, false, 0, false, [], [], [], [], [], 0⟩

/-- The security engine with nothing in progress. -/
def SecRt.zero : SecRt := ⟨none, [], [], [], [], [], false⟩

/-- The words of control space whose reset is a fuse, a strap, the colophon, a draw of the random source (17 R686) or the reset
itself, for a part, latched straps, feed class and nonce, with the defaults of R644 where no colophon has been read (DESIGN CHOICE,
log entries 3 to 6). -/
def csrSources (c : Chip) (straps : BitVec 13) (feed : Bool) (rkind : Nat) (nonce : BitVec 128) : Map W32 :=
  let pos : Nat := (straps.toNat % 4096) * 16
  let nq : Nat := if c.lv60 then 60 else 64
  let ones : Nat := ((List.range 13).filter fun i => straps.getLsbD i).length
  let strErr : Bool := ones % 2 = 1 || pos / 256 % 16 ≥ 8 || pos / 16 % 16 ≥ 8
  let inv : Bool := strErr || pos / 4096 % 8 ≥ 2
  let w (n : Nat) : W32 := BitVec.ofNat 32 n
  let owned := (List.range 4).find? fun i => (c.ownerDigest.getD i none).isSome && !(c.ownerRevoked.getD i false)
  let krev := (List.range 4).foldl (fun a i => if c.keyRevoked.getD i false then a + 2 ^ i else a) 0
  [(Reg.IDENT, w (0x4C560000 + c.stepping.toNat * 256 + (if c.lv60 then 1 else 0))),
   (Reg.SERIAL_LO, w (c.serial.toNat % 2 ^ 32)), (Reg.SERIAL_HI, w (c.serial.toNat / 2 ^ 32)),
   (Reg.POSITION, w (pos + if inv then 65536 else 0)), (Reg.QUIRES, w (nq * 256 + nq))] ++
  (List.range 4).map (fun d => (Reg.FUSE d, w (c.fuses.getD d 0))) ++
  [(Reg.GSTAT, w (rkind * 2 ^ 28))] ++
  [(Reg.MAC_MGMT_LO, w (c.macs.getD 0 0 % 2 ^ 32)), (Reg.MAC_MGMT_HI, w (c.macs.getD 0 0 / 2 ^ 32)),
   (Reg.MAC_SVC0_LO, w (c.macs.getD 1 0 % 2 ^ 32)), (Reg.MAC_SVC0_HI, w (c.macs.getD 1 0 / 2 ^ 32)),
   (Reg.MAC_SVC1_LO, w (c.macs.getD 2 0 % 2 ^ 32)), (Reg.MAC_SVC1_HI, w (c.macs.getD 2 0 / 2 ^ 32)),
   (Reg.ACC_MGMT, w 0x100E), (Reg.ACC_FAB, w 0x03F0),
   (Reg.PWR_STAT, w (600 + if feed then 2 ^ 25 else 0)), (Reg.MCAP, w 2400), (Reg.RCAP_NEXT, w 0), (Reg.RCAP_CUR, w 0),
   (Reg.BL_CFG, w (2 ^ 29 + 200)), (Reg.SB_STAT, w (straps.toNat + if strErr then 2 ^ 22 else 0))] ++
  (List.range nq).map (fun q => (Reg.QPT q, w (c.voff.getD q 0 % 256))) ++
  [(Reg.DROOP_CFG, w (64 * 65536 + 32 * 256 + 40)),
   (Reg.SHT_CAP, w (if c.lv60 then 60 * 256 + 15 else 64 * 256 + 16)), (Reg.EVICT_CTL, w 16384)] ++
  (List.range 16).map (fun s => (Reg.RCFG s, w (8 + 16 + 1))) ++
  [(Reg.TLOST_CTL, w 100),
   (Reg.SEC_STAT, w ((if c.lock then 2 ^ 31 else 0) + (if owned.isSome then 2 ^ 30 else 0) + owned.getD 0 * 2 ^ 28 +
     krev * 2 ^ 16))] ++
  (List.range 6).map (fun i => (Reg.RUN_INFO (i + 1), w (c.floors.getD i 0 % 256))) ++
  (List.range 4).map (fun i => (Reg.NONCE i, nonce.extractLsb' (32 * i) 32)) ++
  [(Reg.FLOG_HEAD, w 0x0C610000)]

/-- The module after reset: every register at its reset value, nothing in any engine, memory with nothing listed; one draw of the
random source has been made, the owner-command nonce (DESIGN CHOICE, log entries 1, 3, 4, 5, 6, 9, 11 and 12, for what the spec
gives no reset value). -/
def State.reset : State where
  pending := []
  draws := 1
  powered := true
  chip := Chip.blank
  straps := 0
  strapPins := 0
  feed := false
  csr := csrSources Chip.blank 0 false 0 (Config.nonce 0)
  latched := []
  mem := []
  upsets := []
  failing := []
  badEntries := []
  t2Gran := [0, 0]
  t2Up := [false, false]
  gates := []
  heldEvents := []
  dropCount := 0
  dropSev := 0
  quires := []
  scribes := []
  ctxs := []
  sheets := []
  tierCmds := []
  moves := []
  freeing := []
  hands := []
  dma := []
  ringBad := []
  rulSrc := []
  rulHome := []
  blotWin := []
  windows := []
  closing := none
  peers := []
  outOps := []
  rtagNext := 0
  heldFlags := []
  heldPkts := []
  gathers := []
  bulks := []
  quillDone := []
  ports := []
  ringMap := []
  tx := []
  svc := []
  answers := []
  arrived := []
  time := TimeRt.zero
  base := BaseRt.zero
  power := PowerRt.zero
  start := StartRt.zero
  sec := SecRt.zero
  selftest := none
  calib := []
  calFails := []
  mirror := []
  requests := []
  posts := []
  orders := []
  records := []
  pendFail := []
  egStall := []

end Sys2Proof.Machine
end

