-- ==== Sys2Proof/Machine/Ops.lean ====
section
/-! DEFINITION. The named operations over maps, memory, control space, the event log, error protection, the tiered range and
completion records that every meaning is written with. -/

namespace Sys2Proof.Machine

/-! ## Finite maps -/

/-- The value at a key. -/
def Map.get? {α : Type} : Map α → Nat → Option α
  | [], _ => none
  | (a, v) :: t, k => if a = k then some v else Map.get? t k

/-- The value at a key, or a default. -/
def Map.getD {α : Type} (m : Map α) (k : Nat) (d : α) : α := (Map.get? m k).getD d

/-- Put a value at a key, in key order. -/
def Map.set {α : Type} : Map α → Nat → α → Map α
  | [], k, v => [(k, v)]
  | (a, w) :: t, k, v => if k < a then (k, v) :: (a, w) :: t else if k = a then (k, v) :: t else (a, w) :: Map.set t k v

/-- Remove a key. -/
def Map.erase {α : Type} (m : Map α) (k : Nat) : Map α := m.filter fun e => e.1 != k

/-! ## Bit fields and bytes -/

/-- Bits [hi:lo] of a number (00_scope.md R6). -/
def bits (w hi lo : Nat) : Nat := w / 2 ^ lo % 2 ^ (hi + 1 - lo)

/-- Bit i of a number. -/
def bit (w i : Nat) : Bool := w / 2 ^ i % 2 == 1

/-- The low n bytes of a number, least significant first (R7). -/
def leBytes : Nat → Nat → List Byte
  | 0, _ => []
  | n + 1, v => BitVec.ofNat 8 v :: leBytes n (v / 256)

/-- The number a byte list spells, least significant first (R7). -/
def leNat : List Byte → Nat
  | [] => 0
  | b :: t => b.toNat + 256 * leNat t

/-- A list of exactly n entries: cut, or filled with d. -/
def fit {α : Type} : Nat → α → List α → List α
  | 0, _, _ => []
  | n + 1, d, [] => d :: fit n d []
  | n + 1, d, a :: t => a :: fit n d t

/-- Split a list into pieces of n, at most fuel of them. -/
def chunks {α : Type} (n : Nat) : Nat → List α → List (List α)
  | 0, _ => []
  | fuel + 1, l => if l.isEmpty then [] else l.take n :: chunks n fuel (l.drop n)

/-- Saturating 32-bit addition, as the RC counters count. -/
def sat32 (n : Nat) : Nat := min n 0xFFFFFFFF

/-! ## Memory -/

/-- The byte at an address; one that is not listed reads zero (DESIGN CHOICE, log entry 1). -/
def Mem.read1 : List Host.Cell → Nat → Byte
  | [], _ => 0
  | (a, b) :: t, x => if a = x then b else Mem.read1 t x

/-- Is the list in canonical form: addresses strictly rising, no zero listed? -/
def Mem.wfFrom : Option Nat → List Host.Cell → Bool
  | _, [] => true
  | lim, (a, b) :: t => (match lim with | none => true | some l => decide (l < a)) && b != 0 && Mem.wfFrom (some a) t

/-- The canonical form of memory. -/
def Memory.wf (m : List Host.Cell) : Bool := Mem.wfFrom none m

/-- The cells of `new` from address `a` on, zeros left out. -/
def Mem.cells : Nat → List Byte → List Host.Cell
  | _, [] => []
  | a, b :: t => if b = 0 then Mem.cells (a + 1) t else (a, b) :: Mem.cells (a + 1) t

/-- The cells below lo. -/
def Mem.below (m : List Host.Cell) (lo : Nat) : List Host.Cell := m.filter fun c => decide (c.1 < lo)

/-- The cells at or above hi. -/
def Mem.above (m : List Host.Cell) (hi : Nat) : List Host.Cell := m.filter fun c => decide (hi ≤ c.1)

/-- Write a run of bytes at an address. -/
def Mem.write (m : List Host.Cell) (a : Nat) (bs : List Byte) : List Host.Cell :=
  Mem.below m a ++ Mem.cells a bs ++ Mem.above m (a + bs.length)

/-- Make a range read zero. -/
def Mem.clear (m : List Host.Cell) (lo n : Nat) : List Host.Cell := Mem.below m lo ++ Mem.above m (lo + n)

/-- The cells of a range, moved to another start. -/
def Mem.shifted (m : List Host.Cell) (src n dst : Nat) : List Host.Cell :=
  (m.filter fun c => decide (src ≤ c.1) && decide (c.1 < src + n)).map fun c => (c.1 - src + dst, c.2)

/-- Copy a range to another start. -/
def Mem.copy (m : List Host.Cell) (src n dst : Nat) : List Host.Cell :=
  Mem.below m dst ++ Mem.shifted m src n dst ++ Mem.above m (dst + n)

/-- The n bytes from an address. -/
def Mem.read (m : List Host.Cell) (a n : Nat) : List Byte := (List.range n).map fun i => Mem.read1 m (a + i)

/-- The little-endian number in n bytes at an address. -/
def Mem.le (m : List Host.Cell) (a n : Nat) : Nat := leNat (Mem.read m a n)

/-- Reservoir granule n (05_memory.md R175). -/
def physT0 (n : Nat) : Nat := n * 65536
/-- Usable GDDR7 granule n (R175). -/
def physT1 (n : Nat) : Nat := 2 ^ 40 + n * 65536
/-- Usable T2 granule n of a root port (R175). -/
def physT2 (port n : Nat) : Nat := 2 ^ 42 * (1 + port) + n * 65536
/-- Byte offset o of a scribe's well (03_scribe.md R87). -/
def physWell (scribe o : Nat) : Nat := 2 ^ 49 + scribe * 2 ^ 21 + o
/-- A carve-out address (01 R22). -/
def physCarve (a : Nat) : Nat := 2 ^ 50 + a
/-- A flash address (16 R634); an erased byte reads 0xFF, so flash is kept inverted (PRESUMED, log entry 15). -/
def physFlash (a : Nat) : Nat := 2 ^ 51 + a
/-- Byte b of the identity memory of the cable of port p (13 R538). -/
def physCable (p b : Nat) : Nat := 2 ^ 52 + 256 * p + b

/-! ## Control space -/

/-- The word stored for a register. -/
def State.word (s : State) (off : Nat) : W32 := Map.getD s.csr off (regReset off)

/-- Bits [hi:lo] of a register. -/
def State.rd (s : State) (off hi lo : Nat) : Nat := bits (s.word off).toNat hi lo

/-- Put a value into bits [hi:lo] of a word. -/
def setBits (w : W32) (hi lo v : Nat) : W32 :=
  BitVec.ofNat 32 (w.toNat / 2 ^ (hi + 1) * 2 ^ (hi + 1) + v % 2 ^ (hi + 1 - lo) * 2 ^ lo + w.toNat % 2 ^ lo)

/-- Store a register's whole word. -/
def State.wrw (s : State) (off : Nat) (w : W32) : State := { s with csr := Map.set s.csr off w }

/-- Put a value into bits [hi:lo] of a register. -/
def State.wr (s : State) (off hi lo v : Nat) : State := s.wrw off (setBits (s.word off) hi lo v)

/-- Set or clear one bit of a register. -/
def State.wrb (s : State) (off i : Nat) (b : Bool) : State := s.wr off i i (if b then 1 else 0)

/-- One bit of a register. -/
def State.rdb (s : State) (off i : Nat) : Bool := s.rd off i i == 1

/-- Add to a counter that wraps modulo 2^32. -/
def State.bump (s : State) (off : Nat) (n : Nat := 1) : State := s.wrw off (BitVec.ofNat 32 ((s.word off).toNat + n))

/-- Add to a counter that saturates at 0xFFFF_FFFF. -/
def State.bumpSat (s : State) (off : Nat) (n : Nat := 1) : State :=
  s.wrw off (BitVec.ofNat 32 (sat32 ((s.word off).toNat + n)))

/-- A value held in a LO and a HI register. -/
def State.rd64 (s : State) (lo hi : Nat) : Nat := (s.word lo).toNat + 2 ^ 32 * (s.word hi).toNat

/-- Store a value into a LO and a HI register. -/
def State.wr64 (s : State) (lo hi v : Nat) : State :=
  (s.wrw lo (BitVec.ofNat 32 v)).wrw hi (BitVec.ofNat 32 (v / 2 ^ 32))

/-- An address held in a LO register, with its low bits masked, and 16 bits of a HI register. -/
def State.addrOf (s : State) (lo hi unit : Nat) : Nat := ((s.word lo).toNat + 2 ^ 32 * s.rd hi 15 0) / unit * unit

/-- Rack time in ns (15 R622). -/
def State.now (s : State) : Nat := s.time.rack / 2 ^ 32 % 2 ^ 64

/-- The current epoch (15 R631). -/
def State.epoch (s : State) : Nat := s.now / 100000

/-- Own position identifier (01 R24). -/
def State.pos (s : State) : Nat := s.rd Reg.POSITION 15 0

/-- Logical quires of the part (01 R18). -/
def State.nq (s : State) : Nat := if s.chip.lv60 then 60 else 64

/-- The base die or scribe die of a quire (01 R18). -/
def State.dieOf (s : State) (q : Nat) : Nat := q / (if s.chip.lv60 then 15 else 16)

/-- The physical quires of a scribe die that are enabled: the set bits of FUSE_d, lowest first; the others stay gated and take no
number (03_scribe.md R115; 19_registers.md R729). -/
def State.enabledQuires (s : State) (d : Nat) : List Nat := (List.range 17).filter fun i => bit (s.rd (Reg.FUSE d) 16 0) i

/-- The physical position of a logical quire on its scribe die (01 R18, R19; 19_registers.md R731). -/
def State.physQuire (s : State) (q : Nat) : Option Nat :=
  (s.enabledQuires (s.dieOf q))[q % (if s.chip.lv60 then 15 else 16)]?

/-! ## Carve-out, flash and plain stores -/

/-- Does a carve-out range lie wholly in the carve-out (01 R22)? -/
def State.inCarve (s : State) (a n : Nat) : Bool := decide (s.chip.carveBase ≤ a) && decide (a + n ≤ s.chip.carveBase + 2 ^ 32)

/-- Does a carve-out range touch the tier table or the touch bitmap (05_memory.md R173)? -/
def State.hitsTables (s : State) (a n : Nat) : Bool :=
  (decide (a < s.chip.ttBase + 2 ^ 29) && decide (s.chip.ttBase < a + n)) ||
  (decide (a < s.chip.tbBase + 2 ^ 23) && decide (s.chip.tbBase < a + n))

/-- A tier-table entry (R173, R174). -/
def State.entry (s : State) (g : Nat) : Nat := Mem.le s.mem (physCarve (s.chip.ttBase + 8 * g)) 8

/-- VALID of an entry. -/
def entValid (e : Nat) : Bool := bit e 63
/-- SHEET of an entry. -/
def entSheet (e : Nat) : Nat := bits e 62 59
/-- DRY of an entry. -/
def entDry (e : Nat) : Bool := bit e 58
/-- PIN of an entry. -/
def entPin (e : Nat) : Bool := bit e 57
/-- MOVING of an entry. -/
def entMoving (e : Nat) : Bool := bit e 56
/-- TIER of an entry. -/
def entTier (e : Nat) : Nat := bits e 55 54
/-- LOC of an entry. -/
def entLoc (e : Nat) : Nat := bits e 24 0

/-- Build an entry (R174). -/
def mkEntry (sheet : Nat) (dry pin moving : Bool) (tier dtier dloc loc : Nat) : Nat :=
  2 ^ 63 + sheet % 16 * 2 ^ 59 + (if dry then 2 ^ 58 else 0) + (if pin then 2 ^ 57 else 0) +
  (if moving then 2 ^ 56 else 0) + tier % 4 * 2 ^ 54 + dtier % 4 * 2 ^ 52 + dloc % 2 ^ 25 * 2 ^ 25 + loc % 2 ^ 25

/-- The physical start of a location (R175). -/
def locPhys (tier loc : Nat) : Nat :=
  match tier with
  | 0 => physT0 loc
  | 1 => physT1 loc
  | _ => physT2 (loc / 2 ^ 24) (loc % 2 ^ 24)

/-- Write an entry of the tier table. -/
def State.setEntry (s : State) (g e : Nat) : State :=
  { s with mem := Mem.write s.mem (physCarve (s.chip.ttBase + 8 * g)) (leBytes 8 e) }

/-- Set a granule's touch bit in the bitmap. -/
def State.setTouch (s : State) (g : Nat) : State :=
  let a := physCarve (s.chip.tbBase + g / 8)
  { s with mem := Mem.write s.mem a [Mem.read1 s.mem a ||| BitVec.ofNat 8 (2 ^ (g % 8))] }

/-- A granule's touch bit. -/
def State.touched (s : State) (g : Nat) : Bool := bit (Mem.read1 s.mem (physCarve (s.chip.tbBase + g / 8))).toNat (g % 8)

/-- Clear a granule's touch bit in the bitmap. -/
def State.clearTouch (s : State) (g : Nat) : State :=
  let a := physCarve (s.chip.tbBase + g / 8)
  { s with mem := Mem.write s.mem a [Mem.read1 s.mem a &&& ~~~ BitVec.ofNat 8 (2 ^ (g % 8))] }

/-- Does granule g lie in the run of a sheet, and in the table (R169, R170)? -/
def State.inRun (s : State) (sheet g : Nat) : Bool :=
  let b := s.rd (Reg.TBASE sheet) 25 0
  decide (b ≤ g) && decide (g < b + s.rd (Reg.TLIMIT sheet) 26 0) && decide (g < 2 ^ 26)

/-- Is every granule of a TIER range in the sheet's run and mapped (R169, R170)? -/
def State.tierOk (s : State) (sheet a n : Nat) : Bool :=
  decide (a + n ≤ 2 ^ 42) &&
  (List.range ((a + n - 1) / 65536 + 1 - a / 65536)).all fun i =>
    let g := a / 65536 + i
    s.inRun sheet g && entValid (s.entry g)

/-- Does a granule rest in T0 with PIN set? -/
def State.pinned (s : State) (g : Nat) : Bool :=
  let e := s.entry g
  entValid e && entPin e && entTier e == 0

/-- Is every granule of a TIER range in the sheet's run, pinned to T0? -/
def State.pinnedRange (s : State) (sheet a n : Nat) : Bool :=
  decide (a + n ≤ 2 ^ 42) &&
  (List.range ((a + n - 1) / 65536 + 1 - a / 65536)).all fun i =>
    s.inRun sheet (a / 65536 + i) && s.pinned (a / 65536 + i)

/-- The physical address a TIER address has now. -/
def State.tierPhys (s : State) (a : Nat) : Nat :=
  let e := s.entry (a / 65536)
  locPhys (entTier e) (entLoc e) + a % 65536

/-- The granules a TIER range covers. -/
def granulesOf (a n : Nat) : List Nat := if n = 0 then [] else (List.range ((a + n - 1) / 65536 + 1 - a / 65536)).map (a / 65536 + ·)

/-- A range cut at granule edges: start and length of each piece, at most fuel pieces. -/
def pieces : Nat → Nat → Nat → List (Nat × Nat)
  | 0, _, _ => []
  | fuel + 1, a, n =>
    if n = 0 then [] else
    let m := min n (65536 - a % 65536)
    (a, m) :: pieces fuel (a + m) (n - m)

/-- The pieces of a range. -/
def piecesOf (a n : Nat) : List (Nat × Nat) := pieces (n / 65536 + 2) a n

/-- Set bit n of QW_PEND for every watch slot whose line a write of physical range [a, a+n) touches (11 R479). -/
def State.notify (s : State) (a n : Nat) : State :=
  (List.range 64).foldl (fun s i =>
    if s.rdb (Reg.QW_ADDR_LO i) 0 then
      let v := s.addrOf (Reg.QW_ADDR_LO i) (Reg.QW_ADDR_HI i) 64
      let p := if s.rdb (Reg.QW_ADDR_HI i) 31 then s.tierPhys v else physCarve v
      let ok := if s.rdb (Reg.QW_ADDR_HI i) 31 then s.pinned (v / 65536) else true
      if ok && decide (p < a + n) && decide (a < p + 64) then
        if i < 32 then s.wrb Reg.QW_PEND_LO i true else s.wrb Reg.QW_PEND_HI (i - 32) true
      else s
    else s) s

/-- The migrator writes an entry: a watch slot on its line sees the write (R174; 11 R479). -/
def State.putEntry (s : State) (g e : Nat) : State := (s.setEntry g e).notify (physCarve (s.chip.ttBase + 8 * g)) 8

/-- Set a granule's touch bit, when it is clear; a watch slot on the bitmap sees the write (R176; 11 R479). -/
def State.touch (s : State) (g : Nat) : State :=
  if s.touched g then s else (s.setTouch g).notify (physCarve (s.chip.tbBase + g / 8)) 1

/-- Clear a granule's touch bit, when it is set (R199; 11 R479). -/
def State.untouch (s : State) (g : Nat) : State :=
  if s.touched g then (s.clearTouch g).notify (physCarve (s.chip.tbBase + g / 8)) 1 else s

/-- Lines wholly covered by a write hold new check bytes, so their error patterns go (05_memory.md R206). -/
def clearUpsets (u : Map (Map Byte)) (a n : Nat) : Map (Map Byte) :=
  u.filter fun e => !(decide (a ≤ e.1 * 64) && decide (e.1 * 64 + 64 ≤ a + n))

/-- Write bytes at a physical address: memory, error patterns and the Quill watch slots. -/
def State.store (s : State) (a : Nat) (bs : List Byte) : State :=
  if bs.isEmpty then s else
  ({ s with mem := Mem.write s.mem a bs, upsets := clearUpsets s.upsets a bs.length }).notify a bs.length

/-- Make a physical range zero with valid check bytes (05_memory.md R203). -/
def State.zero (s : State) (a n : Nat) : State :=
  { s with mem := Mem.clear s.mem a n, upsets := clearUpsets s.upsets a n }

/-- Write bytes at a TIER address, granule by granule, with the touch bits (R176). -/
def State.storeTier (s : State) (a : Nat) (bs : List Byte) : State :=
  (piecesOf a bs.length).foldl (fun s p => (s.store (s.tierPhys p.1) ((bs.drop (p.1 - a)).take p.2)).touch (p.1 / 65536)) s

/-- Write bytes at a carve-out address; the tier table and the touch bitmap change in no such way (R173). -/
def State.storeCarve (s : State) (a : Nat) (bs : List Byte) : State :=
  if s.hitsTables a bs.length then s else s.store (physCarve a) bs

/-- Read bytes at a TIER address. -/
def State.loadTier (s : State) (a n : Nat) : List Byte :=
  (piecesOf a n).flatMap fun p => Mem.read s.mem (s.tierPhys p.1) p.2

/-- Read flash bytes (kept inverted). -/
def State.flashRead (s : State) (a n : Nat) : List Byte := (Mem.read s.mem (physFlash a) n).map fun b => ~~~ b

/-- Program flash bytes. -/
def State.flashWrite (s : State) (a : Nat) (bs : List Byte) : State :=
  { s with mem := Mem.write s.mem (physFlash a) (bs.map fun b => ~~~ b) }

/-- Erase a flash range. -/
def State.flashErase (s : State) (a n : Nat) : State := { s with mem := Mem.clear s.mem (physFlash a) n }

/-! ## The event log -/

/-- Severity of an event code (19_registers.md R736); UPDATE depends on its outcome. -/
def sevOf (code : Nat) (args : List Nat) : Nat :=
  match code with
  | 0x0001 | 0x0003 | 0x0205 | 0x0307 | 0x0402 | 0x0404 | 0x0701 | 0x0802 | 0x0905 | 0x0B02 => 1
  | 0x0B01 => if args.getD 1 0 = 0 then 1 else 2
  | 0x0305 | 0x0306 => 4
  | 0x0002 | 0x0005 | 0x0104 | 0x0105 | 0x0303 | 0x0401 | 0x0702 | 0x0703 | 0x0704 | 0x0806 | 0x090A | 0x0106 | 0x0B03
  | 0x0705 | 0x0805 | 0x0502 | 0x0909 | 0x0803 | 0x0804 | 0x0901 | 0x0902 | 0x0907 | 0x0908 | 0x0A03 => 3
  | _ => 2

/-- The 64 bytes of a record (R732). -/
def EventRec.bytes (r : EventRec) : List Byte :=
  leBytes 8 r.rtime ++ leBytes 4 r.seq ++ leBytes 2 r.code ++ leBytes 1 (r.sev + if r.prestep then 8 else 0) ++ leBytes 1 0 ++
  leBytes 2 r.posid ++ leBytes 2 r.count ++ leBytes 4 0 ++ ((List.range 5).flatMap fun i => leBytes 8 (r.args.getD i 0))

/-- Records in the event ring not consumed (R737). -/
def State.elogUsed (s : State) : Nat := ((s.word Reg.EPROD).toNat + 2 ^ 32 - (s.word Reg.ECONS).toNat) % 2 ^ 32

/-- Has the event ring room, and is it enabled? -/
def State.elogRoom (s : State) : Bool := s.rdb Reg.ELOG_CFG 31 && decide (s.elogUsed < 2 ^ s.rd Reg.ELOG_CFG 3 0)

/-- Write a record into the ring and advance the producer count (R737, R741). -/
def State.ringPut (s : State) (r : EventRec) : State :=
  let base := s.addrOf Reg.ELOG_BASE_LO Reg.ELOG_BASE_HI 64
  let n := 2 ^ s.rd Reg.ELOG_CFG 3 0
  let p := (s.word Reg.EPROD).toNat
  let s := s.storeCarve (base + 64 * (p % n)) r.bytes
  let s := s.bump Reg.EPROD
  s.storeCarve (base + 64 * n) (leBytes 8 ((p + 1) % 2 ^ 32))

/-- A record taken by the log unit: number it and note its severity (R735, ESTAT). -/
def State.number (s : State) : State := s.bump Reg.ESEQ

/-- A record dropped under R738. -/
def State.dropEvent (s : State) (sev : Nat) : State :=
  let s := (s.bumpSat Reg.ELOST).wrb Reg.ESTAT 31 true
  { s with dropCount := s.dropCount + 1, dropSev := max s.dropSev sev }

/-- The first record of a list with a severity below FATAL, and the list without it. -/
def takeNonFatal : List EventRec → Option (EventRec × List EventRec)
  | [] => none
  | r :: t => if r.sev < 4 then some (r, t) else (takeNonFatal t).map fun x => (x.1, r :: x.2)

/-- Put a record into the holding buffer under R738. -/
def State.hold (s : State) (r : EventRec) : State :=
  if s.heldEvents.length < 64 then ({ s with heldEvents := s.heldEvents ++ [r] }).number
  else if r.sev = 4 then
    match takeNonFatal s.heldEvents with
    | some (d, rest) => (({ s with heldEvents := rest ++ [r] }).number).dropEvent d.sev
    | none => s.dropEvent r.sev
  else s.dropEvent r.sev

/-- Write held records while the ring has room, at most n of them, oldest first (R738). -/
def State.flushSome : Nat → State → State
  | 0, s => s
  | n + 1, s =>
    match s.heldEvents with
    | [] => s
    | r :: t => if s.elogRoom then State.flushSome n (({ s with heldEvents := t }).ringPut r) else s

/-- The record the next event makes; the root's time is never before a step (DEDUCED, log entry 17). -/
def State.mkRec (s : State) (code count : Nat) (args : List Nat) : EventRec :=
  ⟨s.now, (s.word Reg.ESEQ).toNat, code, sevOf code args, !(s.rdb Reg.TIM_STAT 28) && s.rd Reg.TIM_STAT 27 26 != 2, s.pos,
    min count 65535, args⟩

/-- Write the held records and then the OVERFLOW record while there is room (R738). -/
def State.flushHeld (s : State) : State :=
  let s := State.flushSome 64 s
  if s.heldEvents.isEmpty && decide (0 < s.dropCount) && s.elogRoom then
    let r := s.mkRec 0x0C01 1 [s.dropCount, s.dropSev]
    ({ (s.ringPut r).number with dropCount := 0, dropSev := 0 }).wr Reg.ESTAT 2 0 (max (s.rd Reg.ESTAT 2 0) 2)
  else s

/-- Write a record to the flash log and advance its head (R739). -/
def State.flogPut (s : State) (r : EventRec) : State :=
  let h := (s.word Reg.FLOG_HEAD).toNat
  let s := s.flashWrite h r.bytes
  let top : Nat := 0x0FFFFFFF + 1
  let h' := if h + 64 ≥ top then 0x0C610000 else h + 64
  let s := s.wrw Reg.FLOG_HEAD (BitVec.ofNat 32 h')
  if h' % 65536 = 0 then
    let nxt := if h' + 65536 ≥ top then 0x0C610000 else h' + 65536
    s.flashErase nxt 65536
  else s

/-- Take one event that stands for a number of occurrences (R735 to R739). -/
def State.take (s : State) (code count : Nat) (args : List Nat) : State :=
  let s := s.flushHeld
  let r := s.mkRec code count args
  let s := if s.elogRoom && s.heldEvents.isEmpty then (s.ringPut r).number else s.hold r
  let s := s.wr Reg.ESTAT 2 0 (max (s.rd Reg.ESTAT 2 0) r.sev)
  if r.sev = 4 || code = 1 then s.flogPut r else s

/-- Post an event, with the occurrences that were not posted for the same code and A0 (R734). -/
def State.post (s : State) (code : Nat) (args : List Nat) : State :=
  let key := code * 2 ^ 64 + args.getD 0 0
  match Map.get? s.gates key with
  | none => s.take code 1 args
  | some g => ({ s with gates := Map.set s.gates key { g with held := 0 } }).take code (g.held + 1) args

/-- Post an event that a rule bounds to one per epoch for a key, which is its A0 unless `k` names another (R734)
(DEDUCED in part, log entry 84). -/
def State.postOnce (s : State) (code : Nat) (args : List Nat) (k : Nat := args.getD 0 0) : State :=
  let key := code * 2 ^ 64 + k
  match Map.get? s.gates key with
  | none => ({ s with gates := Map.set s.gates key ⟨s.epoch, 0⟩ }).take code 1 args
  | some g =>
    if g.epoch = s.epoch then { s with gates := Map.set s.gates key { g with held := g.held + 1 } }
    else ({ s with gates := Map.set s.gates key ⟨s.epoch, 0⟩ }).take code (g.held + 1) args

/-- Log a write that a rule says is ignored and logged; class 0 is QUILL (R736 WRIGNORED). -/
def State.logWrite (s : State) (off : Nat) (v : Nat) (cls : Nat := 0) : State := s.post 0x0003 [off, v, cls]

/-! ## Error protection (05_memory.md R206 to R216) -/

/-- Multiplication in GF(2^8) on 0x11D. -/
def gfMulAux : Nat → Nat → Nat → Nat
  | 0, _, _ => 0
  | n + 1, a, b =>
    let r := gfMulAux n (let d := a * 2; if d ≥ 256 then d ^^^ 0x11D else d) (b / 2)
    if b % 2 = 1 then r ^^^ a else r

/-- Product of two field elements. -/
def gfMul (a b : Nat) : Nat := gfMulAux 8 a b

/-- Power of the primitive element. -/
def gfPow : Nat → Nat
  | 0 => 1
  | n + 1 => gfMul (gfPow n) 2

/-- Remainder of d(x)·x^m by a monic generator g of degree m (coefficients below the leading one, highest first). -/
def rsRem (g : List Nat) (d : List Nat) : List Nat :=
  d.foldl (fun r b =>
    let f := b ^^^ r.headD 0
    (List.range g.length).map fun i => r.getD (i + 1) 0 ^^^ gfMul f (g.getD i 0)) (List.replicate g.length 0)

/-- The four check bytes of 64 data bytes (R207). -/
def rsCheck (d : List Byte) : List Byte := (rsRem [0x0F, 0x36, 0x78, 0x40] (d.map BitVec.toNat)).map (BitVec.ofNat 8)

/-- Is a pattern of 68 bytes a codeword of RS(68,64)? -/
def isCode (c : List Byte) : Bool := rsCheck (c.take 64) == c.drop 64

/-- The value at position j that makes an error pattern with one byte changed a codeword, if there is one. -/
def fixOne (e : List Byte) (j : Nat) : Option (List Byte) :=
  (List.range 256).findSome? fun v =>
    let e' := e.set j (e.getD j 0 ^^^ BitVec.ofNat 8 v)
    if isCode e' then some e' else none

/-- Decode an error pattern: the codeword within two byte errors, if one exists (R208). -/
def rsDecode (e : List Byte) : Option (List Byte) :=
  if isCode e then some e else
  if (e.filter (· != 0)).length ≤ 2 then some (List.replicate 68 0) else
  match (List.range 68).findSome? (fixOne e) with
  | some c => some c
  | none =>
    (List.range 68).findSome? fun i => (List.range 255).findSome? fun v =>
      (List.range 68).findSome? fun j =>
        if i < j then fixOne (e.set i (e.getD i 0 ^^^ BitVec.ofNat 8 (v + 1))) j else none

/-- The error pattern of a line as 68 bytes. -/
def patternOf (p : Map Byte) : List Byte := (List.range 68).map fun i => Map.getD p i 0

/-- Which store a physical address lies in, as UE_INFO.STORE codes it (R217). -/
def storeOf (a : Nat) : Nat :=
  if a < 2 ^ 40 then 1 else if a < 2 ^ 42 then 2 else if a < 2 ^ 49 then 3 else if a < 2 ^ 50 then 0 else 2

/-- Does a physical address lie in the tier table (R173)? -/
def State.inTable (s : State) (a : Nat) : Bool :=
  decide (physCarve s.chip.ttBase ≤ a) && decide (a < physCarve s.chip.ttBase + 2 ^ 29)

/-- The store and address UE_ADDR records for a physical line whose plain address is `addr` (R217): a granule index for the
tier table. -/
def State.ueAt (s : State) (a addr : Nat) : Nat × Nat :=
  if s.inTable a then (4, (a - physCarve s.chip.ttBase) / 8) else (storeOf a, addr)

/-- The sheet that owns a scribe's well; 16 for none (R217, 03 R113). -/
def State.wellSheet (s : State) (scribe : Nat) : Nat :=
  ((List.range 16).find? fun i => bit (Map.getD s.sheets i SheetRt.zero).qmask (scribe / 8)).getD 16

/-- Count and record an uncorrectable line (R214, R215, R217); a well's sheet is the one that owns it. -/
def State.uncorr (s : State) (store addr scribe sheet : Nat) : State :=
  let sheet := if store = 0 then s.wellSheet scribe else sheet
  let s := s.bumpSat Reg.UE_COUNT
  let s := if s.rdb Reg.UE_INFO 31 then s else
    (s.wr64 Reg.UE_ADDR_LO Reg.UE_ADDR_HI (addr % 2 ^ 48)).wrw Reg.UE_INFO
      (BitVec.ofNat 32 (2 ^ 31 + store % 8 * 2 ^ 28 + scribe % 1024 * 65536 + sheet % 16))
  s.post 0x0803 [store, addr, if sheet < 16 then sheet else 0xFF]

/-- A line's store now holds other data bytes: the error pattern that is left becomes what the line holds. -/
def State.settleLine (s : State) (line : Nat) (resid : List Byte) : State :=
  let a := line * 64
  let data := (List.range 64).map fun i => Mem.read1 s.mem (a + i) ^^^ resid.getD i 0
  { s with mem := Mem.write s.mem a data, upsets := Map.erase s.upsets line }

/-- Correct one line (R213): count, write back, one event per store and epoch. -/
def State.correct (s : State) (line : Nat) (resid : List Byte) (addr : Nat) : State :=
  let s := (s.bumpSat Reg.CE_COUNT).settleLine line resid
  let u := s.ueAt (line * 64) addr
  s.postOnce 0x0802 [u.1, u.2]

/-- Is a T2 line on a root port that went down (18 R714)? -/
def State.deadT2 (s : State) (a : Nat) : Bool :=
  decide (2 ^ 42 ≤ a) && decide (a < 2 ^ 44) && !(s.t2Up.getD (a / 2 ^ 42 - 1) false) && decide (0 < s.t2Gran.getD (a / 2 ^ 42 - 1) 0)

/-- Read one line with an error pattern through the code (R208, R213, R215): a pattern that is itself a codeword is not
detected. -/
def State.eccLine (s : State) (line : Nat) (p : Map Byte) (addr scribe sheet : Nat) : State × Option Nat :=
  if isCode (patternOf p) then (s.settleLine line (patternOf p), none) else
  match rsDecode (patternOf p) with
  | some r => (s.correct line r addr, none)
  | none =>
    let u := s.ueAt (line * 64) addr
    (s.uncorr u.1 u.2 scribe sheet, some addr)

/-- Read a physical range through the code: correct what can be corrected; answer the first line that cannot, if any.
`base` is the address UE_ADDR records for physical address `a`.  A line whose transfer fails is uncorrectable (18 R711,
R713). -/
def State.ecc (s : State) (a n base scribe sheet : Nat) : State × Option Nat :=
  if n = 0 then (s, none) else
  if s.deadT2 a then (s.uncorr 3 base scribe sheet, some base) else
  match s.failing.find? fun l => decide (a / 64 ≤ l) && decide (l * 64 < a + n) with
  | some l =>
    let u := s.ueAt (l * 64) (base + (l * 64 - a))
    (s.uncorr u.1 u.2 scribe sheet, some (base + (l * 64 - a)))
  | none =>
    (s.upsets.filter fun e => decide (a / 64 ≤ e.1) && decide (e.1 * 64 < a + n)).foldl
      (fun st e => if st.2.isSome then st else st.1.eccLine e.1 e.2 (base + (e.1 * 64 - a)) scribe sheet) (s, none)

/-- The read part of a write: the lines of a physical range that it covers only in part are read through the code (R215). -/
def State.eccEdges (s : State) (a n base scribe sheet : Nat) : State × Option Nat :=
  if n = 0 then (s, none) else
  let first := a / 64
  let last := (a + n - 1) / 64
  let line (s : State) (k : Nat) : State × Option Nat :=
    if a ≤ 64 * k ∧ 64 * k + 64 ≤ a + n then (s, none) else s.ecc (64 * k) 64 (base - a % 64 + 64 * (k - first)) scribe sheet
  let r := line s first
  if r.2.isSome || first == last then r else line r.1 last

/-- Can a physical range be read: no line of it is uncorrectable? -/
def State.clean (s : State) (a n : Nat) : Bool := ((s.ecc a n 0 0 16).2).isNone

/-- What a system unit reads: data that cannot be corrected is not used, and the unit finds zero (R216) (DESIGN CHOICE, log entry
139). -/
def State.unitLe (s : State) (a n : Nat) : Nat := if s.clean a n then Mem.le s.mem a n else 0

/-- A system unit's read of a word of the carve-out. -/
def State.carveLe (s : State) (a n : Nat) : Nat := if s.inCarve a n then s.unitLe (physCarve a) n else 0

/-- A system unit's read of a range is counted, and recorded, as any other (R213, R215). -/
def State.seen (s : State) (a n base sheet : Nat) : State := (s.ecc a n base 0 sheet).1

/-- As `seen`, at a carve-out address. -/
def State.seenCarve (s : State) (a n : Nat) : State := if s.inCarve a n then s.seen (physCarve a) n a 16 else s

/-- A system unit's write at a physical address: one whose read part cannot be corrected is not performed (R215). -/
def State.unitPut (s : State) (a : Nat) (bs : List Byte) (base : Nat) : State :=
  match s.eccEdges a bs.length base 0 16 with
  | (s, none) => s.store a bs
  | (s, some _) => s

/-- A system unit's write at a carve-out address; the tier table and the touch bitmap change in no such way (R173). -/
def State.carvePut (s : State) (a : Nat) (bs : List Byte) : State :=
  if s.hitsTables a bs.length then s else s.unitPut (physCarve a) bs a

/-- Read every line of a range through the code, also past one that cannot be corrected. -/
def State.correctRange (s : State) (a n base : Nat) : State :=
  (s.upsets.filter fun e => decide (a / 64 ≤ e.1) && decide (e.1 * 64 < a + n)).foldl
    (fun s e => (s.eccLine e.1 e.2 (base + (e.1 * 64 - a)) 0 16).1) s

/-- The lines of a range that cannot be read. -/
def State.badLines (s : State) (a n : Nat) : List Nat :=
  ((s.upsets.filter fun e => (rsDecode (patternOf e.2)).isNone).map Prod.fst ++ s.failing).filter fun l =>
    decide (a / 64 ≤ l) && decide (l * 64 < a + n)

/-- The line of the tier table that holds an entry. -/
def State.entryLine (s : State) (g : Nat) : Nat := physCarve (s.chip.ttBase + 8 * g) / 64

/-- Is a tier-table entry unusable: its line is uncorrectable, and the granule has not been mapped again since (R215)? -/
def State.entryBad (s : State) (g : Nat) : Bool :=
  s.badEntries.contains g || s.failing.contains (s.entryLine g) ||
  match Map.get? s.upsets (s.entryLine g) with
  | none => false
  | some p => (rsDecode (patternOf p)).isNone

/-- A granule is mapped anew: its entry is good again, and the other entries of an uncorrectable line stay bad until
firmware maps them again (R215). -/
def State.healEntry (s : State) (g : Nat) : State :=
  if !(s.entryBad g) then s else
  let k := s.entryLine g
  let line : List Nat := if s.failing.contains k || (Map.get? s.upsets k).isSome then (List.range 8).map (g / 8 * 8 + ·) else []
  { s with badEntries := (s.badEntries ++ line.filter fun x => !(s.badEntries.contains x)).filter (· != g),
           upsets := Map.erase s.upsets k, failing := s.failing.filter (· != k) }

/-- The line of a tier-table entry is read with the access that the entry serves: what can be corrected in it is (R173, R213). -/
def State.seenEntry (s : State) (g : Nat) : State :=
  match Map.get? s.upsets (s.entryLine g) with
  | none => s
  | some p => if (rsDecode (patternOf p)).isNone then s else (s.eccLine (s.entryLine g) p g 0 16).1

/-- Read the tier-table entry of a granule for an access: whether it is unusable, which is recorded as any uncorrectable error
(R173, R213, R215). -/
def State.entryRead (s : State) (g sheet : Nat) : State × Bool :=
  if s.entryBad g then (s.uncorr 4 g 0 sheet, true) else (s.seenEntry g, false)

/-- Read a TIER range through the code. -/
def State.eccTier (s : State) (a n sheet : Nat) : State × Option Nat :=
  (piecesOf a n).foldl (fun st p =>
    match st.2 with
    | some _ => st
    | none =>
      let e := st.1.entryRead (p.1 / 65536) sheet
      if e.2 then (e.1, some p.1) else e.1.ecc (e.1.tierPhys p.1) p.2 p.1 0 sheet) (s, none)

/-- Read a TIER range through the code, with its touch bits (R176, R213, R215). -/
def State.eccTouch (s : State) (a n sheet : Nat) : State × Option Nat :=
  let c := s.eccTier a n sheet
  ((granulesOf a n).foldl State.touch c.1, c.2)

/-- A system unit's read of a word at a TIER address; data that cannot be corrected reads zero (R216, log entry 139). -/
def State.tierLe (s : State) (a n : Nat) : Nat :=
  match (s.eccTier a n 16).2 with
  | none => leNat (s.loadTier a n)
  | some _ => 0

/-- A system unit's read of a TIER range is counted, and recorded, as any other, with the touch bits (R176, R213, R215). -/
def State.seenTier (s : State) (a n sheet : Nat) : State := (s.eccTouch a n sheet).1

/-- What a consumer of a range gets: its bytes, or the address of the first line that cannot be corrected. -/
abbrev ReadBytes := State × Except Nat (List Byte)

/-- The bytes of a physical range as a consumer gets them (R213, R215, R216). -/
def State.readPhys (s : State) (a n base scribe sheet : Nat) : ReadBytes :=
  match s.ecc a n base scribe sheet with
  | (s, none) => (s, .ok (Mem.read s.mem a n))
  | (s, some x) => (s, .error x)

/-- The bytes of a TIER range as a consumer gets them, with the touch bits (R176, R213, R215). -/
def State.readTier (s : State) (a n sheet : Nat) : ReadBytes :=
  match s.eccTier a n sheet with
  | (s, none) => ((granulesOf a n).foldl State.touch s, .ok (s.loadTier a n))
  | (s, some x) => (s, .error x)

/-- Bytes of the carve-out as a consumer gets them. -/
def State.readCarve (s : State) (a n : Nat) : ReadBytes := s.readPhys (physCarve a) n a 0 16

/-! ## Completion records (06_dma_pages.md R251 to R254) -/

/-- The bytes of a completion record (R251). -/
def recBytes (tag unit kind outcome st progress faddr tstart tend abrq : Nat) : List Byte :=
  leBytes 8 (tag % 2 ^ 32 + unit % 256 * 2 ^ 32 + kind % 256 * 2 ^ 40 + outcome % 256 * 2 ^ 48 + st % 256 * 2 ^ 56) ++
  leBytes 8 progress ++ leBytes 8 faddr ++ leBytes 8 tstart ++ leBytes 8 tend ++ leBytes 8 abrq ++ List.replicate 16 0

/-- STATE of the record at a physical address (R252); a line that cannot be corrected has no state a unit may act on (05 R216). -/
def State.recState (s : State) (a : Nat) : Nat := if s.clean (a / 64 * 64) 64 then Mem.le s.mem (a + 7) 1 else 0xFF

/-- KIND of the record at a physical address. -/
def State.recKind (s : State) (a : Nat) : Nat := Mem.le s.mem (a + 5) 1

/-- Write RUNNING with T_START (R253). -/
def State.recRun (s : State) (a tag unit kind : Nat) : State := s.store a (recBytes tag unit kind 0 1 0 0 s.now 0 0)

/-- The terminal write (R254): only a RUNNING or IDLE record is written.  It reads the line for that, at address `base` (05 R213, R215,
R216). -/
def State.recEnd (s : State) (a tag unit kind outcome progress faddr : Nat) (abrq : Nat := 0) (base : Nat := a % 2 ^ 48) : State :=
  let s := s.seen (a / 64 * 64) 64 base 16
  let ts := Mem.le s.mem (a + 24) 8
  if s.recState a ≥ 2 then s else
  s.store a (recBytes tag unit kind outcome (if outcome = 0 then 2 else 3) progress faddr ts s.now abrq)

/-! ## Packets that leave the module -/

/-- An empty packet of an opcode to a position. -/
def mkPacket (opc src dst : Nat) : Packet :=
  ⟨BitVec.ofNat 8 opc, 0, BitVec.ofNat 16 src, BitVec.ofNat 16 dst, 0, 0, 0, none, 0, 0, 0, 0, 0, 1, 0, 0, 0, [], false⟩

/-- A time-out of some ns from a moment has come: rack time is at least that (DESIGN CHOICE, log entry 7). -/
def State.waited (s : State) (since ns : Nat) : State :=
  { s with time := { s.time with rack := max s.time.rack ((since + ns) * 2 ^ 32) } }

/-- Draw a free choice. -/
def State.draw (s : State) : State := { s with draws := s.draws + 1 }

/-- Commands act on a powered module only; an unpowered one waits for power-good (DESIGN CHOICE, log entry 11). -/
def act (s : State) (f : State → State) : Host.Outcome State Fault Refusal := .next (if s.powered then f s else s)

/-- As `act`, for a command whose operand lists must have the lengths their own headers give (DESIGN CHOICE, log entry 13). -/
def actIf (wf : Bool) (s : State) (f : State → State) : Host.Outcome State Fault Refusal :=
  if wf then act s f else .fault .malformed

/-- Answer a Quill core's access: 0 with the bytes read, or an error. -/
def State.answer (s : State) (status : Nat) (bs : List Byte) : State := { s with answers := s.answers ++ [(status, bs)] }

/-- An image becomes active in its part: RUN_VER and RUN_INFO show it (17_firmware_security.md R680, R693, R695). -/
def State.setActive (s : State) (k : Nat) (m : Measured) : State :=
  let s : State := { s with sec := { s.sec with active := Map.set s.sec.active k m, pendIn := Map.erase s.sec.pendIn k } }
  let s := s.wrw (Reg.RUN_VER k) (BitVec.ofNat 32 m.version)
  (s.wr (Reg.RUN_INFO k) 31 16 m.gen).wr (Reg.RUN_INFO k) 15 8 m.floor

/-- The image written in place for a kind becomes active, if there is one. -/
def State.activate (s : State) (k : Nat) : State :=
  match Map.get? s.sec.pendIn k with
  | none => s
  | some m => s.setActive k m

/-- A sheet loads the newest SCRIBE microcode; with the last one the new image is the active one (R680, R693). -/
def State.loadScribeCode (s : State) (i : Nat) : State :=
  let s : State := { s with sec := { s.sec with scribeOld := s.sec.scribeOld.filter (· != i) } }
  if s.sec.scribeOld.isEmpty then s.activate 2 else s

end Sys2Proof.Machine
end

