-- ==== Sys2Proof/Machine/Formats.lean ====
section
/-! DEFINITION. Element formats, block scales, folios, conversion, quantisation and the rounding mixer (02_formats.md). -/

namespace Sys2Proof.Machine

/-- Bits per element of a format code (R44, R45). -/
def fmtBits (f : Nat) : Nat := [32, 16, 8, 8, 6, 4, 4, 2].getD f 8

/-- Folio length in lines of a format code (R46). -/
def fmtLines (f : Nat) : Nat := [259, 131, 67, 67, 51, 35, 35, 19].getD f 1

/-- Exponent bits, mantissa bits and bias of the narrow floating-point formats (R36). -/
def fmtShape (f : Nat) : Nat × Nat × Nat :=
  match f with
  | 0 => (8, 23, 127)
  | 1 => (8, 7, 127)
  | 2 => (4, 3, 7)
  | 3 => (5, 2, 15)
  | 4 => (3, 2, 3)
  | _ => (2, 1, 1)

/-- Decode an element code (R36 to R38). -/
def decodeElem (f c : Nat) : Fp :=
  match f with
  | 6 => if c < 8 then .fin false c 0 else .fin true (16 - c) 0
  | 7 => if c = 1 then .fin false 1 0 else if c = 3 then .fin true 1 0 else .fin false 0 0
  | _ =>
    let (eb, mb, bias) := fmtShape f
    let s : Bool := c / 2 ^ (eb + mb) % 2 == 1
    let e : Nat := c / 2 ^ mb % 2 ^ eb
    let m : Nat := c % 2 ^ mb
    let top : Bool := e + 1 == 2 ^ eb
    if top && decide (f ≤ 1 ∨ f = 3) then (if m = 0 then .inf s else .nan)
    else if f = 2 && top && m == 7 then .nan
    else if e = 0 then .fin s m (1 - (bias : Int) - mb)
    else .fin s (2 ^ mb + m) ((e : Int) - bias - mb)

/-- Decode a UE5M3 block scale (R40). -/
def decodeScale (c : Nat) : Fp :=
  let e := c / 8 % 32
  if e = 0 then .fin false (c % 8) (-17) else .fin false (8 + c % 8) ((e : Int) - 18)

/-- Largest finite code, without the sign (R36). -/
def maxCode (f : Nat) : Nat := [0x7F7FFFFF, 0x7F7F, 0x7E, 0x7B, 0x1F, 0x7, 7, 1].getD f 0

/-- The saturation threshold for a sign, as m·2^e (R52). -/
def satThr (f : Nat) (neg : Bool) : Nat × Int :=
  match f with
  | 1 => (511, 119)
  | 2 => (464, 0)
  | 3 => (61440, 0)
  | 4 => (30, 0)
  | 5 => (7, 0)
  | 6 => if neg then (17, -1) else (15, -1)
  | _ => (3, -1)

/-- A converted element: its code and what it adds to NSAT, NOVF and NUFL (R53). -/
structure Conv where
  code : Nat
  nsat : Nat
  novf : Nat
  nufl : Nat
  deriving DecidableEq, Repr

/-- Put the sign into a magnitude code of a format. -/
def signed (f : Nat) (neg : Bool) (mag : Nat) : Nat :=
  if !neg then mag else
  match f with
  | 6 => (16 - mag) % 16
  | 7 => if mag = 0 then 0 else 3
  | _ => mag + 2 ^ (fmtBits f - 1)

/-- Round a magnitude m·2^e to units of 2^u, to nearest even or stochastically with the 16 random bits (R54, R55). -/
def roundMag (sr : Bool) (rnd : Nat) (m : Nat) (e u : Int) : Nat :=
  if u ≤ e then m * 2 ^ (e - u).toNat else
  let d := (u - e).toNat
  if sr then m / 2 ^ d + if rnd < m % 2 ^ d * 65536 / 2 ^ d then 1 else 0
  else shiftRne m d

/-- Convert an FP32 value to a format (R53 to R55). -/
def convert (f : Nat) (sr : Bool) (rnd : Nat) (y : W32) : Conv :=
  match Fp.of32 y with
  | .nan =>
    if f = 0 then ⟨y.toNat, 0, 1, 0⟩ else
    ⟨match f with | 1 => 0x7FC0 | 2 => 0x7F | 3 => 0x7E | _ => 0, 0, 1, 0⟩
  | .inf s =>
    if f = 0 then ⟨y.toNat, 0, 1, 0⟩ else
    if f = 1 then ⟨if s then 0xFF80 else 0x7F80, 0, 1, 0⟩ else
    if f = 3 then ⟨if s then 0xFC else 0x7C, 0, 1, 0⟩ else
    ⟨signed f s (if f = 6 && s then 8 else maxCode f), 0, 1, 0⟩
  | .fin s m e =>
    if f = 0 then ⟨y.toNat, 0, 0, 0⟩ else
    let big := if f = 6 && s then 8 else maxCode f
    let (tm, te) := satThr f s
    if !(ltFin false m e false tm te) then ⟨signed f s big, 1, 0, 0⟩ else
    if m = 0 then ⟨signed f s 0, 0, 0, 0⟩ else
    let mag :=
      if f ≥ 6 then roundMag sr rnd m e 0 else
      let (_, mb, bias) := fmtShape f
      let umin : Int := 1 - (bias : Int) - mb
      let u : Int := max ((Nat.log2 m : Int) + e - mb) umin
      (u - umin).toNat * 2 ^ mb + roundMag sr rnd m e u
    let mag := min mag big
    ⟨signed f s mag, 0, 0, if mag = 0 then 1 else 0⟩

/-- The least scale code whose value is at or above t, in FINE or POW2 mode (R56). -/
def smallestCode (fine : Bool) (t : W32) : Nat :=
  let cands := if fine then List.range 256 else [1, 2, 4] ++ (List.range 31).map fun i => 8 * (i + 1)
  (cands.find? fun c => !((decodeScale c).lt (Fp.of32 t))).getD (if fine then 0xFF else 0xF8)

/-- Largest finite magnitude of a target, 7 for INT4, divided by 2^h (R56). -/
def fmaxOver (f h : Nat) : W32 :=
  match f with
  | 2 => round32 false 448 (-(h : Int))
  | 3 => round32 false 57344 (-(h : Int))
  | 4 => round32 false 28 (-(h : Int))
  | 5 => round32 false 6 (-(h : Int))
  | 6 => round32 false 7 (-(h : Int))
  | _ => round32 false 1 (-(h : Int))

/-- Largest finite magnitude in a list of values (R56). -/
def amaxOf (vs : List W32) : W32 :=
  vs.foldl (fun a v => if (Fp.of32 v).isFin && (Fp.of32 a).lt (Fp.of32 (fabs v)) then fabs v else a) 0

/-- A quantised block: the scale code and the element codes. -/
structure Block where
  scale : Nat
  elems : List Conv
  deriving DecidableEq, Repr

/-- The quantise path of R56: each element is a value and its random bits, or none outside the valid region (R47)
(DEDUCED in part, log entry 56). -/
def quantBlock (f h : Nat) (fine sr : Bool) (s2 : W32) (vs : List (Option (W32 × Nat))) : Block :=
  if f ≤ 1 then
    ⟨0x78, vs.map fun v => match v with | none => ⟨0, 0, 0, 0⟩ | some (x, u) => convert f sr u x⟩
  else
  let amax := amaxOf (vs.filterMap fun v => v.map Prod.fst)
  if (Fp.of32 amax).isZero then
    ⟨0, vs.map fun v => match v with
      | none => ⟨0, 0, 0, 0⟩
      | some (x, _) => ⟨0, 0, if (Fp.of32 x).isFin then 0 else 1, 0⟩⟩
  else
  let d := fmul s2 (fmaxOver f h)
  let t := fdiv amax d
  let c := smallestCode fine t
  let c := if c = 0 then 1 else c
  let r := fmul (decodeScale c).to32 s2
  ⟨c, vs.map fun v => match v with
    | none => ⟨0, 0, 0, 0⟩
    | some (x, u) => convert f sr u (fdiv x r)⟩

/-! ## The rounding mixer (R58 to R61) -/

/-- Round constants of R61. -/
def mixC : List W32 := [0x9e3779b9, 0x3c6ef372, 0xdaa66d2b, 0x78dde6e4, 0x1715609d, 0xb54cda56]

/-- Rotations of R61. -/
def mixS : List Nat := [8, 20, 12, 24, 4, 16]

/-- The mixer: r0 and r1 (R61). -/
def mixer (k0 k1 x y : W32) : W32 × W32 :=
  let r := (List.range 6).foldl (fun (ab : W32 × W32) i =>
    let a := ab.1 + ab.2 + mixC.getD i 0
    (a, (ab.2.rotateLeft (mixS.getD i 0)) ^^^ a)) (x ^^^ k0, y ^^^ k1)
  (r.1 ^^^ k1, r.2 + k0)

/-- The 16 random bits of an element: seed, gloss for gloss updates, stream, layer, slip field, position field, element (R58)
(DEDUCED in part, log entry 64). -/
def rndBits (seed gloss stream layer slip pos e : Nat) : Nat :=
  let k0 : W32 := BitVec.ofNat 32 seed
  let k1 : W32 := BitVec.ofNat 32 (seed / 2 ^ 32) ^^^ BitVec.ofNat 32 gloss
  let x : W32 := BitVec.ofNat 32 (stream % 16 * 2 ^ 26 + layer % 256 * 2 ^ 18 + slip % 2 ^ 18)
  let y : W32 := BitVec.ofNat 32 (e / 4 % 4096 * 2 ^ 20 + pos % 2 ^ 20)
  let r := mixer k0 k1 x y
  match e % 4 with
  | 0 => r.1.toNat % 65536
  | 1 => r.1.toNat / 65536
  | 2 => r.2.toNat % 65536
  | _ => r.2.toNat / 65536

/-! ## Folios (R41 to R49) -/

/-- Split bytes into element codes in increasing element index (R45). -/
def unpack (f : Nat) (bs : List Byte) : List Nat :=
  match f with
  | 0 => (chunks 4 bs.length bs).map leNat
  | 1 => (chunks 2 bs.length bs).map leNat
  | 2 | 3 => bs.map BitVec.toNat
  | 4 => (chunks 3 bs.length bs).flatMap fun w => let n := leNat w; [n % 64, n / 64 % 64, n / 4096 % 64, n / 262144 % 64]
  | 5 | 6 => bs.flatMap fun b => [b.toNat % 16, b.toNat / 16]
  | _ => bs.flatMap fun b => [b.toNat % 4, b.toNat / 4 % 4, b.toNat / 16 % 4, b.toNat / 64]

/-- Pack element codes into bytes (R45). -/
def pack (f : Nat) (cs : List Nat) : List Byte :=
  match f with
  | 0 => cs.flatMap (leBytes 4)
  | 1 => cs.flatMap (leBytes 2)
  | 2 | 3 => cs.map (BitVec.ofNat 8)
  | 4 => (chunks 4 cs.length cs).flatMap fun w =>
      leBytes 3 (w.getD 0 0 % 64 + w.getD 1 0 % 64 * 64 + w.getD 2 0 % 64 * 4096 + w.getD 3 0 % 64 * 262144)
  | 5 | 6 => (chunks 2 cs.length cs).map fun w => BitVec.ofNat 8 (w.getD 0 0 % 16 + w.getD 1 0 % 16 * 16)
  | _ => (chunks 4 cs.length cs).map fun w =>
      BitVec.ofNat 8 (w.getD 0 0 % 4 + w.getD 1 0 % 4 * 4 + w.getD 2 0 % 4 * 16 + w.getD 3 0 % 4 * 64)

/-- Bytes of a format's row of 64 elements. -/
def rowBytes (f : Nat) : Nat := 8 * fmtBits f

/-- A folio read from a store. -/
structure Folio where
  fmt : Nat
  flags : Nat
  rows : Nat
  cols : Nat
  scale2 : W32
  scales : List Nat
  codes : List Nat
  deriving DecidableEq, Repr

/-- Does a header pass R44: known format, rows and columns from 1 to 64, version 0x01? -/
def headerOk (h : List Byte) : Bool :=
  let b (i : Nat) : Nat := (h.getD i 0).toNat
  decide (b 0 % 16 ≤ 7) && decide (1 ≤ b 2 ∧ b 2 ≤ 64) && decide (1 ≤ b 3 ∧ b 3 ≤ 64) && b 15 == 1

/-- Format code of a header. -/
def headerFmt (h : List Byte) : Nat := (h.getD 0 0).toNat % 16

/-- Parse the bytes of a folio. -/
def Folio.parse (bs : List Byte) : Folio :=
  let f := headerFmt bs
  ⟨f, (bs.getD 1 0).toNat, (bs.getD 2 0).toNat, (bs.getD 3 0).toNat, BitVec.ofNat 32 (leNat ((bs.drop 4).take 4)),
    ((bs.drop 64).take 128).map BitVec.toNat, unpack f ((bs.drop 192).take (64 * fmtLines f - 192))⟩

/-- Is the payload column-major (R43)? -/
def Folio.colMaj (x : Folio) : Bool := bit x.flags 1

/-- Element index of row r and column c (R43). -/
def Folio.index (x : Folio) (r c : Nat) : Nat := if x.colMaj then 64 * c + r else 64 * r + c

/-- Code of an element; zero outside the valid region (R47). -/
def Folio.code (x : Folio) (r c : Nat) : Nat := if r < x.rows && c < x.cols then x.codes.getD (x.index r c) 0 else 0

/-- Scale code that covers an element (R48). -/
def Folio.scaleAt (x : Folio) (r c : Nat) : Nat := x.scales.getD (x.index r c / 32) 0

/-- A decoded element without its scales; none outside the valid region, where consumers ignore what is stored (R47). -/
def Folio.elem? (x : Folio) (r c : Nat) : Option Fp :=
  if r < x.rows && c < x.cols then some (decodeElem x.fmt (x.code r c)) else none

/-- The FP32 value of an element (R48, R49); an FP32 element is taken as it stands (R147, R742). -/
def Folio.value (x : Folio) (r c : Nat) : W32 :=
  if x.fmt = 0 then BitVec.ofNat 32 (x.code r c) else
  let e := decodeElem x.fmt (x.code r c)
  if x.fmt = 1 then e.to32 else
  if r < x.rows && c < x.cols then ((e.mul (decodeScale (x.scaleAt r c))).mul (Fp.of32 x.scale2)).to32 else 0

/-- The ternary elements that hold the code 0b10 (R38). -/
def Folio.badTer (x : Folio) : Nat :=
  if x.fmt = 7 then
    ((List.range 64).foldl (fun n r => n + ((List.range 64).filter fun c => x.code r c == 2).length) 0)
  else 0

/-- A produced folio: its bytes, and its counts. -/
structure Made where
  bytes : List Byte
  nsat : Nat
  novf : Nat
  nufl : Nat
  deriving DecidableEq, Repr

/-- What a conversion takes from the recipe and the stroke (R68, R119). -/
structure Recipe where
  slot : Nat
  fmt : Nat
  sr : Bool
  fine : Bool
  headroom : Nat
  stream : Nat
  satThr : Nat
  uflThr : Nat
  s2 : W32
  deriving DecidableEq, Repr

/-- Header bytes of a produced folio (R42, R64, R65); counts beyond 16 bits cannot occur.  CK is 0 (R51), and the CHECK bytes
are then zero (DESIGN CHOICE, log entry 129). -/
def makeHeader (r : Recipe) (rows cols : Nat) (outcm : Bool) (sr : Bool) (nsat novf nufl : Nat) : List Byte :=
  let blot : Bool := decide (r.satThr < nsat + novf) || decide (r.uflThr < nufl)
  let s2 : W32 := if r.fmt ≤ 1 then 0x3F800000 else r.s2
  [BitVec.ofNat 8 r.fmt, BitVec.ofNat 8 ((if outcm then 2 else 0) + (if sr then 4 else 0) + if blot then 8 else 0),
   BitVec.ofNat 8 rows, BitVec.ofNat 8 cols] ++ leBytes 4 s2.toNat ++ leBytes 2 nsat ++ leBytes 2 novf ++ leBytes 2 nufl ++
  [BitVec.ofNat 8 r.slot, 1] ++ List.replicate 48 0

/-- Make a folio of rows × cols from the values of a tile: `val r c` is none for an element of a dropped row (R47, R56, R138). -/
def makeFolio (rc : Recipe) (sr : Bool) (rows cols : Nat) (outcm : Bool) (val : Nat → Nat → Option W32)
    (rnd : Nat → Nat → Nat) : Made :=
  let blocks := (List.range 128).map fun b =>
    quantBlock rc.fmt rc.headroom rc.fine sr rc.s2 ((List.range 32).map fun i =>
      let x := 32 * b + i
      let r := if outcm then x % 64 else x / 64
      let c := if outcm then x / 64 else x % 64
      if r < rows && c < cols then (val r c).map fun v => (v, if sr then rnd r c else 0) else none)
  let cs := blocks.flatMap Block.elems
  let nsat := (cs.map Conv.nsat).foldl (· + ·) 0
  let novf := (cs.map Conv.novf).foldl (· + ·) 0
  let nufl := (cs.map Conv.nufl).foldl (· + ·) 0
  ⟨makeHeader rc rows cols outcm sr nsat novf nufl ++ blocks.map (fun b => BitVec.ofNat 8 b.scale) ++
    pack rc.fmt (cs.map Conv.code), nsat, novf, nufl⟩

/-- Is a produced folio a blot (R65)? -/
def Made.blot (m : Made) (r : Recipe) : Bool := decide (r.satThr < m.nsat + m.novf) || decide (r.uflThr < m.nufl)

/-- Weight folios of a plane (R72); 0 for a format the array takes no weights of. -/
def planeFolios (f : Nat) : Nat :=
  match f with
  | 1 | 2 | 3 | 4 => 1
  | 5 | 6 => 2
  | 7 => 4
  | _ => 0

end Sys2Proof.Machine
end

