-- ==== Sys2Proof/Machine/Descriptors.lean ====
section
/-! DEFINITION. The fields of a DMA descriptor and of its address words, what R229 rejects, and where a taken descriptor stands
(06_dma_pages.md R225 to R230, R240, R247, R251). -/

namespace Sys2Proof.Machine

/-! ## Descriptor fields (R225 to R227) -/

/-- OP. -/
def dOp (d : Nat) : Nat := bits d 7 0
/-- SRC. -/
def dSrc (d : Nat) : Nat := bits d 255 192
/-- DST. -/
def dDst (d : Nat) : Nat := bits d 319 256
/-- AUX0. -/
def dAux0 (d : Nat) : Nat := bits d 447 384
/-- AUX1. -/
def dAux1 (d : Nat) : Nat := bits d 511 448
/-- Units. -/
def dCount (d : Nat) : Nat := bits d 135 120 + 1
/-- LEN. -/
def dLen (d : Nat) : Nat := bits d 112 96
/-- SSTRIDE. -/
def dSstride (d : Nat) : Nat := bits d 147 136
/-- DSTRIDE. -/
def dDstride (d : Nat) : Nat := bits d 159 148
/-- DMASK. -/
def dDmask (d : Nat) : Nat := bits d 95 88
/-- GROUP. -/
def dGroup (d : Nat) : Nat := bits d 63 48
/-- CREC. -/
def dCrec (d : Nat) : Nat := bits d 383 336
/-- CRQ. -/
def dCrq (d : Nat) : Bool := bit d 335
/-- TAG. -/
def dTag (d : Nat) : Nat := bits d 191 160
/-- SPACE of an address word. -/
def awSpace (w : Nat) : Nat := bits w 63 60
/-- SCRIBE of an address word. -/
def awScribe (w : Nat) : Nat := bits w 57 48
/-- ADDR of an address word. -/
def awAddr (w : Nat) : Nat := bits w 47 0

/-- Is an address word well formed for an operand: a known SPACE, its reserved and unused bits zero, aligned (R226, R229)? -/
def awOk (w : Nat) : Bool :=
  decide (1 ≤ awSpace w ∧ awSpace w ≤ 4) && bits w 59 58 == 0 && awAddr w % 64 == 0 && (awSpace w == 1 || awScribe w == 0)

/-- Is an address word a TIER word?  The READY word and the staged directory entry are address words as any other, so their ADDR is a
multiple of 64 (R226) (DEDUCED, log entry 144). -/
def awTier (w : Nat) : Bool := awOk w && awSpace w == 2

/-- Has a descriptor a WELL operand? -/
def dWell (d : Nat) : Bool := awSpace (dSrc d) == 1 || awSpace (dDst d) == 1 || (dOp d == 3 && awSpace (dAux1 d) == 1)

/-- Is an OP one of R227? -/
def opKnown (op : Nat) : Bool := decide (1 ≤ op ∧ op ≤ 7)

/-- Does a descriptor break R229? -/
def dBad (quill : Bool) (d : Nat) : Bool :=
  let op := dOp d
  let well := awSpace (dDst d) == 1 || (op == 3 && awSpace (dAux1 d) == 1)
  let lenOk := decide (64 ≤ dLen d ∧ dLen d ≤ 65536) && dLen d % 64 == 0
  let none4 := dSstride d == 0 && dDstride d == 0 && dCount d == 1 && dLen d == 0
  bits d 334 320 != 0 || bits d 119 113 != 0 || bits d 87 64 != 0 || bits d 39 8 != 0 || bits d 47 41 != 0 ||
  (!well && dDmask d != 0) ||
  (!quill && (awSpace (dSrc d) == 4 || awSpace (dDst d) == 4 || (op == 3 && awSpace (dAux1 d) == 4))) ||
  !(match op with
    | 1 => awOk (dSrc d) && awOk (dDst d) && lenOk && dAux0 d == 0 && dAux1 d == 0
    | 2 => awOk (dSrc d) && awOk (dDst d) && dLen d == 0 && dAux0 d == 0 && dAux1 d == 0
    | 3 => awTier (dSrc d) && awOk (dDst d) && lenOk && awOk (dAux1 d) && bits (dAux0 d) 47 18 == 0
    | 4 => awOk (dSrc d) && awOk (dDst d) && dLen d == 0 && awTier (dAux0 d) && bits (dAux1 d) 63 48 != 0
    | 5 => awTier (dSrc d) && awTier (dDst d) && none4 && awTier (dAux1 d) && bits (dAux0 d) 31 12 == 0
    | 6 => dSrc d == 0 && dDst d == 0 && none4 && dAux1 d == 0 && bits (dAux0 d) 63 16 == 0
    | 7 => (awTier (dSrc d) || (quill && awOk (dSrc d) && awSpace (dSrc d) == 4)) && dDst d == 0 && none4 &&
        dAux0 d == 0 && dAux1 d == 0
    | _ => false)

/-- Scribes a WELL destination writes (R230). -/
def wellScribes (d w : Nat) : List Nat :=
  if dDmask d = 0 then [awScribe w]
  else ((List.range 8).filter fun k => bit (dDmask d) k).map fun k => 8 * (awScribe w / 8) + k

/-! ## A taken descriptor -/

/-- A descriptor as it is taken: the count of its queue is its number (R221). -/
def DmaOp.taken (qn num d : Nat) : DmaOp :=
  { qn := qn, num := num, desc := d, started := false, engine := 0, units := 0, lines := 0, total := 0, sel := [], nrub := 0,
    lenT := 0, selLen := 0, entry := 0, published := 0, owed := 0, lastDone := false, ending := none, waiters := [], bad := none, wbuf := [] }

/-- What tells a taken descriptor from every other. -/
def DmaOp.key (o : DmaOp) : Nat × Nat := (o.qn, o.num)

/-- The engine that runs a descriptor, as UNIT gives it; 0xFF before it starts. -/
def DmaOp.unit (o : DmaOp) : Nat := if o.started then o.engine else 0xFF

/-- The taken descriptor of a key. -/
def State.opOf (s : State) (k : Nat × Nat) : Option DmaOp := s.dma.find? fun y => y.key == k

/-- The operation as it stands now. -/
def State.opNow (s : State) (o : DmaOp) : DmaOp := (s.opOf o.key).getD o

/-- Change the taken descriptor of a key. -/
def State.mapOp (s : State) (k : Nat × Nat) (f : DmaOp → DmaOp) : State :=
  { s with dma := s.dma.map fun y => if y.key == k then f y else y }

/-- Replace an operation of the in-flight list. -/
def State.updOp (s : State) (o : DmaOp) : State := s.mapOp o.key fun _ => o

/-- Lines handed to their destination: those delivered, and those that wait to be written to an aperture. -/
def DmaOp.handed (o : DmaOp) : Nat := o.lines + (o.wbuf.filter WaitingLine.counts).length

/-- Address of the unit an operation moves next (R228, R238, R247). -/
def DmaOp.unitAddr (o : DmaOp) : Nat :=
  let d := o.desc
  let i := o.units
  let src := awAddr (dSrc d)
  match dOp d with
  | 1 => src + (if dSstride d = 0 then dLen d * i else 64 * dSstride d * i)
  | 3 => src + 64 * dSstride d * (o.sel.getD i (0, 0)).2
  | 5 =>
    let nd := bits (dAux0 d) 63 48
    let step := bits o.entry 127 112
    if i < nd then bits o.entry 47 0 + 64 * step * i else bits o.entry 111 64 + 64 * step * (i - nd)
  | _ => src + (if dSstride d = 0 then 64 * o.handed else 64 * dSstride d * i)

/-- FADDR of an operation that stops where it stands: the first line or unit not done, by the address it is read from, and after the
last unit what R242, R243 and R247 still write (R251). -/
def DmaOp.nextAddr (o : DmaOp) : Nat :=
  let d := o.desc
  match o.wbuf with
  | w :: _ => w.src
  | [] =>
  if o.started && decide (o.total ≤ o.units) then
    match dOp d with
    | 3 | 5 => awAddr (dAux1 d)
    | 4 => awAddr (dAux0 d)
    | _ => o.unitAddr
  else match dOp d with
    | 1 | 3 => o.unitAddr + 64 * (o.lines - o.units * (dLen d / 64))
    | _ => o.unitAddr

end Sys2Proof.Machine
end

