-- ==== Sys2Proof/Machine/Crypto.lean ====
section
/-! DEFINITION. SHAKE256 (FIPS 202), CRC-32C (12_fabric_links.md R484) and Falcon-1024 verification (17_firmware_security.md
R671), which the specification names and other documents define (PRESUMED, log entry 16). -/

namespace Sys2Proof.Machine

/-- One step of the 8-bit shift register whose bits make the round constants (FIPS 202, rc). -/
def rcNext (r : Nat) : Nat := if r < 128 then 2 * r else (2 * r - 256) ^^^ 0x71

/-- The round constant drawn from seven steps of the register, bit 2^j - 1 from step j, and the register after them. -/
def rcDraw : Nat → Nat → Nat → W64 × Nat
  | 0, _, r => (0, r)
  | n + 1, j, r =>
    let rest := rcDraw n (j + 1) (rcNext r)
    (if r.testBit 0 then rest.1 ||| 1#64 <<< (2 ^ j - 1) else rest.1, rest.2)

/-- The constants of n rounds, from a register. -/
def rcList : Nat → Nat → List W64
  | 0, _ => []
  | n + 1, r => (rcDraw 7 0 r).1 :: rcList n (rcDraw 7 0 r).2

/-- The place of lane (x, y) on the walk (1, 0), (0, 2), ... that numbers the lanes (FIPS 202, rho); 24 for lane (0, 0). -/
def laneTurn (x y : Nat) : Nat :=
  ((List.range 24).foldl (fun (st : Nat × Nat × Nat) t =>
    (if st.2 = (x, y) then t else st.1, st.2.2, (2 * st.2.1 + 3 * st.2.2) % 5)) (24, 1, 0)).1

/-- The rotation of lane (x, y): the triangular number of its place, none for lane (0, 0). -/
def laneRot (x y : Nat) : Nat :=
  let t := laneTurn x y
  if t = 24 then 0 else (t + 1) * (t + 2) / 2 % 64

/-- The rotations, plane by plane. -/
def laneRots : List (List Nat) := (List.range 5).map fun y => (List.range 5).map fun x => laneRot x y

/-- The list turned left by one. -/
def turned {α : Type} (l : List α) : List α := l.drop 1 ++ l.take 1

/-- XOR of two planes. -/
def planeXor (p q : List W64) : List W64 := List.zipWith (· ^^^ ·) p q

/-- Theta: every plane takes the parity of the columns beside it. -/
def mixColumns (a : List (List W64)) : List (List W64) :=
  let parity := a.foldl planeXor (List.replicate 5 0)
  let mask := planeXor (parity.drop 4 ++ parity.take 4) ((turned parity).map (·.rotateLeft 1))
  a.map (planeXor mask)

/-- Rho and pi: rotate each lane, then lane (x, y) of the result is lane (x + 3y, x). -/
def moveLanes (a : List (List W64)) (rots : List (List Nat)) : List (List W64) :=
  let b := List.zipWith (List.zipWith fun l n => l.rotateLeft n) a rots
  (List.range 5).map fun y => (List.range 5).map fun x => (b.getD x []).getD ((x + 3 * y) % 5) 0

/-- Chi, within one plane. -/
def chiPlane (p : List W64) : List W64 :=
  planeXor p (List.zipWith (fun b c => ~~~b &&& c) (turned p) (turned (turned p)))

/-- Iota: the round constant into lane (0, 0). -/
def addConstant (rc : W64) (a : List (List W64)) : List (List W64) :=
  a.zipIdx.map fun e => if e.2 = 0 then planeXor e.1 [rc, 0, 0, 0, 0] else e.1

/-- Keccak-f[1600] on five planes of five lanes. -/
def keccakF (a : List (List W64)) : List (List W64) :=
  let rots := laneRots
  (rcList 24 1).foldl (fun a rc => addConstant rc ((moveLanes (mixColumns a) rots).map chiPlane)) a

/-- The five planes of a block of up to 200 bytes. -/
def toPlanes (blk : List Byte) : List (List W64) :=
  (List.range 5).map fun y => (List.range 5).map fun x =>
    BitVec.ofNat 64 (leNat ((blk.drop (40 * y + 8 * x)).take 8))

/-- XOR a 136-byte block into the planes. -/
def absorb (a : List (List W64)) (blk : List Byte) : List (List W64) := List.zipWith planeXor a (toPlanes blk)

/-- The message padded for SHAKE256. -/
def shakePad (m : List Byte) : List Byte :=
  let z := 135 - m.length % 136
  if z = 0 then m ++ [0x9F] else m ++ [0x1F] ++ List.replicate (z - 1) 0 ++ [0x80]

/-- Squeeze n blocks of 136 bytes. -/
def squeeze : Nat → List (List W64) → List Byte
  | 0, _ => []
  | n + 1, a => (a.flatten.take 17).flatMap (fun l => leBytes 8 l.toNat) ++ squeeze n (keccakF a)

/-- The first n bytes of the SHAKE256 output. -/
def shake256 (m : List Byte) (n : Nat) : List Byte :=
  let p := shakePad m
  let a := (chunks 136 p.length p).foldl (fun a b => keccakF (absorb a b)) (toPlanes [])
  (squeeze (n / 136 + 1) a).take n

/-- One bit step of the reflected Castagnoli CRC. -/
def crcStep : Nat → Nat → Nat
  | 0, c => c
  | n + 1, c => crcStep n (if c % 2 = 1 then (c / 2) ^^^ 0x82F63B78 else c / 2)

/-- CRC-32C of a byte list (R484). -/
def crc32c (bs : List Byte) : Nat := bs.foldl (fun c b => crcStep 8 (c ^^^ b.toNat)) 0xFFFFFFFF ^^^ 0xFFFFFFFF

/-! ## Falcon-1024 verification -/

/-- The bits of a byte list, most significant first. -/
def bitsMsb (bs : List Byte) : List Bool := bs.flatMap fun b => (List.range 8).map fun i => b.getLsbD (7 - i)

/-- The number a list of bits spells, most significant first. -/
def bitsNat (bs : List Bool) : Nat := bs.foldl (fun n b => 2 * n + if b then 1 else 0) 0

/-- Read a unary count: zeros up to a one. -/
def unary : List Bool → Option (Nat × List Bool)
  | [] => none
  | true :: t => some (0, t)
  | false :: t => (unary t).map fun x => (x.1 + 1, x.2)

/-- Decompress n signed coefficients; the bits left over must be zero. -/
def decompress : Nat → List Bool → Option (List Int)
  | 0, bs => if bs.any id then none else some []
  | n + 1, bs =>
    if (bs.drop 8).isEmpty then none else
    match unary (bs.drop 8) with
    | none => none
    | some (hi, rest) =>
      let m := hi * 128 + bitsNat ((bs.drop 1).take 7)
      let s := bs.headD false
      if m > 2047 || (s && m == 0) then none else
      (decompress n rest).map fun l => (if s then -(m : Int) else m) :: l

/-- Take points below 12289 from a stream of 16-bit big-endian words. -/
def hashPoints : Nat → List Byte → List Int
  | 0, _ => []
  | n + 1, a :: b :: t =>
    let w := a.toNat * 256 + b.toNat
    if w < 61445 then ((w % 12289 : Nat) : Int) :: hashPoints n t else hashPoints n t
  | _ + 1, _ => []

/-- Multiply by x modulo x^n + 1. -/
def negShift (h : List Int) : List Int := (-(h.getLastD 0)) :: h.dropLast

/-- Product of two polynomials modulo x^n + 1 and 12289. -/
def negMul (s h : List Int) : List Int :=
  (s.foldl (fun (st : List Int × List Int) c =>
    (List.zipWith (fun a b => (a + c * b) % 12289) st.1 st.2, negShift st.2)) (h.map fun _ => 0, h)).1

/-- The representative of a residue nearest zero. -/
def centre (x : Int) : Int := let r := x % 12289; if r > 6144 then r - 12289 else r

/-- Does a Falcon-1024 signature verify for a message under a public key? -/
def falconVerify (key sig msg : List Byte) : Bool :=
  key.length == 1793 && key.headD 0 == 0x0A && sig.headD 0 == 0x3A && decide (41 < sig.length) &&
  match decompress 1024 (bitsMsb (sig.drop 41)) with
  | none => false
  | some s2 =>
    let h := (chunks 14 1024 (bitsMsb key.tail)).map fun b => ((bitsNat b : Nat) : Int)
    let c := (hashPoints 2400 (shake256 (((sig.drop 1).take 40) ++ msg) 4800)).take 1024
    let s1 := List.zipWith (fun a b => centre (a - b)) c (negMul s2 h)
    h.all (fun x => decide (x < 12289)) &&
    decide ((s1 ++ s2).foldl (fun n x => n + x * x) 0 ≤ 70265242)

end Sys2Proof.Machine
end

