-- ==== Sys2Proof/Machine/Flags.lean ====
section
/-! DEFINITION. What a read and a write of a control-space register do (00_scope.md R9 to R12, 10_sheets.md R429,
19_registers.md R722): the access codes, the registers computed when they are read, and the latched HI words. -/

namespace Sys2Proof.Machine

/-- A write of v through the access codes of the fields (R11): WO, RO and RC fields store nothing. -/
def writeFields : List Field → Nat → Nat → Nat
  | [], old, _ => old
  | f :: rest, old, v =>
    let o := bits old f.hi f.lo
    let x := bits v f.hi f.lo
    let n := match f.acc with
      | .rw => x
      | .w1c => o &&& (2 ^ (f.hi + 1 - f.lo) - 1 - x)
      | .w1s => o ||| x
      | _ => o
    writeFields rest (old / 2 ^ (f.hi + 1) * 2 ^ (f.hi + 1) + n * 2 ^ f.lo + old % 2 ^ f.lo) v

/-- The word with its RC fields cleared (R11). -/
def clearRc : List Field → Nat → Nat
  | [], w => w
  | f :: rest, w =>
    clearRc rest (if f.acc = .rc then w / 2 ^ (f.hi + 1) * 2 ^ (f.hi + 1) + w % 2 ^ f.lo else w)

/-- The bits of RW fields. -/
def rwMask : List Field → Nat
  | [] => 0
  | f :: rest => (if f.acc = .rw then (2 ^ (f.hi + 1 - f.lo) - 1) * 2 ^ f.lo else 0) + rwMask rest

/-- A write with no behaviour beyond the access codes (R11); no register, no effect (R722). -/
def State.writeReg (s : State) (off v : Nat) : State :=
  match regAt off with
  | none => s
  | some r => s.wrw off (BitVec.ofNat 32 (writeFields r.fields (s.word off).toNat (v % 2 ^ 32)))

/-- A write that is applied only on a condition, and otherwise ignored and logged. -/
def State.guardedWrite (s : State) (ok : Bool) (off v cls : Nat) : State :=
  if ok then s.writeReg off v else s.logWrite off v cls

/-- Index of an offset in an array of n copies at a stride, when it is one. -/
def copyAt (base stride n off : Nat) : Option Nat :=
  if base ≤ off && (off - base) % stride == 0 && decide ((off - base) / stride < n) then some ((off - base) / stride) else none

/-- T1 locations that still serve reads of a granule that has left them (05_memory.md R193). -/
def State.t1Freeing (s : State) : Nat := (s.freeing.filter fun f => f.1 / 2 ^ 25 == 1).length

/-- Free T1 granules: those no entry has, no move has reserved and no source still serves (10_sheets.md R433 T1FREE; 05 R189, R193). -/
def State.t1Free (s : State) : Nat :=
  s.rd Reg.CAP_T1 31 0 - ((List.range 16).foldl (fun n i => n + s.rd (Reg.U1 i) 20 0) 0 +
    (s.moves.filter fun m => m.dtier == 1).length + s.t1Freeing)

/-- The Baseline grant: with SOLO it equals MCAP, held to 600 W to 2,400 W (14_power.md R607, R614). -/
def State.grant (s : State) : Nat :=
  if s.rdb Reg.BL_CFG 31 then min 2400 (max 600 (s.rd Reg.MCAP 11 0)) else s.rd Reg.GRANT 11 0

/-- Is C held at 600 W: the latch is open, input loss is latched, or a mate-detect contact has opened (R565, R576, R578, R705)?
(DEDUCED in part, log entry 69) -/
def State.capHeld (s : State) : Bool := s.rdb Reg.SB_STAT 31 || s.rdb Reg.HOLDUP 30 || s.rdb Reg.SB_STAT 28

/-- The effective cap C in W (R576; 17_firmware_security.md R680 while the Ductus image reloads). -/
def State.cap (s : State) : Nat := min (min s.grant 2400) (if s.capHeld || s.power.ductusReload then 600 else 2400)

/-- Does the module drive ALERT_N low (18_module_interfaces.md R706)? -/
def State.alert (s : State) : Bool :=
  decide (2 ≤ s.rd Reg.TOPO_STAT 2 0) || s.rd Reg.START_STAT 7 4 != 0 || s.power.crit || s.power.alertLatched

/-- Does a MOVING condition of R675 hold: the latch signal, LEAVING, or a mate-detect contact that reads unmated? -/
def State.moving (s : State) : Bool := s.rdb Reg.SB_STAT 31 || s.power.leaving || !s.power.unmated.isEmpty

/-- Does a POWER condition of R675 hold: HOLDUP.LOW, INLOSS or the battery-low signal? -/
def State.powerBad (s : State) : Bool := s.rdb Reg.HOLDUP 31 || s.rdb Reg.HOLDUP 30 || s.rdb Reg.SB_STAT 30

/-- The HI word of a 64-bit counter that a read of this LO word latches (10 R429, 15 R633), as (LO, HI) pairs. -/
def hiOf (off : Nat) : Option Nat :=
  if off = Reg.UNATTR_LO then some Reg.UNATTR_HI else
  if off = Reg.TOTAL_E_LO then some Reg.TOTAL_E_HI else
  if off = Reg.INPUT_E_LO then some Reg.INPUT_E_HI else
  if off = Reg.RT_LO then some Reg.RT_HI else
  match copyAt (Reg.RAILE_LO 0) 8 8 off with
  | some r => some (Reg.RAILE_HI r)
  | none =>
    match copyAt (Reg.ENERGY_LO 0) 0x80 16 off with
    | some i => some (Reg.ENERGY_HI i)
    | none =>
      match copyAt (Reg.STEP_LO 0) 0x40 16 off with
      | some j => some (Reg.STEP_HI j)
      | none => (copyAt (Reg.CENERGY_LO 0 0) 0x20 128 off).map fun i => Reg.CENERGY_HI (i / 8) (i % 8)

/-- Is the clock of a quire gated because all its scribes watch, under a calibration too (03_scribe.md R103, R116, R117)? -/
def State.watchGated (s : State) (q : Nat) : Bool :=
  s.rd (Reg.QUIRE_STAT q) 2 0 == 4 || (Map.getD s.quires q QuireRt.zero).testFrom == some 4

/-- The current word of a register: the ones that copy or count other state are computed. -/
def State.view (s : State) (off : Nat) : W32 :=
  let w (n : Nat) : W32 := BitVec.ofNat 32 n
  if off = Reg.GSTAT then
    w ((if s.alert then 2 ^ 31 else 0) + (if s.power.leaving then 2 ^ 30 else 0) + s.rd off 29 28 * 2 ^ 28 + s.rd Reg.START_STAT 7 4 * 65536 + s.rd Reg.START_STAT 3 0 * 4096 +
      s.rd Reg.TOPO_STAT 2 0)
  else if off = Reg.PWR_STAT then setBits (setBits (s.word off) 26 26 (if s.capHeld then 1 else 0)) 11 0 s.cap
  else if off = Reg.GRANT then w s.grant
  else if off = Reg.SB_STAT then setBits (s.word off) 29 29 (if s.alert then 1 else 0)
  else if off = Reg.SEC_STAT then
    setBits (setBits (setBits (s.word off) 24 24 (if s.sec.upd.isSome then 1 else 0)) 23 23 (if s.moving then 1 else 0)) 22 22
      (if s.powerBad then 1 else 0)
  else if off = Reg.RT_LO then w (s.now % 2 ^ 32)
  else if off = Reg.RT_HI then w (s.now / 2 ^ 32)
  else if off = Reg.RT_FRAC then w (s.time.rack % 2 ^ 32 / 65536 * 65536)
  else if off = Reg.EPOCH then w s.epoch
  else if off = Reg.EHELD then w s.heldEvents.length
  else if off = Reg.FLAGS_HELD then w s.heldFlags.length
  else if off = Reg.HELD then w s.heldPkts.length
  else if off = Reg.MOVES then w s.moves.length
  else if off = Reg.T1FREE then w s.t1Free
  else if 0xC1000 ≤ off ∧ off < 0xC2000 then
    match s.heldEvents[(off - 0xC1000) / 0x40]? with
    | none => 0
    | some r => w (leNat ((r.bytes.drop (4 * ((off - 0xC1000) % 0x40 / 4))).take 4))
  else if (copyAt (Reg.CLOCK 0) 0x20 64 off).any s.watchGated then 0
  else match copyAt (Reg.QINFL 0) 0x20 128 off, copyAt (Reg.RUNTIME 0 0) 0x20 128 off with
    | some q, _ => w (s.dma.filter fun d => d.qn == q).length
    | _, some x =>
      let c := Map.getD s.ctxs x CtxRt.zero
      match c.since with
      | some t => w ((s.word off).toNat + (s.now - t + c.usRem) / 1000)
      | none => s.word off
    | _, _ => s.word off

/-- Read a register: its word, with latched HI words, and RC fields cleared when `clear` is set (R11, R726). -/
def State.readReg (s : State) (off : Nat) (clear : Bool) : State × W32 :=
  match regAt off with
  | none => (s, 0)
  | some r =>
    match Map.get? s.latched off with
    | some h => ({ s with latched := Map.erase s.latched off }, h)
    | none =>
      let v := s.view off
      let s := match hiOf off with
        | none => s
        | some h => { s with latched := Map.set s.latched h (s.view h) }
      let s := if off = Reg.RT_LO then { s with latched := Map.set s.latched Reg.RT_FRAC (s.view Reg.RT_FRAC) } else s
      let c : W32 := BitVec.ofNat 32 (clearRc r.fields (s.word off).toNat)
      (if clear && c != s.word off then s.wrw off c else s, v)

end Sys2Proof.Machine
end

