-- ==== Sys2Proof/Machine/Wire.lean ====
section
/-! DEFINITION. Ports, paths, flits that leave, and the module's reports (12_fabric_links.md R482 to R489, R500, R506, R507;
13_topology_failover.md R543, R544). -/

namespace Sys2Proof.Machine

/-- A link unit's state. -/
def State.port (s : State) (p : Nat) : PortRt := Map.getD s.ports p PortRt.zero

/-- Store a link unit's state. -/
def State.setPort (s : State) (p : Nat) (r : PortRt) : State := { s with ports := Map.set s.ports p r }

/-- STATE of a port (R526). -/
def State.portState (s : State) (p : Nat) : Nat := s.rd (Reg.PORT_STAT p) 2 0

/-- Is a port UP? -/
def State.portUp (s : State) (p : Nat) : Bool := s.portState p == 3

/-- Set STATE, WIDTH and LANES of a port; WIDTH reads 0 when the port is not UP (R525). -/
def State.setPortStat (s : State) (p st width lanes : Nat) : State :=
  (((s.wr (Reg.PORT_STAT p) 2 0 st).wr (Reg.PORT_STAT p) 15 12 (if st = 3 then width else 0)).wr (Reg.PORT_STAT p) 23 16 lanes)

/-- Width of a lane set: its number of lanes. -/
def widthOf (lanes : Nat) : Nat := ((List.range 8).filter fun i => bit lanes i).length

/-- The lane sets of R508, the widest first and of one width the lowest lanes first. -/
def laneSets : List Nat := [0xFF, 0x0F, 0xF0, 0x03, 0x0C, 0x30, 0xC0]

/-- The widest lane set of R508 whose lanes are all good, the lowest lanes first. -/
def bestSet (good : Nat) : Nat := (laneSets.find? fun m => good &&& m == m).getD 0

/-- The widest lane set whose lanes are all good that comes after one the far end proposed: every wider set has a lane that is not good
there, or it would have proposed that one (R508). -/
def nextSet (good lanes : Nat) : Nat :=
  if laneSets.contains lanes then (((laneSets.dropWhile (· != lanes)).drop 1).find? fun m => good &&& m == m).getD 0 else bestSet good

/-- Virtual lane of an opcode (R493). -/
def vlOf (opc : Nat) : Nat := if opc ≥ 0x40 then 4 else if opc = 0x10 ∨ opc = 0x11 ∨ opc = 0x12 then 1 else 0

/-- The bytes of a packet: its header with HCHK, then its payload granules with their check bytes (R490, R491). -/
def packetBytes (p : Packet) : List Byte :=
  let flg := vlOf p.opc.toNat + (if p.dep.isSome then 8 else 0) + 16 * p.hops.toNat
  let size := p.ngm1.toNat + 1024 * p.status.toNat + if p.gran.isEmpty then 0 else 16384
  let h := leBytes 1 p.opc.toNat ++ leBytes 1 flg ++ leBytes 2 p.src.toNat ++ leBytes 2 p.dst.toNat ++ leBytes 2 size ++
    leBytes 4 p.pseq.toNat ++ leBytes 4 (p.dep.getD 0).toNat ++ leBytes 2 (p.rtag.toNat + 4096 * p.atop.toNat) ++
    leBytes 1 p.issuer.toNat ++ leBytes 1 p.gen.toNat ++ leBytes 2 (p.win.toNat + 4096 * p.pver.toNat) ++
    leBytes 5 p.offset.toNat ++ leBytes 1 p.be.toNat ++ leBytes 8 p.imm.toNat
  h ++ leBytes 4 (crc32c (h.set 1 (h.getD 1 0 &&& 0x0F))) ++ p.gran.flatMap fun g => g ++ rsCheck g

/-- Bytes of a packet: a 40-byte header and 68 bytes a granule (R490). -/
def pktLen (p : Packet) : Nat := 40 + 68 * p.gran.length

/-- Flits a packet fills by itself, of 244 bytes each (R483). -/
def pktFlits (p : Packet) : Nat := (pktLen p + 243) / 244

/-! ## Flits that leave (R483, R486 to R489, R514) -/

/-- Has a virtual lane 4 credits (R488)? -/
def PortRt.credit (r : PortRt) (v : Nat) : Bool := decide (4 ≤ (r.granted.getD v 0 + 65536 - r.consumed.getD v 0) % 65536)

/-- The lane of the first queued packet that a lane of a kind may send. -/
def PortRt.firstOf (r : PortRt) (f : Nat → Bool) : Option Nat := (r.sendq.find? fun x => f x.vl && r.credit x.vl).map Queued.vl

/-- The lane whose flit goes next of those that are open: after three flits of other lanes one of TREQ or TRSP, which take turns, else the
first that has credits (R488, R514). -/
def PortRt.readyLane (r : PortRt) (open_ : Nat → Bool) : Option Nat :=
  if r.quiet < 3 then r.firstOf open_
  else (r.firstOf fun v => v == 5 - r.lastT && open_ v).or ((r.firstOf fun v => v == r.lastT && open_ v).or (r.firstOf open_))

/-- Take up to `room` bytes of a lane's packets off a queue: the packets of a lane follow one another and never interleave (R489). -/
def fillFlit (v : Nat) : Nat → List Queued → List Byte × List Queued
  | _, [] => ([], [])
  | room, x :: xs =>
    if x.vl != v || room = 0 then
      let r := fillFlit v room xs
      (r.1, x :: r.2)
    else
      let left := pktLen x.pkt - x.off
      let b := (packetBytes x.pkt).drop x.off
      if left ≤ room then
        let r := fillFlit v (room - left) xs
        (b ++ r.1, r.2)
      else (b.take room, { x with off := x.off + room } :: xs)

/-- The lanes of a port (R489). -/
def lanesOf (p : Nat) : List Nat := if p < 8 then [0, 1, 4] else [0, 1, 2, 3, 4]

/-- CREDITS of a lane: the receive buffer at link-up and 4 for every flit accepted of the lane, modulo 2^16 (R483, R488)
(DESIGN CHOICE, log entry 177). -/
def PortRt.grants (r : PortRt) (p v : Nat) : Nat := ((Config.rxBuffer p v).toNat + 4 * r.heard.getD v 0) % 65536

/-- A flit as a port sends it, a NULL flit for none: what it carries, and what it tells the far end, FACK, NAK and the credits granted on
a lane (R483, R486, R488). -/
def flitBytes (r : PortRt) (f : Option Flit) (cvl credits : Nat) : List Byte :=
  let ctl := (match f with | some x => x.vl % 8 | none => 8) + if r.nak then 16 else 0
  let b := leBytes 2 ((f.map Flit.seq).getD 0) ++ leBytes 2 r.rxSeq ++ leBytes 1 ctl ++ leBytes 1 (cvl % 8) ++ leBytes 2 credits ++
    (match f with | some x => fit 244 0 x.stream | none => List.replicate 244 0)
  b ++ leBytes 4 (crc32c b)

/-- Put a flit on the wire of port p; the lanes take turns in CVL (DESIGN CHOICE, log entry 177). -/
def PortRt.putFlit (r : PortRt) (p : Nat) (f : Option Flit) : PortRt :=
  let v := (lanesOf p).getD (r.lap % (lanesOf p).length) 0
  { r with wire := r.wire ++ [flitBytes r f v (r.grants p v)], lap := (r.lap + 1) % 15 }

/-- Send the next flit of lane v. -/
def PortRt.sendFlit (r : PortRt) (p v : Nat) : PortRt :=
  let seq := (r.txSeq + 1) % 65536
  let b := fillFlit v 244 r.sendq
  let f : Flit := ⟨seq, v, fit 244 0 b.1⟩
  let t := v == 2 || v == 3
  PortRt.putFlit { r with
    txSeq := seq, unacked := r.unacked ++ [f], sendq := b.2, consumed := r.consumed.set v ((r.consumed.getD v 0 + 4) % 65536),
    quiet := if t then 0 else r.quiet + 1, lastT := if t then v else r.lastT } p (some f)

/-- Send flits of the queue while credits and the 1,024 unacknowledged flits allow (R487, R488), at most fuel of them: the port, how many
flits left, and how many of them carried forwarded traffic. -/
def pumpPort (p : Nat) (open_ : Nat → Bool) : Nat → PortRt → Nat × Nat → PortRt × Nat × Nat
  | 0, r, n => (r, n)
  | fuel + 1, r, n =>
    if 1024 ≤ r.unacked.length then (r, n) else
    match r.readyLane open_ with
    | none => (r, n)
    | some v => pumpPort p open_ fuel (r.sendFlit p v) (n.1 + 1, if v = 2 ∨ v = 3 then n.2 + 1 else n.2)

/-- May a port carry link-local packets: it is trained (R517)? -/
def State.carriesCtl (s : State) (p : Nat) : Bool := s.portState p == 2 || s.portState p == 3 || s.portState p == 4

/-- Does a ring port carry forwarded packets: it is UP, or held because start-up stopped (R513, R517; 16 R649)? -/
def State.ringCarries (s : State) (p : Nat) : Bool := s.portUp p || (s.portState p == 4 && s.rd Reg.START_STAT 7 4 != 0)

/-- May a port send flits of a virtual lane: only an UP port carries REQ and RSP (R517)? -/
def State.laneOpen (s : State) (p v : Nat) : Bool :=
  if v = 4 then s.carriesCtl p else if v = 2 ∨ v = 3 then s.ringCarries p else s.portUp p

/-- Send what a port may send now, and how many flits that were: FLITS_TX counts them, TRANSIT those of forwarded traffic (R525). -/
def State.pumpCount (s : State) (p : Nat) : State × Nat :=
  let r := s.port p
  let (r', n, t) := pumpPort p (s.laneOpen p) ((r.sendq.map fun x => pktFlits x.pkt).foldl (· + ·) 0) r (0, 0)
  if n = 0 then (s, 0) else
  let s := (s.setPort p r').bump (Reg.FLITS_TX p) n
  (if t = 0 then s else s.bump (Reg.TRANSIT p) t, n)

/-- Send what a port may send now. -/
def State.pump (s : State) (p : Nat) : State := (s.pumpCount p).1

/-- A port sends what it may; with nothing to send, a NULL flit, which tells the far end FACK, NAK and CREDITS (R485, R486)
(DESIGN CHOICE, log entry 177). -/
def State.pumpOrNull (s : State) (p : Nat) : State :=
  let r := s.pumpCount p
  if r.2 = 0 then r.1.setPort p ((r.1.port p).putFlit p none) else r.1

/-- Hand a packet to a port on a virtual lane. -/
def State.sendVl (s : State) (path vl : Nat) (p : Packet) : State :=
  let s := { s with tx := s.tx ++ [(path, p)] }
  if path < 10 then
    let r := s.port path
    (s.setPort path { r with sendq := r.sendq ++ [⟨vl, p, 0⟩] }).pump path
  else s

/-- Hand a packet to the links: a port number of R482, or 15 for the module itself (R750) (DEDUCED in part, log entry 52). -/
def State.send (s : State) (path : Nat) (p : Packet) : State := s.sendVl path (vlOf p.opc.toNat) p

/-! ## Positions and paths -/

/-- Index of a position (R507). -/
def posIdx (p : Nat) : Nat := p / 32768 % 2 * 128 + p / 4096 % 8 % 2 * 64 + p / 256 % 8 * 8 + p / 16 % 8

/-- Position of an index (R507). -/
def idxPos (n : Nat) : Nat := n / 128 % 2 * 32768 + n / 64 % 2 * 4096 + n / 8 % 8 * 256 + n % 8 * 16

/-- Route-table entry of a position on the recto (R507). -/
def State.route (s : State) (pos : Nat) : Nat :=
  s.carveLe (s.addrOf Reg.RTAB_LO Reg.RTAB_HI 4096 + s.rd Reg.RTCTL 30 30 * 0x800 + 8 * posIdx pos) 8

/-- Physical port of logical plane n (13 R535). -/
def State.planePort (s : State) (n : Nat) : Nat := s.rd Reg.PLANE_MAP (4 * n + 3) (4 * n)

/-- Physical port of logical RING_W (east false) or RING_E (13 R535). -/
def State.ringPort (s : State) (east : Bool) : Nat := if s.rdb Reg.TOPO_CFG 1 then (if east then 8 else 9) else (if east then 9 else 8)

/-- What is known of the ring ports of the module in a slot of the own tray (R516): RING_W up, RING_E up. -/
def State.ringState (s : State) (slot : Nat) : Option (Bool × Bool) :=
  let pos := s.pos / 256 * 256 + slot * 16
  if pos = s.pos then some (s.portUp (s.ringPort false), s.portUp (s.ringPort true))
  else (Map.get? s.ringMap pos).map fun e => (e.1, e.2.1)

/-- Is the ring segment from slot a east to slot a + 1 up (R516)? -/
def State.segUp (s : State) (a : Nat) : Bool :=
  let x := s.ringState a
  let y := s.ringState ((a + 1) % 8)
  (x.isSome || y.isSome) && (x.map Prod.snd).getD true && (y.map Prod.fst).getD true

/-- Is the ring a usable path to a position (R506, R507)? -/
def State.ringUsable (s : State) (pos : Nat) : Bool :=
  let e := s.route pos
  let me := s.pos / 16 % 8
  let there := pos / 16 % 8
  let east := bit e 12
  let hops := if east then (there + 8 - me) % 8 else (me + 8 - there) % 8
  bit e 11 && pos / 256 == s.pos / 256 && decide (0 < hops ∧ hops ≤ max 1 (bits e 15 13)) &&
  (List.range hops).all fun i => s.segUp (if east then (me + i) % 8 else (me + 7 - i) % 8)

/-- Is logical plane n a usable path to a position (R506)? -/
def State.planeUsable (s : State) (n pos : Nat) : Bool :=
  let p := s.planePort n
  bit (s.route pos) n && s.portUp p && !((s.port p).unreach.contains pos)

/-- The usable paths to a position as physical ports (R506). -/
def State.paths (s : State) (pos : Nat) : List Nat :=
  ((List.range 8).filter fun n => s.planeUsable n pos).map s.planePort ++
  (if s.ringUsable pos then [s.ringPort (bit (s.route pos) 12)] else [])

/-- The packet version sent to a position (R519). -/
def State.pver (s : State) (pos : Nat) : Nat :=
  if s.rdb (Reg.PEER_OLD (posIdx pos / 32)) (posIdx pos % 32) then 0 else 1

/-- A usable path, another than the last one tried when one exists (R500, R502); which one is free (DESIGN CHOICE, log entry 14). -/
def State.pickPath (s : State) (pos : Nat) (last : Option Nat) : Option Nat :=
  let l := s.paths pos
  let o := match last with
    | none => l
    | some x => if (l.filter (· != x)).isEmpty then l else l.filter (· != x)
  if o.isEmpty then none else o[Config.path s.draws % o.length]?

/-- Does traffic to a position go through the Feed gateway (11 R461)? -/
def State.viaGateway (s : State) (pos : Nat) : Bool := pos / 4096 != s.pos / 4096

/-- Send a packet on a usable path; with none, it waits for a resend (R502, R506). -/
def State.sendAny (s : State) (p : Packet) : State :=
  match s.pickPath p.dst.toNat none with
  | none => s
  | some path => (s.send path p).draw

/-! ## Reports (13 R543, R544; log entry 10) -/

/-- Logical plane ports that are UP. -/
def State.upPlanes (s : State) : Nat := ((List.range 8).filter fun n => s.portUp (s.planePort n)).length

/-- The mask of ports for which a condition holds. -/
def portMask (f : Nat → Bool) : Nat := (List.range 10).foldl (fun a p => if f p then a + 2 ^ p else a) 0

/-- The module report (R543). -/
def State.reportBytes (s : State) : List Byte :=
  leBytes 8 (s.rd64 Reg.SERIAL_LO Reg.SERIAL_HI) ++ leBytes 2 s.pos ++ leBytes 1 s.nq ++ leBytes 1 (s.rd Reg.TOPO_STAT 2 0) ++
  leBytes 2 (portMask s.portUp) ++ leBytes 2 (portMask fun p => s.rd (Reg.CBL_STAT p) 17 16 == 2) ++
  leBytes 2 (portMask fun p => s.rd (Reg.CBL_STAT p) 17 16 == 1) ++ leBytes 2 (s.rd Reg.BUDDY 15 0) ++
  leBytes 1 (s.rd Reg.MIRR_CTL 29 28) ++ leBytes 1 s.upPlanes ++ leBytes 2 0 ++
  leBytes 5 ((List.range 10).foldl (fun a p => a + s.rd (Reg.IDM p) 31 28 * 16 ^ p) 0) ++ leBytes 3 0 ++
  fit 16 0 s.start.planDigest ++ leBytes 8 s.now ++ leBytes 8 0

/-- Send the module report to the fabric managers, from when the ports were first matched (R543); none that says READY while LOCK is 0
(15_clocks_time.md R627) (DESIGN CHOICE, log entry 178). -/
def State.report (s : State) : State :=
  let svc := s.rd Reg.TOPO_STAT 2 0
  if (s.start.matched || svc != 0) && !(svc == 1 && !(s.rdb Reg.TIM_STAT 31)) then { s with svc := s.svc ++ [s.reportBytes] } else s

/-- Set the service state and report it. -/
def State.setSvc (s : State) (v : Nat) : State := (s.wr Reg.TOPO_STAT 2 0 v).report

/-- Count the UP plane ports again after a port changed: READY and DEGRADED follow R536 and R544, with LOCK for READY (15 R627), and a
report is sent. -/
def State.portsChanged (s : State) : State :=
  let n := s.upPlanes
  let svc := s.rd Reg.TOPO_STAT 2 0
  let s := s.wr Reg.TOPO_STAT 23 20 n
  s.setSvc (if svc = 1 ∧ n < 6 then 2 else if svc = 2 ∧ 6 ≤ n ∧ s.rdb Reg.TIM_STAT 31 = true then 1 else svc)

/-- A link-local packet with one argument word. -/
def linkPacket (s : State) (atop imm : Nat) : Packet :=
  { mkPacket 0x41 s.pos 0 with atop := BitVec.ofNat 4 atop, imm := BitVec.ofNat 64 imm }

/-- Send RINGMAP on both ring ports, which carry it also while they are in IDENT or HELD (R516, R517). -/
def State.sendRingmap (s : State) : State :=
  let w := s.portUp (s.ringPort false)
  let e := s.portUp (s.ringPort true)
  let p := linkPacket s 5 (s.pos + (if w then 65536 else 0) + if e then 131072 else 0)
  let s := if s.carriesCtl (s.ringPort false) then s.send (s.ringPort false) p else s
  if s.carriesCtl (s.ringPort true) then s.send (s.ringPort true) p else s

/-- A port changed state: RINGMAP for a ring port, then the report (R516, R543). -/
def State.portChanged (s : State) (p : Nat) : State :=
  let s := s.portsChanged
  if p ≥ 8 then s.sendRingmap else s

end Sys2Proof.Machine
end

