-- ==== Sys2Proof/Machine/Context.lean ====
section
/-! DEFINITION. Contexts: their records, faults and fence counts, the scheduler's choice, and the end of a DMA operation
(03_scribe.md R107, 06_dma_pages.md R236 R251 to R257 R746, 10_sheets.md R400 to R430, 11_fabric_ops.md R455 R462). -/

namespace Sys2Proof.Machine

/-! ## Tables of a sheet -/

/-- Sheet state (R396). -/
def State.sheetState (s : State) (i : Nat) : Nat := s.rd (Reg.SCTL i) 2 0

/-- Set a sheet's state. -/
def State.setSheetState (s : State) (i st : Nat) : State := s.wr (Reg.SCTL i) 2 0 st

/-- What a sheet holds beside its registers. -/
def State.sheet (s : State) (i : Nat) : SheetRt := Map.getD s.sheets i SheetRt.zero

/-- Store it. -/
def State.setSheet (s : State) (i : Nat) (r : SheetRt) : State := { s with sheets := Map.set s.sheets i r }

/-- What a quire's scribes share. -/
def State.quire (s : State) (q : Nat) : QuireRt := Map.getD s.quires q QuireRt.zero

/-- Store it. -/
def State.setQuire (s : State) (q : Nat) (r : QuireRt) : State := { s with quires := Map.set s.quires q r }

/-- A scribe's sequencer. -/
def State.scribe (s : State) (n : Nat) : ScribeRt := Map.getD s.scribes n ScribeRt.zero

/-- Store it. -/
def State.setScribe (s : State) (n : Nat) (r : ScribeRt) : State := { s with scribes := Map.set s.scribes n r }

/-- A context beside its registers. -/
def State.ctx (s : State) (i c : Nat) : CtxRt := Map.getD s.ctxs (8 * i + c) CtxRt.zero

/-- Store it. -/
def State.setCtx (s : State) (i c : Nat) (r : CtxRt) : State := { s with ctxs := Map.set s.ctxs (8 * i + c) r }

/-- Quires a sheet holds: the mask its last ASSIGN or RESHAPE applied (R394). -/
def State.quiresOf (s : State) (i : Nat) : List Nat := (List.range s.nq).filter fun q => bit (s.sheet i).qmask q

/-- STATE of a quire (03 R117). -/
def State.quireState (s : State) (q : Nat) : Nat := s.rd (Reg.QUIRE_STAT q) 2 0

/-- The state of a quire, also while it shows TEST for a calibration (16_startup_config.md R659). -/
def State.quireUnder (s : State) (q : Nat) : Nat := ((s.quire q).testFrom).getD (s.quireState q)

/-- Is a quire under live calibration (16_startup_config.md R658)? -/
def State.underCal (s : State) (q : Nat) : Bool := s.calib.any fun c => (c.kind == 1 || c.kind == 2) && c.unit == q

/-- Set STATE of a quire: one under calibration goes on showing TEST (16 R658), and shows its state when that ends
(DESIGN CHOICE, log entry 140). -/
def State.setQuireState (s : State) (q st : Nat) : State :=
  match (s.quire q).testFrom with
  | none => s.wr (Reg.QUIRE_STAT q) 2 0 st
  | some _ => s.setQuire q { s.quire q with testFrom := some st }

/-- Set STATE of every quire of a sheet. -/
def State.setQuires (s : State) (i st : Nat) : State := (s.quiresOf i).foldl (fun s q => s.setQuireState q st) s

/-- Sheet control block (R400). -/
def State.scb (s : State) (i : Nat) : Nat := s.addrOf (Reg.SCB_LO i) (Reg.SCB_HI i) 65536

/-- Is the SCB granule in the run, mapped and pinned to T0 (R400)? -/
def State.scbOk (s : State) (i : Nat) : Bool := s.pinnedRange i (s.scb i) 65536

/-- Physical address of byte o of a context record (R400, R403). -/
def State.recAt (s : State) (i c o : Nat) : Nat := s.tierPhys (s.scb i) + 0x3000 + 0x200 * c + o

/-- Read an 8-byte word of a context record. -/
def State.recW (s : State) (i c o : Nat) : Nat := if s.scbOk i then s.unitLe (s.recAt i c o) 8 else 0

/-- A context record is read: what is counted and recorded (05 R213, R215). -/
def State.recSeen (s : State) (i c : Nat) : State := if s.scbOk i then s.seenTier (s.scb i + 0x3000 + 0x200 * c) 64 i else s

/-- A binding entry is read (05 R176, R213, R215). -/
def State.bindSeen (s : State) (i c q : Nat) : State :=
  if s.scbOk i then s.seenTier (s.scb i + 0x4000 + 0x200 * c + 8 * q) 8 i else s

/-- Write bytes of a context record; in a dry granule nothing is written (05 R180). -/
def State.recPut (s : State) (i c o : Nat) (bs : List Byte) : State :=
  if s.scbOk i && !(entDry (s.entry (s.scb i / 65536))) then
    s.unitPut (s.recAt i c o) bs (s.scb i + 0x3000 + 0x200 * c + o) else s

/-- Write an 8-byte word of a context record. -/
def State.recWr (s : State) (i c o v : Nat) : State := s.recPut i c o (leBytes 8 v)

/-- Binding table entry of a context for a quire (04_strokes.md R160). -/
def State.binding (s : State) (i c q : Nat) : Nat := s.unitLe (s.tierPhys (s.scb i) + 0x4000 + 0x200 * c + 8 * q) 8

/-- STATE of a context (R401). -/
def State.ctxState (s : State) (i c : Nat) : Nat := s.rd (Reg.CSTAT i c) 2 0

/-- Set STATE of a context. -/
def State.setCtxState (s : State) (i c st : Nat) : State := s.wr (Reg.CSTAT i c) 2 0 st

/-- GEN of a context. -/
def State.gen (s : State) (i c : Nat) : Nat := s.rd (Reg.CSTAT i c) 15 8

/-- Increment GEN, in the register and in the record (R403, R410, R416). -/
def State.bumpGen (s : State) (i c : Nat) : State :=
  let g := (s.gen i c + 1) % 256
  let s := s.wr (Reg.CSTAT i c) 15 8 g
  let w := s.recW i c 0x28
  s.recWr i c 0x28 (w / 256 * 256 + g)

/-! ## A waking sheet (05 R203) -/

/-- First T0 granule and granules of a slice a sheet may hold (05 R172). -/
def sliceRange (k : Nat) : Nat × Nat := if k = 63 then (63 * 640 + 512, 128) else (k * 640, 640)

/-- Slices a sheet holds. -/
def State.slicesOf (s : State) (i : Nat) : List Nat := (List.range 64).filter fun k => bit (s.sheet i).slices k

/-- Zero the wells and slices of a sheet (05 R203). -/
def State.zeroSheet (s : State) (i : Nat) : State :=
  let s := (s.quiresOf i).foldl (fun s q => (List.range 8).foldl (fun s k => s.zero (physWell (8 * q + k) 0) 0x180000) s) s
  (s.slicesOf i).foldl (fun s k => s.zero (physT0 (sliceRange k).1) ((sliceRange k).2 * 65536)) s

/-- An access to a sheet's granules while the sheet is WAKING is served once its zeroing has completed (R203): the zeroing is done
before the access, and SHEET_WAKE_COMPLETE finds it done. -/
def State.zeroWaking (s : State) (i : Nat) : State :=
  if s.sheetState i == 1 && !(s.sheet i).zeroed then (s.zeroSheet i).setSheet i { s.sheet i with zeroed := true } else s

/-! ## The end of a DMA operation -/

/-- Is a queue a firmware queue (06 R258)? -/
def State.qQuill (s : State) (qn : Nat) : Bool := s.rdb (Reg.QBASE_HI qn) 31
/-- Bound sheet of a queue. -/
def State.qSheet (s : State) (qn : Nat) : Nat := s.rd (Reg.QCFG qn) 27 24
/-- Bound context of a queue. -/
def State.qCtx (s : State) (qn : Nat) : Nat := s.rd (Reg.QCFG qn) 23 21

/-- Does the record of a descriptor lie where R251 and R746 require: 0 yes, else the cause of the fault, which is UNCORR where the
tier-table entry cannot be read (05 R215)? -/
def State.recCheck (s : State) (qn d : Nat) : Nat :=
  let a := dCrec d
  if dCrq d then (if s.inCarve a 64 && !(s.hitsTables a 64) then 0 else 0x0B) else
  let g := a / 65536
  if s.inRun (s.qSheet qn) g && s.entryBad g then 0x0D
  else if !(s.inRun (s.qSheet qn) g) || !(entValid (s.entry g)) || entDry (s.entry g) then 0x0B
  else if s.pinned g then 0 else 0x0A

/-- Physical address of a descriptor's record. -/
def State.recPhys (s : State) (d : Nat) : Nat := if dCrq d then physCarve (dCrec d) else s.tierPhys (dCrec d)

/-- Base of a queue's ring. -/
def State.qBase (s : State) (qn : Nat) : Nat := s.addrOf (Reg.QBASE_LO qn) (Reg.QBASE_HI qn) 64

/-- Entries of a queue's ring. -/
def State.qEntries (s : State) (qn : Nat) : Nat := 2 ^ s.rd (Reg.QCFG qn) 3 0

/-- Do a ring and its watch line lie where R222 requires? -/
def State.qRingOk (s : State) (qn : Nat) : Bool :=
  let n := 64 * s.qEntries qn + 64
  if s.qQuill qn then s.inCarve (s.qBase qn) n && !(s.hitsTables (s.qBase qn) n) else s.pinnedRange (s.qSheet qn) (s.qBase qn) n

/-- A queue whose ring has ceased to lie where R222 requires takes nothing more: STOP and an event (R748). -/
def State.ringLost (s : State) (qn : Nat) : State := (s.wrb (Reg.QCFG qn) 20 true).post 0x0705 [qn, s.qBase qn]

/-- Stop every enabled queue whose ring no longer lies where R222 requires (R748). -/
def State.ringsCheck (s : State) : State :=
  (List.range 128).foldl (fun s qn =>
    if s.rdb (Reg.QCFG qn) 31 && !(s.rdb (Reg.QCFG qn) 20) && !(s.qRingOk qn) then s.ringLost qn else s) s

/-- Is a descriptor's CRQ or CREC itself at fault (R229)? -/
def State.crecBad (s : State) (qn d : Nat) : Bool := (dCrq d && !(s.qQuill qn)) || dCrec d % 64 != 0

/-- May a descriptor that ends write its record: the record is where it must be, and one that never started finds it IDLE (R229,
R253, R746)? -/
def State.recMine (s : State) (o : DmaOp) : Bool :=
  !(s.crecBad o.qn o.desc) && s.recCheck o.qn o.desc == 0 && (o.started || s.recState (s.recPhys o.desc) == 0)

/-- Count a descriptor that ended with an outcome (R259). -/
def State.countEnd (s : State) (qn outcome : Nat) : State :=
  if s.qQuill qn then s
  else if outcome = 0x0A then s.bump (Reg.DMA_CANCELS (s.qSheet qn))
  else if outcome = 0 then s else s.bumpSat (Reg.ABORTS (s.qSheet qn))

/-- May the READY word of a STREAM be written: 0 yes, else the outcome that refuses it (R179, R244)? -/
def State.readyCheck (s : State) (o : DmaOp) : Nat :=
  let a := awAddr (dAux0 o.desc)
  if !(awTier (dAux0 o.desc)) || !(s.tierOk (s.qSheet o.qn) a 8) then 5
  else if entDry (s.entry (a / 65536)) then 4
  else if s.pinnedRange (s.qSheet o.qn) a 8 then 0 else 5

/-- Write the READY word of a STREAM (R243, R250), or the outcome that refuses it: in a line that cannot be corrected it is not written
(R257; 05 R215). -/
def State.writeReady (s : State) (o : DmaOp) (n : Nat) : State × Nat :=
  let a := awAddr (dAux0 o.desc)
  let e := if s.inRun (s.qSheet o.qn) (a / 65536) then s.entryRead (a / 65536) (s.qSheet o.qn) else (s, false)
  if e.2 then (e.1, 1)
  else if e.1.readyCheck o != 0 then (e.1, e.1.readyCheck o)
  else
    match e.1.eccEdges (e.1.tierPhys a) 8 a 0 (s.qSheet o.qn) with
    | (s, none) => (s.storeTier a (leBytes 8 ((bits (dAux1 o.desc) 47 0 + n) % 2 ^ 64)), 0)
    | (s, some _) => (s, 1)

/-- A DMA engine reads or writes a record in a tiered granule: its touch bit (05 R176). -/
def State.recTouch (s : State) (d : Nat) : State := if dCrq d then s else s.touch (dCrec d / 65536)

/-- A descriptor leaves the in-flight list with its record and the counters; a cancelled STREAM first releases its READY word (R250,
R254, R257 to R259).  No line from the first whose write failed on counts as done (R255). -/
def State.dmaClose (s : State) (o : DmaOp) (outcome faddr abrq : Nat) : State :=
  let s := if outcome = 0x0A && dOp o.desc == 4 then (s.writeReady o (dCount o.desc)).1 else s
  let s := { s with dma := s.dma.filter fun x => x.key != o.key }
  let done := match o.bad with
    | some b => if b.1 < o.lines || outcome = 6 then b else (o.lines, faddr)
    | none => (o.lines, faddr)
  let s := if s.recMine o then
      (s.recTouch o.desc).recEnd (s.recPhys o.desc) (dTag o.desc) o.unit 1 outcome done.1 (if outcome = 0 then 0 else done.2) abrq
        (dCrec o.desc)
    else s
  (s.bump (Reg.QDONE o.qn)).countEnd o.qn outcome

/-- CANCEL and ABORT descriptors that have acted end DONE after the records they wait for are written (R249, R256). -/
def State.endWaiters (s : State) : State :=
  (s.dma.filter fun o => (dOp o.desc == 6 || dOp o.desc == 7) && o.lastDone && o.ending.isNone &&
    !(s.dma.any fun y => y.waiters.contains o.key)).foldl (fun s o => s.dmaClose o 0 0 0) s

/-- Stop a descriptor with an outcome that faults no context: its record is written once its issued writes are acknowledged, and no
line is written after those (R255).  `data` is the data address of the fault it raises.  One that is ending already ends as it was
to. -/
def State.dmaStop (s : State) (o : DmaOp) (outcome faddr abrq : Nat) (data : Nat := faddr) : State :=
  match s.opOf o.key with
  | none => s
  | some y =>
    let f := if y.wbuf.isEmpty then faddr else y.nextAddr
    let z := { y with wbuf := [] }
    if y.ending.isSome then s
    else if y.owed != 0 then s.updOp { z with ending := some (outcome, f, abrq, data) }
    else ((s.updOp z).dmaClose z outcome f abrq).endWaiters

/-! ## Gathers (11 R462 to R464) -/

/-- Pair state of a position (12 R498). -/
def State.peer (s : State) (pos : Nat) : Peer := Map.getD s.peers pos Peer.zero

/-- Store it. -/
def State.setPeer (s : State) (pos : Nat) (p : Peer) : State := { s with peers := Map.set s.peers pos p }

/-- Lines a memory operation touches at its target, as (window, line of the window); routing and Roll messages name none. -/
def linesOf (p : Packet) : List (Nat × Nat) :=
  let w := p.win.toNat
  let l := p.offset.toNat / 64
  if 0x10 ≤ p.opc.toNat then [] else
  match p.opc.toNat with
  | 0x03 => (List.range (p.ngm1.toNat + 1)).map fun i => (w, l + i)
  | 0x0A =>
    if p.atop.toNat % 2 = 0 then (List.range (p.ngm1.toNat + 1)).map fun i => (w, l + i) else
    let addrs := (p.gran.take ((p.ngm1.toNat + 8) / 8)).flatMap id
    (List.range (p.ngm1.toNat + 1)).map fun i =>
      let a := leNat ((addrs.drop (8 * i)).take 8)
      (bits a 11 0, bits a 47 12 / 64)
  | _ => [(w, l)]

/-- Do two operations touch a common line? -/
def sharesLine (p q : Packet) : Bool := (linesOf p).any fun l => (linesOf q).contains l

/-- A free RTAG. -/
def State.freeRtag (s : State) : Nat :=
  ((List.range 4096).map fun i => (s.rtagNext + i) % 4096).find? (fun t =>
    !(s.outOps.any fun o => !o.write && o.path != 17 && o.pkt.rtag.toNat == t)) |>.getD 0

/-- Loads and atomics that an operation is, of those a condition holds for: each load that waits for a BULKR counts (11 R449, R465). -/
def OutOp.loads (o : OutOp) (f : Issuer → Bool) : Nat :=
  if o.write then (if o.pkt.opc.toNat = 0x0B then 1 else 0) else (o.issuers.filter f).length

/-- Loads and atomics outstanding (11 R449); one that waits for an entry holds none. -/
def State.loadsOut (s : State) : Nat :=
  (s.outOps.filter fun o => o.path != 17).foldl (fun n o => n + max (o.loads fun _ => true) (if o.write then 0 else 1)) 0

/-- Is there an entry for one more load or atomic (11 R449)? -/
def State.loadRoom (s : State) : Bool := decide (s.loadsOut < 4096)

/-- BULKR outstanding (11 R465). -/
def State.bulkrs (s : State) : Nat := (s.outOps.filter fun o => !o.write && o.pkt.opc.toNat == 3 && o.path != 17).length

/-- May a request be sent after earlier operations: it finds an entry (11 R449), a BULKR is one of at most 128 (R465), and no write to
one of its lines still waits to be sent, which it must follow (R450, 12 R500)? -/
def State.mayAsk (s : State) (earlier : List OutOp) (p : Packet) : Bool :=
  s.loadRoom && (p.opc.toNat != 3 || decide (s.bulkrs < 128)) &&
  earlier.all fun o => !o.write || o.path != 17 || o.pkt.dst != p.dst || !(sharesLine o.pkt p)

/-- The highest unanswered PSEQ of the pair that touches a line of the packet (12 R499). -/
def State.depOf (s : State) (p : Packet) : Option W32 :=
  ((s.outOps.filter fun o => o.write && o.pkt.dst == p.dst && sharesLine o.pkt p).getLast?).map fun o => o.pkt.pseq

/-- May a write-class operation be sent after earlier ones: no load of the pair to its lines is unanswered (12 R500), it is within
2,048 of the pair's oldest unanswered one (R501), and an atomic finds an entry (11 R449)? -/
def State.maySend (s : State) (earlier : List OutOp) (p : Packet) : Bool :=
  (earlier.all fun o => o.write || o.pkt.dst != p.dst || !(sharesLine o.pkt p)) &&
  (match earlier.find? fun o => o.write && o.pkt.dst == p.dst with
   | none => true
   | some o => decide ((p.pseq.toNat + 2 ^ 32 - o.pkt.pseq.toNat) % 2 ^ 32 < 2048)) &&
  (p.opc.toNat != 0x0B || s.loadRoom)

/-- Give a write-class packet the next PSEQ of its pair, keep it until its ACK, and send it or let it wait (12 R498 to R501). -/
def State.launch (s : State) (p : Packet) (issuers : List Issuer) (apers : List Nat) : State :=
  let pos := p.dst.toNat
  let pe := s.peer pos
  let p := { p with pseq := BitVec.ofNat 32 pe.next, dep := s.depOf p }
  let go := s.maySend s.outOps p
  let s := s.setPeer pos { pe with next := (pe.next + 1) % 2 ^ 32 }
  let keep (path : Nat) : State := { s with outOps := s.outOps ++ [⟨p, true, issuers, apers, path, s.now, false⟩] }
  if !go then keep 17 else
  match s.pickPath pos none with
  | none => keep 16
  | some path => ((keep path).send path p).draw

/-- The BULKW in EACH mode of a gather (12 R494). -/
def State.gatherPacket (s : State) (g : Gather) : Packet :=
  let addrs := g.lines.flatMap fun l => leBytes 8 (l.1 % 4096 + l.2.1 % 2 ^ 36 * 4096)
  { mkPacket 0x0A s.pos g.dst with
    atop := 1, ngm1 := BitVec.ofNat 10 (g.lines.length - 1), pver := BitVec.ofNat 4 (s.pver g.dst),
    gran := (chunks 64 (addrs.length + 1) addrs).map (fit 64 0) ++ g.lines.map fun l => l.2.2.1 }

/-- Flush a gather as one BULKW; each issuer's aperture address goes with the number of its line in bits [63:48] (11 R462, R463). -/
def State.flushGather (s : State) (g : Gather) : State :=
  let s := { s with gathers := s.gathers.filter fun x => x.dst != g.dst }
  let iss := g.lines.flatMap fun l => l.2.2.2
  let apers := ((List.range g.lines.length).zip g.lines).flatMap fun l => l.2.2.2.2.map fun x => x.2 + 2 ^ 48 * l.1
  (s.launch (s.gatherPacket g) (iss.map Prod.fst) apers).bump Reg.BULKW_SENT

/-- Flush the gather of a target, if one is open. -/
def State.flushTo (s : State) (dst : Nat) : State :=
  match s.gathers.find? fun g => g.dst == dst with
  | none => s
  | some g => s.flushGather g

/-- Flush every gather that holds a write of an issuer for which a condition holds (R458, R462). -/
def State.flushOf (s : State) (f : Issuer → Bool) : State :=
  (s.gathers.filter fun g => g.lines.any fun l => l.2.2.2.any fun x => f x.1).foldl State.flushGather s

/-! ## Residency and the scheduler -/

/-- Add the time a context was resident to RUNTIME (R432). -/
def State.leave (s : State) (i c : Nat) : State :=
  let x := s.ctx i c
  match x.since with
  | none => s
  | some t =>
    let ns := s.now - t + x.usRem
    (s.bump (Reg.RUNTIME i c) (ns / 1000)).setCtx i c
      { x with since := none, usRem := ns % 1000, epochNs := x.epochNs + (s.now - t) }

/-- PRIO of a context. -/
def State.prio (s : State) (i c : Nat) : Nat := s.rd (Reg.CCFG i c) 2 0

/-- The READY context with the highest PRIO, the first after the last resident one among equals (R404). -/
def State.bestReady (s : State) (i : Nat) : Option Nat :=
  let last := s.rd (Reg.SCTL i) 10 8
  let order := (List.range 8).map fun k => (last + 1 + k) % 8
  order.foldl (fun b c =>
    if s.ctxState i c = 1 then
      match b with
      | none => some c
      | some x => if s.prio i x < s.prio i c then some c else b
    else b) none

/-- Enabled contexts of a sheet. -/
def State.enabled (s : State) (i : Nat) : List Nat := (List.range 8).filter fun c => s.rdb (Reg.CCFG i c) 31

/-- May a resident context be switched away under the first three cases of R405 (R406)? -/
def State.savable (s : State) (i c : Nat) : Bool := !((s.enabled i).length == 1 && s.recW i c 0 == 0)

/-- Begin to restore the incoming context: it is SWITCHING and the quires are RESTORING (R410, 03 R117). -/
def State.beginRestore (s : State) (i c : Nat) : State :=
  let sh := s.sheet i
  ((s.setCtxState i c 4).setQuires i 6).setSheet i
    { sh with cur := none, saving := none, restoring := some c, resSince := s.now }

/-- Begin to save the resident context (R410). -/
def State.beginSave (s : State) (i c : Nat) : State :=
  (((s.leave i c).setCtxState i c 4).setQuires i 5).setSheet i
    { s.sheet i with cur := none, saving := some c, resSince := s.now }

/-- What the scheduler does after a context became READY or the sheet lost its resident context (R404, R405). -/
def State.schedule (s : State) (i : Nat) : State :=
  let sh := s.sheet i
  if (s.sheetState i != 2 && s.sheetState i != 3) || sh.saving.isSome || sh.restoring.isSome then s else
  match s.bestReady i, sh.cur with
  | none, _ => s
  | some d, none => s.beginRestore i d
  | some d, some r => if s.prio i r < s.prio i d && s.savable i r then s.beginSave i r else s

/-- No scribe of a quire watches, waits or has a stroke under way. -/
def State.stopScribes (s : State) (q : Nat) : State :=
  (List.range 8).foldl (fun s k => s.setScribe (8 * q + k)
    { s.scribe (8 * q + k) with watch := none, atBarrier := false, dropped := [], stallFrom := none, capt := [] }) s

/-- A context leaves the quires without being saved (R405 fourth case, R416, R430). -/
def State.dropResident (s : State) (i c : Nat) : State :=
  let sh := s.sheet i
  let s := s.leave i c
  if sh.cur = some c || sh.restoring = some c || sh.saving = some c then
    let s := (s.quiresOf i).foldl (fun s q =>
      let s := (s.setQuireState q 2).wr (Reg.QUIRE_STAT q) 15 8 0
      s.stopScribes q) s
    s.setSheet i { sh with cur := if sh.cur = some c then none else sh.cur,
                           saving := if sh.saving = some c then none else sh.saving,
                           restoring := if sh.restoring = some c then none else sh.restoring }
  else s

/-- End the taken descriptors of a context with CTXFAULT and stop its queues (06 R236). -/
def State.abortCtxDma (s : State) (i c : Nat) : State :=
  let mine (qn : Nat) : Bool := !(s.qQuill qn) && s.qSheet qn == i && s.qCtx qn == c
  let s := (s.dma.filter fun o => mine o.qn).foldl (fun s o => s.dmaStop o 8 o.nextAddr 0) s
  (List.range 128).foldl (fun s qn => if mine qn && s.rdb (Reg.QCFG qn) 31 then s.wrb (Reg.QCFG qn) 20 true else s) s

/-- Drop what has arrived for a context's strokes (R413). -/
def State.dropArrived (s : State) (i c : Nat) : State :=
  { s with arrived := s.arrived.filter fun a => !(a.iss.kind == 0 && a.iss.a == i && a.iss.b == c) }

/-- What a fault and a STOP share: the context leaves the quires, its descriptors end, GEN goes on (R416). -/
def State.tearContext (s : State) (i c st : Nat) : State :=
  let s := s.flushOf fun x => x.kind == 0 && x.a == i && x.b == c ||
    x.kind == 1 && !(s.qQuill x.a) && s.qSheet x.a == i && s.qCtx x.a == c
  let s := (s.dropResident i c).abortCtxDma i c
  let s := (s.bumpGen i c).dropArrived i c
  let s := s.setCtx i c { s.ctx i c with step := none }
  s.setCtxState i c st

/-- The states in which a context can fault. -/
def State.live (s : State) (i c : Nat) : Bool := s.ctxState i c == 1 || s.ctxState i c == 2 || s.ctxState i c == 3 || s.ctxState i c == 4

/-- A context fault (R416, R417). -/
def State.ctxFault (s : State) (i c cause scribe f1 f2 : Nat) : State :=
  if !(s.live i c) then s else
  let w := s.recW i c 0x40
  let n := (w / 2 ^ 32 + 1) % 2 ^ 32
  let s := s.recWr i c 0x40 (cause % 256 + scribe % 1024 * 256 + n * 2 ^ 32)
  let s := (s.recWr i c 0x48 f1).recWr i c 0x50 f2
  let s := s.recWr i c 0x58 s.now
  let s := s.tearContext i c 5
  ((s.bumpSat (Reg.FAULTS i)).post 0x0401 [i + c * 16 + cause * 256, f1, f2]).schedule i

/-- Causes of R164 that a DMA outcome raises (06 R257); 0 for none. -/
def dmaCause (outcome : Nat) : Nat :=
  match outcome with
  | 1 => 0x0D
  | 2 | 3 => 0x06
  | 5 => 0x0B
  | 6 => 0x0C
  | 9 => 0x02
  | _ => 0

/-- Tell the issuer of a descriptor how it ended (06 R257).  A descriptor belongs to no stroke, so FAULT1 and the scribe are 0;
FAULT2 is the address for the causes that have one (10 R417). -/
def State.tellEnd (s : State) (o : DmaOp) (outcome faddr : Nat) : State :=
  if dmaCause outcome = 0 then s
  else if s.qQuill o.qn then s.post 0x0703 [o.qn, outcome, dCrec o.desc]
  else s.ctxFault (s.qSheet o.qn) (s.qCtx o.qn) (dmaCause outcome) 0 0 (if outcome = 9 then 0 else faddr)

/-- End an operation and tell its issuer, once its issued writes are acknowledged (R232, R255, R257): the record names the first line
or unit not done, the fault the data address (R251; 10 R403)
(DEDUCED in part, log entry 151). -/
def State.dmaEnd (s : State) (o : DmaOp) (outcome faddr : Nat) (abrq : Nat := 0) (data : Nat := faddr) : State :=
  match s.opOf o.key with
  | none => s
  | some y =>
    let t := s.dmaStop y outcome faddr abrq data
    if y.ending.isSome || y.owed != 0 then t else t.tellEnd y outcome data

/-- An acknowledgement of a descriptor's write of line `line` at aperture address `aper`: the first one that failed ends it with
TARGET, and the last one owed writes the record of a descriptor that is ending (R232, R255, R257). -/
def State.dmaAck (s : State) (k : Nat × Nat) (line status aper : Nat) : State :=
  match s.opOf k with
  | none => s
  | some o =>
    let bad := if status = 0 then o.bad else match o.bad with
      | some b => if b.1 ≤ line then some b else some (line, aper)
      | none => some (line, aper)
    let o := { o with owed := o.owed - 1, bad := bad, wbuf := if status = 0 then o.wbuf else [],
                      ending := if status = 0 || o.ending.isSome then o.ending else some (6, aper, 0, aper) }
    let s := s.updOp o
    match o.ending with
    | none => s
    | some e =>
      if o.owed != 0 then s
      else ((s.dmaClose o e.1 e.2.1 e.2.2.1).endWaiters).tellEnd o e.1 (if e.1 = 6 then (bad.map Prod.snd).getD e.2.2.2 else e.2.2.2)

/-! ## Fence counts (R414, R415, 11 R455) -/

/-- A write-class operation issued by a scribe of a quire. -/
def State.countIssued (s : State) (q n : Nat) : State :=
  let x := s.quire q
  s.setQuire q { x with issued := x.issued + n }

/-- Count an acknowledgement to the context that issued it, and fault the context on a status other than OK. -/
def State.quireAck (s : State) (x : Issuer) (status aper : Nat) : State :=
  let good := status == 0
  let s :=
    if s.ctxState x.a x.b = 2 && s.gen x.a x.b == x.d then
      let q := s.quire x.c
      s.setQuire x.c (if good then { q with acked := q.acked + 1 } else { q with failed := q.failed + 1 })
    else
      let o := if good then 0x18 else 0x20
      s.recWr x.a x.b o ((s.recW x.a x.b o + 1) % 2 ^ 64)
  if good then s else s.ctxFault x.a x.b 0x0C x.e x.at_ aper

end Sys2Proof.Machine
end

