-- ==== Sys2Proof/Machine/Ductus.lean ====
section
/-! DEFINITION. Frequency points of the quires: their clock, voltage and power, the highest point allowed, and the clock a quire
shows (03_scribe.md R111 R116, 14_power.md R585 to R591 R597). -/

namespace Sys2Proof.Machine

/-- Frequency in MHz of a point (R587). -/
def pointMhz (k : Nat) : Nat := 1000 + 100 * min k 9

/-- FAC of a point: its power relative to point 6, in 1/256 (R587). -/
def pointFac (k : Nat) : Nat := [102, 120, 140, 161, 190, 221, 256, 294, 336, 390].getD k 390

/-- VBASE of a point in mV (R587). -/
def pointMv (k : Nat) : Nat := [600, 620, 640, 660, 690, 720, 750, 780, 810, 850].getD k 850

/-- A 16-bit temperature in 1/8 °C, two's complement (R615). -/
def tempOf (w : Nat) : Int := if w < 32768 then (w : Int) else (w : Int) - 65536

/-- The last thermal sample of a quire. -/
def State.temp (s : State) (q : Nat) : Int := tempOf (s.rd (Reg.QTEMP q) 15 0)

/-- The highest point whose voltage, with the quire's offset, is at most 0.85 V (R588). -/
def State.vMax (s : State) (q : Nat) : Nat :=
  ([9, 8, 7, 6, 5, 4, 3, 2, 1].find? fun k => decide (pointMv k + s.rd (Reg.QPT q) 7 0 ≤ 850)).getD 0

/-- Is a droop detector of a quire being calibrated (16_startup_config.md R658)? -/
def State.droopCal (s : State) (q : Nat) : Bool := s.calib.any fun c => c.kind == 1 && c.unit == q

/-- The highest point left by the boost rule, the droop limit, throttling and the voltage limit (R586, R588, R590, R597; 17 R680). -/
def State.coolMax (s : State) (q : Nat) : Nat :=
  let x := s.quire q
  let top := if s.rdb Reg.BL_CFG 29 && decide (s.temp q < 8 * (s.rd Reg.THERM_CFG 23 16 : Int)) && !s.power.ductusReload then 9 else 6
  min (top - x.thr - x.dlim.length) (s.vMax q)

/-- The highest point a quire may run at (R590, R610; 16 R658, R661). -/
def State.kmax (s : State) (q : Nat) : Nat :=
  if s.power.crit then 0
  else if (s.quire q).calHeld != 0 || s.droopCal q then min 6 (s.coolMax q) else s.coolMax q

/-- Does a quire run at half its set frequency, a droop stretch aside (R582, R605, R610)? -/
def State.halved (s : State) (q : Nat) : Bool := s.power.clamped.contains (s.dieOf q) || s.power.crit || s.power.overPool

/-- Refresh CLOCK_q and KMAX of a quire; CLOCK reads 0 while the quire is gated or waking, also
while it shows TEST for a calibration (03 R116). -/
def State.setClock (s : State) (q : Nat) : State :=
  let s := s.wr (Reg.QPT q) 15 8 (s.kmax q)
  let mhz := pointMhz (s.rd (Reg.QPT q) 23 16)
  s.wrw (Reg.CLOCK q) (if s.quireUnder q ≤ 1 then 0 else BitVec.ofNat 32 (if s.halved q then mhz / 2 else mhz))

/-- The point a quire runs at before its first budget pass (R591). -/
def State.firstPoint (s : State) (q : Nat) : State :=
  (s.wr (Reg.QPT q) 23 16 (min 6 (s.kmax q))).setQuire q { s.quire q with raise_ := none }

/-- Refresh the clocks of every quire. -/
def State.setClocks (s : State) : State := (List.range s.nq).foldl State.setClock s

/-! ## Running quires -/

/-- Does a quire run, also while it shows TEST under live calibration (16 R659)? -/
def State.runs (s : State) (q : Nat) : Bool := s.quireUnder q == 3

/-- The quires that run. -/
def State.runningQuires (s : State) : List Nat := (List.range s.nq).filter s.runs

/-- Owning sheet of a quire. -/
def State.ownerOf (s : State) (q : Nat) : Nat := s.rd (Reg.QUIRE_STAT q) 23 20

/-- Set voltage of each VDDC rail: the highest that a running quire of its die needs (R588).  It is set at each budget pass and when a
quire becomes RUNNING (DEDUCED in part, log entry 75). -/
def State.setRails (s : State) : State :=
  (List.range 4).foldl (fun s d =>
    let l := s.runningQuires.filter fun q => s.dieOf q == d
    if l.isEmpty then s else
    s.wr (Reg.RAILV d) 31 16 ((l.map fun q =>
      pointMv (max (s.rd (Reg.QPT q) 23 16) ((s.quire q).raise_.getD 0)) + s.rd (Reg.QPT q) 7 0).foldl max 0)) s

/-- A watching quire runs again: at the point it had, held to the highest one allowed now, with its rail set for it (R588, R591)
(DEDUCED in part, log entry 123). -/
def State.resumePoint (s : State) (q : Nat) : State :=
  ((s.wr (Reg.QPT q) 23 16 (min (s.rd (Reg.QPT q) 23 16) (s.kmax q))).setRails).setClock q

/-- Quires become RUNNING for a context: each at its first point until its next pass, with the rails set for them (R588, R591). -/
def State.startPoints (s : State) (l : List Nat) : State :=
  l.foldl State.setClock (l.foldl State.firstPoint s).setRails

end Sys2Proof.Machine
end

