-- ==== Sys2Proof/Machine/Fabric.lean ====
section
/-! DEFINITION. Fabric operations: windows, import entries, what a target does with an operation, what an issuer is told,
lost positions, the Feed gateway (11_fabric_ops.md R434 to R477, R749, R750; 12_fabric_links.md R494, R498 to R504). -/

namespace Sys2Proof.Machine

/-! ## The memory a window names -/

/-- Physical address of a mirror-area offset (05_memory.md R747). -/
def State.mirrorPhys (s : State) (o : Nat) : Nat :=
  let g := o / 65536
  let u := s.t2Gran.getD 0 0
  (if g < u then physT2 0 g else physT2 1 (g - u)) + o % 65536

/-- Set the touch bits of a TIER range (05_memory.md R176). -/
def State.touchRange (s : State) (a n : Nat) : State := (granulesOf a n).foldl State.touch s

/-- Read bytes at an offset of a window. -/
def State.winRead (s : State) (w : WinEnt) (o n : Nat) : List Byte :=
  match w.kind with
  | 0 => s.loadTier (w.base + o) n
  | 1 => Mem.read s.mem (physCarve (w.base + o)) n
  | _ => Mem.read s.mem (s.mirrorPhys (w.base + o)) n

/-- Write bytes at an offset of a window. -/
def State.winWrite (s : State) (w : WinEnt) (o : Nat) (bs : List Byte) : State :=
  match w.kind with
  | 0 => s.storeTier (w.base + o) bs
  | 1 => s.storeCarve (w.base + o) bs
  | _ => s.store (s.mirrorPhys (w.base + o)) bs

/-- Read the lines of a window range through the code (R439 order 6). -/
def State.winEcc (s : State) (w : WinEnt) (o n : Nat) : State × Option Nat :=
  match w.kind with
  | 0 => s.eccTier (w.base + o) n w.sheet
  | 1 => s.ecc (physCarve (w.base + o)) n (w.base + o) 0 16
  | _ => s.ecc (s.mirrorPhys (w.base + o)) n (w.base + o) 0 16

/-- Is a granule of a TIER range dry (R439 order 5)? -/
def State.winDry (s : State) (w : WinEnt) (o n : Nat) : Bool :=
  w.kind == 0 && (granulesOf (w.base + o) n).any fun g => entDry (s.entry g)

/-- PERM bits an operation needs (R437): READ 1, WRITE 2, ATOMIC 4, FLAG 8. -/
def needPerm (opc atop : Nat) : Nat :=
  match opc with
  | 0x01 | 0x02 | 0x03 => 1
  | 0x08 | 0x09 | 0x0A => 2
  | 0x0B => 4
  | _ => if atop = 0 then 10 else 12

/-- The checks of R439 on one access, in their order; 0 when it is allowed.  `rd` says whether lines are read; an access to a granule
whose tier-table entry cannot be read is one of an uncorrectable line (05 R215). -/
def State.winCheck (s : State) (src win o n need : Nat) (write rd : Bool) : State × Nat :=
  match Map.get? s.windows win with
  | none => (s, 1)
  | some w =>
    let s := if w.kind = 0 then s.zeroWaking w.sheet else s
    if src &&& w.pmask != w.pmatch &&& w.pmask || w.perm &&& need != need then (s, 2)
    else if o % n != 0 then (s, 3)
    else if w.len < o + n || (w.kind == 0 && !(s.inRun w.sheet ((w.base + o) / 65536))) then (s, 4)
    else
    let e := if w.kind = 0 then s.entryRead ((w.base + o) / 65536) w.sheet else (s, false)
    let s := e.1
    if e.2 then (s, 6)
    else if w.kind == 0 && !(s.tierOk w.sheet (w.base + o) n) then (s, 4)
    else if write && s.winDry w o n then (s, 5)
    else if rd then
      let r := s.winEcc w o n
      (r.1, if r.2.isSome then 6 else 0)
    else (s, 0)

/-- Write to a window that the checks allowed. -/
def State.winPut (s : State) (win o : Nat) (bs : List Byte) : State :=
  match Map.get? s.windows win with
  | none => s
  | some w => s.winWrite w o bs

/-- Read from a window that the checks allowed, with the touch bits. -/
def State.winGet (s : State) (win o n : Nat) : State × List Byte :=
  match Map.get? s.windows win with
  | none => (s, [])
  | some w => ((if w.kind = 0 then s.touchRange (w.base + o) n else s), s.winRead w o n)

/-! ## What a target does (R439, R446, R447, R469, R494, R749) -/

/-- The answer to an operation. -/
structure Reply where
  status : Nat
  imm : Nat
  gran : List (List Byte)
  deriving DecidableEq, Repr

/-- New value of an ATOMIC (R447); none for a reserved code. -/
def atomicValue (op old a b : Nat) : Option Nat :=
  match op with
  | 0 => some ((old + a) % 2 ^ 64)
  | 1 => some (min old a)
  | 2 => some (max old a)
  | 3 => some a
  | 4 => some (if old = a then b else old)
  | _ => none

/-- A load of n bytes. -/
def State.applyLoad (s : State) (p : Packet) (n : Nat) : State × Reply :=
  let o := p.offset.toNat
  let c := s.winCheck p.src.toNat p.win.toNat o n 1 false true
  if c.2 != 0 then (c.1, ⟨c.2, 0, []⟩) else
  let r := c.1.winGet p.win.toNat o n
  (r.1, if n = 8 then ⟨0, leNat r.2, []⟩ else ⟨0, 0, [r.2]⟩)

/-- The bytes of a word with the enabled bytes replaced. -/
def mergeBytes (old new : List Byte) (be : Nat) : List Byte :=
  (List.range old.length).map fun i => if bit be i then new.getD i 0 else old.getD i 0

/-- STORE8 with its byte enables; a partly written line is read through the code. -/
def State.applyStore8 (s : State) (p : Packet) : State × Reply :=
  let o := p.offset.toNat
  let c := s.winCheck p.src.toNat p.win.toNat o 8 2 true true
  if c.2 != 0 then (c.1, ⟨c.2, 0, []⟩) else
  let r := c.1.winGet p.win.toNat o 8
  (r.1.winPut p.win.toNat o (mergeBytes r.2 (leBytes 8 p.imm.toNat) p.be.toNat), ⟨0, 0, []⟩)

/-- One line written; answers the status. -/
def State.applyLine (s : State) (src win o : Nat) (bs : List Byte) : State × Nat :=
  let c := s.winCheck src win o 64 2 true false
  if c.2 != 0 then c else (c.1.winPut win o bs, 0)

/-- One line read; answers the status and the data. -/
def State.readLine (s : State) (src win o : Nat) : State × Nat × List Byte :=
  let c := s.winCheck src win o 64 1 false true
  if c.2 != 0 then (c.1, c.2, List.replicate 64 0) else
  let r := c.1.winGet win o 64
  (r.1, 0, r.2)

/-- BULKW in STOP mode: lines in ascending address up to the first that fails (R469). -/
def State.applyBulkw (src win : Nat) : List (List Byte) → Nat → Nat → State → State × Reply
  | [], _, done, s => (s, ⟨0, done, []⟩)
  | g :: rest, o, done, s =>
    let c := s.applyLine src win o g
    if c.2 != 0 then (c.1, ⟨c.2, done, []⟩) else State.applyBulkw src win rest (o + 64) (done + 1) c.1

/-- BULKR in STOP mode. -/
def State.applyBulkr (src win : Nat) : Nat → Nat → List (List Byte) → State → State × Reply
  | 0, _, acc, s => (s, ⟨0, acc.length, acc⟩)
  | n + 1, o, acc, s =>
    let c := s.readLine src win o
    if c.2.1 != 0 then (c.1, ⟨c.2.1, acc.length, acc⟩) else State.applyBulkr src win n (o + 64) (acc ++ [c.2.2]) c.1

/-- A status granule: 4 bits a line (12 R494). -/
def statusGran (sts : List Nat) : List Byte :=
  (List.range 64).map fun i => BitVec.ofNat 8 (sts.getD (2 * i) 0 + 16 * sts.getD (2 * i + 1) 0)

/-- Status of line i in a status granule. -/
def statusAt (g : List Byte) (i : Nat) : Nat := (g.getD (i / 2) 0).toNat / (if i % 2 = 0 then 1 else 16) % 16

/-- BULKW in EACH mode: every line has its own window, offset and status. -/
def State.applyEachW (s : State) (p : Packet) : State × Reply :=
  let n := p.ngm1.toNat + 1
  let na := (n + 7) / 8
  let addrs := (p.gran.take na).flatMap id
  let r := (List.range n).foldl (fun (st : State × List Nat) i =>
    let a := leNat ((addrs.drop (8 * i)).take 8)
    let c := st.1.applyLine p.src.toNat (bits a 11 0) (bits a 47 12) (p.gran.getD (na + i) [])
    (c.1, st.2 ++ [c.2])) (s, [])
  (r.1, ⟨0, 0, [statusGran r.2]⟩)

/-- BULKR in EACH mode: every line is read and has its own status. -/
def State.applyEachR (s : State) (p : Packet) : State × Reply :=
  let r := (List.range (p.ngm1.toNat + 1)).foldl (fun (st : State × List Nat × List (List Byte)) i =>
    let c := st.1.readLine p.src.toNat p.win.toNat (p.offset.toNat + 64 * i)
    (c.1, st.2.1 ++ [c.2.1], st.2.2 ++ [c.2.2])) (s, [], [])
  (r.1, ⟨0, 0, statusGran r.2.1 :: r.2.2⟩)

/-- ATOMIC (R447). -/
def State.applyAtomic (s : State) (p : Packet) : State × Reply :=
  let o := p.offset.toNat
  if 4 < p.atop.toNat then
    let c := s.winCheck p.src.toNat p.win.toNat o 8 4 true false
    (c.1, ⟨if c.2 = 1 then 1 else 2, 0, []⟩)
  else
  let c := s.winCheck p.src.toNat p.win.toNat o 8 4 true true
  if c.2 != 0 then (c.1, ⟨c.2, 0, []⟩) else
  let r := c.1.winGet p.win.toNat o 8
  let old := leNat r.2
  let v := (atomicValue p.atop.toNat old p.imm.toNat (leNat ((p.gran.headD []).take 8))).getD old
  (r.1.winPut p.win.toNat o (leBytes 8 v), ⟨0, old, []⟩)

/-- FLAG: a flagged store or a flagged add; any other ATOP is answered PERM (R447, R749). -/
def State.applyFlag (s : State) (p : Packet) : State × Reply :=
  let o := p.offset.toNat
  if 1 < p.atop.toNat then (s, ⟨2, 0, []⟩) else
  let c := s.winCheck p.src.toNat p.win.toNat o 8 (needPerm 0x0C p.atop.toNat) true true
  if c.2 != 0 then (c.1, ⟨c.2, 0, []⟩) else
  let r := c.1.winGet p.win.toNat o 8
  let v := if p.atop = 0 then p.imm.toNat else (leNat r.2 + p.imm.toNat) % 2 ^ 64
  (r.1.winPut p.win.toNat o (leBytes 8 v), ⟨0, 0, []⟩)

/-- A memory operation at its target. -/
def State.applyOp (s : State) (p : Packet) : State × Reply :=
  match p.opc.toNat with
  | 0x01 => s.applyLoad p 8
  | 0x02 => s.applyLoad p 64
  | 0x03 => if p.atop.toNat % 2 = 0 then State.applyBulkr p.src.toNat p.win.toNat (p.ngm1.toNat + 1) p.offset.toNat [] s else s.applyEachR p
  | 0x08 => s.applyStore8 p
  | 0x09 =>
    let c := s.applyLine p.src.toNat p.win.toNat p.offset.toNat (p.gran.headD [])
    (c.1, ⟨c.2, 0, []⟩)
  | 0x0A => if p.atop.toNat % 2 = 0 then State.applyBulkw p.src.toNat p.win.toNat p.gran p.offset.toNat 0 s else s.applyEachW p
  | 0x0B => s.applyAtomic p
  | _ => s.applyFlag p

/-- As `applyOp`, where a packet marked NOWIN arrived after the CLOSE of a window it uses, which refuses it (R438). -/
def State.applyMem (s : State) (p : Packet) : State × Reply :=
  if p.status = 0 then s.applyOp p
  else if p.opc.toNat = 0x0A ∧ p.atop.toNat % 2 = 1 then
    match s.closing with
    | none => s.applyOp p
    | some w =>
      let r := State.applyOp { s with windows := Map.erase s.windows w } p
      ({ r.1 with windows := s.windows }, r.2)
  else (s, ⟨p.status.toNat, 0, []⟩)

/-- Mark an operation that arrives after the CLOSE of a window it uses (R438). -/
def State.markClosed (s : State) (p : Packet) : Packet :=
  let mem := decide (p.opc.toNat < 0x10)
  match s.closing with
  | none => { p with status := 0 }
  | some w => { p with status := if mem && (linesOf p).any (fun l => l.1 == w) then 1 else 0 }

/-- Count an answer with a failed status (R481 INFAIL). -/
def State.countIn (s : State) (r : Reply) : State := if r.status = 0 then s else s.bumpSat Reg.INFAIL

/-- The reply packet to a request or to a write-class operation (12 R493). -/
def State.replyTo (s : State) (p : Packet) (ack : Bool) (r : Reply) : Packet :=
  { mkPacket (if ack then 0x11 else 0x10) s.pos p.src.toNat with
    status := BitVec.ofNat 4 r.status, pseq := if ack then p.pseq else 0, rtag := if ack then 0 else p.rtag,
    issuer := p.issuer, gen := p.gen, imm := BitVec.ofNat 64 r.imm, gran := r.gran,
    ngm1 := BitVec.ofNat 10 (r.gran.length - 1), pver := BitVec.ofNat 4 (s.pver p.src.toNat) }

/-! ## What an issuer is told (R455, R457, R460) -/

/-- Advance the prefix of Quill operations that are all acknowledged (R457). -/
def advanceQuill : Nat → Nat → List Nat → Nat × List Nat
  | 0, d, l => (d, l)
  | n + 1, d, l => if l.contains d then advanceQuill n ((d + 1) % 2 ^ 32) (l.filter (· != d)) else (d, l)

/-- Count an acknowledgement to the Quill complex. -/
def State.quillAck (s : State) (num opc target status aper : Nat) : State :=
  let r := advanceQuill (s.quillDone.length + 1) (s.word Reg.QF_DONE).toNat (num :: s.quillDone)
  let s := ({ s with quillDone := r.2 }).wrw Reg.QF_DONE (BitVec.ofNat 32 r.1)
  if status = 0 then s else
  let s := s.bumpSat Reg.QF_FAILED
  if status = 8 then s.post 0x0902 [target] else s.post 0x0908 [aper, status, opc]

/-- Mirror state of a job slot. -/
def State.mirr (s : State) (j : Nat) : MirrorRt := Map.getD s.mirror j MirrorRt.zero

/-- Store it. -/
def State.setMirr (s : State) (j : Nat) (m : MirrorRt) : State := { s with mirror := Map.set s.mirror j m }

/-- What the mirror engine's trigger still owes: a step mirror the writes not acknowledged OK, a slip batch those not acknowledged
(13 R553, R555).  d of a step mirror's issuer says which of them it is, c says what was written. -/
def State.mirrorAck (s : State) (x : Issuer) (ok : Bool) : State :=
  let m := s.mirr x.b
  match x.c with
  | 1 => if ok && x.d == m.stepRun then s.setMirr x.b { m with stepOwed := m.stepOwed - 1 } else s
  | 2 => s.setMirr x.b { m with batchOwed := m.batchOwed - 1 }
  | 3 => if ok then s.setMirr x.b { m with acked := x.e } else s
  | _ => s

/-- Tell a system unit: an event on any status but OK, which counts in MIRR_ERR for a mirror write (c of its issuer is not 5), and the
unit's own count (R455, R460; 13 R573). -/
def State.unitAck (s : State) (x : Issuer) (target status : Nat) : State :=
  let s := if status = 0 then s else
    let s := s.post 0x0907 [x.a, x.b, target, status]
    if x.a = 3 && x.c != 5 then s.bumpSat Reg.MIRR_ERR else s
  s.mirrorAck x (status == 0)

/-- Tell one issuer of a write-class operation or a load how it ended. -/
def State.tell (s : State) (x : Issuer) (write : Bool) (opc target status aper : Nat) (data : List Byte) : State :=
  match x.kind with
  | 0 =>
    if write then s.quireAck x status aper
    else if s.gen x.a x.b != x.d then s.bumpSat (Reg.STALE_LOADS x.a)
    else if status = 0 then { s with arrived := s.arrived ++ [⟨x, aper, 0, data⟩] }
    else s.ctxFault x.a x.b 0x0C x.e x.at_ aper
  | 1 =>
    match s.opOf (x.a, x.b) with
    | none => s
    | some o =>
      if write then s.dmaAck (x.a, x.b) x.e status aper
      else if status != 0 then s.dmaEnd o 6 o.nextAddr 0 aper
      else { s with arrived := s.arrived ++ [⟨x, aper, 0, data⟩] }
  | 2 =>
    let s := if write then s.quillAck x.a opc target status aper else s
    if write && opc != 0x0B then s else s.answer status (if status = 0 then data else [])
  | 4 => s.unitAck x target status
  | _ => s

/-- The part of a line a waiting load asked for: 8 bytes for a LOAD8 (e of a Quill issuer is 8). -/
def loadPart (x : Issuer) (aper : Nat) (line : List Byte) : List Byte :=
  if x.kind = 2 && x.e == 8 then (line.drop (aper % 64)).take 8 else line

/-- Write the terminal record of a bulk request (R469 to R471). -/
def State.bulkRec (s : State) (req outcome lines abrq : Nat) : State :=
  s.recEnd (physCarve (bits req 383 336)) (bits req 159 128) 0xFF 2 outcome lines
    (if outcome = 0 then 0 else bits req 303 256 + 64 * lines) abrq

/-- End a bulk transfer: its record, and those of the ABORTs that waited for it, which report ALREADY where it ended first (R470). -/
def State.bulkEnd (s : State) (b : BulkJob) (outcome lines : Nat) (abrq : Nat := 0) : State :=
  let s := { s with bulks := s.bulks.filter fun x => x.req != b.req }
  b.abortBy.foldl (fun s x => s.bulkRec x.1 (if outcome = 7 then 0 else 0x80) 0 0)
    (s.bulkRec b.req outcome lines abrq)

/-- Outcome of a bulk transfer for a target's status (R471). -/
def bulkOutcome (status : Nat) : Nat :=
  match status with
  | 0 => 0
  | 5 => 4
  | 6 => 1
  | 8 => 6
  | _ => 5

/-- LOCAL of a bulk request is a TIER address. -/
def bulkTier (req : Nat) : Bool := bits req 255 252 == 2

/-- Write the lines a bulk READ returned (R469): up to the first that LOCAL does not accept. -/
def State.bulkPut (tier : Bool) (sheet : Nat) : List (List Byte) → Nat → Nat → State → State × Nat × Nat
  | [], _, n, s => (s, n, 0)
  | g :: rest, a, n, s =>
    if tier then
      let e := if s.inRun sheet (a / 65536) then s.entryRead (a / 65536) sheet else (s, false)
      let s := e.1
      if e.2 then (s, n, 1)
      else if !(s.tierOk sheet a 64) then (s, n, 5)
      else if entDry (s.entry (a / 65536)) then (s, n, 4)
      else State.bulkPut tier sheet rest (a + 64) (n + 1) (s.storeTier a g)
    else if !(s.inCarve a 64) || s.hitsTables a 64 then (s, n, 5)
    else State.bulkPut tier sheet rest (a + 64) (n + 1) (s.storeCarve a g)

/-- A bulk transfer's reply arrived.  An ABORT of a WRITE takes effect 2 µs after it came: an acknowledgement until then ends the
transfer as it would have (R470) (DESIGN CHOICE, log entry 171). -/
def State.bulkReply (s : State) (b : BulkJob) (status count : Nat) (gran : List (List Byte)) : State :=
  if bits b.req 7 0 = 1 then
    let s := if bulkTier b.req then s.zeroWaking (bits b.req 191 188) else s
    let r := State.bulkPut (bulkTier b.req) (bits b.req 191 188) (gran.take count) (bits b.req 239 192) 0 s
    r.1.bulkEnd b (if r.2.2 != 0 then r.2.2 else bulkOutcome status) r.2.1
  else
    match b.abortBy.find? fun x => decide (x.2 + 2000 < s.now) with
    | some x => s.bulkEnd b 7 count x.2
    | none => s.bulkEnd b (if status = 0 && b.localFail != 0 then b.localFail else bulkOutcome status) count

/-! ## Replies (R454, R463, R465, 12 R494, R502) -/

/-- A reply or acknowledgement to one kept operation.  A gathered store is told with its own class, STORE64 (R463; 19 R736). -/
def State.finish (s : State) (o : OutOp) (status imm : Nat) (gran : List (List Byte)) : State :=
  let s := { s with outOps := s.outOps.filter fun x => !(x.pkt == o.pkt) }
  let each := (o.pkt.opc.toNat == 0x0A || o.pkt.opc.toNat == 0x03) && o.pkt.atop.toNat % 2 == 1
  match s.bulks.find? fun b => o.issuers == [⟨3, bits b.req 383 336, 0, 0, 0, 0, 0⟩] with
  | some b => s.bulkReply b status (imm % 65536) gran
  | none =>
    ((o.issuers.zip o.apers).foldl (fun s x =>
      if each && o.write then
        let st := if status = 0 then statusAt (gran.headD []) (x.2 / 2 ^ 48) else status
        s.tell x.1 true 0x09 o.pkt.dst.toNat st (x.2 % 2 ^ 48) []
      else if each && status = 0 then
        let i := (x.2 % 2 ^ 36 - o.pkt.offset.toNat) / 64
        s.tell x.1 false o.pkt.opc.toNat o.pkt.dst.toNat (statusAt (gran.headD []) i) x.2
          (loadPart x.1 x.2 (gran.getD (i + 1) []))
      else
        let data := if gran.isEmpty then leBytes 8 imm else gran.headD []
        s.tell x.1 o.write o.pkt.opc.toNat o.pkt.dst.toNat status (x.2 % 2 ^ 48) data) s)

/-- Send a kept operation again, with HOPS reset, on another path when one exists (12 R502). -/
def State.resend (s : State) (o : OutOp) (count : Bool) : State :=
  if o.path = 17 || o.path = 15 then s else
  match s.pickPath o.pkt.dst.toNat (some o.path) with
  | none => s
  | some path =>
    let s : State := { s with outOps := s.outOps.map fun x => if x == o then { x with path := path, refused := false } else x }
    let s := (s.send path o.pkt).draw
    if count && o.path != 16 then s.bumpSat Reg.RESENDS else s

/-- A payload granule that cannot be corrected: the packet is discarded and counted, and the error is recorded as one of a fabric
payload (12 R503; 05 R215, R217); it has no address (DESIGN CHOICE, log entry 158). -/
def State.badPayload (s : State) : State := (s.bumpSat Reg.PAY_ERR).uncorr 5 0 0 16

/-- The prelude of every packet taken from a link (12 R503, R519). -/
def State.taken (s : State) (p : Packet) (f : State → State) : State :=
  if p.badGranule then s.badPayload
  else if 1 < p.pver.toNat then s.bumpSat Reg.BADVER
  else f s

/-- Is a position LOST (R473)? -/
def State.isLost (s : State) (pos : Nat) : Bool := (s.peer pos).lost

/-- An RDATA with a granule that does not decode: the request is sent again at once (12 R503). -/
def State.rxBadRdata (s : State) (p : Packet) : State :=
  let s := s.badPayload
  match s.outOps.find? fun o => !o.write && o.path != 17 && o.pkt.dst == p.src && o.pkt.rtag == p.rtag with
  | none => s
  | some o => s.resend o false

/-- A REFUSE: the source sends the packet again after 2 µs (12 R499).  It names a PSEQ, or with PSEQ 0 an RTAG (DEDUCED, log entry 19). -/
def State.rxRefuse (s : State) (p : Packet) : State :=
  { s with outOps := s.outOps.map fun o =>
      if o.pkt.dst == p.src && (if o.write then o.pkt.pseq == p.pseq else p.pseq == 0 && o.path != 17 && o.pkt.rtag == p.rtag) then
        { o with refused := true } else o }

/-! ## Issuing (R442, R449 to R466, R474, R750) -/

/-- Perform an operation on the module itself (R438, R750). -/
def State.selfApply (s : State) (o : OutOp) : State :=
  let s : State := { s with tx := s.tx ++ [(15, o.pkt)] }
  let r := s.applyMem (s.markClosed o.pkt)
  let s := r.1.countIn r.2
  let s := { s with tx := s.tx ++ [(15, s.replyTo o.pkt o.write r.2)] }
  let s := s.finish o r.2.status r.2.imm r.2.gran
  let pe := s.peer s.pos
  if o.write then
    s.setPeer s.pos { pe with low := ((s.outOps.find? fun x => x.write && x.pkt.dst.toNat == s.pos).map fun x => x.pkt.pseq.toNat).getD pe.next }
  else s

/-- May an operation be sent after earlier ones (R449, R450, R451; 12 R500, R501)?  A flag of the module to itself follows every earlier
write-class operation. -/
def State.mayGo (s : State) (earlier : List OutOp) (write : Bool) (p : Packet) : Bool :=
  if write then s.maySend earlier p && (p.dst.toNat != s.pos || p.opc.toNat != 0x0C || earlier.all fun o => !o.write || o.pkt.dst != p.dst)
  else s.mayAsk earlier p

/-- Put a kept operation that waits on its way: to the module itself (path 15), on a path, or without one (path 16).  A request takes
its RTAG now. -/
def State.putOn (s : State) (o : OutOp) : State :=
  let t := s.freeRtag
  let o' : OutOp := if o.write then o else { o with pkt := { o.pkt with rtag := BitVec.ofNat 12 t } }
  let s : State := if o.write then s else { s with rtagNext := (t + 1) % 4096 }
  let put (path : Nat) : State := { s with outOps := s.outOps.map fun x => if x == o then { o' with path := path } else x }
  if o.pkt.dst.toNat = s.pos then (put 15).selfApply { o' with path := 15 }
  else match s.pickPath o.pkt.dst.toNat none with
    | none => put 16
    | some path => ((put path).send path o'.pkt).draw

/-- Send the operations that waited for R449, R465, R500 or R501; path 17 marks them. -/
def State.releaseWaiting (s : State) : State :=
  (s.outOps.filter fun o => o.path == 17).foldl (fun s o =>
    if s.outOps.contains o && s.mayGo (s.outOps.takeWhile (· != o)) o.write o.pkt then s.putOn o else s) s

/-- Complete an operation TLOST at the issuing module (R474). -/
def State.tellLost (s : State) (write : Bool) (p : Packet) (xs : List (Issuer × Nat)) : State :=
  xs.foldl (fun s x => (s.bumpSat Reg.LOSTS).tell x.1 write p.opc.toNat p.dst.toNat 8 (x.2 % 2 ^ 48) []) s

/-- Send a write-class packet. -/
def State.issueWrite (s : State) (p : Packet) (xs : List Issuer) (apers : List Nat) : State :=
  let pos := p.dst.toNat
  if s.isLost pos then s.tellLost true p (xs.zip apers) else
  let p := { p with pver := BitVec.ofNat 4 (s.pver pos) }
  if pos = s.pos then
    let pe := s.peer pos
    let p := { p with pseq := BitVec.ofNat 32 pe.next, dep := s.depOf p }
    let go := s.mayGo s.outOps true p
    let o : OutOp := ⟨p, true, xs, apers, if go then 15 else 17, s.now, false⟩
    let s : State := { s.setPeer pos { pe with next := (pe.next + 1) % 2 ^ 32 } with outOps := s.outOps ++ [o] }
    if go then s.selfApply o else s
  else s.launch p xs apers

/-- Send a request, or let it wait (R449, R465). -/
def State.issueRead (s : State) (p : Packet) (xs : List Issuer) (apers : List Nat) : State :=
  let pos := p.dst.toNat
  if s.isLost pos then s.tellLost false p (xs.zip apers) else
  let p := { p with dep := s.depOf p, pver := BitVec.ofNat 4 (s.pver pos) }
  let o : OutOp := ⟨p, false, xs, apers, 17, s.now, false⟩
  let go := s.mayAsk s.outOps p
  let s : State := { s with outOps := s.outOps ++ [o] }
  if go then s.putOn o else s

/-- An ACK (R454, R475). -/
def State.rxAck (s : State) (p : Packet) : State :=
  if s.isLost p.src.toNat then s.bumpSat Reg.LATE_REPLY else
  match s.outOps.find? fun o => o.write && o.pkt.dst == p.src && o.pkt.pseq == p.pseq with
  | none => s
  | some o => (s.finish o p.status.toNat p.imm.toNat p.gran).releaseWaiting

/-- An RDATA: the first for its RTAG is taken, later ones are counted (12 R502). -/
def State.rxRdata (s : State) (p : Packet) : State :=
  if s.isLost p.src.toNat then s.bumpSat Reg.LATE_REPLY else
  match s.outOps.find? fun o => !o.write && o.path != 17 && o.pkt.dst == p.src && o.pkt.rtag == p.rtag with
  | none => s.bumpSat Reg.DUPREPLY
  | some o => (s.finish o p.status.toNat p.imm.toNat p.gran).releaseWaiting

/-- Put a STORE64 into its target's gather, replacing a line it holds (R462, R463). -/
def State.gatherStore (s : State) (p : Packet) (x : Issuer × Nat) : State :=
  let dst := p.dst.toNat
  let w := p.win.toNat
  let o := p.offset.toNat
  let data := p.gran.headD []
  let s := s.bump Reg.GATHERED
  match s.gathers.find? fun g => g.dst == dst with
  | none => { s with gathers := s.gathers ++ [⟨dst, [(w, o, data, [x])], s.now⟩] }
  | some g =>
    let hit := g.lines.any fun l => l.1 == w && l.2.1 == o
    let lines := if hit then g.lines.map fun l => if l.1 == w && l.2.1 == o then (w, o, data, l.2.2.2 ++ [x]) else l
      else g.lines ++ [(w, o, data, [x])]
    let g' : Gather := ⟨dst, lines, g.since⟩
    let s := { s with gathers := s.gathers.map fun y => if y.dst == dst then g' else y }
    if lines.length = 64 then s.flushGather g' else s

/-- A load through the gateway joins or sends a BULKR of its 4 KiB block, clipped to the whole lines of LENGTH (R465).  It joins none that
does not cover its line or that went before a write to it (R450, R466), and none without an entry of its own (R449). -/
def State.gatherLoad (s : State) (p : Packet) (x : Issuer) (aper len : Nat) : State :=
  let s := s.flushTo p.dst.toNat
  let blk := p.offset.toNat / 4096 * 4096
  let mine (o : OutOp) : Bool := !o.write && o.pkt.opc.toNat == 3 && o.pkt.atop.toNat == 1 && o.pkt.dst == p.dst &&
    o.pkt.win == p.win && o.pkt.offset.toNat == blk
  let joins (o : OutOp) : Bool := mine o && o.path != 17 &&
    decide (p.offset.toNat / 64 * 64 < blk + 64 * (o.pkt.ngm1.toNat + 1)) &&
    !((s.outOps.dropWhile (· != o)).any fun y => y.write && y.pkt.dst == p.dst && sharesLine y.pkt p)
  let n := min 4096 (len - blk) / 64
  if s.loadRoom && s.outOps.any joins then
    { s with outOps := s.outOps.map fun o => if joins o then { o with issuers := o.issuers ++ [x], apers := o.apers ++ [aper] } else o }
  else if 128 ≤ s.bulkrs then (s.bumpSat Reg.SINGLES).issueRead p [x] [aper]
  else if blk + 64 * n ≤ p.offset.toNat then s.issueRead p [x] [aper]
  else
    (s.bump Reg.BULKR_SENT).issueRead
      { p with opc := 3, atop := 1, offset := BitVec.ofNat 36 blk, ngm1 := BitVec.ofNat 10 (n - 1) } [x] [aper]

/-- An operation that its import check allowed: through the gateway or directly (R461 to R466). -/
def State.issue (s : State) (p : Packet) (x : Issuer) (aper len : Nat) (nogather : Bool) : State :=
  let pos := p.dst.toNat
  let write : Bool := decide (p.opc.toNat ≥ 8)
  let gw := s.viaGateway pos && !(s.isLost pos) && s.rdb Reg.GATHER_CTL 31
  let room := (s.gathers.any fun g => g.dst == pos) || decide (s.gathers.length < 256)
  if p.opc.toNat = 0x09 then
    if gw && !nogather && room then s.gatherStore p (x, aper)
    else
      let s := if gw then (s.bumpSat Reg.SINGLES).flushTo pos else if s.viaGateway pos then s.flushTo pos else s
      s.issueWrite p [x] [aper]
  else if write then (if s.viaGateway pos then s.flushTo pos else s).issueWrite p [x] [aper]
  else if gw && !nogather && p.opc.toNat != 3 then s.gatherLoad p x aper len
  else
    let s := if gw && nogather && p.opc.toNat != 3 then s.bumpSat Reg.SINGLES else s
    (if s.viaGateway pos then s.flushTo pos else s).issueRead p [x] [aper]

/-- Import entry of the Quill or of a sheet (R440, R441). -/
def State.importEntry (s : State) (sheet : Option Nat) (aper : Nat) : Nat :=
  let i := aper / 2 ^ 36 % 4096
  match sheet with
  | none => s.carveLe (s.addrOf Reg.QIMP_LO Reg.QIMP_HI 65536 + 16 * i) 16
  | some k =>
    let a := s.addrOf (Reg.IMPT_LO k) (Reg.IMPT_HI k) 65536
    if s.pinnedRange k a 65536 then s.tierLe (a + 16 * i) 16 else 0

/-- An import entry is read: what is counted and recorded (05 R213, R215). -/
def State.seenImport (s : State) (sheet : Option Nat) (aper : Nat) : State :=
  let i := aper / 2 ^ 36 % 4096
  match sheet with
  | none =>
    let a := s.addrOf Reg.QIMP_LO Reg.QIMP_HI 65536 + 16 * i
    s.seenCarve a 16
  | some k =>
    let a := s.addrOf (Reg.IMPT_LO k) (Reg.IMPT_HI k) 65536
    if s.pinnedRange k a 65536 then (s.eccTier (a + 16 * i) 16 k).1 else s

/-- The check of R442. -/
def importOk (e off n need : Nat) : Bool :=
  bit e 63 && decide (off + n ≤ bits e 99 64) && (bits e 61 58) &&& need == need

/-- A packet of an operation through an import entry (DEDUCED in part, log entry 67). -/
def aperPacket (s : State) (opc e aper : Nat) : Packet :=
  { mkPacket opc s.pos (bits e 15 0) with win := BitVec.ofNat 12 (bits e 43 32), offset := BitVec.ofNat 36 aper }

/-! ## Lost positions (R473 to R477) -/

/-- Complete operations TLOST. -/
def State.loseOps (s : State) (ops : List OutOp) : State :=
  ops.foldl (fun s o =>
    match s.bulks.find? fun b => o.issuers == [⟨3, bits b.req 383 336, 0, 0, 0, 0, 0⟩] with
    | some b => (s.bumpSat Reg.LOSTS).bulkEnd b 6 0
    | none => s.tellLost o.write o.pkt (o.issuers.zip o.apers)) s

/-- Mark a position LOST: its operations complete TLOST, what is held from it goes, an event and a lost report are sent. -/
def State.markLost (s : State) (pos : Nat) : State :=
  if s.isLost pos then s else
  let s := s.setPeer pos { s.peer pos with lost := true }
  let ops := s.outOps.filter fun o => o.pkt.dst.toNat == pos
  let gs := s.gathers.filter fun g => g.dst == pos
  let nf := (s.heldFlags.filter fun p => p.src.toNat == pos).length + (s.heldPkts.filter fun p => p.src.toNat == pos).length + gs.length
  let s := { s with
    outOps := s.outOps.filter fun o => o.pkt.dst.toNat != pos
    gathers := s.gathers.filter fun g => g.dst != pos
    heldFlags := s.heldFlags.filter fun p => p.src.toNat != pos
    heldPkts := s.heldPkts.filter fun p => p.src.toNat != pos }
  let s := if nf = 0 then s else s.bumpSat Reg.LOSTS nf
  let s := s.loseOps ops
  let s := gs.foldl (fun s g => s.tellLost true (mkPacket 0x09 s.pos pos) (g.lines.flatMap fun l => l.2.2.2)) s
  let s := s.post 0x0902 [pos]
  let s := if s.rdb Reg.MIRR_CTL 31 && s.rdb Reg.BUDDY 16 && s.rd Reg.BUDDY 15 0 == pos then s.wr Reg.MIRR_CTL 29 28 3 else s
  (({ s with svc := s.svc ++ [leBytes 2 s.pos ++ leBytes 2 pos] } : State).releaseWaiting).report

/-- Clear a LOST mark: the pair starts afresh, with nothing held from the position and nothing outstanding to it (R477, 12 R498).  What
was outstanding completes TLOST, as no answer to its old number can be taken (DESIGN CHOICE, log entry 172). -/
def State.clearLost (s : State) (pos : Nat) : State :=
  let ops := s.outOps.filter fun o => o.pkt.dst.toNat == pos
  let s : State := { s with
    outOps := s.outOps.filter fun o => o.pkt.dst.toNat != pos
    heldFlags := s.heldFlags.filter fun p => p.src.toNat != pos
    heldPkts := s.heldPkts.filter fun p => p.src.toNat != pos }
  let s := s.setPeer pos Peer.zero
  if ops.isEmpty then s else (s.loseOps ops).releaseWaiting

end Sys2Proof.Machine
end

