-- ==== Sys2Proof/Machine/FabricOps.lean ====
section
/-! DEFINITION. Commands on windows, lost positions, resends, gathers, the Quill's aperture accesses and the bulk ring
(11_fabric_ops.md R438 to R445, R457, R462, R467 to R471, R473, R477, R481; 12_fabric_links.md R499, R502). -/

namespace Sys2Proof.Machine

/-! ## Windows (R434 to R438) -/

/-- Address of the window-table entry of a window identifier. -/
def State.windowAt (s : State) (w : Nat) : Nat := s.addrOf Reg.WTAB_LO Reg.WTAB_HI 64 + 32 * w

/-- The window-table entry of a window identifier. -/
def State.windowEntry (s : State) (w : Nat) : Nat := s.carveLe (s.windowAt w) 32

/-- The fields of an entry. -/
def entWindow (e : Nat) : WinEnt :=
  ⟨bits e 47 0, bits e 99 64, bits e 62 60, bits e 59 56, bits e 55 52, bits e 175 160, bits e 159 144⟩

/-- Does an entry meet the conditions of its kind, with its reserved fields zero (R435, R436)? -/
def State.entryFits (s : State) (e : Nat) : Bool :=
  let x := entWindow e
  bit e 63 && bits e 255 176 == 0 && bits e 143 100 == 0 && bits e 50 48 == 0 && x.base % 64 == 0 && x.len % 64 == 0 &&
  decide (64 ≤ x.len) &&
  (match x.kind with
   | 0 => s.inRun x.sheet (x.base / 65536) && s.inRun x.sheet ((x.base + x.len - 1) / 65536)
   | 1 => s.inCarve x.base x.len && !(s.hitsTables x.base x.len)
   | 2 => decide (x.base + x.len ≤ s.rd Reg.MIRROR_T2 31 0 * 65536)
   | _ => false)

/-- WCMD_STAT.BUSY. -/
def State.wBusy (s : State) : Bool := s.rdb Reg.WCMD_STAT 31

/-- OPEN of a window: its entry is read once (R438; 05 R213, R215). -/
def State.windowOpen (s : State) (w : Nat) : State :=
  if (Map.get? s.windows w).isSome then s.wr Reg.WCMD_STAT 1 0 2
  else
    let s := s.seenCarve (s.windowAt w) 32
    let e := s.windowEntry w
    if s.entryFits e then ({ s with windows := Map.set s.windows w (entWindow e) }).wr Reg.WCMD_STAT 1 0 0
    else s.wr Reg.WCMD_STAT 1 0 1

/-- CLOSE of a window: it counts as closed from now on, and BUSY is set until CLOSE completes. -/
def State.windowClose (s : State) (w : Nat) : State :=
  if (Map.get? s.windows w).isNone then s.wr Reg.WCMD_STAT 1 0 2
  else (({ s with closing := some w }).wr Reg.WCMD_STAT 1 0 0).wrb Reg.WCMD_STAT 31 true

/-- A write of WCMD (R438, R481). -/
def State.windowCommand (s : State) (v cls : Nat) : State :=
  if s.wBusy then s.logWrite Reg.WCMD v cls
  else match bits v 31 28 with
    | 1 => s.windowOpen (bits v 11 0)
    | 2 => s.windowClose (bits v 11 0)
    | _ => s.wr Reg.WCMD_STAT 1 0 3

/-- WINDOW_OPEN. -/
def execWindowOpen (w : BitVec 12) (s : State) : Host.Outcome State Fault Refusal :=
  act s fun s => s.windowCommand (2 ^ 28 + w.toNat) 0

/-- WINDOW_CLOSE. -/
def execWindowClose (w : BitVec 12) (s : State) : Host.Outcome State Fault Refusal :=
  act s fun s => s.windowCommand (2 * 2 ^ 28 + w.toNat) 0

/-- CLOSE_COMPLETE: once every operation admitted on the window has been applied and answered (R438). -/
def execCloseComplete (s : State) : Host.Outcome State Fault Refusal :=
  act s fun s =>
    match s.closing with
    | none => s
    | some w =>
      let uses (p : Packet) : Bool := p.status == 0 && (linesOf p).any fun l => l.1 == w
      if s.heldFlags.any uses || s.heldPkts.any uses then s
      else ({ s with windows := Map.erase s.windows w, closing := none }).wrb Reg.WCMD_STAT 31 false

/-! ## Positions -/

/-- REACH_MARK (R473). -/
def execReachMark (pos : BitVec 16) (s : State) : Host.Outcome State Fault Refusal := act s fun s => s.markLost pos.toNat

/-- REACH_CLEAR (R477). -/
def execReachClear (pos : BitVec 16) (s : State) : Host.Outcome State Fault Refusal := act s fun s => s.clearLost pos.toNat

/-- TLOST_US in ns: 10 µs to 1,000 µs (R473, R481). -/
def State.tlostNs (s : State) : Nat := 1000 * min 1000 (max 10 (s.rd Reg.TLOST_CTL 9 0))

/-- TLOST_TIMEOUT: an operation has had no answer for TLOST_US since it was first sent (R473). -/
def execTlostTimeout (pos : BitVec 16) (s : State) : Host.Outcome State Fault Refusal :=
  act s fun s =>
    match s.outOps.find? fun o => o.pkt.dst == pos && o.path != 17 with
    | none => s
    | some o => (s.waited o.sentAt s.tlostNs).markLost pos.toNat

/-- REFUSE_RESEND: 2 µs after a REFUSE the packet is sent again (12 R499). -/
def execRefuseResend (pos : BitVec 16) (s : State) : Host.Outcome State Fault Refusal :=
  act s fun s => (s.outOps.filter fun o => o.pkt.dst == pos && o.refused).foldl (fun s o => s.resend o false) s

/-- E2E_US in ns: 4 µs to 100 µs (12 R502, R524). -/
def State.e2eNs (s : State) : Nat := 1000 * min 100 (max 4 (s.rd Reg.E2E_CTL 6 0))

/-- E2E_RESEND: E2E_US have passed without an answer to the first packet of a position that has none; every packet that has waited as
long is sent again (12 R502). -/
def execE2eResend (pos : BitVec 16) (s : State) : Host.Outcome State Fault Refusal :=
  act s fun s =>
    let l := s.outOps.filter fun o => o.pkt.dst == pos && !o.refused
    match l.head? with
    | none => s
    | some o =>
      let s := s.waited o.sentAt s.e2eNs
      (l.filter fun o => decide (o.sentAt + s.e2eNs ≤ s.now)).foldl (fun s o => s.resend o true) s

/-- GATHER_NS: 100 to 2,000; another value is taken as 2,000 (R462, R481). -/
def State.gatherNs (s : State) : Nat :=
  let n := s.rd Reg.GATHER_CTL 11 0
  if 100 ≤ n ∧ n ≤ 2000 then n else 2000

/-- GATHER_TIMEOUT: GATHER_NS have passed since a gather's first store (R462). -/
def execGatherTimeout (pos : BitVec 16) (s : State) : Host.Outcome State Fault Refusal :=
  act s fun s =>
    match s.gathers.find? fun g => g.dst == pos.toNat with
    | none => s
    | some g => (s.waited g.since s.gatherNs).flushTo pos.toNat

/-! ## The Quill's aperture accesses (R442, R444, R445, R457) -/

/-- A failed import check of a Quill core: an error response and an event; the class of operation is the opcode (DEDUCED, log entry 18). -/
def State.apertureError (s : State) (aper opc : Nat) : State := (s.answer 2 []).post 0x0901 [aper, opc]

/-- The number of the next Quill write-class operation. -/
def State.quillIssue (s : State) : State × Nat := (s.bump Reg.QF_ISSUED, (s.word Reg.QF_ISSUED).toNat)

/-- A Quill core's operation at an aperture address, when its import entry allows it (R442; 05 R213, R215): what is done with the
entry, or an error for its class of operation. -/
def State.quillOp (s : State) (a opc n need : Nat) (f : State → Nat → State) : State :=
  let s := s.seenImport none a
  let e := s.importEntry none a
  if importOk e (a % 2 ^ 36) n need then f s e else s.apertureError a opc

/-- A write-class operation of a Quill core, with its number (R455, R457). -/
def State.quillWrite (s : State) (e a opc : Nat) (f : Packet → Packet) : State :=
  let r := s.quillIssue
  r.1.issue (f (aperPacket s opc e a)) ⟨2, r.2, 0, 0, 0, 0, 0⟩ a (bits e 99 64) (bit e 62)

/-- QUILL_LOAD: LOAD64 of a line, or LOAD8. -/
def execQuillLoad (aper : BitVec 48) (line : Bool) (s : State) : Host.Outcome State Fault Refusal :=
  act s fun s =>
    let a := aper.toNat
    let n := if line then 64 else 8
    let opc := if line then 0x02 else 0x01
    s.quillOp a opc n 1 fun s e => s.issue (aperPacket s opc e a) ⟨2, 0, 0, 0, 0, n, 0⟩ a (bits e 99 64) (bit e 62)

/-- One STORE8 of a Quill core. -/
def State.quillStore8 (s : State) (a : Nat) (be : BitVec 8) (w : List Byte) : State :=
  s.quillOp a 0x08 8 2 fun s e => s.quillWrite e a 0x08 fun p => { p with be := be, imm := BitVec.ofNat 64 (leNat w) }

/-- QUILL_STORE: STORE8 with byte enables; 64 bytes are eight of them, each whole (R444, R445) (DESIGN CHOICE in part, log entry 59). -/
def execQuillStore (aper : BitVec 48) (be : BitVec 8) (data : List Byte) (s : State) : Host.Outcome State Fault Refusal :=
  actIf (data.length == 8 || data.length == 64) s fun s =>
    if data.length = 8 then s.quillStore8 aper.toNat be data
    else (List.range 8).foldl (fun s i => s.quillStore8 (aper.toNat + 8 * i) 0xFF ((data.drop (8 * i)).take 8)) s

/-- QUILL_ATOMIC: an ATOMIC of code `op`, or with codes 8 and 9 a FLAG: a flagged store or a flagged add of `a` (R445, R447)
(DESIGN CHOICE, log entry 59). -/
def execQuillAtomic (aper : BitVec 48) (op : BitVec 4) (a b : W64) (s : State) : Host.Outcome State Fault Refusal :=
  act s fun s =>
    let x := aper.toNat
    if op = 8 ∨ op = 9 then
      s.quillOp x 0x0C 8 (needPerm 0x0C (op.toNat - 8)) fun s e => s.quillWrite e x 0x0C fun p => { p with atop := op - 8, imm := a }
    else
      s.quillOp x 0x0B 8 4 fun s e => s.quillWrite e x 0x0B fun p =>
        { p with atop := op, imm := a, gran := if op = 4 then [leBytes 8 b.toNat ++ List.replicate 56 0] else [] }

/-! ## The bulk ring (R467 to R471) -/

/-- Does a ring with its watch line lie wholly in the carve-out (06 R748)? -/
def State.ringOk (s : State) (base entries : Nat) : Bool :=
  s.inCarve base (64 * entries + 64) && !(s.hitsTables base (64 * entries + 64))

/-- A RINGADDR event once for each failing value of a ring's base (06 R748); `k` names the ring. -/
def State.ringFail (s : State) (k code qn base : Nat) : State :=
  if (Map.get? s.ringBad (k * 2 ^ 64 + base)).isSome then s
  else ({ s with ringBad := Map.set s.ringBad (k * 2 ^ 64 + base) base }).post code [qn, base]

/-- What an engine finds at the head of a carve-out ring: nothing to take, or an entry. -/
structure Head where
  st : State
  entry : Option Nat

/-- The next entry of a carve-out ring of 64-byte lines: the line at the consumer count, or the n bytes at `a`. -/
def State.ringHead (s : State) (k code base entries cons : Nat) (a : Nat := base + 64 * (cons % entries)) (n : Nat := 64) : Head :=
  if !(s.ringOk base entries) then ⟨s.ringFail k code 0xFF base, none⟩ else
  let w := base + 64 * entries
  let s := s.seen (physCarve w) 64 w 16
  if s.carveLe w 8 % 2 ^ 32 = cons then ⟨s, none⟩
  else
    let s := s.seen (physCarve a) n a 16
    ⟨s, some (s.carveLe a n)⟩

/-- The bulk engine's next request, when fewer than 16 run. -/
def State.bulkHead (s : State) : Head :=
  if 16 ≤ s.bulks.length then ⟨s, none⟩
  else s.ringHead 130 0x0909 (s.addrOf Reg.BQ_BASE_LO Reg.BQ_BASE_HI 64) 256 (s.word Reg.BQ_CONS).toNat

/-- May a record in the carve-out be used by a unit other than a DMA queue (06 R251, R746)? -/
def State.carveRecOk (s : State) (a : Nat) : Bool := a % 64 == 0 && s.inCarve a 64 && !(s.hitsTables a 64)

/-- What taking an operation finds in its record (06 R253), at physical address `a` and address `crec`: start it, skip it, or a record
in use.  A record that cannot be corrected stops the operation (05 R215, R216) (DESIGN CHOICE, log entry 163). -/
def State.recTake (s : State) (a crec tag unit kind : Nat) : State × Bool :=
  let s := s.seen a 64 crec 16
  match s.recState a with
  | 0 => (s.recRun a tag unit kind, true)
  | 3 | 0xFF => (s, false)
  | _ => (s.post 0x0702 [crec], false)

/-- Is a bulk request rejected as BADDESC (R468, R471)? -/
def bulkBad (r : Nat) : Bool :=
  let op := bits r 7 0
  let len := bits r 176 160
  !(op == 1 || op == 2 || op == 3) || bits r 511 384 != 0 || bits r 335 304 != 0 || bits r 187 177 != 0 || bits r 127 8 != 0 ||
  bits r 239 192 % 64 != 0 || bits r 255 240 % 4096 != 0 ||
  (if op = 3 then bits r 255 252 != 4
   else !(bits r 255 252 == 2 || bits r 255 252 == 4) || bits r 303 256 % 64 != 0 || len % 64 != 0 || len == 0 || 65536 < len)

/-- Is LOCAL outside the sheet's run or the carve-out (R471)? -/
def State.bulkLocalOk (s : State) (r : Nat) : Bool :=
  let a := bits r 239 192
  let n := bits r 176 160
  if bulkTier r then s.tierOk (bits r 191 188) a n else s.inCarve a n

/-- Read LOCAL line by line through the code, up to the first line that does not decode (R469). -/
def State.bulkGet (tier : Bool) (sheet : Nat) : Nat → Nat → List (List Byte) → State → State × List (List Byte)
  | 0, _, acc, s => (s, acc)
  | n + 1, a, acc, s =>
    let c := if tier then s.eccTier a 64 sheet else s.ecc (physCarve a) 64 a 0 16
    if c.2.isSome then (c.1, acc)
    else if tier then State.bulkGet tier sheet n (a + 64) (acc ++ [c.1.loadTier a 64]) (c.1.touchRange a 64)
    else State.bulkGet tier sheet n (a + 64) (acc ++ [Mem.read c.1.mem (physCarve a) 64]) c.1

/-- Start a READ or a WRITE. -/
def State.bulkStart (s : State) (r : Nat) : State :=
  let write := bits r 7 0 = 2
  let aper := bits r 303 256
  let lines := bits r 176 160 / 64
  let s := s.seenImport none aper
  let e := s.importEntry none aper
  let b : BulkJob := ⟨r, 0, []⟩
  let x : Issuer := ⟨3, bits r 383 336, 0, 0, 0, 0, 0⟩
  let s := if bulkTier r then s.zeroWaking (bits r 191 188) else s
  if !(s.bulkLocalOk r) || !(importOk e (aper % 2 ^ 36) (bits r 176 160) (if write then 2 else 1)) then s.bulkEnd b 5 0
  else if s.isLost (bits e 15 0) then (s.bumpSat Reg.LOSTS).bulkEnd b 6 0
  else if write then
    let g := State.bulkGet (bulkTier r) (bits r 191 188) lines (bits r 239 192) [] s
    if g.2.isEmpty then g.1.bulkEnd b 1 0 else
    let s : State := { g.1 with bulks := g.1.bulks ++ [{ b with localFail := if g.2.length < lines then 1 else 0 }] }
    (s.bump Reg.BULKW_SENT).issue
      { aperPacket s 0x0A e aper with ngm1 := BitVec.ofNat 10 (g.2.length - 1), gran := g.2 } x aper (bits e 99 64) true
  else
    let s : State := { s with bulks := s.bulks ++ [b] }
    (s.bump Reg.BULKR_SENT).issue { aperPacket s 0x03 e aper with ngm1 := BitVec.ofNat 10 (lines - 1) } x aper (bits e 99 64) true

/-- ABORT of a bulk transfer (R470, 06 R256): the outcome of the ABORT, none while it waits for the acknowledgement of a WRITE, whose
BULKW is on its way (06 R255).  A READ stops at once, and its reply is dropped. -/
def State.bulkAbort (s : State) (r : Nat) : State × Option Nat :=
  let t := bits r 239 192
  let a := physCarve t
  if !(s.carveRecOk t) then (s, some 5) else
  let s := s.seen a 64 t 16
  match s.recState a with
  | 0 => (s.store a (recBytes (Mem.le s.mem a 4) 0xFF 2 7 3 0 0 0 s.now s.now), some 0)
  | 0xFF => (s, some 1)
  | 1 =>
    if s.recKind a != 2 then (s, some 0x81) else
    match s.bulks.find? fun b => bits b.req 383 336 == t with
    | none => (s, some 0x81)
    | some b =>
      if bits b.req 7 0 = 2 then
        ({ s with bulks := s.bulks.map fun y => if y.req == b.req then { y with abortBy := y.abortBy ++ [(r, s.now)] } else y }, none)
      else
      let x : Issuer := ⟨3, t, 0, 0, 0, 0, 0⟩
      let s : State := { s with outOps := s.outOps.map fun o => if o.issuers == [x] then { o with issuers := [], apers := [] } else o }
      (s.bulkEnd b 7 0 s.now, some 0)
  | _ => (s, some 0x80)

/-- The bulk engine takes its next request when it is of the command's operation, or of a reserved one (R467, R471). -/
def State.bulkStep (s : State) (op : Nat) : State :=
  let h := s.bulkHead
  match h.entry with
  | none => h.st
  | some r =>
    let o := bits r 7 0
    if o != op && (o == 1 || o == 2 || o == 3) then h.st else
    let s := h.st.bump Reg.BQ_CONS
    let crec := bits r 383 336
    if !(s.carveRecOk crec) then s.post 0x090A [2, crec, 0xFF] else
    let t := s.recTake (physCarve crec) crec (bits r 159 128) 0xFF 2
    if !t.2 then t.1
    else
      if bulkBad r then t.1.bulkRec r 9 0 0
      else if o = 3 then
        match t.1.bulkAbort r with
        | (s, some x) => s.bulkRec r x 0 0
        | (s, none) => s
      else t.1.bulkStart r

/-- BULK_READ. -/
def execBulkRead (s : State) : Host.Outcome State Fault Refusal := act s fun s => s.bulkStep 1

/-- BULK_WRITE. -/
def execBulkWrite (s : State) : Host.Outcome State Fault Refusal := act s fun s => s.bulkStep 2

/-- BULK_ABORT. -/
def execBulkAbort (s : State) : Host.Outcome State Fault Refusal := act s fun s => s.bulkStep 3

/-! ## Registers (R481) -/

/-- Is a Quill aperture operation outstanding? -/
def State.quillBusy (s : State) : Bool :=
  (s.outOps.any fun o => o.issuers.any fun x => x.kind == 2) ||
  (s.gathers.any fun g => g.lines.any fun l => l.2.2.2.any fun x => x.1.kind == 2)

/-- Is no window open?  One whose CLOSE is taken counts as closed (R438). -/
def State.noWindow (s : State) : Bool := s.windows.all fun w => s.closing == some w.1

/-- A write in the fabric-operation registers of FAB. -/
def State.fopsWrite (s : State) (off v cls : Nat) : State :=
  if off = Reg.WCMD then s.windowCommand v cls
  else if off = Reg.REACH then
    match bits v 31 30 with
    | 1 => s.markLost (bits v 15 0)
    | 2 => s.clearLost (bits v 15 0)
    | _ => s
  else if off = Reg.WTAB_LO ∨ off = Reg.WTAB_HI then s.guardedWrite s.noWindow off v cls
  else if off = Reg.QIMP_LO ∨ off = Reg.QIMP_HI then s.guardedWrite (!s.quillBusy) off v cls
  else if off = Reg.BQ_BASE_LO ∨ off = Reg.BQ_BASE_HI then s.guardedWrite s.bulks.isEmpty off v cls
  else if 0x90400 ≤ off ∧ off < 0x90500 then
    let st := s.sheetState ((off - 0x90400) / 16)
    s.guardedWrite (st == 0 || st == 4) off v cls
  else s.writeReg off v

end Sys2Proof.Machine
end

