-- ==== Sys2Proof/Machine/Sheets.lean ====
section
/-! DEFINITION. Sheets and contexts: the sheet commands, the context commands, switches, draining (10_sheets.md R394 to R420,
R430 to R432, R745; 05_memory.md R202 to R205). -/

namespace Sys2Proof.Machine

/-! ## Quires and slices of a sheet -/

/-- A 64-bit mask held in a LO and a HI register, with the quires the part has. -/
def State.maskOf (s : State) (lo hi : Nat) : Nat := s.rd64 lo hi % 2 ^ 64

/-- QMASK as written, without quires the part lacks (R395). -/
def State.qmaskReg (s : State) (i : Nat) : Nat := s.maskOf (Reg.QMASK_LO i) (Reg.QMASK_HI i) % 2 ^ s.nq

/-- The slice mask as written. -/
def State.slicesReg (s : State) (i : Nat) : Nat := s.maskOf (Reg.SLICES_LO i) (Reg.SLICES_HI i)

/-- The T0 quota Q0 of a sheet (05 R172). -/
def State.q0 (s : State) (i : Nat) : Nat := (s.slicesOf i).foldl (fun n k => n + (sliceRange k).2) 0

/-- Would masks break R395 for sheet i? -/
def State.shapeBad (s : State) (i qm sl : Nat) : Bool :=
  let quires := (List.range 64).filter fun q => bit qm q
  decide (quires.length < 4) ||
  (quires.any fun q => !((List.range 16).any fun j => bit sl (16 * s.dieOf q + j))) ||
  ((List.range 16).any fun k => k != i && ((s.sheet k).qmask &&& qm != 0 || (s.sheet k).slices &&& sl != 0))

/-- Lost contents of a range read as zero (DESIGN CHOICE, log entry 141). -/
def State.lose (s : State) (a n : Nat) : State := s.zero a n

/-- The wells of a quire lose their contents (03 R114). -/
def State.loseWells (s : State) (q : Nat) : State :=
  (List.range 8).foldl (fun s k => s.lose (physWell (8 * q + k) 0) 0x180000) s

/-- Slices that no sheet holds are gated and lose their contents; slice 63 never is (05 R202). -/
def State.gateSlices (s : State) (mask : Nat) : State :=
  ((List.range 63).filter fun k => bit mask k && !((List.range 16).any fun i => bit (s.sheet i).slices k)).foldl
    (fun s k => s.lose (physT0 (sliceRange k).1) ((sliceRange k).2 * 65536)) s

/-- A quire is gated: its clock stops, its wells' contents are lost and its sequencers hold nothing (03 R114); one under
calibration goes on showing TEST (16 R658; DESIGN CHOICE, log entry 140). -/
def State.gateQuire (s : State) (q : Nat) : State :=
  let t := s.underCal q
  let s := ((s.loseWells q).wrw (Reg.QUIRE_STAT q) (if t then 7 else 0)).wrw (Reg.CLOCK q) 0
  let x := s.quire q
  let s := s.setQuire q { x with preds := 0, lastStep := 0, variantAt := 0, entry := 0, phase := 0, issued := 0, acked := 0, failed := 0, raise_ := none, testFrom := if t then some 0 else none, stepAt := none }
  { s with scribes := s.scribes.filter fun e => e.1 / 8 != q }

/-- A quire wakes for a sheet. -/
def State.wakeQuire (s : State) (i q : Nat) : State :=
  ((s.gateQuire q).wr (Reg.QUIRE_STAT q) 23 20 i).setQuireState q 1

/-- Drop the control-space words in a range, so that they read their reset value of zero. -/
def State.clearRegs (s : State) (lo n : Nat) : State :=
  { s with csr := s.csr.filter fun e => !(decide (lo ≤ e.1) && decide (e.1 < lo + n)) }

/-- Clear every per-sheet counter of SHT, MON, DMA and RUL (R397); the sheet's energy goes to UNATTR, which keeps R428. -/
def State.clearCounters (s : State) (i : Nat) : State :=
  let s := s.wr64 Reg.UNATTR_LO Reg.UNATTR_HI
    (s.rd64 Reg.UNATTR_LO Reg.UNATTR_HI + s.rd64 (Reg.ENERGY_LO i) (Reg.ENERGY_HI i))
  let s := s.clearRegs (Reg.BUSY i) 0x18
  let s := (List.range 8).foldl (fun s c => s.clearRegs (Reg.RUNTIME i c) 0x10) s
  let s := (s.clearRegs (0x38000 + 0x800 * i) 0x800).clearRegs (Reg.STALLS i) 0x18
  let s := s.clearRegs (Reg.DISPATCHED i) 0x20
  let s := s.setSheet i { s.sheet i with ran := false, busyHist := 0 }
  { s with blotWin := s.blotWin.filter fun e => e.1 / 256 != i }

/-! ## Sheet commands (R397) -/

/-- Set SCMD_STAT. -/
def State.scmdStat (s : State) (i r : Nat) : State := s.wr (Reg.SCMD_STAT i) 1 0 r

/-- Take masks and go to WAKING. -/
def State.takeShape (s : State) (i qm sl after : Nat) : State :=
  let old := s.quiresOf i
  let oldSlices := (s.sheet i).slices
  let s := s.setSheet i { s.sheet i with qmask := qm, slices := sl, wakeTo := after, cur := none, saving := none, restoring := none,
                                            zeroed := false }
  let s := ((old.filter fun q => !(bit qm q)).foldl State.gateQuire s).gateSlices oldSlices
  let s := (s.quiresOf i).foldl (fun s q => s.wakeQuire i q) s
  ((s.loadScribeCode i).setSheetState i 1).scmdStat i 0

/-- ASSIGN. -/
def State.assign (s : State) (i : Nat) : State :=
  if s.sheetState i != 0 then s.scmdStat i 1
  else if s.shapeBad i (s.qmaskReg i) (s.slicesReg i) then s.scmdStat i 2
  else (s.clearCounters i).takeShape i (s.qmaskReg i) (s.slicesReg i) 2

/-- RESHAPE. -/
def State.reshape (s : State) (i : Nat) : State :=
  if s.sheetState i != 4 then s.scmdStat i 1
  else if s.shapeBad i (s.qmaskReg i) (s.slicesReg i) then s.scmdStat i 2
  else s.takeShape i (s.qmaskReg i) (s.slicesReg i) 4

/-- RELEASE. -/
def State.release (s : State) (i : Nat) : State :=
  if s.sheetState i != 4 then s.scmdStat i 1 else
  let oldSlices := (s.sheet i).slices
  let s := (s.quiresOf i).foldl State.gateQuire s
  let s := ((s.setSheet i { s.sheet i with qmask := 0, slices := 0, cur := none }).gateSlices oldSlices).setSheetState i 0
  let s := (s.wr64 (Reg.QMASK_LO i) (Reg.QMASK_HI i) 0).wr64 (Reg.SLICES_LO i) (Reg.SLICES_HI i) 0
  (s.loadScribeCode i).scmdStat i 0

/-- A context goes OFF: CCFG.EN is cleared (R432). -/
def State.goOff (s : State) (i c : Nat) : State := (s.setCtxState i c 0).wrb (Reg.CCFG i c) 31 false

/-- STOP of a live context, without a fault record (R402, R416). -/
def State.stopCtx (s : State) (i c : Nat) : State := (s.tearContext i c 0).goOff i c

/-- Is every scribe of a sheet in watch state? -/
def State.allWatching (s : State) (i : Nat) : Bool :=
  (s.quiresOf i).all fun q => (List.range 8).all fun k => (s.scribe (8 * q + k)).watch.isSome

/-- Is the stroke at a TIER address a STEP wait (04 R118, R153)? -/
def State.stepAt (s : State) (a : Nat) : Bool := s.tierLe a 2 == 0x0310

/-- Every scribe watches on the STEP wait that is the first stroke of its script (R418). -/
def State.residentDrained (s : State) (i : Nat) : Bool :=
  s.allWatching i && (s.quiresOf i).all fun q => s.stepAt (s.quire q).entry &&
    (List.range 8).all fun k => (s.scribe (8 * q + k)).pc == (s.quire q).entry

/-- Line o of the block of the n-th quire in a save area (R407, R409). -/
def State.saveLine (s : State) (i c n o : Nat) : Nat := s.recW i c 0 + n * 0x210000 + 64 * o

/-- A context that is not resident and whose saved state shows it at its drain point (R418). -/
def State.savedDrained (s : State) (i c : Nat) : Bool :=
  (s.ctxState i c == 1 || s.ctxState i c == 3) && (s.ctx i c).atDrain

/-- In DRAINING, put each context at its drain point to OFF (R418). -/
def State.drainSweep (s : State) (i : Nat) : State :=
  if s.sheetState i != 3 then s else
  let s := (List.range 8).foldl (fun s c => if s.savedDrained i c then s.goOff i c else s) s
  match (s.sheet i).cur with
  | none => s
  | some c => if s.residentDrained i then ((s.dropResident i c).goOff i c).schedule i else s

/-- DRAIN. -/
def State.drain (s : State) (i : Nat) : State :=
  if s.sheetState i != 2 then s.scmdStat i 1 else ((s.setSheetState i 3).scmdStat i 0).drainSweep i

/-- REOPEN. -/
def State.reopen (s : State) (i : Nat) : State :=
  if s.sheetState i != 4 then s.scmdStat i 1 else (((s.loadScribeCode i).setSheetState i 2).scmdStat i 0).schedule i

/-- Every context of a sheet is OFF, and no queue bound to it has a taken descriptor that is not terminal (R419). -/
def State.drained (s : State) (i : Nat) : Bool :=
  (List.range 8).all (fun c => s.ctxState i c == 0) && !(s.dma.any fun o => !(s.qQuill o.qn) && s.qSheet o.qn == i)

/-- Tear every context down, also one that is OFF with descriptors still running, and go to DRAINED (R420); while a descriptor waits
for acknowledgements the sheet is DRAINING (DESIGN CHOICE, log entry 142). -/
def State.tearSheet (s : State) (i : Nat) : State :=
  let s := s.setSheetState i 3
  let s := (List.range 8).foldl (fun s c => if s.live i c then s.stopCtx i c else (s.abortCtxDma i c).goOff i c) s
  if s.drained i then s.setSheetState i 4 else s

/-- TEARDOWN. -/
def State.teardown (s : State) (i : Nat) : State :=
  if s.sheetState i != 2 && s.sheetState i != 3 then s.scmdStat i 1 else (s.tearSheet i).scmdStat i 0

/-- A write of SCMD_s. -/
def State.sheetCommand (s : State) (i v : Nat) : State :=
  match v % 16 with
  | 1 => s.assign i
  | 2 => s.drain i
  | 3 => s.reopen i
  | 4 => s.reshape i
  | 5 => s.release i
  | 6 => s.teardown i
  | _ => s.scmdStat i 3

/-- ASSIGN. -/
def execAssign (i : Fin 16) (s : State) : Host.Outcome State Fault Refusal := act s fun s => s.assign i.val
/-- DRAIN. -/
def execDrain (i : Fin 16) (s : State) : Host.Outcome State Fault Refusal := act s fun s => s.drain i.val
/-- REOPEN. -/
def execReopen (i : Fin 16) (s : State) : Host.Outcome State Fault Refusal := act s fun s => s.reopen i.val
/-- RESHAPE. -/
def execReshape (i : Fin 16) (s : State) : Host.Outcome State Fault Refusal := act s fun s => s.reshape i.val
/-- SHEET_RELEASE. -/
def execSheetRelease (i : Fin 16) (s : State) : Host.Outcome State Fault Refusal := act s fun s => s.release i.val
/-- TEARDOWN. -/
def execTeardown (i : Fin 16) (s : State) : Host.Outcome State Fault Refusal := act s fun s => s.teardown i.val

/-- SHEET_DRAINED: every context is OFF and every queue of the sheet is quiet (R419). -/
def execSheetDrained (i : Fin 16) (s : State) : Host.Outcome State Fault Refusal :=
  act s fun s =>
    if s.sheetState i.val = 3 ∧ s.drained i.val then s.setSheetState i.val 4 else s

/-! ## Context commands (R402, R406, R745) -/

/-- Has every quire of a sheet a valid binding entry in a context (04 R160)? -/
def State.bindingsOk (s : State) (i c : Nat) : Bool := (s.quiresOf i).all fun q => bit (s.binding i c q) 63

/-- Does R406 allow a context to start: alone, or every enabled context with a save area? -/
def State.saveAreasOk (s : State) (i c : Nat) : Bool :=
  let on := (s.enabled i).filter (· != c)
  on.isEmpty || (c :: on).all fun k => s.recW i k 0 != 0

/-- START. -/
def State.contextStart (s : State) (i c cls : Nat) : State :=
  if s.ctxState i c = 0 ∧ s.sheetState i = 2 ∧ s.scbOk i ∧ s.bindingsOk i c ∧ s.saveAreasOk i c then
    let s := (s.quiresOf i).foldl (fun s q => s.bindSeen i c q) ((List.range 8).foldl (fun s k => s.recSeen i k) s)
    let s := s.recPut i c 0x10 (List.replicate 24 0)
    let s := s.recWr i c 0x28 (s.recW i c 0x28 % 256)
    let s := (s.recPut i c 0x40 (List.replicate 32 0)).recPut i c 0x80 (List.replicate 128 0)
    let s := (s.bumpGen i c).setCtx i c { CtxRt.zero with usRem := (s.ctx i c).usRem, epochNs := (s.ctx i c).epochNs }
    ((s.wrb (Reg.CCFG i c) 31 true).setCtxState i c 1).schedule i
  else s.logWrite (Reg.CCMD i c) 1 cls

/-- STOP. -/
def State.contextStop (s : State) (i c cls : Nat) : State :=
  if s.live i c then (s.stopCtx i c).schedule i else s.logWrite (Reg.CCMD i c) 2 cls

/-- RESET. -/
def State.contextReset (s : State) (i c cls : Nat) : State :=
  if s.ctxState i c = 5 then s.goOff i c else s.logWrite (Reg.CCMD i c) 3 cls

/-- A write of CCMD_s_c. -/
def State.contextCommand (s : State) (i c v cls : Nat) : State :=
  match v % 16 with
  | 1 => s.contextStart i c cls
  | 2 => s.contextStop i c cls
  | 3 => s.contextReset i c cls
  | _ => s.logWrite (Reg.CCMD i c) v cls

/-- CONTEXT_START. -/
def execContextStart (i : Fin 16) (c : Fin 8) (s : State) : Host.Outcome State Fault Refusal :=
  act s fun s => s.contextStart i.val c.val 0
/-- CONTEXT_STOP. -/
def execContextStop (i : Fin 16) (c : Fin 8) (s : State) : Host.Outcome State Fault Refusal :=
  act s fun s => s.contextStop i.val c.val 0
/-- CONTEXT_RESET. -/
def execContextReset (i : Fin 16) (c : Fin 8) (s : State) : Host.Outcome State Fault Refusal :=
  act s fun s => s.contextReset i.val c.val 0

/-! ## Switches (R405 to R412) -/

/-- QUANTUM of a sheet in ns: 10 µs to 10,000 µs (R405, R431). -/
def State.quantumNs (s : State) (i : Nat) : Nat := 1000 * min 10000 (max 10 (s.rd (Reg.QUANTUM i) 13 0))

/-- YIELD of a sheet in ns: at least 100 (R405, R431). -/
def State.yieldNs (s : State) (i : Nat) : Nat := max 100 (s.rd (Reg.YIELD i) 15 0)

/-- When the last scribe of a sheet entered watch state. -/
def State.watchFrom (s : State) (i : Nat) : Nat :=
  (s.quiresOf i).foldl (fun n q => (List.range 8).foldl (fun n k => max n (s.scribe (8 * q + k)).watchAt) n) 0

/-- QUANTUM_EXPIRY: the resident context has had its quantum since its restore (R405). -/
def execQuantumExpiry (i : Fin 16) (s : State) : Host.Outcome State Fault Refusal :=
  act s fun s =>
    match (s.sheet i.val).cur, s.bestReady i.val with
    | some r, some d => if s.prio i.val r ≤ s.prio i.val d && s.savable i.val r then
        (s.waited (s.sheet i.val).curAt (s.quantumNs i.val)).beginSave i.val r else s
    | _, _ => s

/-- YIELD_EXPIRY: every scribe has been in watch state for YIELD ns (R405). -/
def execYieldExpiry (i : Fin 16) (s : State) : Host.Outcome State Fault Refusal :=
  act s fun s =>
    match (s.sheet i.val).cur, s.bestReady i.val with
    | some r, some _ => if s.allWatching i.val && s.savable i.val r then
        (s.waited (s.watchFrom i.val) (s.yieldNs i.val)).beginSave i.val r else s
    | _, _ => s

/-- The granules of a context's save area. -/
def State.saveGranules (s : State) (i c : Nat) : List Nat := granulesOf (s.recW i c 0) ((s.quiresOf i).length * 0x210000)

/-- A save area that can be read: its granules are mapped, pinned to T0 and in the run (R407, R410). -/
def State.saveReadable (s : State) (i c : Nat) : Bool := s.pinnedRange i (s.recW i c 0) ((s.quiresOf i).length * 0x210000)

/-- A save area that can be written: no granule of it is dry (R410). -/
def State.saveAreaOk (s : State) (i c : Nat) : Bool :=
  s.saveReadable i c && (s.saveGranules i c).all fun g => !(entDry (s.entry g))

/-- The quires of a sheet with the number of their blocks in a save area (R407). -/
def State.blocks (s : State) (i : Nat) : List (Nat × Nat) := (List.range (s.quiresOf i).length).zip (s.quiresOf i)

/-- The live regions of a sheet's wells are read for a save: the first line that cannot be corrected stops it (05 R213, R215). -/
def State.saveReads (s : State) (i : Nat) : State × Option Nat :=
  ((s.quiresOf i).flatMap fun q => (List.range 8).flatMap fun k =>
    let x := s.scribe (8 * q + k)
    [(8 * q + k, x.ext0, x.ext0n), (8 * q + k, x.ext1, x.ext1n)]).foldl (fun st e =>
      if st.2.isSome then st else st.1.ecc (physWell e.1 (64 * e.2.1)) (64 * e.2.2) (64 * e.2.1) e.1 i) (s, none)

/-- The lines a restore reads (R409), with their touch bits: the first that cannot be corrected makes the save area unreadable (R410; 05
R176, R213, R215). -/
def State.restoreReads (s : State) (i c : Nat) : State × Option Nat :=
  (s.blocks i).foldl (fun st b =>
    let st := if st.2.isSome then st else st.1.eccTouch (st.1.recW i c 0 + b.1 * 0x210000) 576 i
    (List.range 8).foldl (fun st k =>
      let e := st.1.tierLe (st.1.recW i c 0 + b.1 * 0x210000 + 64 * (1 + k) + 16) 8
      if st.2.isSome then st else
      st.1.eccTouch (st.1.recW i c 0 + b.1 * 0x210000 + (1 + 4 * k) * 65536) (64 * (bits e 27 15 + bits e 55 43)) i) st) (s, none)

/-- Live extents of a scribe as one word: the layout of EXT0 and EXT1 in a descriptor (R409, 04 R118). -/
def extWord (x : ScribeRt) : Nat := x.ext0 + x.ext0n * 2 ^ 15 + x.ext1 * 2 ^ 28 + x.ext1n * 2 ^ 43

/-- Save one scribe: its line in granule 0 of the block, and its live extents in its slot (R409), with the
step it stands at, which the line has room for (DEDUCED, log entry 23) (DEDUCED in part, log entry 53). -/
def State.saveScribe (s : State) (i c n q k : Nat) : State :=
  let x := s.scribe (8 * q + k)
  let w := physWell (8 * q + k) 0
  let slot := s.saveLine i c n 0 + (1 + 4 * k) * 65536
  let s := s.storeTier (s.saveLine i c n (1 + k)) (leBytes 8 x.pc ++ leBytes 8 x.ret ++ leBytes 8 (extWord x) ++
    leBytes 8 x.last.toNat ++ leBytes 8 x.side)
  let s := s.storeTier slot (Mem.read s.mem (w + 64 * x.ext0) (64 * x.ext0n))
  s.storeTier (slot + 64 * x.ext0n) (Mem.read s.mem (w + 64 * x.ext1) (64 * x.ext1n))

/-- Save one quire, and move its fence counts into the record (R409, R414). -/
def State.saveQuire (s : State) (i c n q : Nat) : State :=
  let x := s.quire q
  let s := s.storeTier (s.saveLine i c n 0) (leBytes 8 x.preds.toNat ++ leBytes 8 x.lastStep.toNat ++ leBytes 8 x.variantAt)
  let s := (List.range 8).foldl (fun s k => s.saveScribe i c n q k) s
  let s := s.recWr i c 0x10 ((s.recW i c 0x10 + x.issued) % 2 ^ 64)
  let s := (s.recWr i c 0x18 ((s.recW i c 0x18 + x.acked) % 2 ^ 64)).recWr i c 0x20 ((s.recW i c 0x20 + x.failed) % 2 ^ 64)
  s.setQuire q { x with issued := 0, acked := 0, failed := 0 }

/-- Distinct elements, first occurrences kept. -/
def distinct (l : List Nat) : List Nat := l.foldl (fun a x => if a.contains x then a else a ++ [x]) []

/-- Watch lines the scribes of a sheet hold. -/
def State.watchLines (s : State) (i : Nat) : List Nat :=
  distinct ((s.quiresOf i).flatMap fun q => (List.range 8).filterMap fun k => (s.scribe (8 * q + k)).watch.map fun a => a / 64 * 64)

/-- The stalls on a READY word that a save cuts, by the scribe's place in the save area (06 R245, R259). -/
def State.stallsOf (s : State) (i : Nat) : Map Nat :=
  (s.blocks i).flatMap fun b => (List.range 8).filterMap fun k =>
    (s.scribe (8 * b.2 + k)).stallFrom.map fun t => (8 * b.1 + k, t)

/-- SAVE_COMPLETE (R410, R411, R414): the whole switch counts to the context that comes in (R428).  A live region that cannot be read
faults the context UNCORR (DESIGN CHOICE, log entry 143). -/
def State.saveComplete (s : State) (i : Nat) : State :=
  match (s.sheet i).saving with
  | none => s
  | some c =>
    if !(s.saveAreaOk i c) then s.ctxFault i c 0x0A 0 0 0 else
    match s.saveReads i with
    | (s, some a) => s.ctxFault i c 0x0D 0 0 a
    | (s, none) =>
    let waiting := s.allWatching i
    let drain := s.residentDrained i
    let lines := s.watchLines i
    let early := (s.sheet i).early
    let since := (s.sheet i).resSince
    let stalls := s.stallsOf i
    let s := (s.blocks i).foldl (fun s x => s.saveQuire i c x.1 x.2) s
    let s := (List.range 16).foldl (fun s k => s.recWr i c (0x80 + 8 * k) (lines.getD k 0)) s
    let s := s.recWr i c 0x28 (s.recW i c 0x28 % 256 + min lines.length 16 * 256 + 65536)
    let s := ((s.bumpGen i c).dropArrived i c).bump (Reg.PREEMPTS i c)
    let s := s.setCtxState i c (if waiting && !early && decide (lines.length ≤ 16) then 3 else 1)
    let s := s.setCtx i c { s.ctx i c with atDrain := drain, stalls := stalls }
    let s := (s.quiresOf i).foldl (fun s q => (s.wr (Reg.QUIRE_STAT q) 15 8 0).stopScribes q) s
    let s := (s.setQuires i 2).setSheet i { s.sheet i with saving := none, early := false }
    let s := (s.drainSweep i).schedule i
    if (s.sheet i).restoring.isSome then s.setSheet i { s.sheet i with resSince := since } else s

/-- SAVE_COMPLETE. -/
def execSaveComplete (i : Fin 16) (s : State) : Host.Outcome State Fault Refusal := act s fun s => s.saveComplete i.val

/-- Restore one scribe. -/
def State.loadScribe (s : State) (i c n q k : Nat) : State :=
  let l := s.saveLine i c n (1 + k)
  let e := s.tierLe (l + 16) 8
  let x : ScribeRt := { ScribeRt.zero with pc := s.tierLe l 8, ret := s.tierLe (l + 8) 8, ext0 := bits e 14 0, ext0n := bits e 27 15,
                                           ext1 := bits e 42 28, ext1n := bits e 55 43,
                                           last := BitVec.ofNat 64 (s.tierLe (l + 24) 8), side := s.tierLe (l + 32) 8,
                                           stallFrom := Map.get? (s.ctx i c).stalls (8 * n + k) }
  let w := physWell (8 * q + k) 0
  let slot := s.saveLine i c n 0 + (1 + 4 * k) * 65536
  let s := s.store (w + 64 * x.ext0) (s.loadTier slot (64 * x.ext0n))
  let s := s.store (w + 64 * x.ext1) (s.loadTier (slot + 64 * x.ext0n) (64 * x.ext1n))
  s.setScribe (8 * q + k) x

/-- Restore one quire. -/
def State.loadQuire (s : State) (i c n q : Nat) : State :=
  let s := s.bindSeen i c q
  let l := s.saveLine i c n 0
  let s := s.setQuire q { s.quire q with
    preds := BitVec.ofNat 8 (s.tierLe l 8), lastStep := BitVec.ofNat 64 (s.tierLe (l + 8) 8), variantAt := s.tierLe (l + 16) 8,
    entry := s.binding i c q % 2 ^ 48, issued := 0, acked := 0, failed := 0, stepAt := none }
  (List.range 8).foldl (fun s k => s.loadScribe i c n q k) s

/-- Begin a context at its binding entries (R402, R410). -/
def State.beginQuire (s : State) (i c q : Nat) : State :=
  let s := (s.bindSeen i c q).recSeen i c
  let e := s.binding i c q % 2 ^ 48
  let s := s.setQuire q { s.quire q with
    preds := 0, lastStep := BitVec.ofNat 64 (s.recW i c 8), variantAt := 0, entry := e, issued := 0, acked := 0, failed := 0,
    stepAt := none }
  (List.range 8).foldl (fun s k => s.setScribe (8 * q + k) { ScribeRt.zero with
    pc := e, last := BitVec.ofNat 64 (s.recW i c 8), side := s.rd Reg.RECIPE_SIDE i i }) s

/-- Descriptors of a context with a WELL operand start again from their first unit (06 R234). -/
def State.restartDma (s : State) (i c : Nat) : State :=
  { s with dma := s.dma.map fun o =>
      if !(s.qQuill o.qn) && s.qSheet o.qn == i && s.qCtx o.qn == c && dWell o.desc && o.started && o.ending.isNone then
        { o with units := 0, lines := 0, published := 0, lastDone := false, wbuf := [] } else o }

/-- RESTORE_COMPLETE (R410, R411). -/
def State.restoreComplete (s : State) (i : Nat) : State :=
  match (s.sheet i).restoring with
  | none => s
  | some c =>
    let x := s.ctx i c
    let saved := x.begun && bit (s.recW i c 0x28) 16
    let rd := if saved then (if s.saveReadable i c then s.restoreReads i c else (s, some 0)) else (s, none)
    if rd.2.isSome then rd.1.ctxFault i c 0x0A 0 0 0 else
    let s := rd.1
    let s := if saved then
        let s := (s.blocks i).foldl (fun s y => s.loadQuire i c y.1 y.2) s
        (s.recWr i c 0x28 (s.recW i c 0x28 % 65536)).restartDma i c
      else (s.quiresOf i).foldl (fun s q => s.beginQuire i c q) s
    let s := s.setCtx i c { x with begun := true, atDrain := false, stalls := [], restored := x.restored || saved, since := some s.now,
                                   epochNs := x.epochNs + (s.now - (s.sheet i).resSince) }
    let s := (((s.setCtxState i c 2).setQuires i 3).startPoints (s.quiresOf i)).setSheet i { s.sheet i with restoring := none, cur := some c, curAt := s.now }
    ((s.wr (Reg.SCTL i) 10 8 c).bump (Reg.SWITCHES i)).schedule i

/-- RESTORE_COMPLETE. -/
def execRestoreComplete (i : Fin 16) (s : State) : Host.Outcome State Fault Refusal := act s fun s => s.restoreComplete i.val

/-- A write landed on a line: contexts WAITING on it become READY (R411, R430). -/
def State.wakeWaiting (s : State) (line : Nat) : State :=
  let a := line / 64 * 64
  (List.range 16).foldl (fun s i =>
    let s := (List.range 8).foldl (fun s c =>
      if s.ctxState i c = 3 && (List.range (min 16 (bits (s.recW i c 0x28) 15 8))).any fun k => s.recW i c (0x80 + 8 * k) == a then
        s.setCtxState i c 1 else s) s
    let s := if (s.sheet i).saving.isSome && (s.watchLines i).contains a then s.setSheet i { s.sheet i with early := true } else s
    s.schedule i) s

/-- WAITING_WAKE. -/
def execWaitingWake (line : BitVec 42) (s : State) : Host.Outcome State Fault Refusal := act s fun s => s.wakeWaiting line.toNat

/-! ## Registers (R394, R431, R432; 05 R218) -/

/-- A write in the sheet and context registers of SHT. -/
def State.shtWrite (s : State) (off v cls : Nat) : State :=
  if off < 0x40800 then
    let i := (off - 0x40000) / 0x80
    let r := (off - 0x40000) % 0x80
    let quiet := s.sheetState i == 0 || s.sheetState i == 4
    if r = 4 then s.sheetCommand i v
    else if r = 0x10 ∧ s.nq = 60 then s.guardedWrite quiet off (v % 2 ^ 28) cls
    else if 0x0C ≤ r ∧ r ≤ 0x24 then s.guardedWrite quiet off v cls
    else s.writeReg off v
  else if 0x41000 ≤ off ∧ off < 0x42000 then
    let i := (off - 0x41000) / 0x100
    let c := (off - 0x41000) % 0x100 / 0x20
    let r := (off - 0x41000) % 0x20
    if r = 8 then s.contextCommand i c v cls
    else if r = 0 then s.guardedWrite (s.ctxState i c == 0) off v cls
    else s.writeReg off v
  else s.writeReg off v

/-- Would a value give a slice to two sheets? -/
def State.sliceClash (s : State) (i : Nat) (hi : Bool) (v : Nat) : Bool :=
  (List.range 16).any fun k =>
    k != i && (s.word (if hi then Reg.SLICES_HI k else Reg.SLICES_LO k)).toNat &&& v != 0

/-- Would a run overlap another sheet's? -/
def State.runClash (s : State) (i base n : Nat) : Bool :=
  (List.range 16).any fun k =>
    let b := s.rd (Reg.TBASE k) 25 0
    let m := s.rd (Reg.TLIMIT k) 26 0
    k != i && decide (0 < n) && decide (0 < m) && decide (base < b + m) && decide (b < base + n)

/-- A write in the per-sheet registers of MEM (05 R218). -/
def State.memSheetWrite (s : State) (off v cls : Nat) : State :=
  let i := (off - 0x81000) / 0x40
  let r := (off - 0x81000) % 0x40
  let quiet := s.sheetState i == 0 || s.sheetState i == 4
  let clash :=
    if r = 0 then s.sliceClash i false v
    else if r = 4 then s.sliceClash i true v
    else if r = 8 then s.runClash i (v % 2 ^ 26) (s.rd (Reg.TLIMIT i) 26 0)
    else if r = 0xC then s.runClash i (s.rd (Reg.TBASE i) 25 0) (v % 2 ^ 27)
    else false
  let rw := r ≤ 0x14 || r == 0x28
  if rw then (s.guardedWrite (quiet && !clash) off v cls).ringsCheck else s.writeReg off v

end Sys2Proof.Machine
end

