-- ==== Sys2Proof/Machine/Dma.lean ====
section
/-! DEFINITION. DMA queues and descriptors: taking, starting, moving units, cancelling and completing
(06_dma_pages.md R219 to R259, R746, R748; 02_formats.md R44, R51). -/

namespace Sys2Proof.Machine

/-! ## Lines -/

/-- The import table a queue's apertures use. -/
def State.qImport (s : State) (qn : Nat) : Option Nat := if s.qQuill qn then none else some (s.qSheet qn)

/-- What became of a line or a unit: 0 done, 0x100 not yet arrived, 0x101 the descriptor has ended meanwhile, else the outcome that
ends it, with its FADDR and the data address of the fault. -/
structure Line where
  st : State
  code : Nat
  data : List Byte
  faddr : Nat := 0
  fault : Nat := faddr

/-- The issuer mark of an operation. -/
def DmaOp.issuer (o : DmaOp) : Issuer := ⟨1, o.qn, o.num, 0, 0, 0, 0⟩

/-- Does an operation still run: in flight, and not ending? -/
def State.opRuns (s : State) (o : DmaOp) : Bool :=
  match s.opOf o.key with
  | none => false
  | some y => y.ending.isNone

/-- The data of a line of an aperture source that has arrived. -/
def State.aperHere (s : State) (o : DmaOp) (a : Nat) : Option (List Byte) :=
  (s.arrived.find? fun r => r.iss == o.issuer && r.aper == a).map Arrived.data

/-- Ask once for the lines of an aperture source from a on, up to the first that its import entry does not allow (R257, 11 R442). -/
def State.aperAsk (o : DmaOp) : Nat → Nat → State → State
  | 0, _, s => s
  | n + 1, a, s =>
    let s := s.seenImport (s.qImport o.qn) a
    let e := s.importEntry (s.qImport o.qn) a
    if !(importOk e (a % 2 ^ 36) 64 1) then s else
    let s :=
      if (s.aperHere o a).isSome || s.outOps.any (fun y => !y.write && (y.issuers.zip y.apers).contains (o.issuer, a)) || !s.loadRoom then s
      else s.issue (aperPacket s 0x02 e a) o.issuer a (bits e 99 64) (bit e 62)
    State.aperAsk o n (a + 64) s

/-- Are the lines of a source from a on at hand, up to the first that its import entry does not allow? -/
def State.atHand (s : State) (o : DmaOp) (w : Nat) : Nat → Nat → Bool
  | 0, _ => true
  | n + 1, a =>
    awSpace w != 3 || !(importOk (s.importEntry (s.qImport o.qn) a) (a % 2 ^ 36) 64 1) ||
    ((s.aperHere o a).isSome && s.atHand o w n (a + 64))

/-- Ask for n lines of a source that is an aperture. -/
def State.askLines (s : State) (o : DmaOp) (w a n : Nat) : State := if awSpace w = 3 then State.aperAsk o n a s else s

/-- A line of an aperture source that has arrived is taken. -/
def State.aperLine (s : State) (o : DmaOp) (a : Nat) : Line :=
  let s := s.seenImport (s.qImport o.qn) a
  if !(importOk (s.importEntry (s.qImport o.qn) a) (a % 2 ^ 36) 64 1) then ⟨s, 5, [], a, a⟩ else
  match s.aperHere o a with
  | some b => ⟨{ s with arrived := s.arrived.filter fun r => !(r.iss == o.issuer && r.aper == a) }, 0, b, a, a⟩
  | none => ⟨s, if s.opRuns o then 0x100 else 0x101, [], a, a⟩

/-- Read a line of a source (R230, R257). -/
def State.dmaRead (s : State) (o : DmaOp) (w a : Nat) : Line :=
  match awSpace w with
  | 1 =>
    if 0x180000 < a + 64 then ⟨s, 5, [], a, a⟩ else
    let p := physWell (awScribe w) a
    let c := s.ecc p 64 a (awScribe w) 16
    ⟨c.1, if c.2.isSome then 1 else 0, Mem.read c.1.mem p 64, a, a⟩
  | 2 =>
    if !(s.tierOk (s.qSheet o.qn) a 64) then ⟨s, 5, [], a, a⟩ else
    let c := s.eccTier a 64 (s.qSheet o.qn)
    ⟨c.1.touch (a / 65536), if c.2.isSome then 1 else 0, c.1.loadTier a 64, a, a⟩
  | 3 => s.aperLine o a
  | _ =>
    if !(s.inCarve a 64) then ⟨s, 5, [], a, a⟩ else
    let c := s.ecc (physCarve a) 64 a 0 16
    ⟨c.1, if c.2.isSome then 1 else 0, Mem.read c.1.mem (physCarve a) 64, a, a⟩

/-- Count a delivered line. -/
def State.lineDone (s : State) (o : DmaOp) (counts : Bool) : State :=
  if counts then s.mapOp o.key fun y => { y with lines := y.lines + 1 } else s

/-- Issue a descriptor's write of a line to an aperture, which its import entry allows: it carries the number of its line in transfer
order, counts as delivered unless it fails, and is owed until it is acknowledged (R232, R252, R255). -/
def State.aperIssue (s : State) (o : DmaOp) (w : WaitingLine) : State :=
  let e := s.importEntry (s.qImport o.qn) w.dst
  let x : Issuer := ⟨1, o.qn, o.num, 1, 0, (s.opNow o).lines, 0⟩
  let s := (s.mapOp o.key fun y => { y with owed := y.owed + 1 }).lineDone o w.counts
  s.issue { aperPacket s 0x09 e w.dst with gran := [w.data] } x w.dst (bits e 99 64) (bit e 62)

/-- Write a line of a destination, read from `src`, and count it (R230, R257).  A line to an aperture waits for the one before it to be
acknowledged, so that none is written after one that fails (R255).  FADDR of a line that its destination refuses is the destination's
address (DESIGN CHOICE, log entry 165). -/
def State.dmaWrite (s : State) (o : DmaOp) (counts : Bool) (src w a : Nat) (bs : List Byte) : Line :=
  match awSpace w with
  | 1 =>
    if 0x180000 < a + 64 then ⟨s, 5, [], a, a⟩
    else ⟨((wellScribes o.desc w).foldl (fun s k => s.store (physWell k a) bs) s).lineDone o counts, 0, [], a, a⟩
  | 2 =>
    if !(s.inRun (s.qSheet o.qn) (a / 65536)) then ⟨s, 5, [], a, a⟩ else
    let e := s.entryRead (a / 65536) (s.qSheet o.qn)
    let s := e.1
    if e.2 then ⟨s, 1, [], a, a⟩
    else if !(s.tierOk (s.qSheet o.qn) a 64) then ⟨s, 5, [], a, a⟩
    else if entDry (s.entry (a / 65536)) then ⟨s, 4, [], a, a⟩
    else ⟨(s.storeTier a bs).lineDone o counts, 0, [], a, a⟩
  | 3 =>
    let s := s.seenImport (s.qImport o.qn) a
    if !(importOk (s.importEntry (s.qImport o.qn) a) (a % 2 ^ 36) 64 2) then ⟨s, 5, [], a, a⟩ else
    let y := s.opNow o
    if y.owed != 0 || !y.wbuf.isEmpty then
      ⟨s.mapOp o.key fun y => { y with wbuf := y.wbuf ++ [⟨src, a, bs, counts⟩] }, 0, [], a, a⟩
    else
      let s := s.aperIssue o ⟨src, a, bs, counts⟩
      ⟨s, if s.opRuns o then 0 else 0x101, [], a, a⟩
  | _ =>
    if !(s.inCarve a 64) || s.hitsTables a 64 then ⟨s, 5, [], a, a⟩ else ⟨(s.storeCarve a bs).lineDone o counts, 0, [], a, a⟩

/-- Issue the lines of a descriptor that wait, one at a time: each when the one before it has been acknowledged (R255). -/
def State.dmaPump (s : State) (k : Nat × Nat) : State :=
  (((s.opOf k).map DmaOp.wbuf).getD []).foldl (fun s w =>
    match s.opOf k with
    | none => s
    | some o =>
      if o.owed != 0 || o.ending.isSome || o.wbuf.head? != some w then s
      else (s.updOp { o with wbuf := o.wbuf.drop 1 }).aperIssue o w) s

/-- The lines of every descriptor that wait for an acknowledgement go on. -/
def State.pumpDma (s : State) : State := (s.dma.filter fun o => !o.wbuf.isEmpty).foldl (fun s o => s.dmaPump o.key) s

/-- Move lines from src to dst in ascending address, up to the first that ends the descriptor or has not arrived. -/
def State.moveLines (o : DmaOp) (sw dw : Nat) : Nat → Nat → Nat → State → Line
  | 0, _, _, s => ⟨s, 0, [], 0, 0⟩
  | n + 1, a, b, s =>
    let r := s.dmaRead o sw a
    if r.code != 0 then r else
    let w := r.st.dmaWrite o true a dw b r.data
    if w.code != 0 then w else State.moveLines o sw dw n (a + 64) (b + 64) w.st

/-- Move a run of lines whose source lines are all at hand; otherwise ask for them. -/
def State.moveRun (s : State) (o : DmaOp) (sw dw n a b : Nat) : Line :=
  let s := s.askLines o sw a n
  if !(s.opRuns o) then ⟨s, 0x101, [], a, a⟩
  else if !(s.atHand o sw n a) then ⟨s, 0x100, [], a, a⟩
  else State.moveLines o sw dw n a b s

/-- Read n lines of a source. -/
def State.readLines (o : DmaOp) (sw : Nat) : Nat → Nat → List Byte → State → Line
  | 0, _, acc, s => ⟨s, 0, acc, 0, 0⟩
  | n + 1, a, acc, s =>
    let r := s.dmaRead o sw a
    if r.code != 0 then r else State.readLines o sw n (a + 64) (acc ++ r.data) r.st

/-- Write whole lines that were read from `a` on; the lines of a manifest are not counted as delivered (R252) (DESIGN CHOICE, log entry
145). -/
def State.writeLines (o : DmaOp) (dw : Nat) (counts : Bool) : Nat → Nat → Nat → List Byte → State → Line
  | 0, _, _, _, s => ⟨s, 0, [], 0, 0⟩
  | n + 1, a, b, bs, s =>
    let w := s.dmaWrite o counts a dw b (bs.take 64)
    if w.code != 0 then w else State.writeLines o dw counts n (a + 64) (b + 64) (bs.drop 64) w.st

/-- Do n bytes of an operand lie in its space (R231)?  `need` is the permission an aperture must give. -/
def State.spaceFits (s : State) (o : DmaOp) (w a n need : Nat) : Bool :=
  match awSpace w with
  | 1 => decide (a + n ≤ 0x180000)
  | 2 => s.tierOk (s.qSheet o.qn) a n
  | 3 => importOk (s.importEntry (s.qImport o.qn) a) (a % 2 ^ 36) n need
  | _ => s.inCarve a n

/-- The CHECK field of a folio (02 R50, R51). -/
def folioCheckOk (f : List Byte) : Bool :=
  !(bit (f.getD 1 0).toNat 0) || shake256 (f.take 48 ++ f.drop 64) 16 == (f.drop 48).take 16

/-- A DMA engine that moves a ternary folio posts one event when it holds the code 0b10 (02 R38). -/
def State.noteDmaTer (s : State) (o : DmaOp) (a : Nat) (f : List Byte) : State :=
  let n := (Folio.parse f).badTer
  if n = 0 then s else s.post 0x0405 [s.qSheet o.qn + 16 * s.qCtx o.qn + 128, a, n]

/-- Move one folio, checked (R231): a folio that is rejected, or a line of which cannot be read, is named by its own address, the first
line not done; the fault names the line (R251). -/
def State.moveFolio (s : State) (o : DmaOp) (sw dw a b : Nat) (sstride dstride : Nat) : Line :=
  let s := s.askLines o sw a 1
  if !(s.opRuns o) then ⟨s, 0x101, [], a, a⟩ else
  if !(s.atHand o sw 1 a) then ⟨s, 0x100, [], a, a⟩ else
  let n0 := if awSpace sw = 3 then fmtLines (headerFmt ((s.aperHere o a).getD [])) else 1
  let s := s.askLines o sw a n0
  if !(s.opRuns o) then ⟨s, 0x101, [], a, a⟩ else
  if !(s.atHand o sw n0 a) then ⟨s, 0x100, [], a, a⟩ else
  let h := s.dmaRead o sw a
  if h.code != 0 then h
  else if !(headerOk h.data) then ⟨h.st, 3, [], a, a⟩ else
  let n := fmtLines (headerFmt h.data)
  if (sstride != 0 && sstride < n) || (dstride != 0 && dstride < n) then ⟨h.st, 3, [], a, a⟩
  else if !(h.st.spaceFits o sw a (64 * n) 1) || !(h.st.spaceFits o dw b (64 * n) 2) then ⟨h.st, 5, [], a, a⟩ else
  let r := State.readLines o sw (n - 1) (a + 64) h.data h.st
  if r.code != 0 then { r with faddr := a }
  else if !(folioCheckOk r.data) then ⟨r.st, 2, [], a, a⟩
  else State.writeLines o dw true n a b r.data (r.st.noteDmaTer o a r.data)

/-! ## The page walk (R237 to R242) -/

/-- Physical address of a slip (01 R21). -/
def physSlip (i : Nat) : Nat := physT0 (63 * 640) + 128 * i

/-- The selection of R239: page-list indices, rubric pages, rubric indices skipped. -/
def walkSelect (l wpos : Nat) (rubric : List Nat) : List Nat × Nat × Nat :=
  let np := (l + 15) / 16
  let empty := l == 0 || decide (l ≤ wpos)
  let wf := if empty then 1 else wpos / 16
  let wl := if empty then 0 else (l - 1) / 16
  let rub := rubric.filter fun i => decide (i < np) && (decide (i < wf) || decide (wl < i))
  let skipped := (rubric.filter fun i => decide (np ≤ i)).length
  let win := (List.range (wl + 1 - wf)).map fun k => wf + k
  (rub ++ win, rub.length, skipped)

/-- Is a list strictly ascending? -/
def ascending : List Nat → Bool
  | a :: b :: t => decide (a < b) && ascending (b :: t)
  | _ => true

/-- A page number lies in its pool: when a pool of the sheet starts at SRC, below its NPAGES (R241, 07 R261); the pool table is read
through the code (05 R215).  A SRC that no VALID pool starts at, and an SCB granule that is not pinned to T0, bound nothing
(DESIGN CHOICE, log entry 166). -/
def State.inPool (s : State) (i base pg : Nat) : State × Except Nat Bool :=
  if !(s.scbOk i) then (s, .ok true) else
  match s.readTier (s.scb i + 0x2000) 2048 i with
  | (s, .error x) => (s, .error x)
  | (s, .ok b) => (s, .ok ((List.range 64).all fun k =>
      let e := leNat ((b.drop (32 * k)).take 32)
      !(bit e 255) || bits e 47 0 != base || decide (pg < bits e 95 64)))

/-- A number a descriptor reads in the sheet's share: the outcome when it cannot (R176, R215, R257). -/
def State.dmaNum (s : State) (o : DmaOp) (a n : Nat) : State × Except (Nat × Nat) Nat :=
  if !(s.tierOk (s.qSheet o.qn) a n) then (s, .error (5, a)) else
  match s.readTier a n (s.qSheet o.qn) with
  | (s, .ok b) => (s, .ok (leNat b))
  | (s, .error x) => (s, .error (1, x))

/-- The page numbers of a walk's selection (R238), all read when the walk starts (DESIGN CHOICE, log entry 167). -/
def State.walkPages (o : DmaOp) (plist : Nat) : List Nat → List (Nat × Nat) → State → State × Except (Nat × Nat) (List (Nat × Nat))
  | [], acc, s => (s, .ok acc)
  | i :: t, acc, s =>
    match s.dmaNum o (plist + 4 * i) 4 with
    | (s, .ok p) => State.walkPages o plist t (acc ++ [(i, p)]) s
    | (s, .error e) => (s, .error e)

/-- The slip a WALK reads, once and as a whole (R237). -/
def State.walkSlip (s : State) (o : DmaOp) : State × Except (Nat × Nat) Nat :=
  let j := bits (dAux0 o.desc) 17 0
  match s.readPhys (physSlip j) 128 (128 * j) 0 16 with
  | (s, .ok b) => (s, .ok (leNat b))
  | (s, .error x) => (s, .error (1, x))

/-- The rubric list of a slip: its count, and its indices when there are at most 256 (R239). -/
def State.walkRubric (s : State) (o : DmaOp) (rlist : Nat) : State × Except (Nat × Nat) (Nat × List Nat) :=
  match s.dmaNum o rlist 4 with
  | (s, .error e) => (s, .error e)
  | (s, .ok c) =>
    if 256 < c then (s, .ok (c, [])) else
    match s.dmaNum o rlist (4 + 4 * c) with
    | (s, .error e) => (s, .error e)
    | (s, .ok w) => (s, .ok (c, (List.range c).map fun j => bits w (32 * j + 63) (32 * j + 32)))

/-- Start a WALK: the selection, or the outcome that ends it and FADDR (R237 to R241). -/
def State.walkStart (s : State) (o : DmaOp) : State × Except (Nat × Nat) DmaOp :=
  let d := o.desc
  match s.walkSlip o with
  | (s, .error e) => (s, .error e)
  | (s, .ok slip) =>
    let l := bits slip 39 16 + bits slip 63 48
    match s.walkRubric o (bits slip 239 192) with
    | (s, .error e) => (s, .error e)
    | (s, .ok (c, rub)) =>
      let sel := walkSelect l (bits slip 87 64) rub
      if 256 < c || bits slip 112 96 < (l + 15) / 16 || !(ascending rub) || 2050 < sel.1.length - sel.2.1 then
        (s, .error (11, o.nextAddr)) else
      let s := if sel.2.2 = 0 then s else s.bumpSat (Reg.WALK_SKIP (s.qSheet o.qn)) sel.2.2
      match State.walkPages o (bits slip 175 128) ((sel.1.drop (bits (dAux0 d) 63 48)).take (dCount d)) [] s with
      | (s, .error e) => (s, .error e)
      | (s, .ok pages) =>
        (s, .ok { o with sel := pages, nrub := sel.2.1, total := pages.length, lenT := l, selLen := sel.1.length })

/-- The manifest of a walk (R242). -/
def walkManifest (o : DmaOp) : List Byte :=
  let idx := o.sel.flatMap fun x => leBytes 2 x.1
  let h := leBytes 4 o.selLen ++ leBytes 2 (bits (dAux0 o.desc) 63 48) ++ leBytes 2 o.sel.length ++ leBytes 4 o.lenT ++ leBytes 4 0 ++
    leBytes 4 o.nrub ++ List.replicate 44 0
  h ++ idx ++ List.replicate ((64 - idx.length % 64) % 64) 0

/-! ## Units (R228, R231, R240, R243, R247) -/

/-- Move the next unit of an operation. -/
def State.moveUnit (s : State) (o : DmaOp) : Line :=
  let d := o.desc
  let i := o.units
  let dst := awAddr (dDst d)
  let packed := dst + (if dDstride d = 0 then dLen d * i else 64 * dDstride d * i)
  match dOp d with
  | 1 => s.moveRun o (dSrc d) (dDst d) (dLen d / 64) o.unitAddr packed
  | 3 =>
    match s.inPool (s.qSheet o.qn) (awAddr (dSrc d)) (o.sel.getD i (0, 0)).2 with
    | (s, .error x) => ⟨s, 1, [], o.unitAddr, x⟩
    | (s, .ok false) => ⟨s, 5, [], o.unitAddr, o.unitAddr⟩
    | (s, .ok true) => State.moveLines o (dSrc d) (dDst d) (dLen d / 64) o.unitAddr packed s
  | 5 =>
    let step := bits o.entry 127 112
    s.moveFolio o (dSrc d) (dDst d) o.unitAddr (dst + 64 * step * i) step step
  | _ =>
    s.moveFolio o (dSrc d) (dDst d) o.unitAddr (dst + (if dDstride d = 0 then 64 * o.handed else 64 * dDstride d * i)) (dSstride d) (dDstride d)

/-- Move up to n units: a failed unit ends the descriptor, a line that has not arrived leaves it running. -/
def State.moveUnits : Nat → DmaOp → State → State
  | 0, _, s => s
  | n + 1, o, s =>
    if o.total ≤ o.units then s else
    let r := s.moveUnit o
    if r.code = 0x101 || r.code = 0x100 then r.st
    else if r.code != 0 then r.st.dmaEnd o r.code r.faddr 0 r.fault
    else
      let o' := { r.st.opNow o with units := o.units + 1 }
      let s := r.st.updOp o'
      let s := if dOp o.desc = 3 then s.bump (Reg.WALK_PAGES (s.qSheet o.qn)) else s
      State.moveUnits n o' s

/-! ## Taking and starting (R221 to R223, R229, R230, R234, R253, R748) -/

/-- Physical address of a byte of a queue's ring or watch line. -/
def State.qPhys (s : State) (qn a : Nat) : Nat := if s.qQuill qn then physCarve a else s.tierPhys a

/-- A line of a queue's ring or watch line, through the code: a producer count that cannot be corrected counts as nothing posted,
and a descriptor that cannot be corrected reads as zero and ends BADDESC (R215, R216) (DESIGN CHOICE, log entry 139). -/
def State.qLe (s : State) (qn a n : Nat) : Nat := s.unitLe (s.qPhys qn a) n

/-- Does a queue have a posted descriptor it has not taken (R221)? -/
def State.qPosted (s : State) (qn : Nat) : Bool :=
  let w := s.qBase qn + 64 * s.qEntries qn
  s.clean (s.qPhys qn w) 8 && s.qLe qn w 8 % 2 ^ 32 != (s.word (Reg.QCONS qn)).toNat

/-- A line of a queue's ring or its watch line is read: what is counted and recorded, and the touch bit (05 R176, R213, R215). -/
def State.qSeen (s : State) (qn a : Nat) : State :=
  if s.qQuill qn then s.seen (physCarve a) 64 a 16 else s.seenTier a 64 (s.qSheet qn)

/-- Are the tiers and wells of a sheet still being zeroed, so that nothing may reach them (05 R203)? -/
def State.waking (s : State) (i : Nat) : Bool := s.sheetState i == 1

/-- Take the next descriptor of a queue when its OP is the command's, or reserved. -/
def State.dmaTake (s : State) (qn op : Nat) : State :=
  if !(s.rdb (Reg.QCFG qn) 31) || s.rdb (Reg.QCFG qn) 20 || decide (64 ≤ (s.dma.filter fun o => o.qn == qn).length) then s
  else if !(s.qRingOk qn) then s.ringLost qn
  else if !(s.qQuill qn) && s.waking (s.qSheet qn) then s
  else
    let s := s.qSeen qn (s.qBase qn + 64 * s.qEntries qn)
    if !(s.qPosted qn) then s else
    let cons := (s.word (Reg.QCONS qn)).toNat
    let a := s.qBase qn + 64 * (cons % s.qEntries qn)
    let d := s.qLe qn a 64
    if dOp d != op && opKnown (dOp d) then s
    else
      let s := s.qSeen qn a
      ({ s with dma := s.dma ++ [DmaOp.taken qn cons d] }).bump (Reg.QCONS qn)

/-- Does a descriptor reach tiers or wells? -/
def dLocal (d : Nat) : Bool :=
  dWell d || awSpace (dSrc d) == 2 || awSpace (dDst d) == 2 || awSpace (dAux1 d) == 2

/-- May an operation run: its context is resident when it has a WELL operand (R233, R234), and its sheet is not waking (05 R203)? -/
def State.mayRun (s : State) (o : DmaOp) : Bool :=
  (!(dWell o.desc) || s.qQuill o.qn || s.ctxState (s.qSheet o.qn) (s.qCtx o.qn) == 2) &&
  !(s.waking (s.qSheet o.qn) && (!(s.qQuill o.qn) || dLocal o.desc))

/-- Do all scribes of the WELL operands belong to the queue's sheet (R230)?  A firmware queue, which belongs to no sheet (R220), is held to
the sheet its QCFG.SHEET names, and so are its TIER operands (DESIGN CHOICE, log entry 168). -/
def State.wellsOk (s : State) (o : DmaOp) : Bool :=
  let own (n : Nat) : Bool := (s.quiresOf (s.qSheet o.qn)).contains (n / 8)
  let d := o.desc
  (awSpace (dSrc d) != 1 || own (awScribe (dSrc d))) &&
  (awSpace (dDst d) != 1 || (wellScribes d (dDst d)).all own) &&
  (!(dOp d == 3 && awSpace (dAux1 d) == 1) || (wellScribes d (dAux1 d)).all own)

/-- The first free engine of a queue's die (R219, R223).  A descriptor stopped by pre-emption keeps its engine until it ends (R234)
(DESIGN CHOICE, log entry 169). -/
def State.freeEngine (s : State) (qn : Nat) : Option Nat :=
  let die := s.rd (Reg.QCFG qn) 17 16
  ((List.range 8).map fun e => 8 * die + e).find? fun e => !(s.dma.any fun o => o.started && o.engine == e)

/-- Remove a descriptor that is skipped or whose record cannot be written: it counts as terminal. -/
def State.dmaDrop (s : State) (o : DmaOp) : State :=
  ({ s with dma := s.dma.filter fun x => x.key != o.key }).bump (Reg.QDONE o.qn)

/-- A record that does not lie where it must: the issuer is told (R229, R746) (DEDUCED in part, log entry 54).  A descriptor whose
CRQ or CREC is at fault ends ABORTED with BADDESC, and is counted so (R229, R259). -/
def State.recRefuse (s : State) (o : DmaOp) (cause : Nat) : State :=
  let s := s.dmaDrop o
  let s := if s.crecBad o.qn o.desc then s.countEnd o.qn 9 else s
  if s.qQuill o.qn then s.post 0x0704 [1, dCrec o.desc, o.qn]
  else s.ctxFault (s.qSheet o.qn) (s.qCtx o.qn) cause 0 0 (if cause = 0x0B || cause = 0x0D then dCrec o.desc else 0)

/-- CANCEL: every taken descriptor of the sheet's queues with this key ends, but for the CANCEL that acts, which waits for their
records (R249, R250).  Firmware queues belong to no sheet (R220) (DEDUCED, log entry 146). -/
def State.cancelGroup (s : State) (sheet key : Nat) (by_ : Option (Nat × Nat)) (quill : Bool := false) : State :=
  (s.dma.filter fun o => s.qQuill o.qn == quill && s.qSheet o.qn == sheet && key != 0 && dGroup o.desc == key &&
      by_ != some o.key).foldl (fun s o =>
    let s := s.mapOp o.key fun y => { y with waiters := y.waiters ++ by_.toList }
    s.dmaStop o 0x0A (s.opNow o).nextAddr 0) s

/-- A taken descriptor that has not started and whose record an ABORT has written: it is skipped, and counts as ended ABORTED (R253,
R256, R258, R259). -/
def State.skipOp (s : State) (o : DmaOp) : State := (s.dmaDrop o).countEnd o.qn 7

/-- ABORT of the record at SRC (R256): the outcome of the ABORT, and whether it waits for its target's record.  A SRC in the share but
not in a granule pinned to T0 ends it ACCESS, and a record in a dry granule, which cannot be written (05 R180), DRYDST (DESIGN CHOICE,
log entry 170). -/
def State.dmaAbort (s : State) (o : DmaOp) : State × Nat :=
  let w := dSrc o.desc
  let a := awAddr w
  let quill := awSpace w == 4
  let e := if !quill && s.inRun (s.qSheet o.qn) (a / 65536) then s.entryRead (a / 65536) (s.qSheet o.qn) else (s, false)
  let s := e.1
  if e.2 then (s, 1)
  else if !(if quill then s.carveRecOk a else s.pinnedRange (s.qSheet o.qn) a 64) then (s, 5) else
  let p := if quill then physCarve a else s.tierPhys a
  let s := (if quill then s else s.touch (a / 65536)).seen p 64 a 16
  match s.recState p with
  | 0 =>
    if !quill && entDry (s.entry (a / 65536)) then (s, 4) else
    let s := s.store p (recBytes (Mem.le s.mem p 4) 0xFF 1 7 3 0 0 0 s.now s.now)
    ((s.dma.filter fun y => !y.started && y.ending.isNone && dCrq y.desc == quill && dCrec y.desc == a).foldl State.skipOp s, 0)
  | 0xFF => (s, 1)
  | 1 =>
    if s.recKind p != 1 then (s, 0x81) else
    match s.dma.find? fun y => y.key != o.key && y.started && dCrq y.desc == quill && dCrec y.desc == a with
    | none => (s, 0x81)
    | some y =>
      let s := s.mapOp y.key fun y => { y with waiters := y.waiters ++ [o.key] }
      (s.dmaStop y 7 y.nextAddr s.now, 0)
  | _ => (s, 0x80)

/-- A CANCEL or an ABORT has acted: it ends once the records it waits for are written (R249, R256). -/
def State.dmaActed (s : State) (o : DmaOp) : State := (s.mapOp o.key fun y => { y with lastDone := true }).endWaiters

/-- What an operation does when it starts, after its descriptor is found good (R227, R237, R244, R247, R249, R256). -/
def State.dmaBegin (s : State) (o : DmaOp) : State :=
  let d := o.desc
  match dOp d with
  | 3 =>
    match s.walkStart o with
    | (s, .ok o) => s.updOp o
    | (s, .error e) => s.dmaEnd o e.1 e.2
  | 4 => if s.readyCheck o = 5 && !(s.entryBad (awAddr (dAux0 d) / 65536)) then s.dmaEnd o 5 (awAddr (dAux0 d)) else s
  | 5 =>
    match s.dmaNum o (awAddr (dSrc d) + 16 * bits (dAux0 d) 11 0) 16 with
    | (s, .ok e) => s.updOp { o with total := bits (dAux0 d) 63 48 + bits (dAux0 d) 47 32, entry := e }
    | (s, .error e) => s.dmaEnd o e.1 e.2
  | 6 => (s.cancelGroup (s.qSheet o.qn) (bits (dAux0 d) 15 0) (some o.key) (s.qQuill o.qn)).dmaActed o
  | 7 =>
    let r := s.dmaAbort o
    if r.2 = 0 then r.1.dmaActed o else r.1.dmaEnd o r.2 (awAddr (dSrc d))
  | _ => s

/-- Start an operation: its record is checked and becomes RUNNING (R229, R253, R746).  The engine writes RUNNING when it starts
the descriptor, so T_START is 0 in the record of one that never started (DEDUCED, log entry 22) (DEDUCED in part, log entry 58). -/
def State.dmaStart (s : State) (o : DmaOp) (engine : Nat) : State :=
  let d := o.desc
  if s.crecBad o.qn d then s.recRefuse o 0x02
  else if s.recCheck o.qn d != 0 then s.recRefuse o (s.recCheck o.qn d)
  else
    let t := (s.recTouch d).recTake (s.recPhys d) (dCrec d) (dTag d) engine 1
    if !t.2 then (if s.recState (s.recPhys d) = 3 then t.1.skipOp o else t.1.dmaDrop o) else
    let o := { o with started := true, engine := engine, total := dCount d }
    let s := t.1.updOp o
    if dBad (s.qQuill o.qn) d then s.dmaEnd o 9 o.nextAddr
    else if !(s.wellsOk o) then s.dmaEnd o 5 o.nextAddr
    else s.dmaBegin o

/-- Is every earlier descriptor of the queue terminal, as ORDER asks (R223)? -/
def State.orderOk (s : State) (o : DmaOp) : Bool :=
  !(bit o.desc 40) || (s.dma.filter fun x => x.qn == o.qn).head? == some o

/-- Start the first operation of a queue with this OP that may start. -/
def State.dmaStartNext (s : State) (qn op : Nat) : State :=
  match s.dma.find? fun o => o.qn == qn && !o.started && o.ending.isNone && (dOp o.desc == op || !(opKnown (dOp o.desc))) && s.mayRun o && s.orderOk o with
  | none => s
  | some o =>
    match s.freeEngine qn with
    | none => s
    | some e => s.dmaStart o e

/-- The k-th operation of a queue with this OP that runs and has units left. -/
def State.running (s : State) (qn op k : Nat) : Option DmaOp :=
  (s.dma.filter fun o => o.qn == qn && o.started && dOp o.desc == op && o.ending.isNone && s.mayRun o && decide (o.units < o.total))[k]?

/-- Run a queue's operations of one kind: take the next descriptor if it is of this kind, start one that may start, then move n units of
the k-th that runs; several run at once on several engines, and the command says which one moves (R222, R223). -/
def State.dmaRun (s : State) (qn op n k : Nat) : State :=
  let s := (s.pumpDma.dmaTake qn op).dmaStartNext qn op
  match s.running qn op k with
  | none => s
  | some o => State.moveUnits n o s

/-- COPY. -/
def execCopy (op : QueueOp) (n : Nat) (s : State) : Host.Outcome State Fault Refusal := act s fun s => s.dmaRun op.queue.val 1 n op.k
/-- FOLIO. -/
def execFolio (op : QueueOp) (n : Nat) (s : State) : Host.Outcome State Fault Refusal := act s fun s => s.dmaRun op.queue.val 2 n op.k
/-- WALK. -/
def execWalk (op : QueueOp) (n : Nat) (s : State) : Host.Outcome State Fault Refusal := act s fun s => s.dmaRun op.queue.val 3 n op.k
/-- STREAM. -/
def execStream (op : QueueOp) (n : Nat) (s : State) : Host.Outcome State Fault Refusal := act s fun s => s.dmaRun op.queue.val 4 n op.k
/-- GLOSS: every folio of the gloss. -/
def execGloss (op : QueueOp) (s : State) : Host.Outcome State Fault Refusal := act s fun s => s.dmaRun op.queue.val 5 131072 op.k
/-- DMA_CANCEL. -/
def execDmaCancel (qn : Fin 128) (s : State) : Host.Outcome State Fault Refusal := act s fun s => s.dmaRun qn.val 6 0 0
/-- DMA_ABORT. -/
def execDmaAbort (qn : Fin 128) (s : State) : Host.Outcome State Fault Refusal := act s fun s => s.dmaRun qn.val 7 0 0

/-- One STREAM's READY word after the next G folios, once the writes of those delivered are acknowledged: the word is not written where
R244 or R179 refuses it or its line cannot be corrected, which ends the descriptor (R243, R257; 05 R215). -/
def State.readyStep (s : State) (o : DmaOp) : State :=
  let n := o.published + bits (dAux1 o.desc) 63 48
  if o.units < n || o.owed != 0 || !o.wbuf.isEmpty then s else
  let r := s.writeReady o n
  if r.2 != 0 then r.1.dmaEnd o r.2 (awAddr (dAux0 o.desc)) else r.1.mapOp o.key fun y => { y with published := n }

/-- READY_WRITE: the READY word of each running STREAM whose count of delivered folios has reached the next multiple of G (R243). -/
def execReadyWrite (qn : Fin 128) (s : State) : Host.Outcome State Fault Refusal :=
  act s fun s =>
    let s := s.pumpDma
    (s.dma.filter fun o => o.qn == qn.val && o.started && dOp o.desc == 4 && o.ending.isNone).foldl State.readyStep s

/-- The staged directory entry of a GLOSS (R247). -/
def glossEntry (o : DmaOp) : List Byte :=
  let e := o.entry
  let dst := awAddr (dDst o.desc)
  leBytes 6 dst ++ leBytes 2 (bits e 63 48) ++ leBytes 6 (dst + 64 * bits e 127 112 * bits (dAux0 o.desc) 63 48) ++ leBytes 2 (bits e 127 112)

/-- The last writes of an operation, before its record (R232, R242, R243, R247): the outcome. -/
def State.dmaLast (s : State) (o : DmaOp) : Line :=
  let d := o.desc
  match dOp d with
  | 3 =>
    let m := walkManifest o
    State.writeLines o (dAux1 d) false (m.length / 64) (awAddr (dAux1 d)) (awAddr (dAux1 d)) m s
  | 4 =>
    let r := s.writeReady o o.units
    ⟨r.1, r.2, [], awAddr (dAux0 d), awAddr (dAux0 d)⟩
  | 5 =>
    let a := awAddr (dAux1 d)
    if !(s.inRun (s.qSheet o.qn) (a / 65536)) then ⟨s, 5, [], a, a⟩ else
    let e := s.entryRead (a / 65536) (s.qSheet o.qn)
    let s := e.1
    if e.2 then ⟨s, 1, [], a, a⟩
    else if !(s.tierOk (s.qSheet o.qn) a 16) then ⟨s, 5, [], a, a⟩
    else if entDry (s.entry (a / 65536)) then ⟨s, 4, [], a, a⟩
    else
      let c := s.eccEdges (s.tierPhys a) 16 a 0 (s.qSheet o.qn)
      if c.2.isSome then ⟨c.1, 1, [], a, a⟩ else ⟨c.1.storeTier a (glossEntry o), 0, [], a, a⟩
  | _ => ⟨s, 0, [], 0, 0⟩

/-- The first operation of a queue whose units are all delivered, and whose writes are all acknowledged. -/
def State.delivered (s : State) (qn : Nat) : Option DmaOp :=
  s.dma.find? fun o => o.qn == qn && o.started && dOp o.desc != 6 && dOp o.desc != 7 && o.ending.isNone &&
    decide (o.total ≤ o.units) && o.owed == 0 && o.wbuf.isEmpty && s.mayRun o

/-- End an operation whose units are all delivered: its last writes, and its record once they are acknowledged (R232, R242). -/
def State.dmaComplete (s : State) (o : DmaOp) : State :=
  let r : Line := if o.lastDone then ⟨s, 0, [], 0, 0⟩ else s.dmaLast o
  if r.code = 0x101 then r.st
  else if r.code != 0 then r.st.dmaEnd o r.code r.faddr 0 r.fault
  else
    let s := r.st.mapOp o.key fun y => { y with lastDone := true }
    if (s.opNow o).owed != 0 || !(s.opNow o).wbuf.isEmpty then s else s.dmaEnd o 0 0

/-- DESCRIPTOR_COMPLETE: the first operation of the queue whose units are all delivered, and whose writes are all
acknowledged, ends (R232, R254). -/
def execDescriptorComplete (qn : Fin 128) (s : State) : Host.Outcome State Fault Refusal :=
  act s fun s =>
    let s := s.pumpDma
    match s.delivered qn.val with
    | none => s
    | some o => s.dmaComplete o

/-! ## Registers (R258) -/

/-- A write of QCFG (R258, R748). -/
def State.qcfgWrite (s : State) (qn v cls : Nat) : State :=
  let off := Reg.QCFG qn
  let old := (s.word off).toNat
  let same := bits v 27 21 == bits old 27 21 && bits v 19 16 == bits old 19 16 && bits v 3 0 == bits old 3 0
  if bit old 31 then
    let s := if same then s else s.logWrite off v cls
    if bit v 31 then s else (s.wrb off 31 false).wrb off 20 false
  else
    let s := s.wrw off (BitVec.ofNat 32 (bits v 27 21 * 2 ^ 21 + bits v 19 16 * 65536 + bits v 3 0))
    if bit v 31 then
      if decide (6 ≤ bits v 3 0 ∧ bits v 3 0 ≤ 12) && s.qRingOk qn then s.wrb off 31 true else s.logWrite off v cls
    else s

/-- QUEUE_ENABLE. -/
def execQueueEnable (qn : Fin 128) (v : W32) (s : State) : Host.Outcome State Fault Refusal :=
  act s fun s => s.qcfgWrite qn.val v.toNat 0

/-- A write in the DMA block. -/
def State.dmaWriteReg (s : State) (off v cls : Nat) : State :=
  if 0x71000 ≤ off ∧ off < 0x72000 then
    let q := (off - 0x71000) / 0x20
    let r := (off - 0x71000) % 0x20
    if r = 8 then s.qcfgWrite q v cls
    else if r < 8 then s.guardedWrite (!(s.rdb (Reg.QCFG q) 31)) off v cls
    else s.writeReg off v
  else s.writeReg off v

end Sys2Proof.Machine
end

