-- ==== Sys2Proof/Machine/Operands.lean ====
section
/-! DEFINITION. The stroke descriptor, its fetch checks, the operands a stroke reads and writes, row blocks, the live mask,
recipes and the boundary (03_scribe.md R91 to R108, 04_strokes.md R118 to R136, R157 to R165, R744, 02_formats.md R57,
R64 to R71, R742). -/

namespace Sys2Proof.Machine

/-! ## Descriptor fields (R118) -/

/-- OPCODE. -/
def kOp (d : Nat) : Nat := bits d 7 0
/-- SUBOP. -/
def kSub (d : Nat) : Nat := bits d 15 8
/-- SMASK. -/
def kSmask (d : Nat) : Nat := bits d 23 16
/-- PRED. -/
def kPred (d : Nat) : Nat := bits d 31 24
/-- RECIPE. -/
def kRecipe (d : Nat) : Nat := bits d 39 32
/-- FLAGS bit 0: S2IMM. -/
def kS2imm (d : Nat) : Bool := bit d 40
/-- FLAGS bit 1: MDYN. -/
def kMdyn (d : Nat) : Bool := bit d 41
/-- FLAGS bit 2: OUTCM. -/
def kOutcm (d : Nat) : Bool := bit d 42
/-- PHASE. -/
def kPhase (d : Nat) : Nat := bits d 63 48
/-- SRC0. -/
def kSrc0 (d : Nat) : Nat := bits d 127 64
/-- SRC1. -/
def kSrc1 (d : Nat) : Nat := bits d 191 128
/-- SRC2. -/
def kSrc2 (d : Nat) : Nat := bits d 255 192
/-- DST. -/
def kDst (d : Nat) : Nat := bits d 319 256
/-- M. -/
def kM (d : Nat) : Nat := bits d 326 320
/-- N. -/
def kN (d : Nat) : Nat := bits d 333 327
/-- NP. -/
def kNp (d : Nat) : Nat := bits d 343 334
/-- ROWBLK. -/
def kRowblk (d : Nat) : Nat := bits d 358 344
/-- RBV. -/
def kRbv (d : Nat) : Bool := bit d 359
/-- STRIDE0. -/
def kStride0 (d : Nat) : Nat := bits d 371 360
/-- STRIDE1. -/
def kStride1 (d : Nat) : Nat := bits d 383 372
/-- EXT0_LINE and EXT0_N. -/
def kExt0 (d : Nat) : Nat × Nat := (bits d 398 384, bits d 411 399)
/-- EXT1_LINE and EXT1_N. -/
def kExt1 (d : Nat) : Nat × Nat := (bits d 426 412, bits d 439 427)
/-- IMMF. -/
def kImmf (d : Nat) : W32 := BitVec.ofNat 32 (bits d 479 448)
/-- IMM2. -/
def kImm2 (d : Nat) : Nat := bits d 511 480

/-- SPACE of an operand word (R123). -/
def oSpace (w : Nat) : Nat := bits w 63 60
/-- Address of an operand word for scribe k of its quire (R125). -/
def oAddr (k w : Nat) : Nat := bits w 47 0 + (if oSpace w = 1 then 0 else k * bits w 59 48 * 4096)

/-! ## Fetch checks (R135, R136, R126, R134, R744, R122, R165) -/

/-- Is an OPCODE with a SUBOP defined (R135)? -/
def opDefined (op sub : Nat) : Bool :=
  match op with
  | 0x00 | 0x01 | 0x08 | 0x0A | 0x18 | 0x19 | 0x1F => sub == 0
  | 0x02 | 0x03 | 0x06 | 0x07 | 0x09 | 0x11 | 0x12 => decide (sub ≤ 1)
  | 0x04 => decide (sub ≤ 0xE)
  | 0x05 | 0x10 => decide (sub ≤ 3)
  | _ => false

/-- The operands an opcode takes: SRC0, SRC1, SRC2, DST; 0 unused, 1 required, 2 a value (R136). -/
def opNeeds (op sub : Nat) : List Nat :=
  match op with
  | 0x01 => [1, 1, 0, 1]
  | 0x02 => [1, 1, if sub = 1 then 1 else 0, 1]
  | 0x03 => [1, 1, 1, 1]
  | 0x04 => [1, if sub ≤ 5 ∨ sub = 7 ∨ sub = 0xC ∨ sub = 0xD then 1 else 0, if sub = 3 ∨ sub = 7 then 1 else 0, 1]
  | 0x05 | 0x06 | 0x08 => [1, 0, 0, 1]
  | 0x07 | 0x09 => [1, 0, 0, 0]
  | 0x0A => [1, 1, 1, 0]
  | 0x10 => [1, 0, 2, 0]
  | 0x11 => [0, 0, 2, 1]
  | 0x12 => if sub = 1 then [1, 0, 2, 0] else [0, 0, 0, 0]
  | 0x18 => [1, 1, 0, 0]
  | _ => [0, 0, 0, 0]

/-- Alignment of operand i of an opcode (R126); 1 for the arrays whose alignment no rule gives, and 8 for the table of a VARIANT, whose
entries are words of 8 bytes (R162) (DESIGN CHOICE, log entry 175). -/
def opAlign (op i : Nat) : Nat :=
  match op with
  | 0x10 | 0x11 | 0x12 | 0x18 => 8
  | 0x02 => if i = 1 then 1 else 64
  | 0x0A => if i = 0 then 64 else 1
  | _ => 64

/-- Does an operand word break R124, R126 or R136? -/
def operandBad (need align w : Nat) : Bool :=
  match need with
  | 0 => oSpace w != 0
  | 1 => !(decide (1 ≤ oSpace w ∧ oSpace w ≤ 3)) || bits w 47 0 % align != 0
  | _ => false

/-- Bytes that n folios a stride of lines apart cover at the least: each begins with its header line. -/
def stridedBytes (n stride : Nat) : Nat := 64 * stride * (n - 1) + 64

/-- Bytes that n packed folios cover at the least: the shortest folio has 19 lines (02 R46). -/
def packedBytes (n : Nat) : Nat := 64 * 19 * (n - 1) + 64

/-- Bytes that n written folios cover at the least. -/
def writtenBytes (n : Nat) : Nat := 64 * 19 * n

/-- Bytes an operand is known to cover when the stroke is fetched: what its opcode and its descriptor give, whatever the
folios' headers and the recipe hold (R125, R126, R143, R165; 07 R286, R296). -/
def knownBytes (op sub i d : Nat) : Nat :=
  let np := kNp d
  match op, i with
  | 0x01, 0 => stridedBytes np (kStride0 d)
  | 0x01, 1 => stridedBytes np (kStride1 d)
  | 0x01, 3 => writtenBytes 1
  | 0x02, 0 => stridedBytes (if sub = 1 then 1 else np) (kStride0 d)
  | 0x02, 1 => 65536
  | 0x02, 3 => writtenBytes 1
  | 0x03, 0 => stridedBytes np (kStride0 d)
  | 0x03, 1 => stridedBytes ((kN d + 15) / 16) (kStride1 d)
  | 0x03, 2 => if sub = 1 then 512 else 512 + 64 * 259 * np
  | 0x03, 3 => if sub = 1 then writtenBytes 1 else 512 + 64 * 259 * np
  | 0x04, 0 => stridedBytes np (kStride0 d)
  | 0x04, 1 => if sub = 0xC ∨ sub = 0xD then 256 else stridedBytes np (kStride1 d)
  | 0x04, 2 => packedBytes np
  | 0x04, 3 => writtenBytes np
  | 0x05, 0 => stridedBytes np (kStride0 d)
  | 0x05, 3 => 256
  | 0x06, 0 => stridedBytes np (kStride0 d)
  | 0x06, 3 => writtenBytes np
  | 0x08, _ => 64 * (kImm2 d % 16384 + 1)
  | 0x09, 0 => stridedBytes np (kStride0 d)
  | 0x0A, 1 => 512
  | 0x0A, 2 => 4
  | 0x10, _ => 8
  | 0x11, _ => 8
  | 0x12, _ => 8
  | 0x18, 0 => 8
  | 0x18, _ => 256
  | _, _ => 64

/-- Does MOVE name overlapping ranges of one space (R149)? -/
def moveOverlap (k d : Nat) : Bool :=
  let n := 64 * (kImm2 d % 16384 + 1)
  let a := oAddr k (kSrc0 d)
  let b := oAddr k (kDst d)
  oSpace (kSrc0 d) == oSpace (kDst d) && decide (a < b + n) && decide (b < a + n)

/-- Is an opcode one with rows (R134)? -/
def hasRows (op : Nat) : Bool := decide (1 ≤ op ∧ op ≤ 7) || op == 9 || op == 10

/-- Does a stroke always need a row block (R142, R143, R148, R156, R316)? -/
def needsRows (op sub : Nat) : Bool := op == 2 || op == 3 || op == 7 || op == 9 || (op == 0x12 && sub == 0)

/-- The bits of IMM2 an opcode may hold (R744). -/
def imm2Mask (op : Nat) : Nat :=
  match op with
  | 0x01 | 0x04 | 0x06 | 0x09 => 0xFF
  | 0x03 => 0x1F
  | 0x07 => 0x37FFFF
  | 0x0A => 0xFFFFF
  | 0x11 => 1
  | _ => 0xFFFFFFFF

/-- The SHAPE checks that a descriptor alone decides.  N is not checked for RULE and RETURN, nor NP for KVPUT, RETURN and GLOSS
UP, whose rules take neither (DESIGN CHOICE, log entry 130). -/
def shapeBad (op sub d : Nat) : Bool :=
  let m := hasRows op && !(decide (1 ≤ kM d ∧ kM d ≤ 64))
  let n := hasRows op && op != 9 && op != 10 && !(decide (1 ≤ kN d ∧ kN d ≤ 64))
  let np := hasRows op && op != 7 && op != 10 && !(op == 2 && sub == 1) &&
    !(decide (1 ≤ kNp d) && (op != 3 || decide (kNp d ≤ 4)))
  let one := op == 9 && ((List.range 8).filter fun i => bit (kSmask d) i).length != 1
  m || n || np || one || (hasRows op && kMdyn d && !(kRbv d)) || (needsRows op sub && !(kRbv d)) ||
  kImm2 d &&& imm2Mask op != kImm2 d

/-- Do the live region fields break R122? -/
def liveBad (d : Nat) : Bool :=
  let a := kExt0 d
  let b := kExt1 d
  (a.2 != 0 && decide (24576 < a.1 + a.2)) || (b.2 != 0 && decide (24576 < b.1 + b.2)) || decide (4096 < a.2 + b.2)

/-- The cause a fetched stroke faults with; 0 when it may start (R165).  A descriptor that breaks several checks takes the first of
OPCODE, OPERAND, SHAPE and LIVE (DESIGN CHOICE, log entry 131) (DEDUCED in part, log entry 65). -/
def fetchCause (k d : Nat) : Nat :=
  let op := kOp d
  let sub := kSub d
  let words := [kSrc0 d, kSrc1 d, kSrc2 d, kDst d]
  let needs := opNeeds op sub
  if !(opDefined op sub) then 0x01
  else if (List.range 4).any fun i =>
      let w := words.getD i 0
      operandBad (needs.getD i 0) (opAlign op i) w ||
      (needs.getD i 0 == 1 && oSpace w == 1 && decide (0x180000 < bits w 47 0 + knownBytes op sub i d)) then 0x02
  else if (hasRows op || needsRows op sub) && kRbv d && decide (24576 < kRowblk d + 9) then 0x02
  else if op = 8 && moveOverlap k d then 0x02
  else if shapeBad op sub d then 0x03
  else if liveBad d then 0x04
  else 0

/-! ## Who runs -/

/-- A scribe at a stroke: sheet, context, quire, scribe of the quire, stroke address and descriptor. -/
structure Run where
  i : Nat
  c : Nat
  q : Nat
  k : Nat
  pc : Nat
  d : Nat
  deriving DecidableEq, Repr

/-- Scribe number (01_architecture.md R18). -/
def Run.scribe (r : Run) : Nat := 8 * r.q + r.k

/-- The issuer mark of a stroke's loads and stores (11 R455). -/
def Run.issuer (r : Run) (s : State) : Issuer := ⟨0, r.i, r.c, r.q, s.gen r.i r.c, r.scribe, r.pc⟩

/-- The sheet and context a quire runs, when one is resident. -/
def State.runsOn (s : State) (q : Nat) : Option (Nat × Nat) :=
  let i := s.rd (Reg.QUIRE_STAT q) 23 20
  if bit (s.sheet i).qmask q && decide (q < s.nq) then (s.sheet i).cur.map fun c => (i, c) else none

/-- Does a scribe run a stroke, rather than pass over it (R95)? -/
def inMask (k d : Nat) : Bool := bit (kSmask d) k || kOp d == 0x18 || kOp d == 0x19 || kOp d == 0x1F

/-- What fetching found: the stroke address, and the descriptor or the cause of a fault. -/
structure Fetched where
  st : State
  pc : Nat
  d : Nat
  cause : Nat

/-- The cause of an access that asks for granules pinned to T0: ACCESS outside the sheet's share or where nothing is mapped,
RESIDENT where the granule is not pinned to T0; 0 for none (R98, R159, R164; 05 R169, R170). -/
def State.pinCause (s : State) (i a n : Nat) : Nat :=
  if !(s.tierOk i a n) then 0x0B else if !(s.pinnedRange i a n) then 0x0A else 0

/-- Fetch the script from pc on, up to the first stroke the scribe runs (R95, R159, R215; 05 R176) (DEDUCED in part, log entry 61).
The descriptor is read when its stroke's command comes, whatever was prefetched (DESIGN CHOICE, log entry 132).  A RULE with
an empty mask breaks 08 R316 at every scribe that fetches it. -/
def State.seek (i k : Nat) : Nat → Nat → State → Fetched
  | 0, pc, s => ⟨s, pc, 0, 0x0A⟩
  | n + 1, pc, s =>
    if s.pinCause i pc 64 != 0 then ⟨s, pc, 0, s.pinCause i pc 64⟩ else
    match s.readTier pc 64 i with
    | (s, .error _) => ⟨s, pc, 0, 0x0D⟩
    | (s, .ok b) =>
      let d := leNat b
      if kOp d == 0x09 && kSmask d == 0 then ⟨s, pc, d, 0x03⟩
      else if inMask k d then ⟨s, pc, d, 0⟩ else State.seek i k n (pc + 64) s

/-- Every stroke address of the tiered range. -/
def scriptFuel : Nat := 2 ^ 36

/-- Is a stroke skipped under its predicate (R120, R157)? -/
def State.skipped (s : State) (q d : Nat) : Bool :=
  let p := kPred d
  bit p 7 && (s.quire q).preds.getLsbD (p % 8) == bit p 6

/-! ## Reading -/

/-- What a read of operands gave: a value, a wait for fabric data, or a fault. -/
inductive Got (α : Type) where
  | ok (s : State) (v : α)
  | wait (s : State)
  | bad (s : State) (cause f2 : Nat)

/-- What a read through the code gives a stroke (05 R215). -/
def Got.ofRead : ReadBytes → Got (List Byte)
  | (s, .ok b) => .ok s b
  | (s, .error a) => .bad s 0x0D a

/-- Go on with what was read. -/
def Got.bind {α β : Type} (g : Got α) (f : State → α → Got β) : Got β :=
  match g with
  | .ok s v => f s v
  | .wait s => .wait s
  | .bad s c a => .bad s c a

/-- A load of an aperture line, with the context's mark (10 R413). -/
def State.loadLine (s : State) (r : Run) (e a : Nat) : State :=
  let p := aperPacket s 0x02 e a
  s.issue { p with issuer := BitVec.ofNat 8 (r.i + 16 * r.c + 128), gen := BitVec.ofNat 8 (s.gen r.i r.c) } (r.issuer s) a
    (bits e 99 64) (bit e 62)

/-- The data of an aperture line that has arrived for a stroke. -/
def State.lineHere (s : State) (r : Run) (a : Nat) : Option (List Byte) :=
  (s.arrived.find? fun x => x.iss == r.issuer s && x.aper == a).map Arrived.data

/-- Room for one more load of a quire (11 R449). -/
def State.quireRoom (s : State) (q : Nat) : Bool :=
  s.loadRoom && decide (s.outOps.foldl (fun n o => n + o.loads fun x => x.kind == 0 && x.c == q) 0 < 256)

/-- Ask once for n aperture lines from a on (R129). -/
def State.askStroke (r : Run) (e : Nat) : Nat → Nat → State → State
  | 0, _, s => s
  | n + 1, a, s =>
    let s :=
      if (s.lineHere r a).isSome || !(s.quireRoom r.q) ||
        s.outOps.any (fun y => !y.write && (y.issuers.zip y.apers).contains (r.issuer s, a)) then s
      else s.loadLine r e a
    State.askStroke r e n (a + 64) s

/-- Bytes of an aperture range whose lines have all arrived. -/
def State.aperBytes (s : State) (r : Run) (a n : Nat) : Option (List Byte) :=
  let l0 := a / 64 * 64
  let lines := (List.range ((a + n + 63) / 64 - a / 64)).map fun j => s.lineHere r (l0 + 64 * j)
  if lines.all Option.isSome then some (((lines.flatMap fun l => l.getD []).drop (a - l0)).take n) else none

/-- May a stroke wait for fabric data: has it an APER source (R129)? -/
def Run.mayWait (r : Run) : Bool :=
  (hasRows (kOp r.d) || kOp r.d == 8) && (oSpace (kSrc0 r.d) == 3 || oSpace (kSrc1 r.d) == 3 || oSpace (kSrc2 r.d) == 3)

/-- What a stroke read when it started, if it has read it (R131, R149). -/
def State.kept (s : State) (r : Run) (space a n : Nat) : Option (List Byte) :=
  ((s.scribe r.scribe).capt.find? fun x => x.1 == space && x.2.1 == a && x.2.2.1 == n).map fun x => x.2.2.2

/-- A scribe keeps what its stroke has read, unless it keeps it already. -/
def State.keep (s : State) (r : Run) (space a n : Nat) (b : List Byte) : State :=
  if (s.kept r space a n).isSome then s else
  s.setScribe r.scribe { s.scribe r.scribe with capt := (space, a, n, b) :: (s.scribe r.scribe).capt }

/-- Read once: what a stroke that waits has read stays as it was, whatever is written meanwhile (R131, R149; 07 R270, R286).
`space` 4 keys what is no operand. -/
def State.readOnce (s : State) (r : Run) (space a n : Nat) (f : State → Got (List Byte)) : Got (List Byte) :=
  match s.kept r space a n with
  | some b => .ok s b
  | none =>
    match f s with
    | .ok s b =>
      .ok (if r.mayWait then s.keep r space a n b else s) b
    | g => g

/-- Read n bytes of an operand (R126, R127, R129, 05 R215).  An aperture's lines are loaded whole, so each must lie in LENGTH (11 R442,
R445). -/
def State.readOp (s : State) (r : Run) (space a n : Nat) : Got (List Byte) :=
  match space with
  | 1 =>
    if 0x180000 < a + n then .bad s 0x02 0 else
    s.readOnce r 1 a n fun s => Got.ofRead (s.readPhys (physWell r.scribe a) n a r.scribe r.i)
  | 2 =>
    if !(s.tierOk r.i a n) then .bad s 0x0B a else
    s.readOnce r 2 a n fun s => Got.ofRead (s.readTier a n r.i)
  | _ =>
    let s := s.seenImport (some r.i) a
    let e := s.importEntry (some r.i) a
    let l := (a + n + 63) / 64 - a / 64
    if !(importOk e (a / 64 * 64 % 2 ^ 36) (64 * l) 1) || decide (2 ^ 48 ≤ a) then .bad s 0x0B a else
    match s.aperBytes r a n with
    | some b => .ok s b
    | none =>
      let s := State.askStroke r e l (a / 64 * 64) s
      match s.aperBytes r a n with
      | some b => .ok s b
      | none => .wait s

/-- A folio operand with its address. -/
structure FolioAt where
  addr : Nat
  folio : Folio
  deriving DecidableEq, Repr

/-- Read a folio: its header is checked first, and gives its length (R126, 02 R44). -/
def State.readFolio (s : State) (r : Run) (space a : Nat) : Got FolioAt :=
  (s.readOp r space a 64).bind fun s h =>
    if !(headerOk h) then .bad s 0x06 a else
    (s.readOp r space a (64 * fmtLines (headerFmt h))).bind fun s b => .ok s ⟨a, Folio.parse b⟩

/-- Read n folios a stride of lines apart (R125). -/
def State.readFolios (r : Run) (space : Nat) (stride : Nat) : Nat → Nat → List FolioAt → State → Got (List FolioAt)
  | 0, _, acc, s => .ok s acc.reverse
  | n + 1, a, acc, s =>
    (s.readFolio r space a).bind fun s f => State.readFolios r space stride n (a + 64 * stride) (f :: acc) s

/-- Read n packed folios (R125). -/
def State.readPacked (r : Run) (space : Nat) : Nat → Nat → List FolioAt → State → Got (List FolioAt)
  | 0, _, acc, s => .ok s acc.reverse
  | n + 1, a, acc, s =>
    (s.readFolio r space a).bind fun s f => State.readPacked r space n (a + 64 * fmtLines f.folio.fmt) (f :: acc) s

/-- Read a column of 64 FP32 values. -/
def State.readColumn (s : State) (r : Run) (space a : Nat) : Got (List W32) :=
  (s.readOp r space a 256).bind fun s b => .ok s ((unpack 0 b).map (BitVec.ofNat 32))

/-- Post one TERNCODE event per folio that holds the code 0b10 (02 R38). -/
def State.noteTer (s : State) (r : Run) (fs : List FolioAt) : State :=
  fs.foldl (fun s f =>
    if f.folio.badTer = 0 then s else s.post 0x0405 [r.i + 16 * r.c, f.addr, f.folio.badTer]) s

/-! ## Rows (R104, R130 to R134) -/

/-- Address of the live mask of a context's job slot (09 R354). -/
def State.maskAt (s : State) (i c : Nat) : Nat :=
  let j := s.rd (Reg.CCFG i c) 8 5
  s.tierLe (s.addrOf (Reg.JREC_LO j) (Reg.JREC_HI j) 64 + 0x18) 8 % 2 ^ 48 + 64

/-- The bit of a slip in the live mask of a context (09 R354); set for a context whose JV is 0 (R132) (DEDUCED in part, log entry 62). -/
def State.liveBit (s : State) (i c act : Nat) : Bool :=
  if !(s.rdb (Reg.CCFG i c) 9) then true else bit (s.tierLe (s.maskAt i c + act / 8) 1) (act % 8)

/-- Sample the live mask for some rows (R104): the lines it is read from pass through the code (05 R213, R215). -/
def State.sampleMask (s : State) (i c : Nat) (acts : List Nat) : State × Except Nat Unit :=
  if !(s.rdb (Reg.CCFG i c) 9) then (s, .ok ()) else
  let j := s.rd (Reg.CCFG i c) 8 5
  let word := (s.addrOf (Reg.JREC_LO j) (Reg.JREC_HI j) 64 + 0x18, 8)
  (word :: acts.map fun a => (s.maskAt i c + a / 8, 1)).foldl (fun st a =>
    match st.2 with
    | .error _ => st
    | .ok () =>
      match st.1.readTier a.1 a.2 i with
      | (s, .ok _) => (s, .ok ())
      | (s, .error x) => (s, .error x)) (s, .ok ())

/-- The rows of a stroke: how many, their entries, and which are valid and live. -/
structure Rows where
  rbv : Bool
  m : Nat
  ent : List Nat
  live : List Bool
  deriving DecidableEq, Repr

/-- SLIP of a row entry (R130). -/
def eSlip (e : Nat) : Nat := bits e 17 0
/-- POS of a row entry. -/
def ePos (e : Nat) : Nat := bits e 37 18
/-- ACT of a row entry. -/
def eAct (e : Nat) : Nat := bits e 49 38
/-- GLOSS of a row entry. -/
def eGloss (e : Nat) : Nat := bits e 61 50
/-- GV of a row entry. -/
def eGv (e : Nat) : Bool := bit e 62
/-- VALID of a row entry. -/
def eValid (e : Nat) : Bool := bit e 63

/-- Entry of row m. -/
def Rows.entry (x : Rows) (m : Nat) : Nat := x.ent.getD m 0
/-- Is row m computed and sent? -/
def Rows.isLive (x : Rows) (m : Nat) : Bool := decide (m < x.m) && x.live.getD m false
/-- Does row m carry a token? -/
def Rows.isValid (x : Rows) (m : Nat) : Bool := decide (m < x.m) && (!x.rbv || eValid (x.entry m))

/-- The rows of a row block and which of them the live mask leaves, with the rows dropped before. -/
def State.rowsOf (s : State) (r : Run) (b : List Byte) (sample : Bool) : Rows :=
  let ents := (chunks 8 64 (b.drop 64)).map leNat
  let count := leNat (b.take 4)
  let dropped := (s.scribe r.scribe).dropped
  let live := (List.range 64).map fun j =>
    let e := ents.getD j 0
    eValid e && (!sample || s.liveBit r.i r.c (eAct e)) && !(dropped.contains j)
  ⟨true, if kMdyn r.d then min (kM r.d) count else kM r.d, ents, live⟩

/-- The valid rows of a row block that are not live: what a sample drops from a stroke (R104). -/
def Rows.dead (x : Rows) : List Nat := (List.range 64).filter fun m => eValid (x.entry m) && !(x.live.getD m false)

/-- Read the row block of a stroke once, when it starts, and sample the live mask then (R104, R131, R134); a stroke that waits
keeps the sample until the next one (DEDUCED in part, log entry 121). -/
def State.readRows (s : State) (r : Run) : Got Rows :=
  if !(kRbv r.d) then .ok s ⟨false, kM r.d, [], List.replicate 64 true⟩ else
  match s.kept r 1 (64 * kRowblk r.d) 576 with
  | some b => .ok s (s.rowsOf r b false)
  | none =>
    (s.readOp r 1 (64 * kRowblk r.d) 576).bind fun s b =>
      match s.sampleMask r.i r.c ((s.rowsOf r b false).ent.filter eValid |>.map eAct) with
      | (s, .error a) => .bad s 0x0D a
      | (s, .ok ()) =>
        let x := s.rowsOf r b true
        let y := s.scribe r.scribe
        .ok (if r.mayWait then s.setScribe r.scribe { y with dropped := distinct (y.dropped ++ x.dead) } else s) x

/-! ## Recipes (02 R57, R68 to R71) -/

/-- The entry of a recipe slot: on the side of the scribe's step, or for a context that is not stepped on the side that is recto
when the stroke starts (R71). -/
def State.recipeWord (s : State) (r : Run) : Got Nat :=
  (s.readOnce r 4 (kRecipe r.d) 16 fun s =>
    let side := if s.rdb (Reg.CCFG r.i r.c) 9 then (s.scribe r.scribe).side else s.rd Reg.RECIPE_SIDE r.i r.i
    Got.ofRead (s.readTier (s.scb r.i + 0x1000 * side + 16 * kRecipe r.d) 16 r.i)).bind fun s b => .ok s (leNat b)

/-- The recipe a stroke converts under, with its s2 (R68, R119). -/
def mkRecipe (d w : Nat) : Recipe :=
  ⟨kRecipe d, bits w 3 0, bit w 8, bit w 9, bits w 11 10, bits w 15 12, bits w 95 80, bits w 79 64,
    if kS2imm d then kImmf d else BitVec.ofNat 32 (bits w 127 96)⟩

/-- Is an s2 finite and above zero (R57)? -/
def s2Ok (w : W32) : Bool := let v := Fp.of32 w; v.isFin && !v.isZero && !v.sign

/-- Is a stroke a gloss update: a QUANT under stream 0x2 or 0x3 (R59, R69; 04 R142) (DEDUCED, log entry 64)? -/
def glossUpdate (r : Run) (x : Recipe) : Bool := kOp r.d == 6 && kSub r.d == 0 && (x.stream == 2 || x.stream == 3)

/-- The recipe of a stroke, or the fault it raises (R57, R69, R147); `fixed` is a stream that replaces the recipe's.
A stroke that rounds stochastically needs its row block (DEDUCED, log entry 24). -/
def State.useRecipe (s : State) (r : Run) (fixed : Option Nat) : Got Recipe :=
  (s.recipeWord r).bind fun s w =>
  let x := mkRecipe r.d w
  if 8 ≤ x.fmt then .bad s 0x0F 0
  else if x.sr && fixed.isNone && decide (x.stream < 8) && !(glossUpdate r x) then .bad s 0x0F 0
  else if 2 ≤ x.fmt && !(s2Ok x.s2) then .bad s 0x0F 0
  else if x.sr && decide (1 ≤ x.fmt) && !(kRbv r.d) then .bad s 0x03 0
  else .ok s { x with stream := fixed.getD x.stream }

/-- Sheet seed (10 R399). -/
def State.seed (s : State) (i : Nat) : Nat := s.rd64 (Reg.SEED_LO i) (Reg.SEED_HI i)

/-- Random bits of an element of a gloss update: row m's entry gives the gloss, the folio index of the stroke's first folio and
the update step; folio n of the stroke has the next index (02 R58, R59) (DEDUCED, log entry 64). -/
def State.glossRnd (s : State) (r : Run) (x : Rows) (stream layer n m c : Nat) : Nat :=
  let e := x.entry m
  rndBits (s.seed r.i) (eGloss e) stream layer (eSlip e + n) (ePos e) (if kOutcm r.d then 64 * c + m else 64 * m + c)

/-- Random bits of row m, element e of the tensor row (02 R58, R59). -/
def State.rowRnd (s : State) (r : Run) (x : Rows) (stream layer m e : Nat) : Nat :=
  rndBits (s.seed r.i) 0 stream layer (eSlip (x.entry m)) (ePos (x.entry m)) e

/-- Count an output folio and a blot of a recipe slot of a sheet (02 R64 to R66). -/
def State.countFolio (s : State) (i slot : Nat) (blot : Bool) : State :=
  let s := s.bump (Reg.BLOT_FOLIOS i slot)
  let s := if blot then s.bump (Reg.BLOT_COUNT i slot) else s
  let w := Map.getD s.blotWin (256 * i + slot) (0, 0)
  { s with blotWin := Map.set s.blotWin (256 * i + slot) (w.1 + 1, w.2 + if blot then 1 else 0) }

/-! ## Writing at the boundary (R104, R105, R128, R129) -/

/-- A run of bytes to write, with the bytes that are written outside the well. -/
structure Out where
  space : Nat
  addr : Nat
  bs : List Byte
  keep : List Bool
  deriving DecidableEq, Repr

/-- An output written whole. -/
def Out.whole (space addr : Nat) (bs : List Byte) : Out := ⟨space, addr, bs, List.replicate bs.length true⟩

/-- The runs of kept bytes from offset o on. -/
def keptRuns : Nat → List Byte → List Bool → List (Nat × List Byte)
  | o, b :: bs, k :: ks =>
    if k then
      match keptRuns (o + 1) bs ks with
      | (p, x) :: t => if p = o + 1 then (o, b :: x) :: t else (o, [b]) :: (p, x) :: t
      | [] => [(o, [b])]
    else keptRuns (o + 1) bs ks
  | _, _, _ => []

/-- Lines of an output with their address, bytes and kept bytes, from address a on. -/
def outLines (a : Nat) : Nat → List Byte → List Bool → List (Nat × List Byte × List Bool)
  | 0, _, _ => []
  | fuel + 1, bs, ks =>
    if bs.isEmpty then [] else
    let n := 64 - a % 64
    (a, bs.take n, ks.take n) :: outLines (a + n) fuel (bs.drop n) (ks.drop n)

/-- The lines of an output. -/
def Out.lines (o : Out) : List (Nat × List Byte × List Bool) := outLines o.addr (o.bs.length / 64 + 2) o.bs o.keep

/-- The fault an output raises, if any: its cause and data address (R126, R128, 05 R179, R215). -/
def State.outBad (s : State) (r : Run) (o : Out) : State × Option (Nat × Nat) :=
  let n := o.bs.length
  match o.space with
  | 1 => (s, if 0x180000 < o.addr + n then some (0x02, 0) else none)
  | 2 =>
    if n ≠ 0 ∧ !(s.tierOk r.i o.addr n) then (s, some (0x0B, o.addr)) else
    o.lines.foldl (fun st l =>
      if st.2.isSome || !(l.2.2.any id) then st else
      let e := st.1.entryRead (l.1 / 65536) r.i
      let st : State × Option (Nat × Nat) := (e.1, none)
      if e.2 then (e.1, some (0x0D, l.1))
      else if entDry (st.1.entry (l.1 / 65536)) then (st.1, some (0x09, l.1))
      else if l.2.1.length = 64 && l.2.2.all id then st
      else
        let e := st.1.eccTier (l.1 / 64 * 64) 64 r.i
        (e.1, e.2.map fun a => (0x0D, a))) (s, none)
  | _ =>
    let s := s.seenImport (some r.i) o.addr
    let e := s.importEntry (some r.i) o.addr
    (s, if n ≠ 0 ∧ (!(importOk e (o.addr % 2 ^ 36) n 2) ∨ 2 ^ 48 ≤ o.addr) then some (0x0B, o.addr) else none)

/-- Issue one fabric write of a stroke and count it to the quire (R129, 11 R455). -/
def State.strokeWrite (s : State) (r : Run) (opc a : Nat) (f : Packet → Packet) : State :=
  let s := s.seenImport (some r.i) a
  let e := s.importEntry (some r.i) a
  let p := f { aperPacket s opc e a with issuer := BitVec.ofNat 8 (r.i + 16 * r.c + 128), gen := BitVec.ofNat 8 (s.gen r.i r.c) }
  let x := r.issuer s
  (s.countIssued r.q 1).issue p x a (bits e 99 64) (bit e 62)

/-- A line of an aperture output: whole as STORE64, or its words with byte enables (R104) (DEDUCED in part, log entry 63). -/
def State.aperOut (s : State) (r : Run) (l : Nat × List Byte × List Bool) : State :=
  if l.2.1.length = 64 && l.2.2.all id then s.strokeWrite r 0x09 l.1 fun p => { p with gran := [l.2.1] }
  else
    (List.range (l.2.1.length / 8)).foldl (fun s w =>
      let ks := (l.2.2.drop (8 * w)).take 8
      if ks.any id then
        s.strokeWrite r 0x08 (l.1 + 8 * w) fun p =>
          { p with imm := BitVec.ofNat 64 (leNat ((l.2.1.drop (8 * w)).take 8)),
                   be := BitVec.ofNat 8 ((List.range 8).foldl (fun a i => a + if ks.getD i false then 2 ^ i else 0) 0) }
      else s) s

/-- Write an output. -/
def State.putOut (s : State) (r : Run) (o : Out) : State :=
  match o.space with
  | 1 => s.store (physWell r.scribe o.addr) o.bs
  | 2 => (keptRuns o.addr o.bs o.keep).foldl (fun s x => s.storeTier x.1 x.2) s
  | _ => (o.lines.filter fun l => l.2.2.any id).foldl (fun s l => s.aperOut r l) s

/-- The kept bytes of a produced folio: payload bytes that hold an element of a row that is not dropped, the scale bytes that
serve a live one or no dropped one, and the header (R104). -/
def folioKeep (fmt rows : Nat) (outcm : Bool) (live : Nat → Bool) : List Bool :=
  let isOut (i : Nat) : Bool :=
    let rr := if outcm then i % 64 else i / 64
    decide (rr < rows) && !(live rr)
  let isLive (i : Nat) : Bool :=
    let rr := if outcm then i % 64 else i / 64
    decide (rr < rows) && live rr
  let anyLive := (List.range rows).any live
  let w := fmtBits fmt
  let n := 8 * w * 64
  if !anyLive then List.replicate (192 + n) false else
  List.replicate 64 true ++
  ((List.range 128).map fun b =>
    (List.range 32).any (fun i => isLive (32 * b + i)) || !((List.range 32).any fun i => isOut (32 * b + i))) ++
  (List.range n).map fun b =>
    let lo := 8 * b / w
    let hi := (8 * b + 7) / w
    (List.range (hi + 1 - lo)).any fun j => !(isOut (lo + j))

/-- What a stroke hands to its boundary: its writes, its folio counts and what else it sends. -/
structure Done where
  outs : List Out
  blots : List Bool
  ters : List FolioAt
  send : State → State

/-- A stroke with nothing to write. -/
def Done.none : Done := ⟨[], [], [], id⟩

/-! ## The boundary -/

/-- Refresh WATCH and STATE of a quire that runs a context (03 R103, R117); one that runs again has its point and its rail for it
(14 R588, R591). -/
def State.quireWatch (s : State) (q : Nat) : State :=
  let w := (List.range 8).foldl (fun a k => if (s.scribe (8 * q + k)).watch.isSome then a + 2 ^ k else a) 0
  let s := s.wr (Reg.QUIRE_STAT q) 15 8 w
  let u := s.quireUnder q
  if u = 4 && w != 255 then (s.setQuireState q 3).resumePoint q
  else if u = 3 ∨ u = 4 then s.setQuireState q (if w = 255 then 4 else 3) else s

/-- End a stall on a READY word (06 R245). -/
def State.endStall (s : State) (r : Run) : State :=
  match (s.scribe r.scribe).stallFrom with
  | none => s
  | some t => (s.bumpSat (Reg.STALL_NS r.i) (s.now - t)).postOnce 0x0701 [r.i, s.now - t]

/-- A scribe passes the boundary after a stroke: its position, its live region, STROKES (R108, R116, R122, R157). -/
def State.passed (s : State) (r : Run) (next : Nat) (ran : Bool) : State :=
  if (s.sheet r.i).cur != some r.c then s else
  let s := s.endStall r
  let x := s.scribe r.scribe
  let s := s.setScribe r.scribe { x with
    pc := next, ext0 := (kExt0 r.d).1, ext0n := (kExt0 r.d).2, ext1 := (kExt1 r.d).1, ext1n := (kExt1 r.d).2,
    watch := none, atBarrier := false, dropped := [], stallFrom := none, capt := [] }
  let s := s.bump (Reg.STROKES r.q)
  let s := if (List.range r.k).all fun j => (s.scribe (8 * r.q + j)).watch.isSome then
    s.setQuire r.q { s.quire r.q with phase := kPhase r.d } else s
  let s := { s with arrived := s.arrived.filter fun a => a.iss != r.issuer s }
  let s := if ran then s.setSheet r.i { s.sheet r.i with ran := true } else s
  s.quireWatch r.q

/-- A stroke raises a context fault. -/
def State.strokeFault (s : State) (r : Run) (cause f2 : Nat) : State := s.ctxFault r.i r.c cause r.scribe r.pc f2

/-- The boundary of a stroke that ran: conflicts, writes in order, counts (R92 to R94, R105) (DESIGN CHOICE in part, log entry 68). -/
def State.boundary (s : State) (r : Run) (lost : Nat) (x : Done) : State :=
  if lost ≠ 0 ∧ s.rdb (Reg.CCFG r.i r.c) 4 then s.strokeFault r 0x07 0 else
  let c := x.outs.foldl (fun (st : State × Option (Nat × Nat)) o => if st.2.isSome then st else st.1.outBad r o) (s, none)
  match c.2 with
  | some f => c.1.strokeFault r f.1 f.2
  | none =>
    let s := x.outs.foldl (fun s o => s.putOut r o) c.1
    let s := x.blots.foldl (fun s b => s.countFolio r.i (kRecipe r.d) b) s
    let s := x.send (s.noteTer r x.ters)
    let s := if lost = 0 then s else (s.bumpSat (Reg.CONF_CYCLES r.q) lost).postOnce 0x0402 [r.scribe, r.pc, lost]
    s.passed r (r.pc + 64) true

/-- Run the stroke a scribe stands at, when it is the command's: fetch, checks, predicate, then the stroke itself. -/
def State.stroke (s : State) (q k op : Nat) (sub : Nat → Bool) (f : Run → State → State) : State :=
  match s.runsOn q with
  | none => s
  | some (i, c) =>
    let e := State.seek i k scriptFuel (s.scribe (8 * q + k)).pc s
    let r : Run := ⟨i, c, q, k, e.pc, e.d⟩
    if e.cause != 0 then e.st.strokeFault r e.cause 0
    else if !(opDefined (kOp e.d) (kSub e.d)) then e.st.strokeFault r 0x01 0
    else if kOp e.d != op || !(sub (kSub e.d)) then s
    else if fetchCause k e.d != 0 then e.st.strokeFault r (fetchCause k e.d) 0
    else if e.st.skipped q e.d then e.st.passed r (r.pc + 64) false
    else f r e.st

/-- A stroke that computes: it waits for its fabric data, faults, or reaches its boundary. -/
def State.compute (s : State) (q k op : Nat) (sub : Nat → Bool) (lost : Nat) (f : Run → State → Got Done) : State :=
  s.stroke q k op sub fun r s =>
    match f r s with
    | .ok s x => s.boundary r lost x
    | .wait s => s
    | .bad s c a => s.strokeFault r c a

/-- A stroke with rows: an empty one reads nothing and writes nothing (R134, R158). -/
def State.withRows (s : State) (r : Run) (empty : Done) (f : State → Rows → Got Done) : Got Done :=
  (s.readRows r).bind fun s x => if x.m = 0 then .ok s empty else f s x

end Sys2Proof.Machine
end

