-- ==== Sys2Proof/Machine/Vector.lean ====
section
/-! DEFINITION. The vector unit: VEC, RED, QUANT and MOVE (04_strokes.md R145 to R149; 03_scribe.md R83 to R85). -/

namespace Sys2Proof.Machine

/-- The folios a stroke writes, packed at DST, from the values of each tile (R125, R138).  An F32 target is not rounded, so its SR
flag is 0 (DESIGN CHOICE, log entry 133). -/
def folioOuts (r : Run) (x : Rows) (rc : Recipe) (cols np : Nat) (val : Nat → Nat → Nat → W32)
    (rnd : Nat → Nat → Nat → Nat) : List Out × List Bool :=
  let sr := rc.sr && decide (1 ≤ rc.fmt)
  let made := (List.range np).map fun n =>
    (n, makeFolio rc sr x.m cols (kOutcm r.d) (fun m c => if x.isLive m then some (val n m c) else none) (rnd n))
  (made.map fun y => ⟨oSpace (kDst r.d), oAddr r.k (kDst r.d) + 64 * fmtLines rc.fmt * y.1, y.2.bytes,
      folioKeep rc.fmt x.m (kOutcm r.d) x.isLive⟩, made.map fun y => y.2.blot rc)

/-- The random bits of an element of tile n: the column index within the tensor row, counted from the stroke's first tile (02 R59; R744)
(DEDUCED, log entry 64). -/
def State.tileRnd (s : State) (r : Run) (x : Rows) (stream layer n m c : Nat) : Nat := s.rowRnd r x stream layer m (64 * n + c)

/-- One element of a VEC (R145); a NaN that SEL picks is written canonical (03_scribe.md R79). -/
def vecOp (sub : Nat) (immf a b c : W32) : W32 :=
  match sub with
  | 0x0 => fadd a b
  | 0x1 => fsub a b
  | 0x2 => fmul a b
  | 0x3 => ffma a b c
  | 0x4 => fmin a b
  | 0x5 => fmax a b
  | 0x6 => fabs a
  | 0x7 => (Fp.of32 (if (Fp.of32 c).isZero then b else a)).to32
  | 0x8 => fmul a immf
  | 0x9 => fexp2 a
  | 0xA => frcp a
  | 0xB => frsqrt a
  | 0xC => fmul a b
  | 0xD => fmul a (frcp b)
  | _ => a

/-- Element (m, c) of tile n of a folio operand. -/
def tileVal (fs : List FolioAt) (n m c : Nat) : W32 :=
  match fs[n]? with
  | none => 0
  | some f => f.folio.value m c

/-- Does a VEC sub-operation take a tile b, or a column b? -/
def vecTileB (sub : Nat) : Bool := decide (sub ≤ 5) || sub == 7
/-- Does it take a column b? -/
def vecColB (sub : Nat) : Bool := sub == 0xC || sub == 0xD
/-- Does it take a tile c? -/
def vecTileC (sub : Nat) : Bool := sub == 3 || sub == 7

/-- VEC (R145). -/
def vecStroke (r : Run) (s : State) : Got Done :=
  let d := r.d
  let sub := kSub d
  let np := kNp d
  s.withRows r Done.none fun s x =>
  (s.useRecipe r none).bind fun s rc =>
  (State.readFolios r (oSpace (kSrc0 d)) (kStride0 d) np (oAddr r.k (kSrc0 d)) [] s).bind fun s fa =>
  (if vecTileB sub then State.readFolios r (oSpace (kSrc1 d)) (kStride1 d) np (oAddr r.k (kSrc1 d)) [] s else .ok s []).bind fun s fb =>
  (if vecColB sub then s.readColumn r (oSpace (kSrc1 d)) (oAddr r.k (kSrc1 d)) else .ok s []).bind fun s cb =>
  (if vecTileC sub then State.readPacked r (oSpace (kSrc2 d)) np (oAddr r.k (kSrc2 d)) [] s else .ok s []).bind fun s fc =>
    let b (n m c : Nat) : W32 := if vecColB sub then cb.getD m 0 else tileVal fb n m c
    let o := folioOuts r x rc (kN d) np (fun n m c => vecOp sub (kImmf d) (tileVal fa n m c) (b n m c) (tileVal fc n m c))
      (s.tileRnd r x rc.stream (kImm2 d % 256))
    .ok s ⟨o.1, o.2, fa ++ fb ++ fc, id⟩

/-- Run a VEC stroke of one sub-operation. -/
def State.vec (s : State) (q k sub lost : Nat) : State := s.compute q k 0x04 (· == sub) lost vecStroke

/-- VEC_ADD. -/
def execVecAdd (q : Fin 64) (k : Fin 8) (lost : Nat) (s : State) : Host.Outcome State Fault Refusal :=
  act s fun s => s.vec q.val k.val 0x0 lost
/-- VEC_SUB. -/
def execVecSub (q : Fin 64) (k : Fin 8) (lost : Nat) (s : State) : Host.Outcome State Fault Refusal :=
  act s fun s => s.vec q.val k.val 0x1 lost
/-- VEC_MUL. -/
def execVecMul (q : Fin 64) (k : Fin 8) (lost : Nat) (s : State) : Host.Outcome State Fault Refusal :=
  act s fun s => s.vec q.val k.val 0x2 lost
/-- VEC_FMA. -/
def execVecFma (q : Fin 64) (k : Fin 8) (lost : Nat) (s : State) : Host.Outcome State Fault Refusal :=
  act s fun s => s.vec q.val k.val 0x3 lost
/-- VEC_MIN. -/
def execVecMin (q : Fin 64) (k : Fin 8) (lost : Nat) (s : State) : Host.Outcome State Fault Refusal :=
  act s fun s => s.vec q.val k.val 0x4 lost
/-- VEC_MAX. -/
def execVecMax (q : Fin 64) (k : Fin 8) (lost : Nat) (s : State) : Host.Outcome State Fault Refusal :=
  act s fun s => s.vec q.val k.val 0x5 lost
/-- VEC_ABS. -/
def execVecAbs (q : Fin 64) (k : Fin 8) (lost : Nat) (s : State) : Host.Outcome State Fault Refusal :=
  act s fun s => s.vec q.val k.val 0x6 lost
/-- VEC_SEL. -/
def execVecSel (q : Fin 64) (k : Fin 8) (lost : Nat) (s : State) : Host.Outcome State Fault Refusal :=
  act s fun s => s.vec q.val k.val 0x7 lost
/-- VEC_SCALE. -/
def execVecScale (q : Fin 64) (k : Fin 8) (lost : Nat) (s : State) : Host.Outcome State Fault Refusal :=
  act s fun s => s.vec q.val k.val 0x8 lost
/-- VEC_EXP2. -/
def execVecExp2 (q : Fin 64) (k : Fin 8) (lost : Nat) (s : State) : Host.Outcome State Fault Refusal :=
  act s fun s => s.vec q.val k.val 0x9 lost
/-- VEC_RCP. -/
def execVecRcp (q : Fin 64) (k : Fin 8) (lost : Nat) (s : State) : Host.Outcome State Fault Refusal :=
  act s fun s => s.vec q.val k.val 0xA lost
/-- VEC_RSQRT. -/
def execVecRsqrt (q : Fin 64) (k : Fin 8) (lost : Nat) (s : State) : Host.Outcome State Fault Refusal :=
  act s fun s => s.vec q.val k.val 0xB lost
/-- ROWMUL. -/
def execRowmul (q : Fin 64) (k : Fin 8) (lost : Nat) (s : State) : Host.Outcome State Fault Refusal :=
  act s fun s => s.vec q.val k.val 0xC lost
/-- ROWDIV. -/
def execRowdiv (q : Fin 64) (k : Fin 8) (lost : Nat) (s : State) : Host.Outcome State Fault Refusal :=
  act s fun s => s.vec q.val k.val 0xD lost
/-- CVT. -/
def execCvt (q : Fin 64) (k : Fin 8) (lost : Nat) (s : State) : Host.Outcome State Fault Refusal :=
  act s fun s => s.vec q.val k.val 0xE lost

/-! ## RED (R146) -/

/-- One tile's row reduced by the tree of R85, with the lanes outside the valid columns out of it. -/
def redTile (sub n : Nat) (v : Nat → W32) : W32 :=
  let lanes := (List.range 64).map fun c =>
    if c < n then (if 2 ≤ sub then fmul (v c) (v c) else v c) else if sub = 1 then 0xFF800000 else 0x80000000
  laneTree (if sub = 1 then fmax else fadd) lanes

/-- A row of NP tiles reduced, in ascending tile order. -/
def redRow (sub np n : Nat) (immf w : W32) (v : Nat → Nat → W32) : W32 :=
  let ts := (List.range np).map fun t => redTile sub n (v t)
  let x := ts.tail.foldl (if sub = 1 then fmax else fadd) (ts.headD 0)
  if sub = 3 then frsqrt (fadd (fmul x w) immf) else x

/-- RED. -/
def redStroke (r : Run) (s : State) : Got Done :=
  let d := r.d
  s.withRows r Done.none fun s x =>
  (State.readFolios r (oSpace (kSrc0 d)) (kStride0 d) (kNp d) (oAddr r.k (kSrc0 d)) [] s).bind fun s fa =>
    let col := (List.range 64).map fun m =>
      if x.isLive m then redRow (kSub d) (kNp d) (kN d) (kImmf d) (BitVec.ofNat 32 (kImm2 d)) fun t c => tileVal fa t m c else 0
    let keep := (List.range 256).map fun b => !(decide (b / 4 < x.m) && !(x.isLive (b / 4)))
    .ok s ⟨[⟨oSpace (kDst d), oAddr r.k (kDst d), pack 0 (col.map BitVec.toNat), keep⟩], [], fa, id⟩

/-- RED_SUM. -/
def execRedSum (q : Fin 64) (k : Fin 8) (lost : Nat) (s : State) : Host.Outcome State Fault Refusal :=
  act s fun s => s.compute q.val k.val 0x05 (· == 0) lost redStroke
/-- RED_MAX. -/
def execRedMax (q : Fin 64) (k : Fin 8) (lost : Nat) (s : State) : Host.Outcome State Fault Refusal :=
  act s fun s => s.compute q.val k.val 0x05 (· == 1) lost redStroke
/-- SUMSQ. -/
def execSumsq (q : Fin 64) (k : Fin 8) (lost : Nat) (s : State) : Host.Outcome State Fault Refusal :=
  act s fun s => s.compute q.val k.val 0x05 (· == 2) lost redStroke
/-- RMSR. -/
def execRmsr (q : Fin 64) (k : Fin 8) (lost : Nat) (s : State) : Host.Outcome State Fault Refusal :=
  act s fun s => s.compute q.val k.val 0x05 (· == 3) lost redStroke

/-! ## QUANT (R147) -/

/-- QUANT, with the recipe's stream (a gloss update's among them) or the residual downcast's. -/
def quantStroke (fixed : Option Nat) (r : Run) (s : State) : Got Done :=
  let d := r.d
  s.withRows r Done.none fun s x =>
  (s.useRecipe r fixed).bind fun s rc =>
  (State.readFolios r (oSpace (kSrc0 d)) (kStride0 d) (kNp d) (oAddr r.k (kSrc0 d)) [] s).bind fun s fa =>
    let rnd := if glossUpdate r rc then s.glossRnd r x rc.stream (kImm2 d % 256) else s.tileRnd r x rc.stream (kImm2 d % 256)
    let o := folioOuts r x rc (kN d) (kNp d) (fun n m c => tileVal fa n m c) rnd
    .ok s ⟨o.1, o.2, fa, id⟩

/-- QUANT. -/
def execQuant (q : Fin 64) (k : Fin 8) (lost : Nat) (s : State) : Host.Outcome State Fault Refusal :=
  act s fun s => s.compute q.val k.val 0x06 (· == 0) lost (quantStroke none)
/-- RESIDUAL_DOWNCAST. -/
def execResidualDowncast (q : Fin 64) (k : Fin 8) (lost : Nat) (s : State) : Host.Outcome State Fault Refusal :=
  act s fun s => s.compute q.val k.val 0x06 (· == 1) lost (quantStroke (some 4))

/-! ## MOVE (R149) -/

/-- MOVE. -/
def moveStroke (r : Run) (s : State) : Got Done :=
  let d := r.d
  (s.readOp r (oSpace (kSrc0 d)) (oAddr r.k (kSrc0 d)) (64 * (kImm2 d % 16384 + 1))).bind fun s b =>
    .ok s ⟨[Out.whole (oSpace (kDst d)) (oAddr r.k (kDst d)) b], [], [], id⟩

/-- MOVE. -/
def execMove (q : Fin 64) (k : Fin 8) (lost : Nat) (s : State) : Host.Outcome State Fault Refusal :=
  act s fun s => s.compute q.val k.val 0x08 (fun _ => true) lost moveStroke

end Sys2Proof.Machine
end

