-- ==== Sys2Proof/Machine/Tensor.lean ====
section
/-! DEFINITION. The tensor array: MATMUL and GLOSS (03_scribe.md R72 to R79, R743; 04_strokes.md R137 to R142). -/

namespace Sys2Proof.Machine

/-- Does the array take a pairing of weight and activation formats (R75)? -/
def pairOk (w a : Nat) : Bool := (w == 1 && a == 1) || (decide (2 ≤ w ∧ w ≤ 7) && decide (2 ≤ a ∧ a ≤ 4))

/-- Do operand folios pair: one activation format, one weight format, sub-byte weights with N along the rows (R74, R75, R137)? -/
def foliosPair (acts weights : List FolioAt) : Bool :=
  match acts.head?, weights.head? with
  | some a, some w =>
    pairOk w.folio.fmt a.folio.fmt && acts.all (fun x => x.folio.fmt == a.folio.fmt) &&
    weights.all (fun x => x.folio.fmt == w.folio.fmt && !(decide (5 ≤ w.folio.fmt) && x.folio.colMaj))
  | _, _ => false

/-- One operand's row in one K-block: its decoded elements (none outside the valid region), its factor in f, its SCALE2
(R47, R76, R743). -/
structure KBlock where
  elems : List (Option Fp)
  scale : Fp
  s2 : Fp
  deriving DecidableEq, Repr

/-- K-block b of row `row` of a folio, for a half of its 64 columns. -/
def Folio.kblock (f : Folio) (row half : Nat) : KBlock :=
  let e (j : Nat) : Option Fp := f.elem? row (32 * half + j)
  if f.colMaj then
    ⟨(List.range 32).map fun j => (e j).map fun x => x.mul (decodeScale (f.scaleAt row (32 * half + j))), .fin false 1 0,
      Fp.of32 f.scale2⟩
  else ⟨(List.range 32).map e, decodeScale (f.scaleAt row (32 * half)), Fp.of32 f.scale2⟩

/-- The K-blocks of a row of consecutive folios, in ascending K. -/
def rowBlocks (fs : List FolioAt) (row : Nat) : List KBlock :=
  fs.flatMap fun f => [f.folio.kblock row 0, f.folio.kblock row 1]

/-- The product of two elements: an element outside its folio's valid region adds exactly zero (R47, R79). -/
def cellMul : Option Fp → Option Fp → Fp
  | some a, some w => a.mul w
  | _, _ => .fin false 0 0

/-- The exact block sum p (R76, R79). -/
def blockSum (a w : KBlock) : Fp :=
  let p := (List.zipWith cellMul a.elems w.elems).foldl Fp.add (.fin false 0 0)
  if p.isZero then .fin false 0 0 else p

/-- Add one K-block to an accumulator element (R76). -/
def accBlock (c : W32) (a w : KBlock) : W32 :=
  let sc := (a.s2.mul w.s2).to32
  let f := ((a.scale.mul w.scale).mul (Fp.of32 sc)).to32
  fadd c ((blockSum a w).mul (Fp.of32 f)).to32

/-- The dot product of an activation row and a weight row in the order of R76. -/
def dotScaled (a w : List KBlock) : W32 := (List.zip a w).foldl (fun c x => accBlock c x.1 x.2) 0

/-- Elements of a BF16 row, in ascending k. -/
def rowElems (fs : List FolioAt) (row : Nat) : List (Option Fp) :=
  fs.flatMap fun f => (List.range 64).map fun c => f.folio.elem? row c

/-- The dot product of BF16 rows (R77). -/
def dotBf16 (a w : List (Option Fp)) : W32 := (List.zipWith cellMul a w).foldl (fun c p => ((Fp.of32 c).add p).to32) 0

/-- Accumulator element of activation row m and weight column n, which is row n of the weight folios (R73, R76, R77). -/
def accum (acts weights : List FolioAt) (m n : Nat) : W32 :=
  if (acts.head?.map fun a => a.folio.fmt) == some 1 then dotBf16 (rowElems acts m) (rowElems weights n)
  else dotScaled (rowBlocks acts m) (rowBlocks weights n)

/-- MATMUL (R137, R138): the weight format of folio 0 gives the number of folios. -/
def matmulStroke (r : Run) (s : State) : Got Done :=
  let d := r.d
  s.withRows r Done.none fun s x =>
  (s.useRecipe r none).bind fun s rc =>
  (s.readFolio r (oSpace (kSrc1 d)) (oAddr r.k (kSrc1 d))).bind fun s w0 =>
    let nf := planeFolios w0.folio.fmt * kNp d
    if nf = 0 then .bad s 0x05 0 else
    (State.readFolios r (oSpace (kSrc1 d)) (kStride1 d) nf (oAddr r.k (kSrc1 d)) [] s).bind fun s fw =>
    (State.readFolios r (oSpace (kSrc0 d)) (kStride0 d) nf (oAddr r.k (kSrc0 d)) [] s).bind fun s fa =>
    if !(foliosPair fa fw) then .bad s 0x05 0 else
    let o := folioOuts r x rc (kN d) 1 (fun _ m c => accum fa fw m c) (s.tileRnd r x rc.stream (kImm2 d % 256))
    .ok s ⟨o.1, o.2, fa ++ fw, id⟩

/-- MATMUL. -/
def execMatmul (q : Fin 64) (k : Fin 8) (lost : Nat) (s : State) : Host.Outcome State Fault Refusal :=
  act s fun s => s.compute q.val k.val 0x01 (fun _ => true) lost matmulStroke

/-! ## GLOSS (R139 to R142) -/

/-- The glosses of the valid rows, in the order in which each first appears (R141). -/
def glossGroups (x : Rows) : List Nat :=
  distinct (((List.range x.m).filter fun m => x.isLive m && eGv (x.entry m)).map fun m => eGloss (x.entry m))

/-- The operands of one gloss group: its number, activation folios and weight folios. -/
structure GlossOp where
  g : Nat
  acts : List FolioAt
  weights : List FolioAt
  deriving DecidableEq, Repr

/-- Read one gloss's operands: K folios kp, from its directory entry (R139, R140).  A folio whose FORMAT is not the entry's FMT,
and an FMT that gives no planes, raise PAIRING (DESIGN CHOICE, log entry 134). -/
def State.readGloss (s : State) (r : Run) (g : Nat) : Got GlossOp :=
  let d := r.d
  let up := kSub d == 1
  (s.readOp r (oSpace (kSrc1 d)) (oAddr r.k (kSrc1 d) + 16 * g) 16).bind fun s b =>
    let e := leNat b
    let fmt := bits e 63 56
    let kp := if up then (bits e 55 48 + 64) / 64 else planeFolios fmt * kNp d
    let base := if up then bits e 111 64 else bits e 47 0
    let step := bits e 127 112
    let j := bits (kImm2 d) 15 0
    (State.readFolios r 2 step kp (base + 64 * step * (j * kp)) [] s).bind fun s fw =>
    (State.readFolios r (oSpace (kSrc0 d)) (kStride0 d) kp (oAddr r.k (kSrc0 d)) [] s).bind fun s fa =>
      if kp = 0 || !(foliosPair fa fw) || (fw.any fun f => f.folio.fmt != fmt) then .bad s 0x05 0 else .ok s ⟨g, fa, fw⟩

/-- Read every group's operands. -/
def State.readGlosses (r : Run) : List Nat → List GlossOp → State → Got (List GlossOp)
  | [], acc, s => .ok s acc.reverse
  | g :: rest, acc, s => (s.readGloss r g).bind fun s o => State.readGlosses r rest (o :: acc) s

/-- GLOSS: a row without a gloss meets no weights (R141, R142).  A base folio that is not FP32 raises PAIRING (DESIGN CHOICE, log
entry 162). -/
def glossStroke (r : Run) (s : State) : Got Done :=
  let d := r.d
  let up := kSub d == 1
  s.withRows r Done.none fun s x =>
  (s.useRecipe r none).bind fun s rc =>
  (State.readGlosses r (glossGroups x) [] s).bind fun s ops =>
  (if up then (s.readFolio r (oSpace (kSrc2 d)) (oAddr r.k (kSrc2 d))).bind fun s f => .ok s [f] else .ok s []).bind fun s fb =>
    if fb.any fun f => f.folio.fmt != 0 then .bad s 0x05 0 else
    let own (m : Nat) : Option GlossOp := if eGv (x.entry m) then ops.find? fun o => o.g == eGloss (x.entry m) else none
    let c (m n : Nat) : W32 := match own m with | none => 0 | some o => accum o.acts o.weights m n
    let v (_ m n : Nat) : W32 :=
      if !up then c m n
      else if (own m).isNone then tileVal fb 0 m n else fadd (tileVal fb 0 m n) (c m n)
    let j := bits (kImm2 d) 15 0
    let o := folioOuts r x rc (kN d) 1 v fun _ m n => s.rowRnd r x rc.stream (bits (kImm2 d) 31 16) m (64 * j + n)
    .ok s ⟨o.1, o.2, fb ++ ops.flatMap fun o => o.acts ++ o.weights, id⟩

/-- DOWN. -/
def execDown (q : Fin 64) (k : Fin 8) (lost : Nat) (s : State) : Host.Outcome State Fault Refusal :=
  act s fun s => s.compute q.val k.val 0x02 (· == 0) lost glossStroke
/-- UP. -/
def execUp (q : Fin 64) (k : Fin 8) (lost : Nat) (s : State) : Host.Outcome State Fault Refusal :=
  act s fun s => s.compute q.val k.val 0x02 (· == 1) lost glossStroke

end Sys2Proof.Machine
end

