-- ==== Sys2Proof/Machine/Attention.lean ====
section
/-! DEFINITION. Attention tiles and key-value page writes (04_strokes.md R143, R144, R148; 07_attention.md R260 to R296). -/

namespace Sys2Proof.Machine

/-! ## Page images (R263 to R267) -/

/-- The shape of a pool or a page: format, G, H, D, first layer, head group. -/
structure PageShape where
  fmt : Nat
  g : Nat
  h : Nat
  dd : Nat
  layer0 : Nat
  hg : Nat
  deriving DecidableEq, Repr

/-- The shape a page header holds (R265). -/
def headerShape (w : Nat) : PageShape :=
  ⟨bits w 11 8, bits w 17 16 + 1, bits w 20 18 + 1, 32 * (bits w 23 21 + 1), bits w 31 24, bits w 39 32⟩

/-- Bytes of a row of D channels (R267). -/
def PageShape.rowLen (p : PageShape) : Nat := if p.fmt = 5 then p.dd / 2 else p.dd

/-- Offset of the region of (l, h, kv) (R267). -/
def PageShape.region (p : PageShape) (l h kv : Nat) : Nat := 512 + ((l * p.h + h) * 2 + kv) * 16 * p.rowLen

/-- Offset of the scale byte of 32-channel block j (R266). -/
def PageShape.scaleAt (p : PageShape) (l h kv j : Nat) : Nat := 64 + ((l * p.h + h) * 2 + kv) * (p.dd / 32) + j

/-- Is a page's element format one of the three (R261)? -/
def pageFmt (f : Nat) : Bool := f == 2 || f == 3 || f == 5

/-- One page image as ATTN reads it: PIDX, scales, keys and values of a layer and head. -/
structure Page where
  pidx : Nat
  shape : PageShape
  scales : List Byte
  keys : List Byte
  vals : List Byte
  deriving DecidableEq, Repr

/-- Element c of row t of a region's bytes. -/
def Page.elem (p : Page) (bs : List Byte) (t c : Nat) : Fp :=
  let n := p.shape.rowLen
  if c ≥ p.shape.dd then .fin false 0 0 else
  if p.shape.fmt = 5 then
    let b := (bs.getD (t * n + c / 2) 0).toNat
    decodeElem 5 (if c % 2 = 0 then b % 16 else b / 16)
  else decodeElem p.shape.fmt (bs.getD (t * n + c) 0).toNat

/-- Block scale of 32-channel block j. -/
def Page.scale (p : Page) (l h kv j : Nat) : Fp :=
  decodeScale (p.scales.getD (p.shape.scaleAt l h kv j - 64) 0).toNat

/-- Address of page image n of an ATTN (R125, R143). -/
def pageAddr (r : Run) (n : Nat) : Nat := oAddr r.k (kSrc1 r.d) + 64 * kStride1 r.d * n

/-- Read the headers of n page images from the first on. -/
def State.readHeads (r : Run) : List Nat → List Nat → State → Got (List Nat)
  | [], acc, s => .ok s acc.reverse
  | n :: rest, acc, s => (s.readOp r (oSpace (kSrc1 r.d)) (pageAddr r n) 64).bind fun s b => State.readHeads r rest (leNat b :: acc) s

/-- Issue every load of the headers of n page images (R129, R286). -/
def State.askHeads (s : State) (r : Run) (n : Nat) : State :=
  if oSpace (kSrc1 r.d) != 3 then s else
  (List.range n).foldl (fun s i =>
    match s.readOp r 3 (pageAddr r i) 64 with
    | .ok s _ => s
    | .wait s => s
    | .bad s _ _ => s) s

/-- Does a page header break R286 beside the first one's? -/
def headBad (first w : Nat) : Bool := w % 256 != 1 || !(pageFmt (headerShape w).fmt) || headerShape w != headerShape first

/-- Read the parts of the layer and head of page images with these headers. -/
def State.readBodies (r : Run) (l h : Nat) (vals : Bool) : List (Nat × Nat) → List Page → State → Got (List Page)
  | [], acc, s => .ok s acc.reverse
  | (n, w) :: rest, acc, s =>
    let sp := oSpace (kSrc1 r.d)
    let a := pageAddr r n
    let p := headerShape w
    (s.readOp r sp (a + 64) 448).bind fun s sc =>
    (s.readOp r sp (a + p.region l h 0) (16 * p.rowLen)).bind fun s ks =>
    (if vals then s.readOp r sp (a + p.region l h 1) (16 * p.rowLen) else .ok s []).bind fun s vs =>
      State.readBodies r l h vals rest (⟨bits w 63 48, p, sc, ks, vs⟩ :: acc) s

/-- Read the page images of a tile: every header when the stroke starts, then the parts of the layer and head (R286). -/
def State.readPages (s : State) (r : Run) (l h : Nat) (vals : Bool) (n : Nat) : Got (List Page) :=
  (State.readHeads r (List.range n) [] (s.askHeads r n)).bind fun s ws =>
    let hs := (List.range n).zip ws
    let p := headerShape (ws.headD 0)
    match hs.find? fun x => headBad (ws.headD 0) x.2 with
    | some x => .bad s 0x06 (pageAddr r x.1)
    | none =>
      if p.g ≤ l || p.h ≤ h || kNp r.d != (p.dd + 63) / 64 then .bad s 0x03 0 else
      State.readBodies r l h vals hs [] s

/-! ## One attention tile (R144, R287, R296) -/

/-- A tile: layer and head within the group, T keys, the query folios and the pages. -/
structure Tile where
  l : Nat
  h : Nat
  t : Nat
  query : List FolioAt
  pages : List Page
  deriving DecidableEq, Repr

/-- The page of key t. -/
def Tile.page (x : Tile) (t : Nat) : Page := x.pages.getD (t / 16) ⟨0, ⟨0, 0, 0, 0, 0, 0⟩, [], [], []⟩

/-- Is key t there and not masked for a row at position pos (R144, R286)? -/
def Tile.open_ (x : Tile) (pos t : Nat) : Bool := decide (t < x.t) && decide (16 * (x.page t).pidx + t % 16 ≤ pos)

/-- K-block b of key t as a weight column (R144): its page's block scale, second-level scale 1.0. -/
def Tile.keyBlock (x : Tile) (t b : Nat) : KBlock :=
  let p := x.page t
  ⟨(List.range 32).map fun j => some (p.elem p.keys (t % 16) (32 * b + j)), p.scale x.l x.h 0 b, .fin false 1 0⟩

/-- qk of row m and key t: the query channels below D meet the key's, in K-blocks of 32 channels (R76, R286). -/
def Tile.qk (x : Tile) (m t : Nat) : W32 :=
  let nb := (x.page t).shape.dd / 32
  dotScaled ((rowBlocks x.query m).take nb) ((List.range nb).map fun b => x.keyBlock t b)

/-- z of row m: qk times sc, or −∞ for a masked or absent key. -/
def Tile.z (x : Tile) (sc : W32) (pos m : Nat) : List W32 :=
  (List.range 64).map fun t => if x.open_ pos t then fmul (x.qk m t) sc else 0xFF800000

/-- Round to BF16, to nearest even, as an exact value. -/
def bf16 (w : W32) : Fp := decodeElem 1 (convert 1 false 0 w).code

/-- pv of channel n: 16-token blocks in ascending order (R144). -/
def Tile.pv (x : Tile) (pos : Nat) (p : List W32) (n : Nat) : W32 :=
  (List.range ((x.t + 15) / 16)).foldl (fun acc b =>
    let pg := x.page (16 * b)
    let q := (List.range 16).foldl (fun (a : Fp) j =>
      let t := 16 * b + j
      if x.open_ pos t then a.add ((bf16 (p.getD t 0)).mul (pg.elem pg.vals j n)) else a) (.fin false 0 0)
    fadd acc (q.mul (pg.scale x.l x.h 1 (n / 32))).to32) 0

/-- The state of one row: running maximum, running sum, outputs. -/
structure RowState where
  mx : W32
  l : W32
  o : List W32
  deriving DecidableEq, Repr

/-- One FWD step of a row (R144). -/
def Tile.fwdRow (x : Tile) (sc : W32) (pos m : Nat) (old : RowState) : RowState :=
  let z := x.z sc pos m
  let mnew := fmax old.mx (laneTree fmax z)
  if mnew = 0xFF800000 then old else
  let alpha := fexp2 (fsub old.mx mnew)
  let p := z.map fun v => fexp2 (fsub v mnew)
  ⟨mnew, fadd (fmul old.l alpha) (laneTree fadd p),
    ((List.range old.o.length).zip old.o).map fun y => fadd (fmul y.2 alpha) (x.pv pos p y.1)⟩

/-- The tile of an ATTN stroke: pages, then query folios (R143, R286). -/
def State.readTile (s : State) (r : Run) (vals : Bool) : Got Tile :=
  let d := r.d
  let l := bits (kImm2 d) 1 0
  let h := bits (kImm2 d) 4 2
  (s.readPages r l h vals ((kN d + 15) / 16)).bind fun s pages =>
  (State.readFolios r (oSpace (kSrc0 d)) (kStride0 d) (kNp d) (oAddr r.k (kSrc0 d)) [] s).bind fun s qs =>
    if qs.any fun f => f.folio.fmt != 2 && f.folio.fmt != 3 then .bad s 0x05 0
    else if qs.any fun f => f.folio.fmt != ((qs.head?.map fun g => g.folio.fmt).getD 0) then .bad s 0x05 0
    else .ok s ⟨l, h, kN d, qs, pages⟩

/-- A folio of the output state: FP32, with the counts and the slot of 02 R64; FWD converts under no recipe, so it is neither a blot
nor counted for the slot (DEDUCED, log entry 25). -/
def stateFolio (slot rows cols : Nat) (v : Nat → Nat → W32) : List Byte :=
  (makeFolio ⟨slot, 0, false, false, 0, 0, 65535, 65535, 0x3F800000⟩ false rows cols false (fun m c => some (v m c)) fun _ _ => 0).bytes

/-- FWD: the state block at SRC2 advances into DST (R143, R144).  Rows at or beyond M get 0 in the mx and l columns (DESIGN CHOICE,
log entry 135), and an old output folio that is not FP32 raises PAIRING (DESIGN CHOICE, log entry 162). -/
def fwdStroke (r : Run) (s : State) : Got Done :=
  let d := r.d
  let nd := kNp d
  let sp := oSpace (kSrc2 d)
  let a := oAddr r.k (kSrc2 d)
  s.withRows r Done.none fun s x =>
  (s.readTile r true).bind fun s t =>
  (s.readColumn r sp a).bind fun s mx =>
  (s.readColumn r sp (a + 256)).bind fun s ls =>
  (State.readFolios r sp 259 nd (a + 512) [] s).bind fun s os =>
    if os.any fun f => f.folio.fmt != 0 then .bad s 0x05 0 else
    let row (m : Nat) : RowState :=
      let old : RowState := ⟨mx.getD m 0, ls.getD m 0, (List.range (64 * nd)).map fun n => tileVal os (n / 64) m (n % 64)⟩
      if x.isLive m then t.fwdRow (kImmf d) (ePos (x.entry m)) m old else ⟨0, 0, List.replicate (64 * nd) 0⟩
    let rows := (List.range 64).map row
    let get (m : Nat) : RowState := rows.getD m ⟨0, 0, []⟩
    let col (f : RowState → W32) : List Byte := pack 0 ((List.range 64).map fun m => (f (get m)).toNat)
    let keepCol := (List.range 256).map fun b => !(decide (b / 4 < x.m) && !(x.isLive (b / 4)))
    let da := oAddr r.k (kDst d)
    let ds := oSpace (kDst d)
    let dd := (t.page 0).shape.dd
    .ok s ⟨[⟨ds, da, col RowState.mx, keepCol⟩, ⟨ds, da + 256, col RowState.l, keepCol⟩] ++
      (List.range nd).map (fun n =>
        let cols := min 64 (dd - 64 * n)
        ⟨ds, da + 512 + 64 * 259 * n, stateFolio (kRecipe d) x.m cols fun m c => (get m).o.getD (64 * n + c) 0,
          folioKeep 0 x.m false x.isLive⟩), [], t.query, id⟩

/-- FWD. -/
def execFwd (q : Fin 64) (k : Fin 8) (lost : Nat) (s : State) : Host.Outcome State Fault Refusal :=
  act s fun s => s.compute q.val k.val 0x03 (· == 0) lost fwdStroke

/-- PROB: the probabilities of a tile from the saved maximum and sum (R296). -/
def probStroke (r : Run) (s : State) : Got Done :=
  let d := r.d
  let sp := oSpace (kSrc2 d)
  let a := oAddr r.k (kSrc2 d)
  s.withRows r Done.none fun s x =>
  (s.useRecipe r none).bind fun s rc =>
  (s.readTile r false).bind fun s t =>
  (s.readColumn r sp a).bind fun s mx =>
  (s.readColumn r sp (a + 256)).bind fun s ls =>
    let v (_ m c : Nat) : W32 :=
      let pos := ePos (x.entry m)
      if t.open_ pos c then fmul (fexp2 (fsub (fmul (t.qk m c) (kImmf d)) (mx.getD m 0))) (frcp (ls.getD m 0)) else 0
    let layer := (t.page 0).shape.layer0 + t.l
    let o := folioOuts r x rc t.t 1 v (s.tileRnd r x rc.stream layer)
    .ok s ⟨o.1, o.2, t.query, id⟩

/-- PROB. -/
def execProb (q : Fin 64) (k : Fin 8) (lost : Nat) (s : State) : Host.Outcome State Fault Refusal :=
  act s fun s => s.compute q.val k.val 0x03 (· == 1) lost probStroke

/-! ## KVPUT (R148, R262, R269 to R276) -/

/-- The pool of a layer and head group: its entry and the layer's index in its group, or the fault ACCESS (R262, R271). -/
def State.poolOf (s : State) (r : Run) (layer hg : Nat) : Got (Nat × Nat) :=
  let scb := s.scb r.i
  (s.readOp r 2 (scb + 0x2800 + layer) 1).bind fun s bs =>
    let p := leNat bs / 4 + hg
    let lg := leNat bs % 4
    if 63 < p then .bad s 0x0B 0 else
    (s.readOp r 2 (scb + 0x2000 + 32 * p) 32).bind fun s es =>
      let e := leNat es
      if bit e 255 && bits e 127 120 == hg && decide (lg ≤ bits e 101 100) && bits e 119 112 + lg == layer then .ok s (e, lg)
      else .bad s 0x0B 0

/-- The shape a pool entry gives (R261). -/
def poolShape (e : Nat) : PageShape :=
  ⟨bits e 99 96, bits e 101 100 + 1, bits e 104 102 + 1, 32 * (bits e 107 105 + 1), bits e 119 112, bits e 127 120⟩

/-- Have two shapes one format, layer count, head count and head dimension (R271)? -/
def PageShape.same (p q : PageShape) : Bool := p.fmt == q.fmt && p.g == q.g && p.h == q.h && p.dd == q.dd

/-- One row a KVPUT writes: row number, slip, position, page address, scale bytes read. -/
structure PutRow where
  m : Nat
  slip : Nat
  pos : Nat
  page : Nat
  scales : List Byte
  deriving DecidableEq, Repr

/-- The scale code of a block whose first position is written (R272). -/
def pageScale (fmt h : Nat) (fine : Bool) (sfloor : Nat) (vs : List W32) : Nat :=
  let amax := amaxOf vs
  if (Fp.of32 amax).isZero then sfloor else max sfloor (smallestCode fine (fdiv amax (fmaxOver fmt h)))

/-- Check a valid row and read what it needs (R270, R271). -/
def State.putRow (s : State) (r : Run) (pool : Nat) (x : Rows) (m : Nat) : Got PutRow :=
  let e := x.entry m
  let pos := ePos e
  (s.readOnce r 5 (eSlip e) 128 fun s => Got.ofRead (s.readPhys (physSlip (eSlip e)) 128 (128 * eSlip e) 0 16)).bind fun s sb =>
  let slip := leNat sb
  let c := bits slip 39 16
  let i := pos / 16
  if bits slip 112 96 ≤ i then .bad s 0x0B 0 else
  (s.readOp r 2 (bits slip 175 128 + 4 * i) 4).bind fun s pl =>
    let pg := leNat pl
    if bits pool 95 64 ≤ pg then .bad s 0x0B (bits slip 175 128 + 4 * i) else
    let a := bits pool 47 0 + 64 * bits pool 59 48 * pg
    (s.readOp r 2 a 512).bind fun s h =>
      let w := leNat (h.take 64)
      if bits w 63 48 != i || w % 256 != 1 || !((headerShape w).same (poolShape pool)) then .bad s 0x06 a
      else if pos < 16 * (c / 16) then .bad s 0x09 a
      else if c + bits slip 63 48 ≤ pos then .bad s 0x03 0
      else .ok s ⟨m, eSlip e, pos, a, h.drop 64⟩

/-- Check every valid row. -/
def State.putRows (r : Run) (pool : Nat) (x : Rows) : List Nat → List PutRow → State → Got (List PutRow)
  | [], acc, s => .ok s acc.reverse
  | m :: rest, acc, s => (s.putRow r pool x m).bind fun s p => State.putRows r pool x rest (p :: acc) s

/-- The page offset and the codes of one row's chunk (R267, R273, R274). -/
structure PutOut where
  outs : List Out
  convs : List Conv
  deriving DecidableEq, Repr

/-- Two valid rows name one slip and position (R271)? -/
def putTwice (rows : List PutRow) : Bool :=
  rows.any fun p => (rows.filter fun y => y.slip == p.slip && y.pos == p.pos).length != 1

/-- KVPUT: every valid row, or a fault and nothing (R270, R271): what R270 names is read before the folio.  A source that is not FP32
raises PAIRING (DESIGN CHOICE, log entry 136). -/
def kvputStroke (kv : Nat) (r : Run) (s : State) : Got Done :=
  let d := r.d
  let im := kImm2 d
  let h := bits im 18 16
  let k := bits im 21 20
  s.withRows r Done.none fun s x =>
  (s.poolOf r (bits im 7 0) (bits im 15 8)).bind fun s pl =>
    let pool := pl.1
    let lg := pl.2
    let sh := poolShape pool
    if sh.h ≤ h || sh.dd ≤ 64 * k || kN d != min 64 (sh.dd - 64 * k) then .bad s 0x03 0 else
    (s.recipeWord r).bind fun s rw =>
    let rc := mkRecipe d rw
    (State.putRows r pool x ((List.range x.m).filter x.isValid) [] s).bind fun s rows =>
    (s.readFolio r (oSpace (kSrc0 d)) (oAddr r.k (kSrc0 d))).bind fun s f =>
    if f.folio.fmt != 0 then .bad s 0x05 0 else
    let nb := (kN d + 31) / 32
    let si (j : Nat) : Nat := sh.scaleAt lg h kv (2 * k + j) - 64
    let first (p : PutRow) : Option PutRow := rows.find? fun y => y.slip == p.slip && y.pos == p.pos / 16 * 16
    let orphan (p : PutRow) : Bool :=
      p.pos % 16 != 0 && (first p).isNone && (List.range nb).any fun j => p.scales.getD (si j) 0 == 0
    if putTwice rows || rows.any orphan then .bad s 0x03 0 else
    let blockVals (p : PutRow) (j : Nat) : List W32 := (List.range (min 32 (kN d - 32 * j))).map fun c => f.folio.value p.m (32 * j + c)
    let code (p : PutRow) (j : Nat) : Nat :=
      match first p with
      | some y => pageScale sh.fmt rc.headroom rc.fine (bits pool 135 128) (blockVals y j)
      | none => (p.scales.getD (si j) 0).toNat
    let conv (p : PutRow) (c : Nat) : Conv :=
      let y := fdiv (f.folio.value p.m c) (decodeScale (code p (c / 32))).to32
      convert sh.fmt true (s.rowRnd r x kv (bits im 7 0) p.m (h * sh.dd + 64 * k + c)) y
    let put (p : PutRow) : PutOut :=
      let cs := (List.range (kN d)).map (conv p)
      let bs := pack sh.fmt (cs.map Conv.code)
      let at_ := p.page + sh.region lg h kv + p.pos % 16 * sh.rowLen + (if sh.fmt = 5 then 32 * k else 64 * k)
      let sc := if p.pos % 16 = 0 then
          [Out.whole 2 (p.page + 64 + si 0) ((List.range nb).map fun j => BitVec.ofNat 8 (code p j))] else []
      ⟨sc ++ [Out.whole 2 at_ bs], cs⟩
    let live := rows.filter fun p => x.isLive p.m
    let ps := live.map put
    let cs := ps.flatMap PutOut.convs
    let sum (g : Conv → Nat) : Nat := (cs.map g).foldl (· + ·) 0
    let blot : Bool := decide (rc.satThr < sum Conv.nsat + sum Conv.novf) || decide (rc.uflThr < sum Conv.nufl)
    .ok s ⟨ps.flatMap PutOut.outs, if live.isEmpty then [] else [blot], [f], id⟩

/-- KVPUT_KEY. -/
def execKvputKey (q : Fin 64) (k : Fin 8) (lost : Nat) (s : State) : Host.Outcome State Fault Refusal :=
  act s fun s => s.compute q.val k.val 0x07 (· == 0) lost (kvputStroke 0)
/-- KVPUT_VALUE. -/
def execKvputValue (q : Fin 64) (k : Fin 8) (lost : Nat) (s : State) : Host.Outcome State Fault Refusal :=
  act s fun s => s.compute q.val k.val 0x07 (· == 1) lost (kvputStroke 1)

end Sys2Proof.Machine
end

