-- ==== Sys2Proof/Machine/Lane.lean ====
section
/-! DEFINITION. The coding of a Camsound lane: how flit bytes are shared over the lanes of a port (12_fabric_links.md R485), the
blocks of a lane with their check bytes and symbols, and what a receiver makes of a block (18_module_interfaces.md R708, R709).
The commands carry flits as they are decoded (DESIGN CHOICE, log entry 128). -/

namespace Sys2Proof.Machine

/-- The bytes that lane `a`, of the active lanes in ascending order, carries of a run of flit bytes (12 R485). -/
def laneShare (active : List Nat) (flit : List Byte) (a : Nat) : List Byte :=
  (flit.zipIdx.filter fun e => active.getD (e.2 % active.length) 8 == a).map Prod.fst

/-- Multiply a polynomial, highest coefficient first, by x + c. -/
def mulRoot (p : List Nat) (c : Nat) : List Nat :=
  List.zipWith (· ^^^ ·) (p ++ [0]) (0 :: p.map (gfMul c))

/-- The coefficients of g(x) = (x + 1)(x + α) … (x + α^7) below the leading one (18 R708). -/
def laneGen : List Nat := ((List.range 8).foldl (fun p i => mulRoot p (gfPow i)) [1]).drop 1

/-- The eight check bytes of the 128 data bytes of a codeword of RS(136,128). -/
def laneCheck (d : List Byte) : List Byte := (rsRem laneGen (d.map BitVec.toNat)).map (BitVec.ofNat 8)

/-- Codeword c, 0 or 1, takes every second block byte. -/
def laneData (blk : List Byte) (c : Nat) : List Byte := (List.range 128).map fun k => blk.getD (2 * k + c) 0

/-- Two lists, taken in turn. -/
def taken2 (x y : List Byte) : List Byte := (List.zipWith (fun a b => [a, b]) x y).flatten

/-- The 272 bytes a lane sends for a block of 256: the block, then the check bytes of the two codewords in turn. -/
def laneBlock (blk : List Byte) : List Byte := blk ++ taken2 (laneCheck (laneData blk 0)) (laneCheck (laneData blk 1))

/-- A codeword of a received block. -/
def laneCodeword (rx : List Byte) (c : Nat) : List Byte := (List.range 136).map fun k => rx.getD (2 * k + c) 0

/-- The Gray mapping of two bits to a PAM4 level. -/
def pam4 (n : Nat) : Int := if n = 0 then -3 else if n = 1 then -1 else if n = 3 then 1 else 3

/-- The four symbols of a byte, bits [1:0] first. -/
def laneSymbols (b : Byte) : List Int := (List.range 4).map fun i => pam4 (b.toNat / 4 ^ i % 4)

/-! ## Decoding: up to four byte errors in a codeword -/

/-- The value of a polynomial, highest coefficient first. -/
def polyAt (p : List Nat) (x : Nat) : Nat := p.foldl (fun a c => gfMul a x ^^^ c) 0

/-- The inverse of a field element: its 254th power. -/
def gfInv (x : Nat) : Nat := (List.range 7).foldl (fun (a : Nat × Nat) _ => let s := gfMul a.2 a.2; (gfMul a.1 s, s)) (1, x) |>.1

/-- The syndromes of a codeword: its values at the roots of g. -/
def syndromes (c : List Byte) : List Nat := (List.range 8).map fun i => polyAt (c.map BitVec.toNat) (gfPow i)

/-- Clear the first column of a row by a row that starts with 1. -/
def clearLead (pivot row : List Nat) : List Nat := (List.zipWith (fun p r => r ^^^ gfMul (row.headD 0) p) pivot row).drop 1

/-- Solve a linear system of n rows of n + 1 entries, the last of each its right side; none where it is singular. -/
def solve : Nat → List (List Nat) → Option (List Nat)
  | 0, _ => some []
  | n + 1, rows =>
    match rows.find? fun r => r.headD 0 != 0 with
    | none => none
    | some r =>
      let pivot := r.map (gfMul (gfInv (r.headD 0)))
      (solve n (((rows.erase r).map (clearLead pivot)))).map fun xs =>
        (List.zipWith gfMul (pivot.drop 1) xs).foldl (· ^^^ ·) (pivot.getLastD 0) :: xs

/-- The locator of v errors from the syndromes: coefficients of x^1 to x^v. -/
def locator (s : List Nat) (v : Nat) : Option (List Nat) :=
  (solve v ((List.range v).map fun i => (List.range (v + 1)).map fun j => s.getD (i + j) 0)).map List.reverse

/-- The byte places, as powers of x, at which a locator names an error. -/
def errorPlaces (l : List Nat) : List Nat :=
  (List.range 136).filter fun e => polyAt (l.reverse ++ [1]) (gfInv (gfPow e)) == 0

/-- The codeword with v errors put right, if there are v. -/
def correctBytes (c : List Byte) (v : Nat) : Option (List Byte) :=
  let s := syndromes c
  match locator s v with
  | none => none
  | some l =>
    let at_ := errorPlaces l
    if at_.length != v then none else
    match solve v ((List.range v).map fun i => at_.map (fun e => gfPow (i * e % 255)) ++ [s.getD i 0]) with
    | none => none
    | some y =>
      let c' := (at_.zip y).foldl (fun c e => c.set (135 - e.1) (c.getD (135 - e.1) 0 ^^^ BitVec.ofNat 8 e.2)) c
      if (syndromes c').all (· == 0) then some c' else none

/-- Decode a codeword of RS(136,128): the codeword within four byte errors, if there is one. -/
def laneDecode (c : List Byte) : Option (List Byte) :=
  if (syndromes c).all (· == 0) then some c else [1, 2, 3, 4].findSome? (correctBytes c)

/-- What a receiver makes of a received block: the block, and the byte errors corrected; none when either codeword does not decode,
and every flit byte of the block is bad (18 R709). -/
def laneReceive (rx : List Byte) : Option (List Byte × Nat) :=
  match laneDecode (laneCodeword rx 0), laneDecode (laneCodeword rx 1) with
  | some a, some b =>
    let sent := taken2 a b
    some (sent.take 256, ((sent.zip rx).filter fun e => e.1 != e.2).length)
  | _, _ => none

/-- Is a lane over the limit of the lane failure rule with what an epoch counted (12 R509, 18 R709)? -/
def laneOver (corrected undecoded : Nat) : Bool := decide (65536 < corrected) || decide (4 < undecoded)

/-- Does a receiver have block lock: the last 8 blocks decoded with no error in either codeword (18 R708)? -/
def blockLock (blocks : List (List Byte)) : Bool :=
  decide (8 ≤ blocks.length) && (blocks.drop (blocks.length - 8)).all fun b =>
    (syndromes (laneCodeword b 0)).all (· == 0) && (syndromes (laneCodeword b 1)).all (· == 0)

end Sys2Proof.Machine
end

