-- ==== Sys2Proof/Machine/Time.lean ====
section
/-! DEFINITION. Rack time and the time messages (12_fabric_links.md R520 to R522, 15_clocks_time.md R622 to R632). -/

namespace Sys2Proof.Machine

/-- ADJ is held within 1 ns per µs (R622). -/
def clampAdj (x : Int) : Int := max (-4294967) (min 4294967 x)

/-- A 64-bit difference read as two's complement (R521). -/
def signed64 (x : Int) : Int :=
  let m : Int := x % 18446744073709551616
  if m ≥ 9223372036854775808 then m - 18446744073709551616 else m

/-- The low 32 bits of an integer. -/
def low32 (x : Int) : Nat := (x % 4294967296).toNat

/-- A 32-bit two's complement word, saturating. -/
def satWord (x : Int) : Nat := low32 (max (-2147483648) (min 2147483647 x))

/-- One tick of the timebase (R622): what a step does on an empty queue (DESIGN CHOICE, log entry 2). -/
def State.tick (s : State) : State :=
  if !s.powered then s else
  let t := s.time
  let rack := ((t.rack : Int) + 4294967296 + t.adj).toNat
  let t := { t with rack := rack }
  if t.ticksLeft = 1 then { s with time := { t with ticksLeft := 0, phase := 0, adj := clampAdj t.rate } }
  else { s with time := { t with ticksLeft := t.ticksLeft - 1 } }

/-- The role of R624: 0 follower, 1 rack master, 2 root. -/
def State.role (s : State) : Nat := s.rd Reg.TIM_STAT 27 26

/-- The port a SYNC leaves by: P0, or the lowest UP plane port (R521). -/
def State.syncPort (s : State) : Option Nat := ((List.range 8).map s.planePort).find? fun p => s.portUp p

/-- The granule of a SYNC (R520). -/
def State.syncGran (s : State) : List Byte :=
  leBytes 8 s.now ++ leBytes 8 0 ++ leBytes 8 0 ++ leBytes 2 (s.time.rack / 65536 % 65536) ++ leBytes 38 0

/-- Three SYNC without REPLY: HOLD, the other master, an event (R629). -/
def State.masterLost (s : State) : State :=
  let cur := s.rd Reg.TIM_STAT 15 0
  let other := if cur = s.rd Reg.MCFG 15 0 then s.rd Reg.MCFG 31 16 else s.rd Reg.MCFG 15 0
  let both := s.rdb Reg.TIM_STAT 30
  let s := ((s.wrb Reg.TIM_STAT 30 true).wrb Reg.TIM_STAT 31 false).wr Reg.TIM_STAT 15 0 other
  let s := (s.bumpSat Reg.MSWITCH).post 0x0A02 [other]
  { s with time := { s.time with misses := 0, good := 0, phase := 0, ticksLeft := 0, adj := clampAdj s.time.rate,
                                 lostBoth := both } }

/-- LOCK is set; start-up goes from TIME to BASELINE (16_startup_config.md R646), and a module in service may report ready again
(R627). -/
def State.setLock (s : State) : State :=
  let was := s.rdb Reg.TIM_STAT 31
  let svc := s.rd Reg.TOPO_STAT 2 0
  let s := s.wrb Reg.TIM_STAT 31 true
  let s := if s.rd Reg.START_STAT 3 0 = 5 then s.wr Reg.START_STAT 3 0 6 else s
  if !was && (svc == 1 || svc == 2) then s.portsChanged else s

/-- SYNC_INTERVAL (R521, R629).  The root exchanges with no one: it is aligned by definition (DEDUCED, log entry 17). -/
def execSyncInterval (s : State) : Host.Outcome State Fault Refusal :=
  act s fun s =>
    if s.role = 2 then s.setLock else
    let s := if s.time.waiting then { s with time := { s.time with misses := s.time.misses + 1 } } else s
    let s := if 3 ≤ s.time.misses then s.masterLost else
      if s.time.lostBoth && s.time.waiting then
        let cur := s.rd Reg.TIM_STAT 15 0
        s.wr Reg.TIM_STAT 15 0 (if cur = s.rd Reg.MCFG 15 0 then s.rd Reg.MCFG 31 16 else s.rd Reg.MCFG 15 0)
      else s
    let s := { s with time := { s.time with waiting := true } }
    match s.syncPort with
    | none => s
    | some p =>
      let m := s.rd Reg.TIM_STAT 15 0
      s.send p { mkPacket 0x40 s.pos m with gran := [s.syncGran], pver := BitVec.ofNat 4 (s.pver m) }

/-- Bytes replaced from an offset in a granule. -/
def patch (g : List Byte) (off : Nat) (bs : List Byte) : List Byte := g.take off ++ bs ++ g.drop (off + bs.length)

/-- SYNC at a master: REPLY copies T1 and C1 and adds T2 and T3 (R520, R521); both are stamped at this command. -/
def State.rxSync (s : State) (p src : Nat) (gr : List Byte) : State :=
  let frac := leBytes 2 (s.time.rack / 65536 % 65536)
  let g := patch (patch (patch (patch gr 8 (leBytes 8 s.now)) 16 (leBytes 8 s.now)) 26 frac) 28 frac
  let g := patch (patch g 40 (leBytes 8 0)) 48 (leBytes 2 s.pos ++ leBytes 1 (s.rd Reg.TIM_STAT 23 16) ++ leBytes 13 0)
  s.send p { mkPacket 0x40 s.pos src with atop := 1, gran := [g], pver := BitVec.ofNat 4 (s.pver src) }

/-- SYNC. -/
def execSync (p : Fin 10) (src : BitVec 16) (gr : List Byte) (s : State) : Host.Outcome State Fault Refusal :=
  actIf (gr.length == 64) s fun s => s.rxSync p src.toNat gr

/-- A stamp in a granule, in units of 1/65,536 ns. -/
def stampAt (gr : List Byte) (ns fr : Nat) : Int := leNat ((gr.drop ns).take 8) * 65536 + leNat ((gr.drop fr).take 2)

/-- The delay and the offset of an exchange (R521). -/
def exchange (gr : List Byte) (t4 : Int) : Int × Int :=
  let t1 := stampAt gr 0 24
  let t2 := stampAt gr 8 26
  let t3 := stampAt gr 16 28
  let c1 : Int := leNat ((gr.drop 32).take 8)
  let c2 : Int := leNat ((gr.drop 40).take 8)
  let d := (signed64 (signed64 (t4 - t1) - signed64 (t3 - t2) - c1 - c2)).tdiv 2
  (d, signed64 (signed64 (t2 - t1) - c1 - d))

/-- ADJ after an accepted REPLY, in signed 64-bit variables (R625). -/
def TimeRt.adjust (t : TimeRt) (o : Int) : TimeRt :=
  let e := signed64 (o * 65536)
  let rate := signed64 (t.rate + e.tdiv 8000000)
  let phase := e.tdiv 250000
  { t with rate := rate, phase := phase, adj := clampAdj (rate + phase), ticksLeft := 250000 }

/-- The step before the first report of ready (R522, R625). -/
def TimeRt.stepBy (t : TimeRt) (o : Int) : TimeRt :=
  { t with rack := ((t.rack : Int) + o * 65536).toNat, rate := 0, phase := 0, adj := 0, ticksLeft := 0, good := 0 }

/-- The 64-bit two's complement word of an integer. -/
def word64 (x : Int) : Nat := (x % 18446744073709551616).toNat

/-- Is an integer within a magnitude? -/
def within (x lim : Int) : Bool := decide (x ≤ lim) && decide (-lim ≤ x)

/-- A time fault in service (R522, R627). -/
def State.timeFault (s : State) (o d : Int) : State :=
  let s := ((s.bumpSat Reg.TFAULTS).wrb Reg.TIM_STAT 31 false).post 0x0A01 [word64 o, word64 d]
  { s with time := { s.time with good := 0 } }

/-- Rack time jumps by a number of ns: the hours of a port, and the day of its cable's event, do not (13_topology_failover.md R540, R542;
R522). -/
def PortRt.jump (r : PortRt) (d : Int) : PortRt := { r with hoursFrom := r.hoursFrom + d, wornAt := r.wornAt + d }

/-- The first accepted exchange steps rack time (R522); epoch boundaries it passes over are not acted on (R632)
(DEDUCED in part, log entry 50). -/
def State.stepTime (s : State) (o : Int) : State :=
  let t := s.time.stepBy o
  let t := { t with lastEpoch := max t.lastEpoch (t.rack / 2 ^ 32 % 2 ^ 64 / 100000) }
  let d : Int := (t.rack / 2 ^ 32 : Nat) - (s.time.rack / 2 ^ 32 : Nat)
  (({ s with time := t, ports := s.ports.map fun (e : Nat × PortRt) => (e.1, e.2.jump d) }).wrb Reg.TIM_STAT 28 true).wrw Reg.RATE 0

/-- A later exchange slews it, and four good ones in a row set LOCK (R625, R627). -/
def State.slewTime (s : State) (o d : Int) : State :=
  let t := s.time.adjust o
  let good := if within o (if s.role = 1 then 655360 else 65536) then t.good + 1 else 0
  let s := ({ s with time := { t with good := good } }).wrw Reg.RATE (BitVec.ofNat 32 (low32 t.rate))
  if s.time.readyOnce && !(within o 6553600) then s.timeFault o d
  else if 4 ≤ good then s.setLock else s

/-- The registers and counts an accepted exchange sets; in HOLD, only a REPLY of the master in use ends it and the wait (R629, R633). -/
def State.noteReply (s : State) (gr : List Byte) (o d : Int) : State :=
  let s := (s.bump Reg.SYNCS).wrw Reg.OFFSET (BitVec.ofNat 32 (satWord o))
  let s := s.wrw Reg.DELAY (BitVec.ofNat 32 (low32 d))
  let s := s.wr Reg.TIM_STAT 23 16 ((gr.getD 50 0).toNat + 1)
  if s.rdb Reg.TIM_STAT 30 && leNat ((gr.drop 48).take 2) != s.rd Reg.TIM_STAT 15 0 then s else
  { s.wrb Reg.TIM_STAT 30 false with time := { s.time with waiting := false, misses := 0, lostBoth := false } }

/-- REPLY (R521, R522, R625, R627, R629). -/
def State.rxReply (s : State) (gr : List Byte) (t4 : Int) : State :=
  if s.role = 2 then s else
  let x := exchange gr t4
  if !(within x.1 655360000) && decide (0 < x.1) then s.bumpSat Reg.TFAULTS else
  let s := s.noteReply gr x.2 x.1
  if s.rdb Reg.TIM_STAT 28 then s.slewTime x.2 x.1 else s.stepTime x.2

/-- A flit's first byte enters a port at a stamp: rack time is not behind it, and the port's copy is within 0.5 ns of the timebase (R520,
R623) (DEDUCED, log entry 50). -/
def State.arrives (s : State) (t4 : Nat) : State × Nat :=
  let s : State := { s with time := { s.time with rack := max s.time.rack (t4 * 65536) } }
  (s, max t4 (s.time.rack / 65536 - 32768))

/-- REPLY. -/
def execReply (p : Fin 10) (gr : List Byte) (t4 : Stamp) (s : State) : Host.Outcome State Fault Refusal :=
  let _ := p
  actIf (gr.length == 64) s fun s =>
    let a := s.arrives (t4.ns.toNat * 65536 + t4.frac.toNat)
    a.1.rxReply gr a.2

/-- PHASE_END: after 250,000 ticks the phase term goes (R625). -/
def execPhaseEnd (s : State) : Host.Outcome State Fault Refusal :=
  act s fun s => { s with time := { s.time with phase := 0, ticksLeft := 0, adj := clampAdj s.time.rate } }

/-- REFLOSS (R630). -/
def execRefloss (s : State) : Host.Outcome State Fault Refusal :=
  act s fun s => (s.wrb Reg.TIM_STAT 29 true).post 0x0A03 []

/-- REFCLK_RETURN (R630). -/
def execRefclkReturn (s : State) : Host.Outcome State Fault Refusal :=
  act s fun s => s.wrb Reg.TIM_STAT 29 false

end Sys2Proof.Machine
end

