-- ==== Sys2Proof/Machine/Links.lean ====
section
/-! DEFINITION. Link units: flits, lanes, ports, LINK messages, the tray ring, identity frames and cables
(12_fabric_links.md R486 to R488, R504 to R519; 13_topology_failover.md R527 to R542; 18_module_interfaces.md R720). -/

namespace Sys2Proof.Machine

/-! ## Positions that become unreachable (11 R473, R506) -/

/-- Mark LOST every position that had a usable path before and has none now. -/
def State.lostSince (s0 s : State) : State :=
  (List.range 256).foldl (fun s n =>
    let pos := idxPos n
    if pos != s0.pos && !((s0.paths pos).isEmpty) && (s.paths pos).isEmpty then s.markLost pos else s) s

/-! ## Flits (R483 to R488) -/

/-- Forget the flits a FACK covers; an advance ends the run of replays. -/
def PortRt.ackTo (r : PortRt) (fack : Nat) : PortRt :=
  if r.unacked.any fun x => x.seq == fack then
    { r with unacked := (r.unacked.dropWhile fun x => x.seq != fack).drop 1, replays := 0, laneCheck := false }
  else r

/-- Send the unacknowledged flits again, oldest first. -/
def PortRt.again (r : PortRt) (p : Nat) : PortRt := r.unacked.foldl (fun r f => r.putFlit p (some f)) r

/-- A replay of the unacknowledged flits, which leave again; the eighth in a row starts the lane check (R487, R525). -/
def State.replay (s : State) (p : Nat) : State :=
  let r := s.port p
  if r.unacked.isEmpty then s else
  let s := s.setPort p { r.again p with replays := r.replays + 1, laneCheck := r.laneCheck || decide (8 ≤ r.replays + 1) }
  (s.bumpSat (Reg.REPLAYS p)).bump (Reg.FLITS_TX p) r.unacked.length

/-- Bytes of a packet that starts with this header (R490, R494). -/
def packetLen (h : List Byte) : Nat :=
  let size := leNat ((h.drop 6).take 2)
  let n := size % 1024 + 1
  let each := (h.getD 0 0).toNat == 0x0A && (h.getD 17 0).toNat / 16 % 2 == 1
  if bit size 14 then 40 + 68 * (if each then n + (n + 7) / 8 else n) else 40

/-- Take whole packets off a virtual lane's bytes; a zero where a header would start is fill (DEDUCED, log entry 20). -/
def cutPackets : Nat → List Byte → List (List Byte) → List (List Byte) × List Byte
  | 0, bs, acc => (acc, bs)
  | n + 1, bs, acc =>
    if bs.headD 0 = 0 then (acc, [])
    else if bs.length < 40 || bs.length < packetLen bs then (acc, bs)
    else cutPackets n (bs.drop (packetLen bs)) (acc ++ [bs.take (packetLen bs)])

/-- A flit arrives (R486, R487, R488): the state, and the packets it completed. -/
def State.flitIn (s : State) (p : Nat) (flit : List Byte) (corr unc : Nat) : State × List (List Byte) :=
  let f16 (i : Nat) : Nat := leNat ((flit.drop i).take 2)
  let ctl := (flit.getD 4 0).toNat
  let s := (s.bumpSat (Reg.LFEC_CORR p) corr).bumpSat (Reg.LFEC_UNC p) unc
  let r := s.port p
  if crc32c (flit.take 252) != leNat (flit.drop 252) then
    ((s.setPort p (PortRt.putFlit { r with nak := true } p none)).bumpSat (Reg.CRC_ERR p), [])
  else
    let r := r.ackTo (f16 2)
    let r := { r with granted := r.granted.set ((flit.getD 5 0).toNat % 8) (f16 6) }
    let s := s.setPort p r
    let s := if bit ctl 4 then s.replay p else s
    let r := s.port p
    if bit ctl 3 then (s.pumpOrNull p, [])
    else if f16 0 != (r.rxSeq + 1) % 65536 then ((s.setPort p { r with nak := true }).pumpOrNull p, [])
    else
      let v := ctl % 8
      let c := cutPackets 8 (r.stream.getD v [] ++ (flit.drop 8).take 244) []
      let s := s.setPort p { r with rxSeq := f16 0, nak := false, stream := r.stream.set v c.2,
                                    heard := r.heard.set v (r.heard.getD v 0 + 1) }
      ((s.bump (Reg.FLITS_RX p)).pumpOrNull p, c.1)

/-- REPLAY_TIMEOUT (R487). -/
def execReplayTimeout (p : Fin 10) (s : State) : Host.Outcome State Fault Refusal := act s fun s => s.replay p.val

/-- FORWARD: a ring packet for another position leaves on the other ring port (R512, R513); one with a granule that cannot be
corrected goes no further (R503; 05 R216). -/
def State.forward (s : State) (p : Nat) (pkt : Packet) : State :=
  if pkt.badGranule then s.badPayload else
  let out := if p = 8 then 9 else 8
  if p < 8 || pkt.dst.toNat == s.pos || vlOf pkt.opc.toNat == 4 || 7 ≤ pkt.hops.toNat || !(s.ringCarries out) then s
  else s.sendVl out (2 + vlOf pkt.opc.toNat) { pkt with hops := pkt.hops + 1 }

/-- FORWARD. -/
def execForward (p : Fin 10) (pkt : Packet) (s : State) : Host.Outcome State Fault Refusal :=
  act s fun s => s.forward p.val pkt

/-! ## Lanes and ports (R504, R508 to R511, R517) -/

/-- A port goes down: its queued flits and partial packets go, and positions may become unreachable (R504, R523). -/
def State.portGoesDown (s : State) (p : Nat) : State :=
  let r := s.port p
  let s1 := s.setPort p { r with unacked := [], sendq := [], replays := 0, stream := [[], [], [], [], []], borrowed := none,
                                 laneCheck := false, nak := false, rxSeq := 0, txSeq := 0, downAt := some s.now }
  State.lostSince s ((s1.setPortStat p 5 0 0).portChanged p)

/-- PORT_DOWN. -/
def execPortDown (p : Fin 10) (s : State) : Host.Outcome State Fault Refusal := act s fun s => s.portGoesDown p.val

/-- PORT_DOWN_RESEND: 20 µs after a port went down, the packets that last used it and have no answer take other paths (R504). -/
def execPortDownResend (p : Fin 10) (s : State) : Host.Outcome State Fault Refusal :=
  act s fun s =>
    match (s.port p.val).downAt with
    | none => s
    | some t =>
      (s.outOps.filter fun o => o.path == p.val && decide (o.sentAt ≤ t)).foldl (fun s o => s.resend o true) (s.waited t 20000)

/-- Lanes of a port that have not failed. -/
def State.goodLanes (s : State) (p : Nat) : Nat := 255 - s.rd (Reg.LANE_FAIL p) 7 0

/-- Send a LINK message. -/
def State.sendLink (s : State) (p atop imm : Nat) : State := s.send p (linkPacket s atop imm)

/-- Put a lane set into use: unless it is in use already, a width change, a replay of what is unacknowledged, an event (R509, R525). -/
def State.takeLanes (s : State) (p lanes : Nat) : State :=
  let r := s.port p
  let same := s.rd (Reg.PORT_STAT p) 23 16 == lanes
  let s := s.setPort p { r with borrowed := none, proposed := 0, laneCheck := false }
  if same then s else
  let s := (s.setPortStat p (s.portState p) (widthOf lanes) lanes).bumpSat (Reg.WIDTH_CHG p)
  (s.replay p).post 0x0906 [p, widthOf lanes, 0]

/-- A lane is marked failed; the module proposes the widest good set, or the port goes down (R508, R509, R511). -/
def State.laneFails (s : State) (p lane : Nat) : State :=
  let s := s.wrb (Reg.LANE_FAIL p) lane true
  let best := bestSet (s.goodLanes p)
  let r := s.port p
  let s := s.setPort p { r with borrowed := none, proposed := best, laneCheck := false }
  if s.portState p = 0 || s.portState p = 5 then s
  else if best = 0 then s.portGoesDown p
  else s.sendLink p 1 best

/-- LANE_FAIL. -/
def execLaneFail (p : Fin 10) (lane : Fin 8) (s : State) : Host.Outcome State Fault Refusal :=
  act s fun s => s.laneFails p.val lane.val

/-- FLIT_LOCK: training ends, VERSION is sent (R517, R518). -/
def State.flitLock (s : State) (p lanes : Nat) : State :=
  let best := bestSet lanes
  let r := s.port p
  let s0 := s
  let s := s.wr (Reg.LANE_FAIL p) 7 0 (255 - lanes)
  if best = 0 then s.portGoesDown p else
  let s := s.setPort p { PortRt.zero with
    mates := r.mates, hours := r.hours, hoursFrom := r.hoursFrom, noid := r.noid, wornAt := r.wornAt, wire := r.wire,
    retrained := r.retrained, reload := r.reload, unreach := r.unreach,
    downAt := r.downAt, frame := r.frame, frameKind := r.frameKind, framePlane := r.framePlane, frameFlags := r.frameFlags,
    lastMatch := r.lastMatch }
  let s := State.lostSince s0 ((s.setPortStat p 2 (widthOf best) best).wr (Reg.PORT_STAT p) 11 8 0)
  let s := if s.start.linksFrom = 0 then { s with start := { s.start with linksFrom := s.now } } else s
  (s.sendLink p 0 (s.word Reg.LINK_CAP).toNat).portChanged p

/-- FLIT_LOCK. -/
def execFlitLock (p : Fin 10) (lanes : BitVec 8) (s : State) : Host.Outcome State Fault Refusal :=
  act s fun s => s.flitLock p.val lanes.toNat

/-- VERSION: the lower of the two highest versions, if it is at least each end's lowest (R518). -/
def State.rxVersion (s : State) (p imm : Nat) : State :=
  if s.portState p = 2 || s.portState p = 3 || s.portState p = 4 then
    let v := min (bits imm 15 8) (s.rd Reg.LINK_CAP 15 8)
    let s := s.setPort p { s.port p with farVer := some imm }
    if bits imm 7 0 ≤ v && s.rd Reg.LINK_CAP 7 0 ≤ v then s.wr (Reg.PORT_STAT p) 11 8 v
    else
      let t := (s.wr (Reg.PORT_STAT p) 11 8 0).setPortStat p 4 0 (s.rd (Reg.PORT_STAT p) 23 16)
      ((State.lostSince s t).post 0x0903 [p, imm]).portChanged p
  else s

/-- VERSION. -/
def execVersion (p : Fin 10) (imm : W64) (s : State) : Host.Outcome State Fault Refusal :=
  act s fun s => s.rxVersion p.val imm.toNat

/-- WIDTH: agreement to the set this end proposed, or a proposal (R509). A proposal with a lane that is not good here is answered with the
next set that is good here, so that the ends come to the widest set good at both (DEDUCED, log entry 21). -/
def State.rxWidth (s : State) (p imm : Nat) : State :=
  let lanes := bits imm 7 0
  let good := s.goodLanes p
  if bit imm 8 then
    if lanes = (s.port p).proposed && lanes != 0 then s.takeLanes p lanes else s
  else if lanes = 0 || s.portState p = 0 || s.portState p = 5 then s
  else if laneSets.contains lanes && lanes &&& good == lanes then (s.takeLanes p lanes).sendLink p 1 (lanes + 256)
  else
    let b := nextSet good lanes
    if b = 0 then s.portGoesDown p
    else (s.setPort p { s.port p with proposed := b }).sendLink p 1 b

/-- WIDTH. -/
def execWidth (p : Fin 10) (imm : W64) (s : State) : Host.Outcome State Fault Refusal :=
  act s fun s => s.rxWidth p.val imm.toNat

/-- BORROW: a lane is taken while the port runs at W = 8, or returned (R511). -/
def State.rxBorrow (s : State) (p imm : Nat) : State :=
  let lane := bits imm 2 0
  let r := s.port p
  if bit imm 8 then
    if r.borrowed = some lane then (s.setPort p { r with borrowed := none }).setPortStat p (s.portState p) 8 255 else s
  else if s.portUp p && s.rd (Reg.PORT_STAT p) 15 12 == 8 then
    ((s.setPort p { r with borrowed := some lane }).setPortStat p 3 7 (255 - 2 ^ lane)).bump (Reg.BORROWS p)
  else s

/-- BORROW. -/
def execBorrow (p : Fin 10) (imm : W64) (s : State) : Host.Outcome State Fault Refusal :=
  act s fun s => s.rxBorrow p.val imm.toNat

/-- UNREACH: a plane's leaf has lost the path to a position (R505, R506). -/
def State.rxUnreach (s : State) (p pos : Nat) : State :=
  if 8 ≤ p then s else
  let r := s.port p
  State.lostSince s (s.setPort p { r with unreach := pos :: r.unreach.filter (· != pos) })

/-- UNREACH. -/
def execUnreach (p : Fin 10) (imm : W64) (s : State) : Host.Outcome State Fault Refusal :=
  act s fun s => s.rxUnreach p.val (imm.toNat % 65536)

/-- REACHABLE: the path is back. -/
def State.rxReachable (s : State) (p pos : Nat) : State :=
  let r := s.port p
  s.setPort p { r with unreach := r.unreach.filter (· != pos) }

/-- REACHABLE. -/
def execReachable (p : Fin 10) (imm : W64) (s : State) : Host.Outcome State Fault Refusal :=
  act s fun s => s.rxReachable p.val (imm.toNat % 65536)

/-- RINGMAP: the state of a module's ring ports; it is passed on (R516). -/
def State.rxRingmap (s : State) (p imm : Nat) : State :=
  let pos := bits imm 15 0
  if p < 8 || pos == s.pos then s else
  let s1 : State := { s with ringMap := Map.set s.ringMap pos (bit imm 16, bit imm 17, s.epoch) }
  let out := if p = 8 then 9 else 8
  let s1 := if s1.carriesCtl out then s1.sendLink out 5 (imm % 2 ^ 18) else s1
  State.lostSince s s1

/-- RINGMAP. -/
def execRingmap (p : Fin 10) (imm : W64) (s : State) : Host.Outcome State Fault Refusal :=
  act s fun s => s.rxRingmap p.val imm.toNat

/-- RINGMAP_TIMEOUT: no RINGMAP from a module for 3 epochs since its last one (R516). -/
def execRingmapTimeout (pos : BitVec 16) (s : State) : Host.Outcome State Fault Refusal :=
  act s fun s =>
    match Map.get? s.ringMap pos.toNat with
    | none => s
    | some e => State.lostSince s { s.waited (100000 * e.2.2) 300000 with ringMap := Map.erase s.ringMap pos.toNat }

/-! ## Identity frames (13 R527 to R537) -/

/-- A number in the plan section (16 R641). -/
def State.planLe (s : State) (a n : Nat) : Nat := leNat ((s.start.plan.drop a).take n)

/-- Port plan entry of a port of the module (R531). -/
def State.planPort (s : State) (p : Nat) : Nat := s.planLe (4112 + 4 * (10 * posIdx s.pos + p)) 4

/-- FLAGS of the module's position entry (16 R641). -/
def State.planFlags (s : State) : Nat := s.planLe (16 + 16 * posIdx s.pos) 1

/-- The frame this module sends on a port (R527). -/
def State.ownFrame (s : State) (p : Nat) : List Byte :=
  let f := (s.port p).frame.getD (0, 0, 0)
  leBytes 8 (s.rd64 Reg.SERIAL_LO Reg.SERIAL_HI) ++ leBytes 2 s.pos ++ [0, BitVec.ofNat 8 p, 0xFF,
    BitVec.ofNat 8 (s.rd Reg.TOPO_CFG 0 0 + if bit s.planFlags 1 then 2 else 0), BitVec.ofNat 8 s.nq,
    BitVec.ofNat 8 (s.rd (Reg.IDM p) 31 28)] ++ fit 16 0 s.start.planDigest ++
  leBytes 8 f.1 ++ leBytes 2 f.2.1 ++ leBytes 1 f.2.2 ++ List.replicate 21 0

/-- IDENT_TIMER: a port in IDENT, UP or HELD sends a frame (R529). -/
def execIdentTimer (p : Fin 10) (s : State) : Host.Outcome State Fault Refusal :=
  act s fun s =>
    let st := s.portState p.val
    if st = 2 ∨ st = 3 ∨ st = 4 then s.send p.val { mkPacket 0x42 s.pos 0 with gran := [s.ownFrame p.val] } else s

/-- Does a frame name the far end of a port plan entry (R532)? -/
def framePlanned (f : List Byte) (e : Nat) : Bool :=
  let b (i : Nat) : Nat := (f.getD i 0).toNat
  bit e 31 && b 10 == bits e 30 30 && leNat ((f.drop 8).take 2) == bits e 15 0 && b 11 == bits e 23 16 &&
  (b 10 == 0 || b 12 == bits e 26 24)

/-- The match code of a frame before SWAPOK (R532). -/
def State.matchCode (s : State) (p : Nat) (f : List Byte) : Nat :=
  let e := s.planPort p
  if f.getD 10 0 = 0 && (f.drop 16).take 16 != fit 16 0 s.start.planDigest then 7
  else if !(bit e 31) then 4
  else if framePlanned f e then 1
  else if (List.range 10).any (fun q => q != p && framePlanned f (s.planPort q)) ||
      (f.getD 10 0 = 0 && bits e 30 30 == 0 && leNat ((f.drop 8).take 2) == bits e 15 0) then 5
  else 6

/-- Logical plane that a port serves: its own, or under SWAPOK that of the leaf at its far end, none (8) for a module there (R535). -/
def State.servedPlane (s : State) (q : Nat) : Nat :=
  if s.rd (Reg.IDM q) 31 28 = 2 then (if (s.port q).frameKind == 1 then (s.port q).framePlane else 8) else q

/-- Is a swap accepted (R535)? -/
def State.swapOk (s : State) (p : Nat) (f : List Byte) : Bool :=
  let b (i : Nat) : Nat := (f.getD i 0).toNat
  s.rdb Reg.TOPO_CFG 0 && bit (b 13) 0 &&
  (b 10 != 0 || ((b 15 == 5 || b 15 == 2) && leNat ((f.drop 32).take 8) == s.rd64 Reg.SERIAL_LO Reg.SERIAL_HI &&
    leNat ((f.drop 40).take 2) == s.pos && b 42 == p)) &&
  (b 10 != 1 || !((List.range 10).any fun q => q != p && s.portUp q && s.servedPlane q == b 12))

/-- Let logical plane n be carried by port p, exchanging it with the plane p carried (R535). -/
def State.mapPlane (s : State) (n p : Nat) : State :=
  let old := s.planePort n
  let m := ((List.range 8).find? fun m => s.planePort m == p).getD n
  (s.wr Reg.PLANE_MAP (4 * m + 3) (4 * m) old).wr Reg.PLANE_MAP (4 * n + 3) (4 * n) p

/-- Hold a port out of data. -/
def State.holdPort (s : State) (p : Nat) : State :=
  if s.portUp p then State.lostSince s ((s.setPortStat p 4 0 (s.rd (Reg.PORT_STAT p) 23 16)).portChanged p) else s

/-- Start-up stops: the first FAIL code stays, the ports are HELD, and so is the service state of a module that is not LEAVING (16 R649). -/
def State.startFails (s : State) (code : Nat) : State :=
  let s := if s.rd Reg.START_STAT 7 4 = 0 then s.wr Reg.START_STAT 7 4 code else s
  let s := (List.range 10).foldl State.holdPort s
  if s.power.leaving then s else s.setSvc 3

/-- Have the ports been first matched: every planned port has a code, or the deadline has passed (16 R646)? Then R536. A start-up that
stopped goes no further (16 R649). -/
def State.checkMatched (s : State) : State :=
  if s.start.matched || s.rd Reg.START_STAT 7 0 != 4 then s
  else if s.start.deadline || (List.range 10).all fun p => !(bit (s.planPort p) 31) || s.rd (Reg.IDM p) 31 28 != 0 then
    let s : State := { s with start := { s.start with matched := true } }
    if s.upPlanes < 6 then s.startFails 6
    else (s.wr Reg.START_STAT 3 0 (if s.rdb Reg.TIM_STAT 31 then 6 else 5)).report
  else s

/-- May a port carry data: not held, a valid position, start-up not stopped, a link version agreed (01 R25, 16 R649)? -/
def State.mayCarry (s : State) (p : Nat) : Bool :=
  !(s.rdb (Reg.PORT_CTL p) 0) && !(s.rdb Reg.POSITION 16) && s.rd Reg.START_STAT 7 4 == 0 && s.rd (Reg.PORT_STAT p) 11 8 != 0

/-- Is a swapped ring port's far end the one planned for the other ring port (R535)? -/
def State.ringSwapped (s : State) (p : Nat) : Bool :=
  let e := s.planPort (17 - p)
  s.rd (Reg.IDM p) 31 28 == 2 && s.rd (Reg.IDM p) 15 0 == bits e 15 0 && s.rd (Reg.IDM p) 23 16 == bits e 23 16

/-- A port with an accepted frame goes UP or HELD by its code (R534, R535). -/
def State.settlePort (s : State) (p : Nat) : State :=
  let code := s.rd (Reg.IDM p) 31 28
  let lanes := s.rd (Reg.PORT_STAT p) 23 16
  let up := (code == 1 || code == 2) && s.mayCarry p
  let t := if !up then s
    else if s.servedPlane p < 8 then s.mapPlane (s.servedPlane p) p
    else if p < 8 then s
    else s.wrb Reg.TOPO_CFG 1 (s.ringSwapped p)
  let t := t.setPortStat p (if up then 3 else 4) (widthOf lanes) lanes
  ((State.lostSince s t).portChanged p).checkMatched

/-- An identity frame arrives (R527, R529, R532 to R537); a port that is UP is matched again only when its far end changed
(16 R657), or when a MODULE reset left it UP without a code (16 R650). -/
def State.rxIdent (s : State) (p : Nat) (f : List Byte) : State :=
  let b (i : Nat) : Nat := (f.getD i 0).toNat
  let st := s.portState p
  if 1 < b 10 || !(st == 2 || st == 3 || st == 4) then s else
  let key := (leNat (f.take 8), leNat ((f.drop 8).take 2), b 11)
  let r := s.port p
  let changed := r.frame.isSome && r.frame != some key
  let note (s : State) : State :=
    s.setPort p { s.port p with frame := some key, frameKind := b 10, framePlane := b 12, frameFlags := b 13, lastMatch := b 15 }
  if st == 3 && r.frame == some key && s.rd (Reg.IDM p) 31 28 != 0 then note s else
  let s := if changed && st != 2 then
      State.lostSince s ((s.setPortStat p 2 0 (s.rd (Reg.PORT_STAT p) 23 16)).portChanged p) else s
  let c0 := s.matchCode p f
  let code := if c0 = 5 && s.swapOk p f then 2 else c0
  let old := s.rd (Reg.IDM p) 31 28
  let s := (note s).wrw (Reg.IDM p) (BitVec.ofNat 32 (code * 2 ^ 28 + b 11 * 65536 + key.2.1))
  let s := s.wr64 (Reg.FAR_SER_LO p) (Reg.FAR_SER_HI p) key.1
  let s := if code != 1 && (st == 2 || code != old || changed) then s.post 0x0904 [p, code] else s
  if s.portState p = 2 || code != old then s.settlePort p else s

/-- IDENT. -/
def execIdent (p : Fin 10) (frame : List Byte) (s : State) : Host.Outcome State Fault Refusal :=
  actIf (frame.length == 64) s fun s => s.rxIdent p.val frame

/-- A planned port without a frame at the deadline is ABSENT, and one that has trained is HELD (R532, R533, R534). -/
def State.absent (s : State) (p : Nat) : State :=
  if bit (s.planPort p) 31 && s.rd (Reg.IDM p) 31 28 == 0 then
    let s := (s.wr (Reg.IDM p) 31 28 3).post 0x0904 [p, 3]
    if s.portState p = 2 ∨ s.portState p = 3 then s.settlePort p else s
  else s

/-- ABSENT_DEADLINE: 3 s after link bring-up began (R533). -/
def execAbsentDeadline (s : State) : Host.Outcome State Fault Refusal :=
  act s fun s =>
    let s : State := { s with start := { s.start with deadline := true } }
    ((List.range 10).foldl State.absent s).checkMatched.report

/-! ## Cable assemblies (13 R538 to R542) -/

/-- Does a 64-byte block of a cable's identity memory end with a good CRC? -/
def State.cableGood (s : State) (p o : Nat) : Bool :=
  crc32c (Mem.read s.mem (physCable p o) 60) == Mem.le s.mem (physCable p (o + 60)) 4

/-- Does the cable have a valid identity block, in a memory that answers (18 R717)? -/
def State.cableId (s : State) (p : Nat) : Bool :=
  !(s.port p).noid && s.cableGood p 0 && Mem.le s.mem (physCable p 0) 2 == 0x4943 && Mem.le s.mem (physCable p 2) 1 == 1

/-- Offset of the usage record in use: a good CRC and the higher SEQ (R539). -/
def State.usageAt (s : State) (p : Nat) : Option Nat :=
  let s0 := Mem.le s.mem (physCable p 64) 4
  let s1 := Mem.le s.mem (physCable p 128) 4
  let good (o : Nat) : Bool := !(s.port p).noid && s.cableGood p o
  match good 64, good 128 with
  | false, false => none
  | true, false => some 64
  | false, true => some 128
  | true, true => some (if (s1 + 2 ^ 32 - s0) % 2 ^ 32 < 2 ^ 31 then 128 else 64)

/-- A word of the usage record in use. -/
def State.usageWord (s : State) (p i n : Nat) : Nat :=
  match s.usageAt p with
  | none => 0
  | some o => Mem.le s.mem (physCable p (o + i)) n

/-- Set the cable registers of a port and post an event when the cable state changes (R542, R574). -/
def State.cableRefresh (s : State) (p : Nat) : State :=
  let r := s.port p
  let mates := s.usageWord p 4 4 + r.mates
  let hours := s.usageWord p 8 4 + r.hours
  let rm := Mem.le s.mem (physCable p 28) 4
  let rh := Mem.le s.mem (physCable p 32) 4
  let life := max (if rm = 0 then 0 else mates * 1000 / rm) (if rh = 0 then 0 else hours * 1000 / rh)
  let st := if !(s.cableId p) then 3 else if life ≥ 1000 then 2 else if life ≥ 900 then 1 else 0
  let life := if st = 3 then 0 else min life 1023
  let old := s.rd (Reg.CBL_STAT p) 17 16
  let s := (s.wrw (Reg.CBL_STAT p) (BitVec.ofNat 32 (st * 65536 + life))).wrw (Reg.CBL_MATES p) (BitVec.ofNat 32 mates)
  let s := (s.wrw (Reg.CBL_HOURS p) (BitVec.ofNat 32 hours)).wr64 (Reg.CBL_SER_LO p) (Reg.CBL_SER_HI p)
    (if st = 3 then 0 else Mem.le s.mem (physCable p 4) 8)
  if st = old then s else
  let s := s.setPort p { s.port p with wornAt := s.now }
  (s.post 0x0905 [p, st, life]).report

/-- A cable is read: a mating is counted when its record has another WRITER, or its memory had been unreadable for 1 s; at the RING_W
end of a ring cable nothing is counted (R539, R540). -/
def State.cableRead (s : State) (p : Nat) (gap : Bool) : State :=
  let other := (s.usageAt p).isSome && s.usageWord p 12 8 != s.rd64 Reg.SERIAL_LO Reg.SERIAL_HI
  let r := s.port p
  let s := if (other || gap) && p != s.ringPort false then s.setPort p { r with mates := r.mates + 1 } else s
  s.cableRefresh p

/-- Count the whole hours since `hoursFrom` (R540). -/
def State.cableHours (s : State) (p : Nat) : State :=
  let r := s.port p
  let h := ((s.now - r.hoursFrom) / 3600000000000).toNat
  s.setPort p { r with hours := r.hours + h, hoursFrom := r.hoursFrom + h * 3600000000000 }

/-- What a cable asks for as time goes by: the registers follow a whole hour, and a WORN cable posts its event once a day (R540, R542,
R574). -/
def State.cableEpoch (s : State) (p : Nat) : State :=
  let s := if s.portState p != 0 && decide ((s.port p).hoursFrom + 3600000000000 ≤ s.now) then (s.cableHours p).cableRefresh p else s
  if s.rd (Reg.CBL_STAT p) 17 16 == 2 && decide ((s.port p).wornAt + 86400000000000 ≤ s.now) then
    (s.setPort p { s.port p with wornAt := s.now }).post 0x0905 [p, 2, s.rd (Reg.CBL_STAT p) 9 0]
  else s

/-- CABLE_USAGE_WRITE: the other record is replaced with SEQ + 1; a failure posts an event (R539, R541). The module at the RING_W end of a
ring cable writes nothing. -/
def State.cableWrite (s : State) (p : Nat) (ok : Bool) : State :=
  let s := if s.portState p = 0 then s else s.cableHours p
  let s := s.cableRefresh p
  if p = s.ringPort false then s else
  if !ok then s.post 0x0905 [p, s.rd (Reg.CBL_STAT p) 17 16, s.rd (Reg.CBL_STAT p) 9 0] else
  let r := s.port p
  let o := match s.usageAt p with
    | some 64 => 128
    | _ => 64
  let b := leBytes 4 (s.usageWord p 0 4 + 1) ++ leBytes 4 (s.usageWord p 4 4 + r.mates) ++ leBytes 4 (s.usageWord p 8 4 + r.hours) ++
    leBytes 8 (s.rd64 Reg.SERIAL_LO Reg.SERIAL_HI) ++ List.replicate 40 0
  let s := { s with mem := Mem.write s.mem (physCable p o) (b ++ leBytes 4 (crc32c b)) }
  (s.setPort p { r with mates := 0, hours := 0 }).cableRefresh p

/-- CABLE_USAGE_WRITE. -/
def execCableUsageWrite (p : Fin 10) (ok : Bool) (s : State) : Host.Outcome State Fault Refusal :=
  act s fun s => s.cableWrite p.val ok

/-- A cable is read, or its memory does not answer and the port is NOID until a read succeeds (18 R717). -/
def State.cableTry (s : State) (p : Nat) (gap silent : Bool) : State :=
  let s := s.setPort p { s.port p with noid := silent }
  if silent then s.cableRefresh p else s.cableRead p gap

/-- FAR_END_DETECT: a port with a far end trains, and its cable is read; on a port that has trained, the cable's memory is read again
(R526, R540; 18 R717) (DESIGN CHOICE, log entry 157). -/
def execFarEndDetect (e : FarEnd) (s : State) : Host.Outcome State Fault Refusal :=
  actIf (e.cable.isEmpty || e.cable.length == 192) s fun s =>
    let st := s.portState e.port.val
    if st = 0 ∨ st = 5 then
      let s := if st = 0 then s.setPort e.port.val { s.port e.port.val with hoursFrom := s.now } else s
      let s : State := { s with mem := Mem.write s.mem (physCable e.port.val 0) e.cable }
      ((s.setPortStat e.port.val 1 0 0).cableTry e.port.val e.gap e.silent).portChanged e.port.val
    else
      let s : State := { s with mem := Mem.write s.mem (physCable e.port.val 0) e.cable }
      s.cableTry e.port.val e.gap e.silent

/-! ## Registers (12 R524, R525) -/

/-- A write of PORT_CTL: HOLD takes the port out of data, and clearing it lets the port be matched again. -/
def State.portCtlWrite (s : State) (p v : Nat) : State :=
  let s1 := s.writeReg (Reg.PORT_CTL p) v
  if bit v 0 && s.portUp p then s1.holdPort p
  else if !(bit v 0) && s.portState p = 4 && (s.port p).frame.isSome then s1.settlePort p
  else s1

/-- A write in the link registers of FAB. -/
def State.linkWrite (s : State) (off v cls : Nat) : State :=
  if off = Reg.RTAB_LO ∨ off = Reg.RTAB_HI then s.guardedWrite (!(s.rdb Reg.RTCTL 31)) off v cls
  else match copyAt (Reg.PORT_CTL 0) 0x40 10 off with
    | some p => s.portCtlWrite p v
    | none => s.writeReg off v

end Sys2Proof.Machine
end

