-- ==== Sys2Proof/Machine/Sequencer.lean ====
section
/-! DEFINITION. The sequencer: NOP, waits, barriers, script control, stroke overrun and the live-mask sample
(03_scribe.md R97 to R104, 04_strokes.md R152 to R163, 08 R303 R305, 11 R456 R458, 02 R70). -/

namespace Sys2Proof.Machine

/-- NOP (R135): it accesses no well, so no cycles are lost in it (03_scribe.md R92, R93). -/
def execNop (q : Fin 64) (k : Fin 8) (_lost : Nat) (s : State) : Host.Outcome State Fault Refusal :=
  act s fun s => s.compute q.val k.val 0x00 (fun _ => true) 0 fun _ s => .ok s Done.none

/-- RET: the scribe continues after the VARIANT; outside a variant it faults (R163). -/
def execRet (q : Fin 64) (k : Fin 8) (_lost : Nat) (s : State) : Host.Outcome State Fault Refusal :=
  act s fun s => s.stroke q.val k.val 0x19 (fun _ => true) fun r s =>
    let x := s.scribe r.scribe
    if x.ret = 0 then s.strokeFault r 0x0E 0 else
    let s := s.setScribe r.scribe { x with ret := 0 }
    let s := if (List.range 8).all fun j => (s.scribe (8 * r.q + j)).ret == 0 then
      s.setQuire r.q { s.quire r.q with variantAt := 0 } else s
    s.passed r x.ret true

/-- END: the scribe returns to the script's first stroke; inside a variant it faults (R161, R163). -/
def execEnd (q : Fin 64) (k : Fin 8) (_lost : Nat) (s : State) : Host.Outcome State Fault Refusal :=
  act s fun s => s.stroke q.val k.val 0x1F (fun _ => true) fun r s =>
    if (s.scribe r.scribe).ret != 0 then s.strokeFault r 0x0E 0
    else s.passed r (s.quire r.q).entry true

/-! ## Step starts (02 R70, R71; 08 R303, R305) -/

/-- Does a step sequence lie at or after a step named by 32 bits (R303)? -/
def stepReached (v at_ : Nat) : Bool := decide ((v + 2 ^ 32 - at_ % 2 ^ 32) % 2 ^ 32 < 2 ^ 31)

/-- Turn the recipe table of a sheet when a turn is pending (02 R70, 16 R652). -/
def State.recipeTurn (s : State) (i : Nat) : State :=
  if s.rdb Reg.RECIPE_TURN i then (s.wrb Reg.RECIPE_TURN i false).wrb Reg.RECIPE_SIDE i (!(s.rdb Reg.RECIPE_SIDE i)) else s

/-- Turn the placement table and change the routing mode at a step start (08 R303, R305). -/
def State.routeTurn (s : State) (i v : Nat) : State :=
  let o := Reg.RCFG i
  let s := if s.rdb o 30 && stepReached v (s.word (Reg.TSTEP i)).toNat then (s.wrb o 30 false).wrb o 29 (!(s.rdb o 29)) else s
  if s.rdb o 28 && stepReached v (s.word (Reg.MSTEP i)).toNat then (s.wrb o 28 false).wr o 1 0 (s.rd o 5 4) else s

/-- The Ruling unit at the start of step v of a context: the source side of its routes starts afresh, and the home side where an
earlier attempt at the same step left it (08 R311, R312, R317, R322, R324; 13 R562). -/
def State.routeStart (s : State) (i c v : Nat) : State :=
  { s with rulSrc := s.rulSrc.filter fun e => !(e.1 / 256 == i && e.2.ctx == c),
           rulHome := s.rulHome.filter fun e => !(e.1 / 256 == i && e.2.ctx == c && e.2.step == v) }

/-- The side of the placement table that step v of a context uses is fixed when the step begins (08 R303): the context keeps it for its
last eight steps, which no quire of it can lag behind (DEDUCED, log entry 148). -/
def State.routeSide (s : State) (i c v : Nat) : State :=
  s.setCtx i c { s.ctx i c with steps := ((v, s.rd (Reg.RCFG i) 29 29) :: (s.ctx i c).steps.filter fun x => x.1 != v).take 8 }

/-- A stepped context's first sequencer accepts step v: the step starts, also when it is the step a STOP tore (13 R562). -/
def State.stepStart (s : State) (i c v : Nat) : State :=
  let x := s.ctx i c
  if x.step = some v then s else
  let s := ((((s.recipeTurn i).routeTurn i v).routeStart i c v).routeSide i c v)
  s.setCtx i c { s.ctx i c with step := some v, stepSide := s.rd Reg.RECIPE_SIDE i i }

/-- A sequencer takes the word of a completed STEP wait (R153).  The scribes that the first one of the script passes over, which is not
in their mask, are in the same step (02 R71; 03 R95). -/
def State.takeStep (s : State) (r : Run) (v : Nat) : State :=
  let first := r.pc == (s.quire r.q).entry
  let s := if first && s.rdb (Reg.CCFG r.i r.c) 9 then s.stepStart r.i r.c v else s
  let s := s.setQuire r.q { s.quire r.q with lastStep := BitVec.ofNat 64 v }
  let side := (s.ctx r.i r.c).stepSide
  let take (s : State) (n : Nat) : State :=
    let x := s.scribe n
    s.setScribe n { x with last := BitVec.ofNat 64 v, side := if first then side else x.side }
  let s := take s r.scribe
  if first then ((List.range 8).filter fun j => !(bit (kSmask r.d) j)).foldl (fun s j => take s (8 * r.q + j)) s else s

/-! ## Waits (R98 to R103, R152) -/

/-- Is a word operand a watch line: a TIER word in a granule of the sheet's share pinned to T0 (R98)? -/
def State.watchable (s : State) (r : Run) (w : Nat) : Bool :=
  oSpace w == 2 && s.pinCause r.i (oAddr r.k w) 8 == 0

/-- The cause of a wait that names any other line: ACCESS outside the sheet's share, else RESIDENT (R98, R164; 05 R170). -/
def State.watchCause (s : State) (r : Run) (w : Nat) : Nat :=
  if oSpace w == 2 then s.pinCause r.i (oAddr r.k w) 8 else 0x0A

/-- Does a wait's condition hold for a word (R99, R152)? -/
def waitHolds (sub : Nat) (last : W64) (v ref : Nat) : Bool :=
  match sub with
  | 0 => decide (ref ≤ v)
  | 1 => v == ref
  | 2 => v != ref
  | _ => v == (last.toNat + 1) % 2 ^ 64

/-- Is a word the READY word of a running STREAM of a sheet (06 R245)? -/
def State.readyWord (s : State) (i a : Nat) : Bool :=
  s.dma.any fun o => o.started && dOp o.desc == 4 && !(s.qQuill o.qn) && s.qSheet o.qn == i && awAddr (dAux0 o.desc) == a

/-- A scribe enters watch state on a word (R99, R103, 06 R245); a stall that a switch cut goes on (06 R259). -/
def State.enterWatch (s : State) (r : Run) (a : Nat) : State :=
  let x := s.scribe r.scribe
  if x.watch = some a then s else
  let stall := s.readyWord r.i a && x.stallFrom.isNone
  let s := if stall then s.bumpSat (Reg.STALLS r.i) else s
  ((s.setScribe r.scribe { x with pc := r.pc, watch := some a, stallFrom := if stall then some s.now else x.stallFrom,
                                   watchAt := s.now }).quireWatch
    r.q).drainSweep r.i

/-- Does a STEP wait's word call for a step-sequence event: neither the last step sequence nor the next (R153)? -/
def stepStray (last : W64) (v : Nat) : Bool := v != last.toNat && v != (last.toNat + 1) % 2 ^ 64

/-- The cause and data address of a wait whose word is no watch line (R98, R164; 10 R403). -/
def State.watchFault (s : State) (r : Run) (w : Nat) : State :=
  let c := s.watchCause r w
  s.strokeFault r c (if c = 0x0B then oAddr r.k w else 0)

/-- A STEP wait's word is the one whose writes its quire judges from then on, whether or not a scribe watches it (R153). -/
def State.stepOn (s : State) (r : Run) (a : Nat) : State :=
  if kSub r.d = 3 then s.setQuire r.q { s.quire r.q with stepAt := some a } else s

/-- A WAIT at a scribe: evaluate the condition, and pass or watch. -/
def State.waitAt (s : State) (r : Run) : State :=
  if !(s.watchable r (kSrc0 r.d)) then s.watchFault r (kSrc0 r.d) else
  let a := oAddr r.k (kSrc0 r.d)
  (fun g : Got (List Byte) =>
    match g with
    | .ok s b =>
      let v := leNat b
      let s := s.stepOn r a
      if waitHolds (kSub r.d) (s.scribe r.scribe).last v (kSrc2 r.d) then
        (if kSub r.d = 3 then s.takeStep r v else s).passed r (r.pc + 64) true
      else s.enterWatch r a
    | .wait s => s
    | .bad s c f => s.strokeFault r c f) (s.readOp r 2 a 8)

/-- WAIT_GE. -/
def execWaitGe (q : Fin 64) (k : Fin 8) (s : State) : Host.Outcome State Fault Refusal :=
  act s fun s => s.stroke q.val k.val 0x10 (· == 0) fun r s => s.waitAt r
/-- WAIT_EQ. -/
def execWaitEq (q : Fin 64) (k : Fin 8) (s : State) : Host.Outcome State Fault Refusal :=
  act s fun s => s.stroke q.val k.val 0x10 (· == 1) fun r s => s.waitAt r
/-- WAIT_NE. -/
def execWaitNe (q : Fin 64) (k : Fin 8) (s : State) : Host.Outcome State Fault Refusal :=
  act s fun s => s.stroke q.val k.val 0x10 (· == 2) fun r s => s.waitAt r
/-- STEP. -/
def execStep (q : Fin 64) (k : Fin 8) (s : State) : Host.Outcome State Fault Refusal :=
  act s fun s => s.stroke q.val k.val 0x10 (· == 3) fun r s => s.waitAt r

/-! ## Barriers (R154) -/

/-- The scribes a barrier stroke waits for (R95, R154). -/
def barrierMask (d : Nat) : Nat := if kOp d = 0x18 then 0xFF else kSmask d

/-- Have all scribes of a barrier reached it? -/
def State.allAt (s : State) (r : Run) : Bool :=
  (List.range 8).all fun j =>
    !(bit (barrierMask r.d) j) || ((s.scribe (8 * r.q + j)).atBarrier && (s.scribe (8 * r.q + j)).pc == r.pc)

/-- Every scribe of a barrier passes it. -/
def State.passAll (s : State) (r : Run) (next ret : Nat) : State :=
  (List.range 8).foldl (fun s j =>
    if bit (barrierMask r.d) j then
      let x := s.scribe (8 * r.q + j)
      (s.setScribe (8 * r.q + j) { x with ret := if ret = 0 then x.ret else ret }).passed { r with k := j } next true
    else s) s

/-- The lowest scribe of a barrier's mask, whose well its WELL operands name (R156). -/
def lowScribe (d : Nat) : Nat := ((List.range 8).find? fun j => bit (barrierMask d) j).getD 0

/-- A scribe reaches a barrier stroke; the last one makes it act, for the lowest scribe of the mask, whose number a fault of the stroke
records (R154, R164) (DESIGN CHOICE, log entry 176). -/
def State.barrier (s : State) (q k op : Nat) (sub : Nat → Bool) (f : Run → State → State) : State :=
  s.stroke q k op sub fun r s =>
    let x := s.scribe r.scribe
    let s := s.setScribe r.scribe { x with pc := r.pc, atBarrier := true }
    if s.allAt r then f { r with k := lowScribe r.d } s else s

/-- May a fenced flag act: every acknowledgement owed to the quire and, after a restore, to the record has arrived (11 R456)? -/
def State.fenceOpen (s : State) (r : Run) : Bool :=
  let x := s.quire r.q
  x.issued == x.acked + x.failed &&
  (!(s.ctx r.i r.c).restored || s.recW r.i r.c 0x10 == (s.recW r.i r.c 0x18 + s.recW r.i r.c 0x20) % 2 ^ 64)

/-- FLAG acts: a flagged store or add of SRC2 to the word at DST (R155) (DEDUCED in part, log entry 60). -/
def State.flagAct (s : State) (r : Run) : State :=
  let w := kDst r.d
  let a := oAddr r.k w
  let add := kSub r.d == 1
  if oSpace w = 3 then
    let s := s.seenImport (some r.i) a
    let e := s.importEntry (some r.i) a
    if !(importOk e (a % 2 ^ 36) 8 (needPerm 0x0C (kSub r.d))) || decide (2 ^ 48 ≤ a) then s.strokeFault r 0x0B a else
    (s.strokeWrite r 0x0C a fun p => { p with atop := BitVec.ofNat 4 (kSub r.d), imm := BitVec.ofNat 64 (kSrc2 r.d) }).passAll r
      (r.pc + 64) 0
  else
    match s.readOp r (oSpace w) a 8 with
    | .ok s b =>
      let v := if add then (leNat b + kSrc2 r.d) % 2 ^ 64 else kSrc2 r.d
      let o := Out.whole (oSpace w) a (leBytes 8 v)
      let c := s.outBad r o
      (match c.2 with
       | some f => c.1.strokeFault r f.1 f.2
       | none => (c.1.putOut r o).passAll r (r.pc + 64) 0)
    | .wait s => s
    | .bad s c f => s.strokeFault r c f

/-- FLAG: a fenced one waits, and makes the gateway flush (11 R456, R458). -/
def State.flagAt (s : State) (r : Run) : State :=
  if kImm2 r.d % 2 = 0 then s.flagAct r else
  let s := (s.flushOf fun x => x.kind == 0 && x.a == r.i && x.b == r.c && x.c == r.q).recSeen r.i r.c
  if s.fenceOpen r then s.flagAct r else s

/-- FLAG_STORE. -/
def execFlagStore (q : Fin 64) (k : Fin 8) (s : State) : Host.Outcome State Fault Refusal :=
  act s fun s => s.barrier q.val k.val 0x11 (· == 0) fun r s => s.flagAt r
/-- FLAG_ADD. -/
def execFlagAdd (q : Fin 64) (k : Fin 8) (s : State) : Host.Outcome State Fault Refusal :=
  act s fun s => s.barrier q.val k.val 0x11 (· == 1) fun r s => s.flagAt r

/-- PSET sets a predicate and passes (R156). -/
def State.setPred (s : State) (r : Run) (v : Bool) : State :=
  let x := s.quire r.q
  let m : BitVec 8 := BitVec.ofNat 8 (2 ^ bits (kImm2 r.d) 10 8)
  (s.setQuire r.q { x with preds := if v then x.preds ||| m else x.preds &&& ~~~ m }).passAll r (r.pc + 64) 0

/-- LIVEANY. -/
def execLiveany (q : Fin 64) (k : Fin 8) (s : State) : Host.Outcome State Fault Refusal :=
  act s fun s => s.barrier q.val k.val 0x12 (· == 0) fun r s =>
    match s.readOp r 1 (64 * kRowblk r.d) 576 with
    | .ok s b =>
      let es := (List.range (min 64 (leNat (b.take 4)))).map fun m => leNat ((b.drop (64 + 8 * m)).take 8)
      (match s.sampleMask r.i r.c ((es.filter eValid).map eAct) with
       | (s, .error a) => s.strokeFault r 0x0D a
       | (s, .ok ()) => s.setPred r (es.any fun e => eValid e && s.liveBit r.i r.c (eAct e)))
    | .wait s => s
    | .bad s c f => s.strokeFault r c f

/-- The unsigned comparison of PSET CMP (R156). -/
def cmpHolds (op v ref : Nat) : Bool :=
  match op with
  | 0 => decide (ref ≤ v)
  | 1 => v == ref
  | 2 => v != ref
  | _ => decide (v < ref)

/-- CMP. -/
def execCmp (q : Fin 64) (k : Fin 8) (s : State) : Host.Outcome State Fault Refusal :=
  act s fun s => s.barrier q.val k.val 0x12 (· == 1) fun r s =>
    match s.readOp r (oSpace (kSrc0 r.d)) (oAddr r.k (kSrc0 r.d)) 8 with
    | .ok s b => s.setPred r (cmpHolds (kImm2 r.d % 4) (leNat b) (kSrc2 r.d))
    | .wait s => s
    | .bad s c f => s.strokeFault r c f

/-- All scribes of a quire watch the selection word. -/
def State.watchAll (s : State) (r : Run) (a : Nat) : State :=
  (List.range 8).foldl (fun s j => s.enterWatch { r with k := j } a) s

/-- VARIANT at a quire: wait for the step's selection, then enter the chosen variant (R162, R163). -/
def State.variantAt (s : State) (r : Run) : State :=
  if (s.scribe r.scribe).ret != 0 then s.strokeFault r 0x0E 0
  else if !(s.watchable r (kSrc0 r.d)) then s.watchFault r (kSrc0 r.d) else
  let a := oAddr r.k (kSrc0 r.d)
  match s.readOp r 2 a 8 with
  | .ok s b =>
    let v := leNat b
    if bits v 63 32 != (s.quire r.q).lastStep.toNat % 2 ^ 32 then s.watchAll r a else
    (match s.readOp r (oSpace (kSrc1 r.d)) (oAddr r.k (kSrc1 r.d) + 8 * bits v 4 0) 8 with
     | .ok s t =>
       if !(bit (leNat t) 63) then s.strokeFault r 0x0E 0
       else (s.setQuire r.q { s.quire r.q with variantAt := r.pc }).passAll r (leNat t % 2 ^ 48) (r.pc + 64)
     | .wait s => s
     | .bad s c f => s.strokeFault r c f)
  | .wait s => s
  | .bad s c f => s.strokeFault r c f

/-- VARIANT. -/
def execVariant (q : Fin 64) (k : Fin 8) (s : State) : Host.Outcome State Fault Refusal :=
  act s fun s => s.barrier q.val k.val 0x18 (fun _ => true) fun r s => s.variantAt r

/-! ## Wakes (R99, R102, R153) -/

/-- A watching scribe evaluates its condition again (DEDUCED in part, log entry 66). -/
def State.wakeScribe (s : State) (q k : Nat) : State :=
  match s.runsOn q with
  | none => s
  | some (i, c) =>
    let e := State.seek i k scriptFuel (s.scribe (8 * q + k)).pc s
    let r : Run := ⟨i, c, q, k, e.pc, e.d⟩
    if e.cause != 0 then e.st.strokeFault r e.cause 0
    else if kOp e.d = 0x18 then (if e.st.allAt r then e.st.variantAt { r with k := lowScribe r.d } else s)
    else if kOp e.d != 0x10 then s
    else e.st.waitAt r

/-- Post a step-sequence event of a quire for a write on the line of its STEP wait, watched at the time or not (R153; 01 R34)
(DEDUCED in part, log entry 66). -/
def State.stepEvent (s : State) (q line : Nat) : State :=
  match s.runsOn q, (s.quire q).stepAt with
  | some _, some a =>
    if a / 64 == line / 64 && stepStray (s.quire q).lastStep (s.tierLe a 8) then s.post 0x0403 [q, s.tierLe a 8] else s
  | _, _ => s

/-- A write landed on a line. -/
def State.wakeLine (s : State) (line : Nat) : State :=
  let s := (List.range 64).foldl (fun s q => s.stepEvent q line) s
  (List.range 512).foldl (fun s n =>
    match (s.scribe n).watch with
    | none => s
    | some a => if a / 64 == line / 64 then s.wakeScribe (n / 8) (n % 8) else s) s

/-- WATCH_WAKE. -/
def execWatchWake (line : BitVec 42) (s : State) : Host.Outcome State Fault Refusal := act s fun s => s.wakeLine line.toNat

/-! ## Overrun and the live-mask sample (R97, R104) -/

/-- Is a stroke a wait stroke for R97: WAIT, VARIANT, or a fenced FLAG that waits (11 R456)? -/
def isWait (d : Nat) : Bool := kOp d == 0x10 || kOp d == 0x18 || (kOp d == 0x11 && kImm2 d % 2 == 1)

/-- STROKE_OVERRUN: the stroke a scribe runs has reached 16,384 cycles (R97, R116). -/
def execStrokeOverrun (q : Fin 64) (k : Fin 8) (s : State) : Host.Outcome State Fault Refusal :=
  act s fun s =>
    match s.runsOn q.val with
    | none => s
    | some (i, c) =>
      let x := s.scribe (8 * q.val + k.val)
      let e := State.seek i k.val scriptFuel x.pc s
      if e.cause != 0 || isWait e.d || x.watch.isSome || x.atBarrier then s
      else (e.st.bumpSat (Reg.OVERRUN q.val)).strokeFault ⟨i, c, q.val, k.val, e.pc, e.d⟩ 0x08 0

/-- The row block of a stroke under way: what it read when it started, and keeps (R131). -/
def State.rowBlock (s : State) (r : Run) : Got (List Byte) :=
  let a := 64 * kRowblk r.d
  match s.kept r 1 a 576 with
  | some b => .ok s b
  | none => (s.readOp r 1 a 576).bind fun s b => .ok (s.keep r 1 a 576 b) b

/-- LIVE_MASK_SAMPLE: rows of the running stroke whose slip bit is clear are dropped from it (R104). -/
def execLiveMaskSample (q : Fin 64) (k : Fin 8) (s : State) : Host.Outcome State Fault Refusal :=
  act s fun s =>
    match s.runsOn q.val with
    | none => s
    | some (i, c) =>
      let e := State.seek i k.val scriptFuel (s.scribe (8 * q.val + k.val)).pc s
      if e.cause != 0 || !(kRbv e.d) || !(hasRows (kOp e.d)) || fetchCause k.val e.d != 0 || s.skipped q.val e.d then s else
      let r : Run := ⟨i, c, q.val, k.val, e.pc, e.d⟩
      match e.st.rowBlock r with
      | .wait s => s
      | .bad s f a => s.strokeFault r f a
      | .ok s b =>
        match s.sampleMask i c ((s.rowsOf r b false).ent.filter eValid |>.map eAct) with
        | (s, .error a) => s.strokeFault r 0x0D a
        | (s, .ok ()) =>
          let x := s.scribe r.scribe
          s.setScribe r.scribe { x with dropped := distinct (x.dropped ++ (s.rowsOf r b true).dead) }

end Sys2Proof.Machine
end

