-- ==== Sys2Proof/Machine/Ruling.lean ====
section
/-! DEFINITION. The Ruling unit: the placement table, choosing, admission, dispatch, landing, counts, the variant, return and
combine, and the RUL registers (08_experts.md R298 to R337; 04_strokes.md R150, R151; 12_fabric_links.md R495, R497). -/

namespace Sys2Proof.Machine

/-! ## What system units share -/

/-- A system unit writes to a sheet's tiered range: a place that is not mapped in the sheet's run, or is dry, is not written
(DESIGN CHOICE, log entry 26), and a part of a line that cannot be read is not written (05 R215). -/
def State.sysPut (s : State) (i a : Nat) (bs : List Byte) : State :=
  let e := (granulesOf a bs.length).foldl (fun (st : State × Bool) g =>
    if st.2 || !(st.1.inRun i g) then st else st.1.entryRead g i) (s, false)
  let s := e.1
  if e.2 then s
  else if s.tierOk i a bs.length && !((granulesOf a bs.length).any fun g => entDry (s.entry g)) then
    match (if a / 65536 = (a + bs.length - 1) / 65536 then s.eccEdges (s.tierPhys a) bs.length a 0 i else (s, none)) with
    | (s, none) => s.storeTier a bs
    | (s, some _) => s
  else s

/-- Send a routing or Roll message: to another module through the links, to the module itself by the same path without the
fabric (R319, 11 R750). `rx` is what the target does with it, and the status it answers. -/
def State.sendSys (rx : State → Packet → State × Nat) (x : Issuer) (s : State) (p : Packet) : State :=
  if p.dst.toNat = s.pos then
    let pe := s.peer s.pos
    let p := { p with pseq := BitVec.ofNat 32 pe.next }
    let n := (pe.next + 1) % 2 ^ 32
    let s : State := { s.setPeer s.pos { pe with next := n, low := n } with tx := s.tx ++ [(15, p)] }
    let r := rx s p
    let s : State := { r.1 with tx := r.1.tx ++ [(15, r.1.replyTo p true ⟨r.2, 0, []⟩)] }
    s.unitAck x s.pos r.2
  else s.issue p x 0 0 true

/-! ## The placement table (R298 to R303) -/

/-- Key of a sheet's route. -/
def routeKey (i r : Nat) : Nat := 256 * i + r

/-- A 64-byte entry of a side of a sheet's placement table, zero where the table is not pinned to T0 or the entry cannot be read. -/
def State.plcEntry (s : State) (i side o : Nat) : Nat :=
  let a := s.addrOf (Reg.PLC_LO i) (Reg.PLC_HI i) 64 + side * 0x210000 + o
  if s.pinnedRange i a 64 then s.unitLe (s.tierPhys a) 64 else 0

/-- A 64-byte entry of a placement table is read: what is counted and recorded, with the touch bits (05 R176, R213, R215). -/
def State.seenPlc (s : State) (i side o : Nat) : State :=
  let a := s.addrOf (Reg.PLC_LO i) (Reg.PLC_HI i) 64 + side * 0x210000 + o
  if s.pinnedRange i a 64 then s.seenTier a 64 i else s

/-- Route entry r is read. -/
def State.seenRoute (s : State) (i side r : Nat) : State := s.seenPlc i side (64 * r)

/-- Route entry r. -/
def State.routeEntry (s : State) (i side r : Nat) : Nat := s.plcEntry i side (64 * r)

/-- CTL. -/
def rCtl (w : Nat) : Nat := bits w 511 464
/-- LAND. -/
def rLand (w : Nat) : Nat := bits w 463 416
/-- RES. -/
def rRes (w : Nat) : Nat := bits w 415 368
/-- DISP. -/
def rDisp (w : Nat) : Nat := bits w 367 320
/-- WCOL. -/
def rWcol (w : Nat) : Nat := bits w 319 272
/-- THR. -/
def rThr (w : Nat) : W32 := BitVec.ofNat 32 (bits w 271 240)
/-- NHOST. -/
def rNhost (w : Nat) : Nat := bits w 223 208
/-- NSRC. -/
def rNsrc (w : Nat) : Nat := bits w 207 200
/-- NDF. -/
def rNdf (w : Nat) : Nat := bits w 199 192
/-- NRF. -/
def rNrf (w : Nat) : Nat := bits w 191 184
/-- DFMT. -/
def rDfmt (w : Nat) : Nat := bits w 183 180
/-- RFMT. -/
def rRfmt (w : Nat) : Nat := bits w 179 176
/-- Landing blocks per slot. -/
def rBlocks (w : Nat) : Nat := bits w 175 172 + 1
/-- DEFV. -/
def rDefv (w : Nat) : Nat := bits w 171 167
/-- KMAX. -/
def rKmax (w : Nat) : Nat := bits w 166 164 + 1
/-- MINC. -/
def rMinc (w : Nat) : Nat := bits w 163 162
/-- NORM. -/
def rNorm (w : Nat) : Bool := bit w 161
/-- VALID. -/
def rValid (w : Nat) : Bool := bit w 160
/-- Experts of the route. -/
def rExperts (w : Nat) : Nat := bits w 159 148 + 1
/-- EBASE. -/
def rEbase (w : Nat) : Nat := bits w 147 133

/-- Expert entry of expert e of a route (R300). -/
def State.expertEntry (s : State) (i side w e : Nat) : Nat := s.plcEntry i side (0x4000 + 64 * (rEbase w + e))

/-- Every expert entry of a route is read. -/
def State.seenExperts (s : State) (i side w : Nat) : State :=
  (List.range (rExperts w)).foldl (fun s e => s.seenPlc i side (0x4000 + 64 * (rEbase w + e))) s

/-- Replica descriptor k of an expert entry. -/
def xRep (x k : Nat) : Nat := bits x (319 + 64 * k) (256 + 64 * k)
/-- NREP. -/
def xNrep (x : Nat) : Nat := bits x 34 32
/-- HOSTED. -/
def xHosted (x : Nat) : Bool := bit x 35
/-- LSLOT. -/
def xSlot (x : Nat) : Nat := bits x 47 36
/-- GROUP. -/
def xGroup (x : Nat) : Nat := bits x 63 48

/-- The pool of a replica (R302). -/
def poolSize (w rep : Nat) : Nat := bits rep 31 16 - rNsrc w * bits rep 15 0

/-- The side of the placement table a step of a context uses (R303). -/
def State.stepSide (s : State) (i c v : Nat) : Nat :=
  match (s.ctx i c).steps.find? fun x => x.1 == v with
  | some x => x.2
  | none => s.rd (Reg.RCFG i) 29 29

/-- The step a context is in. -/
def State.curStep (s : State) (i c : Nat) : Option Nat := (s.ctx i c).step

/-- Does a message's OFFSET name this step (12 R495)? -/
def sameStep (p : Packet) (v : Nat) : Bool := p.offset.toNat % 2 ^ 32 == v % 2 ^ 32

/-- The contexts that can own a route at the home: the live ones with a step that have run a RETURN of it since they started, else
every live one with a step, the route's last first (DEDUCED, log entry 149). -/
def State.homeCtxs (s : State) (i r : Nat) : List Nat :=
  let live := (List.range 8).filter fun c => s.live i c && (s.curStep i c).isSome
  let own := live.filter fun c => (s.ctx i c).returns.contains r
  if own != [] then own else
  match Map.get? s.rulHome (routeKey i r) with
  | some h => live.filter (· == h.ctx) ++ live.filter (· != h.ctx)
  | none => live

/-- The context whose route a message at the home is for, with its step, which the message names (R334).  The message names no context
(DEDUCED, log entry 149). -/
def State.homeCtx (s : State) (i r : Nat) (p : Packet) : Option (Nat × Nat) :=
  (s.homeCtxs i r).findSome? fun c => (s.curStep i c).bind fun v => if sameStep p v then some (c, v) else none

/-- Does a sheet route (RCFG_s.EN)? -/
def State.routes (s : State) (i : Nat) : Bool := s.rdb (Reg.RCFG i) 31

/-- Discard a stale routing message (R334). -/
def State.stale (s : State) (i : Nat) : State := s.bumpSat (Reg.STALE i)

/-- Write a word of a route's control area with its step (R323). -/
def State.ctlWord (s : State) (i w o v n : Nat) : State := s.sysPut i (rCtl w + o) (leBytes 8 (v % 2 ^ 48 * 65536 + n % 65536))

/-! ## Choosing (R305 to R310) -/

/-- Is an FP32 value finite? -/
def finite32 (x : W32) : Bool := (Fp.of32 x).isFin

/-- The expert with the highest finite score, the lowest index among equals (R307). -/
def topScore (sc : List (Nat × W32)) : Option (Nat × W32) :=
  sc.foldl (fun b x =>
    match b with
    | none => some x
    | some y => if (Fp.of32 y.2).lt (Fp.of32 x.2) then some x else b) none

/-- The first n of the order of R307. -/
def topScores : Nat → List (Nat × W32) → List (Nat × W32)
  | 0, _ => []
  | n + 1, sc =>
    match topScore sc with
    | none => []
    | some x => x :: topScores n (sc.filter fun y => y.1 != x.1)

/-- The chosen experts of a row (R308). -/
def chooseExperts (mode : Nat) (w : Nat) (scores : List W32) : List (Nat × W32) :=
  let all := ((List.range scores.length).zip scores).filter fun x => finite32 x.2
  let k := rKmax w
  if mode = 0 then
    let top := topScores k all
    let above := top.filter fun x => (Fp.of32 (rThr w)).lt (Fp.of32 x.2)
    if above.length < rMinc w then top.take (rMinc w) else above
  else (topScores (min mode k) all)

/-- The replica number of a row (R310). -/
def replicaOf (slip pos nrep : Nat) : Nat :=
  let a : W32 := (BitVec.ofNat 32 slip * 0x9e3779b1) ^^^ (BitVec.ofNat 32 pos * 0x85ebca77)
  let a := a ^^^ (a >>> 15)
  a.toNat / 65536 * nrep / 65536

/-- The gate weights of R309: the scores and whether each choice is delivered. -/
def gateWeights (norm renorm : Bool) (cs : List (W32 × Bool)) : List W32 :=
  let sc := cs.foldl (fun a c => fadd a c.1) 0
  let sd := cs.foldl (fun a c => if c.2 then fadd a c.1 else a) 0
  let z : W32 := if norm then 0x3F800000 else sc
  let b := if renorm then sd else sc
  let f : W32 := if (Fp.of32 b).isZero then 0 else if z = b then 0x3F800000 else fmul z (frcp b)
  (List.range 8).map fun j =>
    match cs[j]? with
    | some c => if c.2 then fmul c.1 f else 0
    | none => 0

/-! ## The source side: drops and ROUTED (R313, R331, R332) -/

/-- Count a dropped choice of an expert (R313). -/
def State.countDrop (s : State) (i r w e : Nat) : State :=
  let a := rCtl w + 16448 + 4 * e
  let n := if s.tierOk i a 4 then (s.unitLe (s.tierPhys a) 4 + 1) % 2 ^ 32 else 0
  ((s.sysPut i a (leBytes 4 n)).bumpSat (Reg.DROPS i)).postOnce 0x0602 [i, r, e, n]

/-- Is a slot wholly resolved? -/
def slotDone (cs : List Choice) : Bool := cs.all fun c => c.st != 0

/-- The route record of a slot (R332). -/
def routeRecord (cs : List Choice) : Nat :=
  cs.length * 2 ^ 128 + ((List.range cs.length).zip cs).foldl (fun a x =>
    a + 2 ^ (16 * x.1) * (x.2.expert % 4096 + 4096 * (x.2.replica % 4) + 16384 * x.2.st)) 0

/-- Zero the elements of the result row of a choice that is not delivered (R330, R331). -/
def State.zeroResult (s : State) (i w t j : Nat) : State :=
  let f := rRfmt w
  (List.range (rNrf w)).foldl (fun s n =>
    s.sysPut i (rRes w + 64 * fmtLines f * ((16 * j + t / 64) * rNrf w + n) + 192 + rowBytes f * (t % 64))
      (List.replicate (rowBytes f) 0)) s

/-- Write ROUTED once every choice of every slot of the route is resolved in the step (R331). -/
def State.tryRouted (s : State) (i r : Nat) : State :=
  match Map.get? s.rulSrc (routeKey i r) with
  | none => s
  | some x =>
    if !x.last || x.routed || !(x.slots.all fun y => slotDone y.2) then s else
    let s := s.seenRoute i x.side r
    let w := s.routeEntry i x.side r
    let k := rKmax w
    let ts := (List.range x.slots.length).zip (x.slots.map Prod.snd)
    let renorm := s.rdb (Reg.RCFG i) 3
    let s := ts.foldl (fun s t =>
      let ws := gateWeights (rNorm w) renorm (t.2.map fun c => (c.score, c.st == 1))
      (List.range k).foldl (fun s j =>
        s.sysPut i (rWcol w + 256 * (16 * j + t.1 / 64) + 4 * (t.1 % 64)) (leBytes 4 (ws.getD j 0).toNat)) s) s
    let s := ts.foldl (fun s t => (List.range k).foldl (fun s j =>
      if ((t.2[j]?).map Choice.st).getD 0 = 1 then s else s.zeroResult i w t.1 j) s) s
    let s := ts.foldl (fun s t => s.sysPut i (rWcol w + 32768 + 64 * t.1) (leBytes 64 (routeRecord t.2))) s
    let s := s.ctlWord i w 8 x.step 1
    { s with rulSrc := Map.set s.rulSrc (routeKey i r) { x with routed := true } }

/-- Set the state of choice j of token slot t that is not dropped yet. -/
def RulSrc.resolve (x : RulSrc) (t j st : Nat) : RulSrc :=
  match x.slots[t]? with
  | none => x
  | some y =>
    let cs := match y.2[j]? with
      | none => y.2
      | some c => y.2.set j { c with st := st }
    { x with slots := x.slots.set t (y.1, cs) }

/-- The choice a tag names. -/
def RulSrc.choice (x : RulSrc) (t j : Nat) : Option Choice := (x.slots[t]?).bind fun y => y.2[j]?

/-- SHEET of a tag (R318). -/
def tagSheet (t : Nat) : Nat := bits t 50 47
/-- SRCPOS of a tag. -/
def tagPos (t : Nat) : Nat := bits t 46 31
/-- CHOICE of a tag. -/
def tagChoice (t : Nat) : Nat := bits t 30 28
/-- TSLOT of a tag. -/
def tagSlot (t : Nat) : Nat := bits t 27 18

/-- The routes of a sheet whose current step a message names, on the source side. -/
def State.sourceRoutes (s : State) (i : Nat) (p : Packet) : List Nat :=
  (List.range 256).filter fun r =>
    match Map.get? s.rulSrc (routeKey i r) with
    | none => false
    | some x => sameStep p x.step

/-- POOLANS at the source (R312, R313): the choice is delivered or dropped.  The message names no route, so it goes to the one
of the step that waits for this tag's answer, or whose quota row the tag is (DEDUCED, log entry 27). -/
def State.rxPoolans (s : State) (p : Packet) : State × Nat :=
  let tag := p.imm.toNat
  let i := tagSheet tag
  let t := tagSlot tag
  let j := tagChoice tag
  if !(s.routes i) then (s, 2) else
  let rs := s.sourceRoutes i p
  let hit (r : Nat) (st : Nat) : Bool :=
    match Map.get? s.rulSrc (routeKey i r) with
    | none => false
    | some x => (x.slots[t]?.map Prod.fst) == some (tag % 2 ^ 18) && ((x.choice t j).map Choice.st) == some st
  if rs.isEmpty then (s.stale i, 0) else
  match (rs.find? (hit · 0)).orElse fun _ => if p.atop.getLsbD 0 then none else rs.find? (hit · 1) with
  | none => (s, 0)
  | some r =>
    match Map.get? s.rulSrc (routeKey i r) with
    | none => (s, 0)
    | some x =>
      let ok := p.atop.getLsbD 0
      let s : State := { s with rulSrc := Map.set s.rulSrc (routeKey i r) (x.resolve t j (if ok then 1 else 2)) }
      let s := if ok then s else (s.seenRoute i x.side r).countDrop i r (s.routeEntry i x.side r) (((x.choice t j).map Choice.expert).getD 0)
      (s.tryRouted i r, 0)

/-! ## Rows in messages and in folios (R45, R317, R321, R322, R330, 12 R495) -/

/-- A row's elements and its two scale bytes in a folio. -/
structure RowBytes where
  elems : List Byte
  scales : List Byte
  deriving DecidableEq, Repr

/-- Row m of a folio at a TIER address. -/
def State.folioRow (s : State) (a fmt m : Nat) : RowBytes :=
  ⟨s.loadTier (a + 192 + rowBytes fmt * m) (rowBytes fmt), s.loadTier (a + 64 + 2 * m) 2⟩

/-- Write row m of a folio. -/
def State.putRow_ (s : State) (i a fmt m : Nat) (x : RowBytes) : State :=
  (s.sysPut i (a + 64 + 2 * m) x.scales).sysPut i (a + 192 + rowBytes fmt * m) x.elems

/-- The payload granules of a DISPATCH or a RETROW. -/
def rowGranules (entry route : Nat) (xs : List RowBytes) : List (List Byte) :=
  let sc := xs.flatMap RowBytes.scales
  let el := xs.flatMap RowBytes.elems
  fit 64 0 (leBytes 8 entry ++ [BitVec.ofNat 8 route]) ::
    ((chunks 64 (sc.length + 1) sc).map (fit 64 0) ++ (chunks 64 (el.length + 1) el).map (fit 64 0))

/-- Row part f of a DISPATCH or RETROW with n folios of a format. -/
def rowPart (p : Packet) (n fmt f : Nat) : RowBytes :=
  let ns := (2 * n + 63) / 64
  let sc := ((p.gran.drop 1).take ns).flatMap id
  let el := (p.gran.drop (1 + ns)).flatMap id
  ⟨fit (rowBytes fmt) 0 ((el.drop (rowBytes fmt * f)).take (rowBytes fmt)), fit 2 0 ((sc.drop (2 * f)).take 2)⟩

/-- The route byte of a DISPATCH or RETROW. -/
def rowRoute (p : Packet) : Nat := ((p.gran.headD []).getD 8 0).toNat

/-! ## The home side (R312, R321 to R326, R334) -/

/-- A routing message. -/
def rulPacket (s : State) (opc dst atop step imm : Nat) : Packet :=
  { mkPacket opc s.pos dst with atop := BitVec.ofNat 4 atop, offset := BitVec.ofNat 36 (step % 2 ^ 32), imm := BitVec.ofNat 64 imm }

/-- The job slot of a sheet's first stepped context, which events name as the job. -/
def State.jobOf (s : State) (i : Nat) : Nat :=
  match (List.range 8).find? fun c => s.rdb (Reg.CCFG i c) 9 with
  | some c => s.rd (Reg.CCFG i c) 8 5
  | none => 0

/-- Mark of the Ruling unit's messages. -/
def State.rulIssuer (s : State) (i : Nat) : Issuer := ⟨4, 1, s.jobOf i, 0, 0, 0, 0⟩

/-- Answer a row: take or reject (R312). -/
def State.poolAnswer (s : State) (i : Nat) (p : Packet) (ok : Bool) : State :=
  let a := rulPacket s 0x21 (tagPos p.imm.toNat) (if ok then 1 else 0) p.offset.toNat p.imm.toNat
  State.sendSys State.rxPoolans (s.rulIssuer i) s a

/-- Reject a row (R312, R334). -/
def State.rejectRow (s : State) (i : Nat) (p : Packet) : State := (s.bumpSat (Reg.POOL_REJ i)).poolAnswer i p false

/-- The home side of a route in a step of a context. -/
def State.home (s : State) (i r c v : Nat) : RulHome :=
  let fresh : RulHome := ⟨c, v, s.stepSide i c v, [], [], [], false, 0, []⟩
  match Map.get? s.rulHome (routeKey i r) with
  | some h => if h.step = v && h.ctx == c then h else fresh
  | none => fresh

/-- Store it. -/
def State.setHome (s : State) (i r : Nat) (h : RulHome) : State := { s with rulHome := Map.set s.rulHome (routeKey i r) h }

/-- The hosted experts of a route: expert entries with HOSTED set. -/
def State.hosted (s : State) (i side w : Nat) : List Nat :=
  ((List.range (rExperts w)).map (s.expertEntry i side w)).filter xHosted

/-- The hosted expert whose replica here is reached through a window, with the pool of the replica (DEDUCED, log entry 28). -/
def State.hostedBy (s : State) (i side w win : Nat) : Option (Nat × Nat) :=
  (s.hosted i side w).findSome? fun x =>
    ((List.range (xNrep x)).map (xRep x)).find? (fun d => bits d 63 48 == s.pos && bits d 47 44 == i && bits d 43 32 == win)
      |>.map fun d => (x, poolSize w d)

/-- Lines of a landing block (R321). -/
def blockLines (w : Nat) : Nat := 17 + rNdf w * fmtLines (rDfmt w)

/-- Address of block b of a landing slot (R321). -/
def blockAddr (w slot b : Nat) : Nat := rLand w + 64 * blockLines w * (slot * rBlocks w + b)

/-- Place the n-th row of a slot, the reserved bits of its tag zero (R318, R322; 00 R8) (DEDUCED in part, log entry 49). -/
def State.landRow (s : State) (i w slot n : Nat) (p : Packet) : State :=
  let a := blockAddr w slot (n / 64)
  let m := n % 64
  let f := rDfmt w
  let e := leNat ((p.gran.headD []).take 8) % 2 ^ 63 + 2 ^ 63
  let s := (s.sysPut i (a + 64 + 8 * m) (leBytes 8 e)).sysPut i (a + 576 + 8 * m)
    (leBytes 8 (p.imm.toNat % 2 ^ 51))
  let hd := makeHeader ⟨0, f, false, false, 0, 0, 65535, 65535, 0x3F800000⟩ 64 64 false false 0 0 0
  (List.range (rNdf w)).foldl (fun s k =>
    let b := a + 64 * (17 + k * fmtLines f)
    (s.sysPut i b hd).putRow_ i b f m (rowPart p (rNdf w) f k)) s

/-- DISPATCH at the home (R312, R322, R334). -/
def State.rxDispatch (s : State) (p : Packet) : State × Nat :=
  match Map.get? s.windows p.win.toNat with
  | none => (s.poolAnswer 0 p false, 0)
  | some win =>
    let i := win.sheet
    if !(s.routes i) then (s.rejectRow i p, 2) else
    let r := rowRoute p
    match s.homeCtx i r p with
    | none => (s.stale i, 0)
    | some (c, v) =>
      let h := s.home i r c v
      let s := s.seenRoute i h.side r
      let w := s.routeEntry i h.side r
      let s := if rValid w then s.seenExperts i h.side w else s
      match (if rValid w then s.hostedBy i h.side w p.win.toNat else none) with
      | none => (s.rejectRow i p, 0)
      | some (x, pool) =>
        let slot := xSlot x
        let n := Map.getD h.rows slot 0
        let taken := Map.getD h.pool slot 0
        let isPool := p.atop.getLsbD 0
        if rBlocks w * 64 ≤ n || h.closed || (isPool && pool ≤ taken) then (s.rejectRow i p, 0) else
        let s := s.setHome i r { h with rows := Map.set h.rows slot (n + 1),
                                        pool := if isPool then Map.set h.pool slot (taken + 1) else h.pool }
        let s := s.landRow i w slot n p
        (if isPool then (s.bump (Reg.POOL_ADM i)).poolAnswer i p true else s, 0)

/-- Slots of the hosted experts. -/
def slotsOf (xs : List Nat) : List Nat := distinct (xs.map xSlot)

/-- Every hosted slot is final: the counts, the cancels of empty experts, CLOSED (R324). -/
def State.closeRoute (s : State) (i r w : Nat) (h : RulHome) (xs : List Nat) : State :=
  let slots := slotsOf xs
  let cnt (k : Nat) : Nat := Map.getD h.rows k 0
  let s := slots.foldl (fun s k => s.sysPut i (rCtl w + 64 + 4 * k) (leBytes 4 (cnt k))) s
  let s := slots.foldl (fun s k =>
    (List.range (rBlocks w)).foldl (fun s b => s.sysPut i (blockAddr w k b) (leBytes 4 (min 64 (cnt k - 64 * b)))) s) s
  let s := xs.foldl (fun s x => if cnt (xSlot x) = 0 && xGroup x != 0 then s.cancelGroup i (xGroup x) none else s) s
  (s.setHome i r { h with closed := true, sel := 1 }).ctlWord i w 24 h.step (rNhost w)

/-- CLOSE at the home (R320, R324). -/
def State.rxClose (s : State) (p : Packet) : State × Nat :=
  match Map.get? s.windows p.win.toNat with
  | none => (s, 0)
  | some win =>
    let i := win.sheet
    if !(s.routes i) then (s, 2) else
    let r := bits p.imm.toNat 39 32
    match s.homeCtx i r p with
    | none => (s.stale i, 0)
    | some (c, v) =>
      let h := s.home i r c v
      let s := s.seenRoute i h.side r
      let w := s.routeEntry i h.side r
      let s := if rValid w then s.seenExperts i h.side w else s
      let x := s.expertEntry i h.side w (bits p.imm.toNat 51 40)
      if !(rValid w) || !(xHosted x) then (s, 0) else
      let h := { h with closes := Map.set h.closes (xSlot x) (Map.getD h.closes (xSlot x) 0 + 1) }
      let s := s.setHome i r h
      let xs := s.hosted i h.side w
      if !h.closed && (slotsOf xs).all fun k => decide (rNsrc w ≤ Map.getD h.closes k 0) then (s.closeRoute i r w h xs, 0)
      else (s, 0)

/-- Write SELECT (R162, R323, R325). -/
def State.writeSelect (s : State) (i r w : Nat) (h : RulHome) (idx : Nat) (timeout : Bool) : State :=
  (s.setHome i r { h with sel := 2 }).sysPut i (rCtl w)
    (leBytes 8 (h.step % 2 ^ 32 * 2 ^ 32 + (if timeout then 32768 else 0) + idx % 32))

/-- A write of VSEL (R325, R326, R336). -/
def State.vselWrite (s : State) (v : Nat) : State :=
  let i := bits v 19 16
  let r := bits v 15 8
  match Map.get? s.rulHome (routeKey i r) with
  | none => s.wr Reg.VSEL_STAT 1 0 3
  | some h =>
    if h.step % 4096 != bits v 31 20 || h.sel = 0 then s.wr Reg.VSEL_STAT 1 0 3
    else if h.sel = 2 then (s.bumpSat (Reg.VLATE i)).wr Reg.VSEL_STAT 1 0 2
    else
      let s := s.seenRoute i h.side r
      (s.writeSelect i r (s.routeEntry i h.side r) h (bits v 4 0) false).wr Reg.VSEL_STAT 1 0 1

/-- VSEL. -/
def execVsel (v : W32) (s : State) : Host.Outcome State Fault Refusal := act s fun s => s.vselWrite v.toNat

/-- VTIMEOUT: no VSEL within 4 µs of CLOSED (R325). -/
def execVtimeout (i : Fin 16) (r : Fin 256) (s : State) : Host.Outcome State Fault Refusal :=
  act s fun s =>
    match Map.get? s.rulHome (routeKey i.val r.val) with
    | none => s
    | some h =>
      if h.sel != 1 then s else
      let s := s.seenRoute i.val h.side r.val
      let w := s.routeEntry i.val h.side r.val
      ((s.writeSelect i.val r.val w h (rDefv w) true).bumpSat (Reg.VTIMEOUT i.val)).post 0x0603 [i.val, r.val, h.step]

/-! ## Return (R328 to R330) -/

/-- RETROW at the source. -/
def State.rxRetrow (s : State) (p : Packet) : State × Nat :=
  let i := p.issuer.toNat % 16
  let r := rowRoute p
  if !(s.routes i) then (s, 2) else
  match Map.get? s.rulSrc (routeKey i r) with
  | none => (s.stale i, 0)
  | some x =>
    if !(sameStep p x.step) then (s.stale i, 0) else
    let s := s.seenRoute i x.side r
    let w := s.routeEntry i x.side r
    let f := rRfmt w
    let t := tagSlot p.imm.toNat
    ((List.range (rNrf w)).foldl (fun s k =>
      s.putRow_ i (rRes w + 64 * fmtLines f * ((16 * tagChoice p.imm.toNat + t / 64) * rNrf w + k)) f (t % 64)
        (rowPart p (rNrf w) f k)) s, 0)

/-- RETHDR at the source: RETURNED counts it. -/
def State.rxRethdr (s : State) (p : Packet) : State × Nat :=
  let i := p.issuer.toNat % 16
  let r := bits p.imm.toNat 39 32
  if !(s.routes i) then (s, 2) else
  match Map.get? s.rulSrc (routeKey i r) with
  | none => (s.stale i, 0)
  | some x =>
    if !(sameStep p x.step) then (s.stale i, 0) else
    let x := { x with returned := x.returned + 1 }
    let s : State := { s with rulSrc := Map.set s.rulSrc (routeKey i r) x }
    let s := s.seenRoute i x.side r
    (s.ctlWord i (s.routeEntry i x.side r) 16 x.step x.returned, 0)

/-- One row of a RETURN: its tag and its bytes. -/
structure RetRow where
  tag : Nat
  parts : List RowBytes
  deriving DecidableEq, Repr

/-- A row of a folio that a stroke read. -/
def foliosRow (bs : List Byte) (fmt m : Nat) : RowBytes :=
  ⟨(bs.drop (192 + rowBytes fmt * m)).take (rowBytes fmt), (bs.drop (64 + 2 * m)).take 2⟩

/-- Read the NRF folios of a RETURN as bytes, with the header check of R328: folio f lies STRIDE0 lines on (DEDUCED, log entry 29). -/
def State.readRaw (r : Run) (space fmt stride : Nat) : Nat → Nat → List (List Byte) → State → Got (List (List Byte))
  | 0, _, acc, s => .ok s acc.reverse
  | n + 1, a, acc, s =>
    (s.readOp r space a 64).bind fun s h =>
      if !(headerOk h) || headerFmt h != fmt || bit (h.getD 1 0).toNat 1 || leNat ((h.drop 4).take 4) != 0x3F800000 then .bad s 0x06 a
      else (s.readOp r space a (64 * fmtLines fmt)).bind fun s b => State.readRaw r space fmt stride n (a + 64 * stride) (b :: acc) s

/-- Send the rows and the segment headers of a RETURN at its boundary. -/
def State.sendReturn (s : State) (r : Run) (route slot v : Nat) (rows : List RetRow) (dsts : List Nat) : State :=
  let x := s.rulIssuer r.i
  let y := s.ctx r.i r.c
  let s := s.setCtx r.i r.c { y with returns := route :: y.returns.filter (· != route) }
  let key (sheet pos : Nat) : Nat := slot * 2 ^ 20 + sheet * 2 ^ 16 + pos
  let s := rows.foldl (fun s y =>
    let sh := tagSheet y.tag
    let po := tagPos y.tag
    let h := s.home r.i route r.c v
    let s := s.setHome r.i route { h with retRows := Map.set h.retRows (key sh po) (Map.getD h.retRows (key sh po) 0 + 1) }
    let g := rowGranules 0 route y.parts
    State.sendSys State.rxRetrow x s { rulPacket s 0x23 po 0 v y.tag with issuer := BitVec.ofNat 8 sh, gran := g,
                                                                           ngm1 := BitVec.ofNat 10 (g.length - 1) }) s
  dsts.foldl (fun s d =>
    let sh := bits d 19 16
    let po := bits d 15 0
    let n := Map.getD (s.home r.i route r.c v).retRows (key sh po) 0
    State.sendSys State.rxRethdr x s
      { rulPacket s 0x24 po 0 v (n % 2 ^ 32 + route * 2 ^ 32 + slot * 2 ^ 40) with issuer := BitVec.ofNat 8 sh }) s

/-- RETURN (R151, R328): a route that is not valid or a sheet that does not route raises ACCESS, and a return list longer than
128 entries SHAPE (DEDUCED, log entry 29). -/
def returnStroke (r : Run) (s : State) : Got Done :=
  let d := r.d
  let route := bits (kImm2 d) 7 0
  let slot := bits (kImm2 d) 19 8
  let v := (s.scribe r.scribe).last.toNat
  let s := s.seenRoute r.i (s.stepSide r.i r.c v) route
  let w := s.routeEntry r.i (s.stepSide r.i r.c v) route
  if !(s.routes r.i) || !(rValid w) then .bad s 0x0B 0 else
  (s.readRows r).bind fun s x =>
  (s.readOp r (oSpace (kSrc2 d)) (oAddr r.k (kSrc2 d)) 4).bind fun s nb =>
    if 128 < leNat nb then .bad s 0x03 0 else
    (s.readOp r (oSpace (kSrc2 d)) (oAddr r.k (kSrc2 d) + 4) (4 * leNat nb)).bind fun s ds =>
      let dsts := (chunks 4 (leNat nb) ds).map leNat
      if x.m = 0 then .ok s ⟨[], [], [], fun s => s.sendReturn r route slot v [] dsts⟩ else
      (State.readRaw r (oSpace (kSrc0 d)) (rRfmt w) (kStride0 d) (rNrf w) (oAddr r.k (kSrc0 d)) [] s).bind fun s fs =>
      (s.readOp r (oSpace (kSrc1 d)) (oAddr r.k (kSrc1 d)) (8 * x.m)).bind fun s tb =>
        let rows := ((List.range x.m).filter fun m => x.isValid m && x.isLive m).map fun m =>
          (⟨leNat ((tb.drop (8 * m)).take 8), fs.map fun f => foliosRow f (rRfmt w) m⟩ : RetRow)
        .ok s ⟨[], [], [], fun s => s.sendReturn r route slot v rows dsts⟩

/-- RETURN. -/
def execReturn (q : Fin 64) (k : Fin 8) (lost : Nat) (s : State) : Host.Outcome State Fault Refusal :=
  act s fun s => s.compute q.val k.val 0x0A (fun _ => true) lost returnStroke

/-! ## Submission (R150, R311, R315 to R320) -/

/-- The source side of a route in a step of a context. -/
def State.source (s : State) (i r c v q : Nat) : RulSrc :=
  let fresh : RulSrc := ⟨c, v, s.stepSide i c v, q, [], [], [], false, false, 0⟩
  match Map.get? s.rulSrc (routeKey i r) with
  | some x => if x.step = v && x.ctx == c then x else fresh
  | none => fresh

/-- Store it. -/
def State.setSource (s : State) (i r : Nat) (x : RulSrc) : State := { s with rulSrc := Map.set s.rulSrc (routeKey i r) x }

/-- Address of folio f of block b of the dispatch area (R317). -/
def dispFolio (w b f : Nat) : Nat := rDisp w + 64 * fmtLines (rDfmt w) * (b * rNdf w + f)

/-- Send the row of a choice to its replica (R318, R319). -/
def State.dispatchRow (s : State) (i route w t j entry rep : Nat) (v : Nat) (pool : Bool) : State :=
  let tag := i * 2 ^ 47 + s.pos * 2 ^ 31 + j * 2 ^ 28 + t * 2 ^ 18 + eSlip entry
  let g := rowGranules entry route ((List.range (rNdf w)).map fun f => s.folioRow (dispFolio w (t / 64) f) (rDfmt w) (t % 64))
  let p := { rulPacket s 0x20 (bits rep 63 48) (if pool then 1 else 0) v tag with
    win := BitVec.ofNat 12 (bits rep 43 32), gran := g, ngm1 := BitVec.ofNat 10 (g.length - 1) }
  State.sendSys State.rxDispatch (s.rulIssuer i) (s.bump (Reg.DISPATCHED i)) p

/-- Admit choice j of a row at the source: a quota row, a pool row, or a drop (R311). -/
def State.offerRow (s : State) (i route ctx w t j entry v q : Nat) (c : Nat × W32) : State :=
  let x := s.source i route ctx v q
  let s := s.seenPlc i x.side (0x4000 + 64 * (rEbase w + c.1))
  let e := s.expertEntry i x.side w c.1
  let k := replicaOf (eSlip entry) (ePos entry) (xNrep e)
  let rep := xRep e k
  let key := 4 * c.1 + k
  let used := Map.getD x.used key 0
  let add (st : Nat) : RulSrc :=
    { x with slots := x.slots.set t (eSlip entry, ((x.slots[t]?).map Prod.snd).getD [] ++ [⟨c.1, k, st, c.2⟩]) }
  let sent (y : RulSrc) : RulSrc := { y with sent := Map.set y.sent key (Map.getD y.sent key 0 + 1) }
  if used < bits rep 15 0 then
    (s.setSource i route { sent (add 1) with used := Map.set x.used key (used + 1) }).dispatchRow i route w t j entry rep v false
  else if poolSize w rep != 0 && !(s.rdb (Reg.SCTL i) 3) then
    (s.setSource i route (sent (add 0))).dispatchRow i route w t j entry rep v true
  else (s.setSource i route (add 2)).countDrop i route w c.1

/-- A scored row takes the next token slot; its choices are admitted in order (R311, R315, R317). -/
def State.submitRow (s : State) (i route ctx w v q entry : Nat) (cs : List (Nat × W32)) : State :=
  let x := s.source i route ctx v q
  let t := x.slots.length
  let s := s.setSource i route { x with slots := x.slots ++ [(eSlip entry, [])] }
  ((List.range cs.length).zip cs).foldl (fun s y => s.offerRow i route ctx w t y.1 entry v q y.2) s

/-- The closing headers of a source's last submission (R320). -/
def State.sendCloses (s : State) (i route w v : Nat) (x : RulSrc) : State :=
  (List.range (rExperts w)).foldl (fun s e =>
    let s := s.seenPlc i x.side (0x4000 + 64 * (rEbase w + e))
    let ent := s.expertEntry i x.side w e
    (List.range (xNrep ent)).foldl (fun s k =>
      let rep := xRep ent k
      let n := Map.getD x.sent (4 * e + k) 0
      State.sendSys State.rxClose (s.rulIssuer i) s
        { rulPacket s 0x22 (bits rep 63 48) 0 v (n % 2 ^ 32 + route * 2 ^ 32 + e * 2 ^ 40) with
          win := BitVec.ofNat 12 (bits rep 43 32) }) s) s

/-- A RULE hands its rows to the Ruling unit (R150). -/
def State.submitRule (s : State) (r : Run) (route w v : Nat) (rows : List (Nat × Bool × List (Nat × W32))) (last : Bool) : State :=
  let s := s.setSource r.i route (s.source r.i route r.c v r.q)
  let s := rows.foldl (fun s y => s.submitRow r.i route r.c w v r.q y.1 y.2.2) s
  let flt := (rows.filter fun y => y.2.1).length
  let s := if flt = 0 then s else (s.bumpSat (Reg.SCOREFLT r.i) flt).postOnce 0x0601 [r.i]
  if !last then s else
  let x := { s.source r.i route r.c v r.q with last := true }
  ((s.setSource r.i route x).sendCloses r.i route w v x).tryRouted r.i route

/-- Check the dispatch folios of one block from token slot t on: their headers (R316), by the address of the folio that fails (02 R44). -/
def State.dispHeads (r : Run) (w b : Nat) : List Nat → State → Got Unit
  | [], s => .ok s ()
  | f :: fs, s =>
    let a := dispFolio w b f
    (s.readOp r 2 a 64).bind fun s h =>
      if headerOk h && headerFmt h == rDfmt w && !(bit (h.getD 1 0).toNat 1) && leNat ((h.drop 4).take 4) == 0x3F800000 then
        State.dispHeads r w b fs s
      else .bad s 0x06 a

/-- Read the activation row of a token slot, which a line that cannot be corrected fails (R317; 05 R215). -/
def State.dispRow (r : Run) (w t : Nat) : List Nat → State → Got Unit
  | [], s => .ok s ()
  | f :: fs, s =>
    let a := dispFolio w (t / 64) f
    (s.readOp r 2 (a + 64 + 2 * (t % 64)) 2).bind fun s _ =>
    (s.readOp r 2 (a + 192 + rowBytes (rDfmt w) * (t % 64)) (rowBytes (rDfmt w))).bind fun s _ => State.dispRow r w t fs s

/-- Check the dispatch folios of token slots: the headers of each block met, and the rows that are sent (R316, R317). -/
def State.dispCheck (r : Run) (w : Nat) : List (Nat × Bool × Bool) → State → Got Unit
  | [], s => .ok s ()
  | (t, head, sent) :: ts, s =>
    (if head then State.dispHeads r w (t / 64) (List.range (rNdf w)) s else .ok s ()).bind fun s _ =>
    (if sent then State.dispRow r w t (List.range (rNdf w)) s else .ok s ()).bind fun s _ => State.dispCheck r w ts s

/-- RULE (R150, R316).  Scores that are not FP32 raise PAIRING (DESIGN CHOICE, log entry 147). -/
def ruleStroke (r : Run) (s : State) : Got Done :=
  let d := r.d
  let route := kImm2 d % 256
  let last := kSub d == 1
  let v := (s.scribe r.scribe).last.toNat
  let x := s.source r.i route r.c v r.q
  let s := s.seenRoute r.i x.side route
  let w := s.routeEntry r.i x.side route
  if !(s.routes r.i) || !(rValid w) then .bad s 0x0B 0
  else if kNp d != (rExperts w + 63) / 64 || x.quire != r.q then .bad s 0x03 0 else
  (s.readRows r).bind fun s rb =>
    if 1024 < x.slots.length + rb.m then .bad s 0x03 0
    else if rb.m = 0 then .ok s ⟨[], [], [], fun s => s.submitRule r route w v [] last⟩
    else
    (State.dispCheck r w ((List.range rb.m).map fun m =>
      (x.slots.length + m, m == 0 || (x.slots.length + m) % 64 == 0, rb.isLive m)) s).bind fun s _ =>
    (State.readFolios r (oSpace (kSrc0 d)) (kStride0 d) (kNp d) (oAddr r.k (kSrc0 d)) [] s).bind fun s fs =>
      if fs.any fun f => f.folio.fmt != 0 then .bad s 0x05 0 else
      let mode := s.rd (Reg.RCFG r.i) 1 0
      let rows := (List.range rb.m).map fun m =>
        let sc := (List.range (rExperts w)).map fun e =>
          match fs[e / 64]? with
          | some f => f.folio.value m (e % 64)
          | none => 0
        if rb.isLive m then (rb.entry m, sc.any (fun y => !(finite32 y)), chooseExperts mode w sc) else (rb.entry m, false, [])
      .ok s ⟨[], [], fs, fun s => s.submitRule r route w v rows last⟩

/-- RULE. -/
def execRule (q : Fin 64) (k : Fin 8) (lost : Nat) (s : State) : Host.Outcome State Fault Refusal :=
  act s fun s => s.compute q.val k.val 0x09 (fun _ => true) lost ruleStroke

/-! ## Registers (R335, R337) -/

/-- A mode change that is reserved is cleared and logged (R337). -/
def State.modeCheck (s : State) (i : Nat) (cls : Nat) : State :=
  let o := Reg.RCFG i
  if s.rdb o 28 && s.rd o 5 4 == 3 then (s.wrb o 28 false).logWrite o (s.word o).toNat cls else s

/-- TPEND. -/
def execTpend (i : Fin 16) (s : State) : Host.Outcome State Fault Refusal := act s fun s => s.wrb (Reg.RCFG i.val) 30 true

/-- MPEND. -/
def execMpend (i : Fin 16) (s : State) : Host.Outcome State Fault Refusal :=
  act s fun s => (s.wrb (Reg.RCFG i.val) 28 true).modeCheck i.val 0

/-- A write in RUL. -/
def State.rulWrite (s : State) (off v cls : Nat) : State :=
  if off = Reg.VSEL then s.vselWrite v
  else if 0x61000 ≤ off ∧ off < 0x61400 then
    let i := (off - 0x61000) / 0x40
    if off = Reg.RCFG i then (s.writeReg off v).modeCheck i cls
    else if off = Reg.PLC_LO i ∨ off = Reg.PLC_HI i then s.guardedWrite (!(s.routes i)) off v cls
    else s.writeReg off v
  else s.writeReg off v

end Sys2Proof.Machine
end

