-- ==== Sys2Proof/Machine/Mirror.lean ====
section
/-! DEFINITION. Slips, job records and step areas as the Roll and the mirror engine read them, and the mirror engine
(09_serving.md R338 to R342, R354 to R356, R384; 13_topology_failover.md R548 to R557, R565, R573). -/

namespace Sys2Proof.Machine

/-! ## Slips (R341) -/

/-- Put a value into bits [hi:lo] of a number. -/
def putBits (w hi lo v : Nat) : Nat := w / 2 ^ (hi + 1) * 2 ^ (hi + 1) + v % 2 ^ (hi + 1 - lo) * 2 ^ lo + w % 2 ^ lo

/-- The slip at an index. -/
def State.slip (s : State) (i : Nat) : Nat := s.unitLe (physSlip i) 128

/-- A slip is read: what is counted and recorded (05 R213, R215). -/
def State.seenSlip (s : State) (i : Nat) : State := s.seen (physSlip i) 128 (bits (physSlip i) 49 0) 16

/-- STATE. -/
def slState (w : Nat) : Nat := bits w 3 0
/-- PRIO. -/
def slPrio (w : Nat) : Nat := bits w 7 4
/-- CXP. -/
def slCxp (w : Nat) : Bool := bit w 8
/-- PSP. -/
def slPsp (w : Nat) : Bool := bit w 9
/-- INSTEP. -/
def slInstep (w : Nat) : Bool := bit w 10
/-- PFX. -/
def slPfx (w : Nat) : Bool := bit w 11
/-- CLEN. -/
def slClen (w : Nat) : Nat := bits w 39 16
/-- TLEN. -/
def slTlen (w : Nat) : Nat := bits w 47 44
/-- PCNT. -/
def slPcnt (w : Nat) : Nat := bits w 112 96
/-- PLIST. -/
def slPlist (w : Nat) : Nat := bits w 175 128
/-- RLIST. -/
def slRlist (w : Nat) : Nat := bits w 239 192
/-- DEADLINE. -/
def slDeadline (w : Nat) : Nat := bits w 383 320
/-- ACT. -/
def slAct (w : Nat) : Nat := bits w 435 424
/-- GEN. -/
def slGen (w : Nat) : Nat := bits w 443 436
/-- REASON. -/
def slReason (w : Nat) : Nat := bits w 447 444
/-- NEXT. -/
def slNext (w : Nat) : Nat := bits w 479 448
/-- TAIL_j. -/
def slTail (w j : Nat) : Nat := bits w (511 + 32 * j) (480 + 32 * j)
/-- CREF. -/
def slCref (w : Nat) : Nat := bits w 983 960
/-- CMAX. -/
def slCmax (w : Nat) : Nat := bits w 1007 984
/-- PREC. -/
def slPrec (w : Nat) : Nat := bits w 1023 1008

/-- Is a state terminal (R345)? -/
def terminal (st : Nat) : Bool := st == 6 || st == 7 || st == 8

/-- Change a slip: its lines are read through the code, then stored; at a lead its record in both mirror copies becomes old
(05 R213; 13 R555). -/
def State.setSlip (s : State) (j i w : Nat) : State :=
  let s := (s.seenSlip i).store (physSlip i) (leBytes 128 w)
  if s.rdb (Reg.JCFG j) 30 then
    let m := s.mirr j
    s.setMirr j { m with dirty0 := distinct (m.dirty0 ++ [i]), dirty1 := distinct (m.dirty1 ++ [i]) }
  else s

/-! ## Job records and step areas (R340, R354 to R356) -/

/-- EN of a job slot. -/
def State.slotOn (s : State) (j : Nat) : Bool := s.rdb (Reg.JCFG j) 31
/-- LEAD of a job slot. -/
def State.isLead (s : State) (j : Nat) : Bool := s.rdb (Reg.JCFG j) 30
/-- ROLE of a job slot: prefill. -/
def State.prefill (s : State) (j : Nat) : Bool := s.rdb (Reg.JCFG j) 29
/-- Sheet of a job slot. -/
def State.jSheet (s : State) (j : Nat) : Nat := s.rd (Reg.JCFG j) 23 20

/-- Does a slip index lie in the slot's range (R338)? -/
def State.inRange (s : State) (j i : Nat) : Bool :=
  let b := s.rd (Reg.SBASE j) 17 0
  decide (b ≤ i) && decide (i < b + s.rd (Reg.SCOUNT j) 18 0) && decide (i < 262144)

/-- Slip indices of a slot. -/
def State.slipsOf (s : State) (j : Nat) : List Nat :=
  ((List.range (s.rd (Reg.SCOUNT j) 18 0)).map (s.rd (Reg.SBASE j) 17 0 + ·)).filter fun i => decide (i < 262144)

/-- Every slip of a slot is read. -/
def State.seenSlips (s : State) (j : Nat) : State := (s.slipsOf j).foldl State.seenSlip s

/-- A range of a sheet is read: what is counted and recorded, with the touch bits (05 R176, R213, R215). -/
def State.seenSheet (s : State) (i a n : Nat) : State := if n != 0 && s.tierOk i a n then s.seenTier a n i else s

/-- Read n bytes of a sheet's tiered range as a number, zero where it is not mapped. -/
def State.sheetLe (s : State) (i a n : Nat) : Nat := if s.tierOk i a n then s.tierLe a n else 0

/-- The job record of a slot, zero where it is not pinned to T0. -/
def State.jobRec (s : State) (j : Nat) : Nat :=
  let a := s.addrOf (Reg.JREC_LO j) (Reg.JREC_HI j) 64
  if s.pinnedRange (s.jSheet j) a 128 then s.tierLe a 128 else 0

/-- Job identifier. -/
def jId (w : Nat) : Nat := bits w 15 0
/-- Lead position. -/
def jLead (w : Nat) : Nat := bits w 31 16
/-- NMEM. -/
def jNmem (w : Nat) : Nat := bits w 39 32
/-- MAXACT. -/
def jMaxact (w : Nat) : Nat := bits w 52 40
/-- W. -/
def jWin (w : Nat) : Nat := bits w 79 64
/-- CHUNK. -/
def jChunk (w : Nat) : Nat := bits w 95 80
/-- Address word k of a job record. -/
def jAddr (w k : Nat) : Nat := bits w (64 * k + 47) (64 * k)
/-- STEPA. -/
def jStepa (w : Nat) : Nat := jAddr w 3
/-- log2 of the egress entries. -/
def jEgLog (w : Nat) : Nat := bits w 379 376

/-- A member of a job. -/
structure Member where
  pos : Nat
  slot : Nat
  win : Nat
  deriving DecidableEq, Repr

/-- The member list of a job slot. -/
def State.members (s : State) (j : Nat) : List Member :=
  let jr := s.jobRec j
  (List.range (jNmem jr)).map fun k =>
    let e := s.sheetLe (s.jSheet j) (jAddr jr 2 + 8 * k) 8
    ⟨bits e 15 0, bits e 19 16, bits e 31 20⟩

/-- Word of a slot's step area. -/
def State.stepWordAt (s : State) (j o : Nat) : Nat := s.sheetLe (s.jSheet j) (jStepa (s.jobRec j) + o) 8

/-- Write bytes in a slot's step area. -/
def State.stepPut (s : State) (j o : Nat) (bs : List Byte) : State := s.sysPut (s.jSheet j) (jStepa (s.jobRec j) + o) bs

/-- Step-table entry a of a slot. -/
def State.stepEntry (s : State) (j a : Nat) : Nat := s.sheetLe (s.jSheet j) (jStepa (s.jobRec j) + 0x10000 + 64 * a) 64

/-- SLIP of a step-table entry. -/
def teSlip (e : Nat) : Nat := bits e 17 0
/-- TC of a step-table entry. -/
def teTc (e : Nat) : Nat := bits e 33 18
/-- C of a step-table entry. -/
def teC (e : Nat) : Nat := bits e 79 56
/-- TOK_i of a step-table entry. -/
def teTok (e i : Nat) : Nat := if i ≤ 8 then bits e (223 + 32 * i) (192 + 32 * i) else 0

/-- NACT of the header line of a slot (R355). -/
def State.headNact (s : State) (j : Nat) : Nat := bits (s.stepWordAt j 8) 12 0

/-- A unit reads a slot's job record, its member list, the header lines of its step area and n entries of its step table
(05 R176, R213, R215). -/
def State.seenJob (s : State) (j n : Nat) : State :=
  let i := s.jSheet j
  let s := s.seenSheet i (s.addrOf (Reg.JREC_LO j) (Reg.JREC_HI j) 64) 128
  let jr := s.jobRec j
  if jr = 0 then s else
  ((s.seenSheet i (jAddr jr 2) (8 * jNmem jr)).seenSheet i (jStepa jr) 0x280).seenSheet i (jStepa jr + 0x10000) (64 * n)

/-- The image MSET takes and R549 mirrors: 32 bytes, PLIST, PCNT and RLIST in 8-byte words, then PREC and PFX (DEDUCED, log entry 30). -/
def msetImage (w : Nat) : List Byte :=
  leBytes 8 (slPlist w) ++ leBytes 8 (slPcnt w) ++ leBytes 8 (slRlist w) ++ leBytes 2 (slPrec w) ++
  leBytes 1 (if slPfx w then 1 else 0) ++ leBytes 5 0

/-! ## Writes to the buddy (13 R548 to R551) -/

/-- Is the mirror engine running? -/
def State.mirrors (s : State) : Bool := s.rdb Reg.MIRR_CTL 31

/-- Is the buddy's position LOST? -/
def State.buddyLost (s : State) : Bool := s.rdb Reg.BUDDY 16 && s.isLost (s.rd Reg.BUDDY 15 0)

/-- Is it suspended: the buddy's position is LOST, or no resync was requested since it was (R556, R572)? -/
def State.suspended (s : State) : Bool := s.rd Reg.MIRR_CTL 29 28 == 3 || s.buddyLost

/-- A running mirror engine with a LOST buddy sets STATE to SUSPENDED (R556). -/
def State.mirrState (s : State) : State :=
  if s.mirrors && s.buddyLost && s.rd Reg.MIRR_CTL 29 28 != 3 then (s.wr Reg.MIRR_CTL 29 28 3).report else s

/-- Write one line at an offset of the buddy's mirror area (DEDUCED in part, log entry 46). -/
def State.mirrorPut (s : State) (x : Issuer) (o : Nat) (line : List Byte) : State :=
  let aper := s.rd Reg.MIRR_CTL 11 0 * 2 ^ 36 + o
  let s := s.seenImport none aper
  let e := s.importEntry none aper
  if importOk e o 64 2 then
    s.issue { aperPacket s 0x09 e aper with gran := [line] } x aper (bits e 99 64) (bit e 62)
  else (s.bumpSat Reg.MIRR_ERR).mirrorAck x false

/-- Write lines. -/
def State.mirrorAll (s : State) (x : Issuer) (ls : List (Nat × List Byte)) : State :=
  ls.foldl (fun s l => s.mirrorPut x l.1 l.2) s

/-- Is a sheet mirrored? -/
def State.mirrored (s : State) (i : Nat) : Bool := s.rdb (Reg.MTAB_LO i) 0

/-- Word k of a sheet's mirror table. -/
def State.mtab (s : State) (i k : Nat) : Nat :=
  let a := s.addrOf (Reg.MTAB_LO i) (Reg.MTAB_HI i) 64 + 8 * k
  if s.pinnedRange i a 8 then s.tierLe a 8 else 0

/-- Pool entry k of a sheet (07_attention.md R260, R261). -/
def State.poolEntry (s : State) (i k : Nat) : Nat := s.sheetLe i (s.scb i + 0x2000 + 32 * k) 32

/-- The mirrored line of a list line at an address, when the line lies in the list arena. -/
def State.listTarget (s : State) (i a : Nat) : Option Nat :=
  let b := s.mtab i 0
  if b ≤ a && decide (a < b + s.mtab i 1) then some (s.mtab i 2 + (a - b)) else none

/-- What the engine gathered for the buddy: lines to write, and the pages that cannot be read. -/
structure Copied where
  st : State
  lines : List (Nat × List Byte)
  missing : List Nat

/-- The 64-byte lines of a tiered range with their mirror offsets. -/
def State.rangeLines (s : State) (src dst n : Nat) : List (Nat × List Byte) :=
  (List.range n).map fun k => (dst + 64 * k, s.loadTier (src + 64 * k) 64)

/-- The page set of a page: its slot, where it is mapped, in every pool whose MB_k is valid (R553, R556). -/
def Copied.page (c : Copied) (i p : Nat) : Copied :=
  let part (s : State) (k : Nat) : Nat × Nat × Nat :=
    let e := s.poolEntry i k
    let n := bits e 59 48
    (bits e 47 0 + 64 * n * p, s.mtab i (8 + k) % 2 ^ 48 + 64 * n * p, n)
  let pools := (List.range 64).filter fun k => bit (c.st.mtab i (8 + k)) 63 && bit (c.st.poolEntry i k) 255 &&
    c.st.tierOk i (part c.st k).1 (64 * (part c.st k).2.2)
  let r := pools.foldl (fun (st : State × Bool) k =>
    if !st.2 then st else
    let e := st.1.eccTouch (part st.1 k).1 (64 * (part st.1 k).2.2) i
    (e.1, e.2.isNone)) (c.st, true)
  if pools.isEmpty then c
  else if r.2 then
    ⟨r.1.bump Reg.MIRR_PAGES, c.lines ++ pools.flatMap (fun k => let x := part r.1 k; r.1.rangeLines x.1 x.2.1 x.2.2), c.missing⟩
  else ⟨r.1.bumpSat Reg.MIRR_MISS, c.lines, c.missing ++ [p]⟩

/-- List lines of a page list with the entries of missing pages replaced (R553, R556): entries of the given indices.  A line that
cannot be corrected is not sent (05 R216). -/
def Copied.list (c : Copied) (i plist : Nat) (idx : List Nat) : Copied :=
  (distinct (idx.map fun k => (plist + 4 * k) / 64 * 64)).foldl (fun (c : Copied) a =>
    match c.st.listTarget i a with
    | none => c
    | some t =>
      if !(c.st.tierOk i a 64) then c else
      let b := c.st.readTier a 64 i
      match b.2 with
      | .error _ => { c with st := b.1 }
      | .ok line => { c with st := b.1, lines := c.lines ++ [(t, (chunks 4 16 line).flatMap fun w =>
          if c.missing.contains (leNat w) then leBytes 4 0xFFFFFFFE else w)] }) c

/-- The pages and list lines of one slip; an entry that names no page has none (R560). -/
def Copied.slip (c : Copied) (i plist : Nat) (idx : List Nat) : Copied :=
  let c := idx.foldl (fun (c : Copied) k =>
    let p := c.st.sheetLe i (plist + 4 * k) 4
    if p < 0xFFFFFFFE then c.page i p else c) { c with missing := [] }
  c.list i plist idx

/-- The lines of a rubric list (R340). -/
def Copied.rubric (c : Copied) (i rlist : Nat) : Copied :=
  let n := min 256 (c.st.sheetLe i rlist 4)
  { c with missing := [] }.list i rlist (List.range (n + 1))

/-- The line of the local records of a slip and its neighbour (R549); none when a slip cannot be corrected (05 R216). -/
def State.localLine (s : State) (i : Nat) : List (Nat × List Byte) :=
  if s.clean (physSlip (i / 2 * 2)) 256 then
    [(0x6010000 + 64 * (i / 2), msetImage (s.slip (i / 2 * 2)) ++ msetImage (s.slip (i / 2 * 2 + 1)))]
  else []

/-- The recovery line of a slip (R550). -/
def State.recoveryLine (s : State) (i : Nat) : Nat := s.carveLe (s.addrOf Reg.EPT_LO Reg.EPT_HI 64 + 64 * i) 64

/-- The three lines of a slip record in a copy (R549, R550); none when the slip cannot be corrected (05 R216). -/
def State.slipRecord (s : State) (copy i : Nat) : List (Nat × List Byte) :=
  let o := (if copy = 0 then 0x10000 else 0x3010000) + 192 * i
  let b := leBytes 128 (s.slip i)
  if s.clean (physSlip i) 128 then [(o, b.take 64), (o + 64, b.drop 64), (o + 128, leBytes 64 (s.recoveryLine i))] else []

/-- What MSET makes the engine copy (R554). -/
def State.mirrorMset (s : State) (j i : Nat) : State :=
  let sh := s.jSheet j
  if !s.mirrors || s.suspended || !(s.mirrored sh) then s else
  let s := (s.seenSlip (i / 2 * 2)).seenSlip (i / 2 * 2 + 1)
  let w := s.slip i
  let c := (((⟨s, s.localLine i, []⟩ : Copied).list sh (slPlist w) (List.range (slPcnt w))).rubric sh (slRlist w))
  c.st.mirrorAll ⟨4, 3, j, 0, 0, 0, 0⟩ c.lines

/-! ## Step mirrors (R553, R556) -/

/-- The flagged add of the member to the lead's DONE (R360). -/
def State.addDone (s : State) (j : Nat) : State :=
  match (s.members j).head? with
  | none => s
  | some m =>
    if m.pos = s.pos then s.stepPut j 0x248 (leBytes 8 ((s.stepWordAt j 0x248 + 1) % 2 ^ 64))
    else s.issue { mkPacket 0x0C s.pos m.pos with atop := 1, win := BitVec.ofNat 12 m.win, offset := 0x248, imm := 1 }
      ⟨4, 3, j, 5, 0, 0, 0⟩ 0 0 true

/-- Word k of the triggers at MIRR_WL. -/
def State.triggerWord (s : State) (k : Nat) : Nat :=
  let a := s.addrOf Reg.MIRR_WL_LO Reg.MIRR_WL_HI 256 + 8 * k
  if s.pinned (a / 65536) then s.tierLe a 8 else 0

/-- The triggers are read: what is counted and recorded (05 R176, R213, R215). -/
def State.seenTrigger (s : State) (k : Nat) : State :=
  let a := s.addrOf Reg.MIRR_WL_LO Reg.MIRR_WL_HI 256 + 8 * k
  if s.pinned (a / 65536) then s.seenTier a 8 16 else s

/-- A write into a step trigger: the copies of the step start, in place of those of a step mirror that still runs (DESIGN CHOICE, log
entry 173).  A step that is recomputed after a recovery is mirrored again (R553, R562). -/
def State.stepMirror (s : State) (j : Nat) : State :=
  if !s.mirrors || !(s.slotOn j) then s else
  let s := (s.seenTrigger j).seenJob j 0
  if s.suspended then (s.setMirr j { s.mirr j with stepOf := none, stepOwed := 0 }).addDone j
  else
    let i := s.jSheet j
    let s := s.seenJob j (s.headNact j)
    let c := (List.range (s.headNact j)).foldl (fun (c : Copied) a =>
      let e := c.st.stepEntry j a
      let lo := teC e / 16
      let hi := (teC e + teTc e - 1) / 16
      if c.st.mirrored i then
        { c with st := c.st.seenSlip (teSlip e) }.slip i (slPlist (c.st.slip (teSlip e))) ((List.range (hi + 1 - lo)).map (lo + ·))
      else c) (⟨s, [], []⟩ : Copied)
    let m := c.st.mirr j
    let m := { m with stepOf := some (c.st.triggerWord j), stepOwed := c.lines.length, stepRun := m.stepRun + 1 }
    (c.st.setMirr j m).mirrorAll ⟨4, 3, j, 1, m.stepRun, 0, 0⟩ c.lines

/-- MIRROR_STEP_TRIGGER. -/
def execMirrorStepTrigger (j : Fin 16) (s : State) : Host.Outcome State Fault Refusal := act s fun s => s.stepMirror j.val

/-- MIRROR_STEP_COMPLETE: once every write of the step mirror is acknowledged OK, or the mirror is suspended (R553, R556). -/
def execMirrorStepComplete (j : Fin 16) (s : State) : Host.Outcome State Fault Refusal :=
  act s fun s =>
    let m := s.mirr j.val
    match m.stepOf with
    | none => s
    | some _ =>
      if m.stepOwed = 0 || s.suspended then (s.setMirr j.val { m with stepOf := none, stepOwed := 0 }).addDone j.val
      else s

/-! ## Slip batches (R555) -/

/-- Write MSEQ_j as a flagged store once every record of a batch is acknowledged; a suspended engine writes nothing (R556). -/
def State.batchSeq (s : State) (j : Nat) : State :=
  let m := s.mirr j
  match m.batchOf with
  | none => s
  | some v =>
    if m.batchOwed != 0 then s else
    if s.suspended then s.setMirr j { m with batchOf := none } else
    let s := s.setMirr j { m with batchOf := none, mseq := v }
    let aper := s.rd Reg.MIRR_CTL 11 0 * 2 ^ 36 + 8 * j
    let s := s.seenImport none aper
    let e := s.importEntry none aper
    if importOk e (8 * j) 8 10 then
      s.issue { aperPacket s 0x0C e aper with imm := BitVec.ofNat 64 v } ⟨4, 3, j, 3, 0, v, 0⟩ aper (bits e 99 64) (bit e 62)
    else s.bumpSat Reg.MIRR_ERR

/-- Write the slip records that changed since copy (v mod 2) was last written. -/
def State.batchStart (s : State) (j v : Nat) : State :=
  if s.suspended then s else
  let m := s.mirr j
  let l := if v % 2 = 0 then m.dirty0 else m.dirty1
  let s := l.foldl (fun s i => (s.seenSlip i).seenCarve (s.addrOf Reg.EPT_LO Reg.EPT_HI 64 + 64 * i) 64) s
  let ls := l.flatMap (s.slipRecord (v % 2))
  let m := if v % 2 = 0 then { m with dirty0 := [] } else { m with dirty1 := [] }
  (s.setMirr j { m with batchOf := some v, batchOwed := ls.length }).mirrorAll ⟨4, 3, j, 2, 0, 0, 0⟩ ls

/-- A batch whose records are acknowledged ends, and the next that waits starts, at most fuel of them. -/
def State.batchNext : Nat → Nat → State → State
  | 0, _, s => s
  | n + 1, j, s =>
    let s := s.batchSeq j
    let m := s.mirr j
    match m.batchOf, m.batchQ with
    | none, v :: q => State.batchNext n j ((s.setMirr j { m with batchQ := q }).batchStart j v)
    | _, _ => s

/-- Go on with the batches of a slot. -/
def State.batches (s : State) (j : Nat) : State := State.batchNext ((s.mirr j).batchQ.length + 2) j s

/-- Go on with the batches of every slot. -/
def State.mirrorSweep (s : State) : State := (List.range 16).foldl State.batches s

/-- A batch of number v, after those that wait (R555). -/
def State.batch (s : State) (j v : Nat) : State :=
  (s.setMirr j { s.mirr j with batchQ := (s.mirr j).batchQ ++ [v] }).batches j

/-- MIRROR_BATCH_TRIGGER. -/
def execMirrorBatchTrigger (j : Fin 16) (s : State) : Host.Outcome State Fault Refusal :=
  act s fun s =>
    if !s.mirrors || s.suspended || !(s.slotOn j.val) || !(s.isLead j.val) then s
    else (s.seenTrigger (16 + j.val)).batch j.val ((s.seenTrigger (16 + j.val)).triggerWord (16 + j.val))

/-- The slip batch of every lead when the module flushes (R565) (DEDUCED in part, log entry 47). -/
def State.flushMirror (s : State) : State :=
  if !s.mirrors || s.suspended then s else
  (List.range 16).foldl (fun s j =>
    let m := s.mirr j
    if s.slotOn j && s.isLead j && !(m.dirty0.isEmpty && m.dirty1.isEmpty) then
      s.batch j (((m.batchQ.getLast?).or m.batchOf).getD m.mseq + 1) else s) s

/-! ## Resync (R557) -/

/-- Everything a resync copies for one slot: of a mirrored sheet every local record, the lists of every slip in use and the page sets of
those not terminal; at the lead every slip record. -/
def State.resyncSlot (s : State) (j : Nat) : State :=
  let i := s.jSheet j
  if !(s.slotOn j) then s else
  let c := (s.slipsOf j).foldl (fun (c : Copied) k =>
    let c := { c with st := (c.st.seenSlip k).seenCarve (c.st.addrOf Reg.EPT_LO Reg.EPT_HI 64 + 64 * k) 64 }
    let w := c.st.slip k
    let c := if !(c.st.mirrored i) then c else
      let c := if k % 2 = 0 || !(c.st.inRange j (k - 1)) then { c with lines := c.lines ++ c.st.localLine k } else c
      if slState w = 0 then c else
      (if terminal (slState w) then { c with missing := [] }.list i (slPlist w) (List.range (slPcnt w))
       else c.slip i (slPlist w) (List.range (slPcnt w))).rubric i (slRlist w)
    if c.st.isLead j then { c with lines := c.lines ++ c.st.slipRecord 0 k ++ c.st.slipRecord 1 k } else c) (⟨s.seenJob j 0, [], []⟩ : Copied)
  c.st.mirrorAll ⟨4, 3, j, 4, 0, 0, 0⟩ c.lines

/-- RESYNC: STATE is SYNCING and the copies start, once the engine runs; with a LOST buddy STATE is SUSPENDED (R556). -/
def State.resync (s : State) : State :=
  let s := (s.wrb Reg.MIRR_CTL 30 true).wr Reg.MIRR_CTL 29 28 (if s.mirrors && s.buddyLost then 3 else 1)
  (if s.mirrors && !s.buddyLost then (List.range 16).foldl State.resyncSlot s else s).report

/-- RESYNC. -/
def execResync (s : State) : Host.Outcome State Fault Refusal := act s fun s => s.resync

/-- Is a resync copy still unanswered? -/
def State.resyncing (s : State) : Bool :=
  let mine (x : Issuer) : Bool := x.kind == 4 && x.a == 3 && x.c == 4
  (s.outOps.any fun o => o.issuers.any mine) || (s.gathers.any fun g => g.lines.any fun l => l.2.2.2.any fun x => mine x.1)

/-- RESYNC_COMPLETE. -/
def execResyncComplete (s : State) : Host.Outcome State Fault Refusal :=
  act s fun s =>
    if s.mirrors && s.rd Reg.MIRR_CTL 29 28 == 1 && !s.resyncing then
      ((s.wr Reg.MIRR_CTL 29 28 2).wrb Reg.MIRR_CTL 30 false).report else s

/-! ## Registers (R573) -/

/-- A write in the topology and mirror registers of FAB. -/
def State.topoWrite (s : State) (off v cls : Nat) : State :=
  let free := !s.mirrors
  if off = Reg.MIRR_CTL then
    let keep := s.rd off 11 0
    let s := s.writeReg off v
    let s := if free || keep = bits v 11 0 then s else (s.wr off 11 0 keep).logWrite off v cls
    (if bit v 30 || (free && s.mirrors && s.rdb off 30) then s.resync else s).mirrState
  else if off = Reg.BUDDY ∨ off = Reg.MIRR_WL_LO ∨ off = Reg.MIRR_WL_HI ∨ (Reg.MTAB_LO 0 ≤ off ∧ off < Reg.MTAB_LO 16) then
    let s := s.guardedWrite free off v cls
    if off = Reg.BUDDY then s.report else s
  else s.writeReg off v

end Sys2Proof.Machine
end

