-- ==== Sys2Proof/Machine/Power.lean ====
section
/-! DEFINITION. Power: the budget pass, the phase table, droop, clamps, thermal and rail actions, the flush of a leaving module,
and the input (14_power.md R575 to R597 and R610 to R613, 13_topology_failover.md R565 R566, 18_module_interfaces.md R698 R705). -/

namespace Sys2Proof.Machine

/-! ## Phases (R590, R592 to R595) -/

/-- A quire's current phase: the PHASE of the stroke its lowest-numbered running scribe started last (R590)
(DEDUCED in part, log entry 72). -/
def State.phaseNow (s : State) (q : Nat) : Nat :=
  match s.runsOn q, (List.range 8).find? fun k => (s.scribe (8 * q + k)).watch.isNone with
  | some (i, _), some k =>
    let e := State.seek i k scriptFuel (s.scribe (8 * q + k)).pc s
    if e.cause = 0 then kPhase e.d else (s.quire q).phase
  | _, _ => (s.quire q).phase

/-- Carve-out address of a phase entry on a side (R592). -/
def State.phaseAt (s : State) (side sheet phase : Nat) : Nat :=
  s.addrOf Reg.PTAB_LO Reg.PTAB_HI 0x100000 + side * 0x80000 + 8 * (4096 * sheet + phase % 4096)

/-- The recto side of the phase table. -/
def State.pside (s : State) : Nat := s.rd Reg.PTCTL 30 30

/-- Demand of a quire's current phase in 1/16 W at point 6, or DFLT_DEMAND (R590). -/
def State.demand (s : State) (q : Nat) : Nat :=
  let a := s.phaseAt s.pside (s.ownerOf q) (s.phaseNow q)
  let e := s.unitLe (physCarve a) 8
  if s.inCarve a 8 && bit e 63 then bits e 15 0 else s.rd Reg.PTCTL 25 10

/-- A phase entry after one more observation (R594); the module writes its reserved bits as zero (00 R8). -/
def learnEntry (e obs : Nat) : Nat :=
  if bit e 63 then
    let d : Int := bits e 15 0
    let d' : Nat := (d + ((obs : Int) - d).tdiv 8).toNat
    2 ^ 63 + min 65535 (bits e 47 32 + 1) * 2 ^ 32 + max (bits e 31 16) obs * 2 ^ 16 + d'
  else 2 ^ 63 + 2 ^ 32 + obs * 2 ^ 16 + obs

/-- The end of a phase that lasted ns with a measured power in 1/16 W: learn it into the verso (R594, R595). -/
def State.learn (s : State) (q ns power : Nat) : State :=
  if !(s.rdb Reg.PTCTL 28) || s.rdb Reg.PTCTL 29 || decide (ns < 1000) then s else
  let obs := min 65535 (power * 256 / pointFac (s.rd (Reg.QPT q) 23 16))
  let a := s.phaseAt (1 - s.pside) (s.ownerOf q) (s.quire q).phase
  if s.inCarve a 8 then s.carvePut a (leBytes 8 (learnEntry (s.unitLe (physCarve a) 8) obs)) else s

/-! ## The budget pass (R588 to R591) -/

/-- Power of a quire of demand d at a point (R590). -/
def powerAt (d k : Nat) : Nat := d * pointFac k / 256

/-- fx of R590: the measured power of rails 4 to 7 and of idle quires, increased by 1/16. -/
def State.fx (s : State) : Nat := s.power.fx16 + s.power.fx16 / 16

/-- Total of the running quires, given as (quire, demand, kmax), with every point at most k. -/
def poolAt (l : List (Nat × Nat × Nat)) (k : Nat) : Nat := (l.map fun x => powerAt x.2.1 (min k x.2.2)).foldl (· + ·) 0

/-- The second loop of the pass: the total and the points chosen so far. -/
def passLoop (b k : Nat) : List (Nat × Nat × Nat) → Nat → List (Nat × Nat) → List (Nat × Nat)
  | [], _, pts => pts
  | (q, d, km) :: l, sum, pts =>
    let pt := min k km
    let extra := powerAt d (pt + 1) - powerAt d pt
    if pt < km && decide (sum + extra ≤ b) then passLoop b k l (sum + extra) (pts ++ [(q, pt + 1)])
    else passLoop b k l sum (pts ++ [(q, pt)])

/-- Give a quire its point: a lower one takes effect, a higher one waits for its rail (R589, R613) (DEDUCED in part, log entry 123). -/
def State.setPoint (s : State) (q pt : Nat) : State :=
  let up := s.rd (Reg.QPT q) 23 16 < pt
  let s := if up then s else s.wr (Reg.QPT q) 23 16 pt
  s.setQuire q { s.quire q with raise_ := if up then some pt else none }

/-- A raise that waits on a quire that has ceased to run is abandoned, and while a sensor is critical every quire is held at point 0,
running or not (R610, R613). -/
def State.holdPoints (s : State) : State :=
  let s : State := { s with quires := s.quires.map fun e => if s.runs e.1 then e else (e.1, { e.2 with raise_ := none }) }
  if s.power.crit then (List.range s.nq).foldl (fun s q => s.wr (Reg.QPT q) 23 16 0) s else s

/-- The budget pass (R590), with the stretch of R605 when a forced grant cannot be met at point 0 (DEDUCED in part, log entry 76). -/
def State.budget (s : State) : State :=
  let l := s.runningQuires.map fun q => (q, s.demand q, s.kmax q)
  let b := 16 * s.cap - s.fx
  let k := ([9, 8, 7, 6, 5, 4, 3, 2, 1].find? fun k => decide (poolAt l k ≤ b)).getD 0
  let s := ((passLoop b k l (poolAt l k) []).foldl (fun s x => s.setPoint x.1 x.2) s).holdPoints
  let above := s.rdb Reg.PWR_STAT 29 && k == 0 && decide (b < poolAt l 0)
  (({ s with power := { s.power with overPool := above } }).setRails).setClocks

/-- PHASE_BOUNDARY: where the next stroke's PHASE differs from that of the stroke just completed, the phase that ended is learned, and a
budget pass runs (R121, R591, R594) (DEDUCED in part, log entry 71). -/
def execPhaseBoundary (q : Fin 64) (ns obs fx16 : Nat) (s : State) : Host.Outcome State Fault Refusal :=
  act s fun s =>
    let now := s.phaseNow q.val
    if !(s.runs q.val) || now == (s.quire q.val).phase then s else
    let s := s.learn q.val ns obs
    let s := s.setQuire q.val { s.quire q.val with phase := now }
    State.budget { s with power := { s.power with fx16 := fx16 } }

/-- POINT_RAISE_SETTLED: the rail has settled, and a raise that was not abandoned takes effect (R589, R613). -/
def execPointRaiseSettled (q : Fin 64) (s : State) : Host.Outcome State Fault Refusal :=
  act s fun s =>
    match (s.quire q.val).raise_ with
    | none => s
    | some k =>
      ((s.wr (Reg.QPT q.val) 23 16 k).setQuire q.val { s.quire q.val with raise_ := none }).setClock q.val

/-- PTPEND: a turn of the phase table is requested (R595). -/
def execPtpend (s : State) : Host.Outcome State Fault Refusal := act s fun s => s.wrb Reg.PTCTL 31 true

/-- The recto is copied into the verso (R595) (DEDUCED in part, log entry 122); entries that cannot be read become invalid (05 R216). -/
def State.phaseCopy (s : State) : State :=
  if !(s.rdb Reg.PTCTL 29) then s else
  let a := s.phaseAt s.pside 0 0
  let b := s.phaseAt (1 - s.pside) 0 0
  let s := s.wrb Reg.PTCTL 29 false
  if s.inCarve a 0x80000 && s.inCarve b 0x80000 && !(s.hitsTables b 0x80000) then
    let s := s.correctRange (physCarve a) 0x80000 a
    let s : State := { s with mem := Mem.copy s.mem (physCarve a) 0x80000 (physCarve b), upsets := clearUpsets s.upsets (physCarve b) 0x80000 }
    let s := (s.badLines (physCarve a) 0x80000).foldl (fun s l => s.zero (physCarve b + (64 * l - physCarve a)) 64) s
    s.notify (physCarve b) 0x80000
  else s

/-- PHASE_COPY_COMPLETE. -/
def execPhaseCopyComplete (s : State) : Host.Outcome State Fault Refusal := act s State.phaseCopy

/-- The turn of the phase table at the boundary of epoch e (R595). -/
def State.phaseTurn (s : State) (e : Nat) : State :=
  let due := s.rdb Reg.PTCTL 28 && decide (max 10 (min 1000 (s.rd Reg.PTCTL 9 0)) ≤ e - s.power.lastTurn)
  if !(due || s.rdb Reg.PTCTL 31) then s else
  let s := s.phaseCopy
  let s := ((s.wrb Reg.PTCTL 31 false).wrb Reg.PTCTL 30 (!(s.rdb Reg.PTCTL 30))).wrb Reg.PTCTL 29 true
  { s with power := { s.power with lastTurn := e } }

/-! ## Events the monitors post, with their bit of MON_EVT (R615) -/

/-- Is an event that is bounded to one per epoch due for a key? -/
def State.dueEvent (s : State) (code k : Nat) : Bool :=
  match Map.get? s.gates (code * 2 ^ 64 + k) with
  | none => true
  | some g => g.epoch != s.epoch

/-- Post once per epoch, and set the bit when the event is posted. -/
def State.monOnce (s : State) (code : Nat) (args : List Nat) (b : Nat) : State :=
  let due := s.dueEvent code (args.getD 0 0)
  let s := s.postOnce code args
  if due then s.wrb Reg.MON_EVT b true else s

/-- Post, and set the bit. -/
def State.monPost (s : State) (code : Nat) (args : List Nat) (b : Nat) : State := (s.post code args).wrb Reg.MON_EVT b true

/-! ## Droop and clamps (R582 to R586) -/

/-- DROOP_TRIP. -/
def execDroopTrip (q : Fin 64) (det : Fin 2) (s : State) : Host.Outcome State Fault Refusal :=
  let _ := det
  act s fun s =>
    if s.nq ≤ q.val then s else
    let x := s.quire q.val
    (s.setQuire q.val { x with stretched := true, trips := x.trips + 1 }).bumpSat (Reg.QDROOP q.val)

/-- DROOP_RELEASE. -/
def execDroopRelease (q : Fin 64) (s : State) : Host.Outcome State Fault Refusal :=
  act s fun s => s.setQuire q.val { s.quire q.val with stretched := false }

/-- CLAMP: a window average of a rail exceeds its limit (R583). -/
def execClamp (r : Fin 8) (s : State) : Host.Outcome State Fault Refusal :=
  act s fun s =>
    if s.power.clamped.contains r.val then s else
    let s : State := { s with power := { s.power with clamped := s.power.clamped ++ [r.val] } }
    ((s.bumpSat (Reg.CLAMPS r.val)).postOnce 0x0201 [r.val]).setClocks

/-- CLAMP_RELEASE. -/
def execClampRelease (r : Fin 8) (s : State) : Host.Outcome State Fault Refusal :=
  act s fun s =>
    State.setClocks { s with power := { s.power with clamped := s.power.clamped.filter (· != r.val) } }

/-! ## Turning the rails off -/

/-- The module is off until the next power-good: ring forwarding stops, and what no store keeps is lost (R579, R610, 12 R513). -/
def State.off (s : State) : State := { s with powered := false, ports := [] }

/-- The shutdown of R610 and R611: a FATAL record reaches the flash log first (19 R739), and ALERT_N stays low (18 R706). -/
def State.shutdown (s : State) (code : Nat) (args : List Nat) : State :=
  let s := s.post code args
  ({ s with power := { s.power with alertLatched := true } }).off

/-- A lost report for the module itself (11 R474). -/
def State.lostSelf (s : State) : State := { s with svc := s.svc ++ [leBytes 2 s.pos ++ leBytes 2 s.pos] }

/-- POWER_LOSS: the hold-up store is empty. -/
def execPowerLoss (s : State) : Host.Outcome State Fault Refusal := act s State.off

/-- OVERVOLTAGE: above 56 V for 10 µs (18 R698). -/
def execOvervoltage (s : State) : Host.Outcome State Fault Refusal := act s State.off

/-! ## Thermal and rail samples (R610, R611) -/

/-- The sensors of a sample: number, last stored reading; a sensor under calibration keeps its last reading (16 R658)
(DEDUCED in part, log entry 124). -/
def State.takeTemps (s : State) (quires groups : List (BitVec 16)) : State :=
  let held (kind n : Nat) : Bool := s.calib.any fun c => c.kind == kind && c.unit == n
  let s := (List.range s.nq).foldl (fun s q =>
    if held 2 q then s else s.wr (Reg.QTEMP q) 15 0 ((quires.getD q 0).toNat)) s
  (List.range 16).foldl (fun s g => if held 3 g then s else s.wr (Reg.STEMP g) 15 0 ((groups.getD g 0).toNat)) s

/-- Every sensor with its number as an event names it and its reading. -/
def State.sensors (s : State) : List (Nat × Nat) :=
  (List.range s.nq).map (fun q => (q, s.rd (Reg.QTEMP q) 15 0)) ++ (List.range 16).map fun g => (0x100 + g, s.rd (Reg.STEMP g) 15 0)

/-- Is a reading at or above a threshold in °C? -/
def atLeast (w t : Nat) : Bool := decide (8 * (t : Int) ≤ tempOf w)

/-- On which side of its thresholds each sensor is. -/
def State.sides (s : State) : List (Bool × Bool × Bool) :=
  s.sensors.map fun x => (atLeast x.2 (s.rd Reg.THERM_CFG 23 16), atLeast x.2 (s.rd Reg.THERM_CFG 31 24), atLeast x.2 (s.rd Reg.THERM_CFG 15 8))

/-- The critical state: entered at CRIT_T, left when every sensor is below THROT_T (R610). -/
def State.critical (s : State) : State :=
  if s.power.crit then
    if s.sensors.all fun x => !(atLeast x.2 (s.rd Reg.THERM_CFG 31 24)) then { s with power := { s.power with crit := false } } else s
  else match s.sensors.find? fun x => atLeast x.2 (s.rd Reg.THERM_CFG 15 8) with
    | none => s
    | some x => State.monPost { s with power := { s.power with crit := true } } 0x0303 [x.1, x.2] 1

/-- THERMAL_SAMPLE (R590, R591, R597, R610). -/
def State.thermal (s : State) (quires groups : List (BitVec 16)) : State :=
  let before := s.sides
  let s := s.takeTemps quires groups
  match s.sensors.find? fun x => atLeast x.2 (s.rd Reg.THERM_CFG 7 0) with
  | some x => s.shutdown 0x0306 [x.1, x.2]
  | none =>
    let s := s.runningQuires.foldl (fun s q =>
      let w := s.rd (Reg.QTEMP q) 15 0
      if atLeast w (s.rd Reg.THERM_CFG 31 24) then s.monOnce 0x0302 [q, w] 0 else s) s
    let crit := s.power.crit
    let s := s.critical
    if s.sides != before || s.power.crit != crit then s.budget else s

/-- THERMAL_SAMPLE. -/
def execThermalSample (quires groups : List (BitVec 16)) (s : State) : Host.Outcome State Fault Refusal :=
  actIf (quires.length == 64 && groups.length == 16) s fun s => s.thermal quires groups

/-- RAIL_SAMPLE: a reading on a die that has lasted for us µs (R611). -/
def execRailSample (r : Fin 8) (die : Fin 5) (mv us : Nat) (s : State) : Host.Outcome State Fault Refusal :=
  act s fun s =>
    let set_ := s.rd (Reg.RAILV r.val) 31 16
    let dev := (mv - set_) + (set_ - mv)
    if us < 10 then s
    else if 100 < dev then ((s.wrb Reg.MON_EVT 2 true).lostSelf).shutdown 0x0305 [r.val, die.val, mv]
    else if 50 < dev then s.monPost 0x0304 [r.val, die.val, mv] 2
    else s

/-! ## Leaving (13 R565, R566; 18 R705) -/

/-- Start the flush, once until the next power-good; the cause is a bit of the event's mask (DEDUCED in part, log entry 70). -/
def State.leaveModule (s : State) (cause : Nat) : State :=
  let s := if s.power.leaving then s else
    let s : State := { s with power := { s.power with leaving := true, wantLow := true } }
    ((s.post 0x0205 [cause]).flushMirror).setSvc 4
  s.budget

/-- LATCH_OPEN. -/
def execLatchOpen (s : State) : Host.Outcome State Fault Refusal :=
  act s fun s => (s.wrb Reg.SB_STAT 31 true).leaveModule 1

/-- LATCH_CLOSE: the module stays LEAVING (13 R566). -/
def execLatchClose (s : State) : Host.Outcome State Fault Refusal :=
  act s fun s => (s.wrb Reg.SB_STAT 31 false).budget

/-- The bit of SB_STAT that shows a mate-detect contact (18 R719). -/
def mateBit : MateContact → Nat
  | .hsa0 => 24
  | .hsa1 => 25
  | .hsb0 => 26
  | .hsb1 => 27
  | .sb => 23

/-- A contact, given by its bit of SB_STAT, reads mated or unmated (17 R675). -/
def State.mates (s : State) (b : Nat) (mated : Bool) : State :=
  let l := s.power.unmated.filter (· != b)
  { s with power := { s.power with unmated := if mated then l else b :: l } }

/-- MATE_DETECT_OPEN. -/
def execMateDetectOpen (m : MateContact) (s : State) : Host.Outcome State Fault Refusal :=
  act s fun s =>
    let s := ((s.wrb Reg.SB_STAT (mateBit m) false).wrb Reg.SB_STAT 28 true).mates (mateBit m) false
    s.leaveModule 2

/-- MATE_DETECT_CLOSE. -/
def execMateDetectClose (m : MateContact) (s : State) : Host.Outcome State Fault Refusal :=
  act s fun s => (s.wrb Reg.SB_STAT (mateBit m) true).mates (mateBit m) true

/-- INPUT_LOSS: below 38 V for 20 µs (R578). -/
def execInputLoss (s : State) : Host.Outcome State Fault Refusal :=
  act s fun s => (s.wrb Reg.HOLDUP 30 true).leaveModule 4

/-- BATT_LOW: BATT_LOW_N changed (17 R675, 18 R719). -/
def execBattLow (low : Bool) (s : State) : Host.Outcome State Fault Refusal :=
  act s fun s => s.wrb Reg.SB_STAT 30 low

/-- The warning bands of the input with 0.3 V of hysteresis (18 R698, R719) (DEDUCED in part, log entry 113). -/
def State.inputBands (s : State) (mv : Nat) : State :=
  let uv := decide (mv < 40000) || (s.rdb Reg.VIN_STAT 31 && decide (mv ≤ 40300))
  let ov := decide (52000 < mv) || (s.rdb Reg.VIN_STAT 30 && decide (51700 ≤ mv))
  let s := (s.wrb Reg.VIN_STAT 31 uv).wrb Reg.VIN_STAT 30 ov
  let s : State := { s with power := { s.power with inMV := mv } }
  if uv || ov then s.postOnce 0x0204 [mv] 0 else s

/-- INPUT_VOLTAGE_CHANGE. -/
def execInputVoltageChange (mv : Nat) (s : State) : Host.Outcome State Fault Refusal := act s fun s => s.inputBands mv

/-- DUCTUS_RELOAD_DONE: C and the point limit are normal again (17 R680). -/
def execDuctusReloadDone (s : State) : Host.Outcome State Fault Refusal :=
  act s fun s => State.budget { s with power := { s.power with ductusReload := false } }

/-! ## Registers (R614, R615) -/

/-- A write in PWR: one that changes C runs a budget pass (R591), and one of RCAP_EPOCH names a cap to copy (R608). -/
def State.pwrWrite (s : State) (off v : Nat) : State :=
  let s' := s.writeReg off v
  let s' : State := if off = Reg.RCAP_EPOCH then { s' with base := { s'.base with rcapDone := false } } else s'
  if s'.cap = s.cap then s' else s'.budget

end Sys2Proof.Machine
end

