-- ==== Sys2Proof/Machine/Baseline.lean ====
section
/-! DEFINITION. The Baseline governor: the exchange of INTENT and TRAY records and the rule every module computes
(14_power.md R598 to R608). -/

namespace Sys2Proof.Machine

/-! ## Records (R599) -/

/-- A number in a record. -/
def bNat (r : List Byte) (a n : Nat) : Nat := leNat ((r.drop a).take n)

/-- Epoch a record names. -/
def bEpoch (r : List Byte) : Nat := bNat r 0 4

/-- The epoch in progress, as records carry it. -/
def State.curEpoch (s : State) : Nat := s.time.lastEpoch % 2 ^ 32

/-- May a record of an epoch be held: the epoch in progress, or the next one, which another module may begin first?
(DEDUCED in part, log entry 78) -/
def State.heldEpoch (s : State) (e : Nat) : Bool := e == s.curEpoch || e == (s.curEpoch + 1) % 2 ^ 32

/-- Own slot in the tray. -/
def State.slotNo (s : State) : Nat := s.pos / 16 % 8

/-- Own tray in the rack. -/
def State.trayNo (s : State) : Nat := s.pos / 256 % 8

/-- FLAGS of the position entry of index i of the own rack (16_startup_config.md R641). -/
def State.rackFlags (s : State) (i : Nat) : Nat := s.planLe (16 + 16 * (posIdx s.pos / 64 * 64 + i)) 1

/-- Is position i of the own rack planned? -/
def State.planned (s : State) (i : Nat) : Bool := bit (s.rackFlags i) 0

/-- Planned positions of the own rack. -/
def State.plannedCount (s : State) : Nat := ((List.range 64).filter s.planned).length

/-- Trays of the own rack that the plan lists as populated (16 R641). -/
def State.trays (s : State) : List Nat :=
  (List.range 8).filter fun t => bit (s.planLe 4 4) (16 * (s.pos / 32768 % 2) + 8 * (s.pos / 4096 % 8 % 2) + t)

/-- Does the module take part in the exchange (R607, 17 R680)? -/
def State.exchanges (s : State) : Bool := !(s.rdb Reg.BL_CFG 31)

/-- WANT (R600): 600 in the first record after the module began to leave (R613), else the demand of the running quires at their points plus fx, in whole watts, within MCAP
(DEDUCED in part, log entry 77). -/
def State.want (s : State) : Nat :=
  if s.power.wantLow then 600 else
  let d := (s.runningQuires.map fun q => s.demand q * pointFac (s.rd (Reg.QPT q) 23 16)).foldl (· + ·) 0
  min (min 2400 (max 600 (s.rd Reg.MCAP 11 0))) ((d + 256 * s.fx + 4095) / 4096)

/-- The module's INTENT record (R599, R600). -/
def State.intentRec (s : State) : List Byte :=
  let fl := (if s.rdb Reg.PWR_STAT 27 then 1 else 0) + (if s.portUp (s.planePort 0) then 2 else 0) +
    (if s.power.leaving then 4 else 0) + (if s.base.incomplete then 8 else 0)
  leBytes 4 s.curEpoch ++ leBytes 2 s.pos ++ leBytes 2 s.want ++ leBytes 2 (min s.want 600) ++ leBytes 1 fl ++ leBytes 1 0 ++
  leBytes 4 (s.rd Reg.RACKG 17 0) ++ leBytes 4 (s.rd Reg.RCAP_CUR 17 0) ++ List.replicate 44 0

/-- A POWER packet (R599). -/
def State.powerPkt (s : State) (atop dst hops : Nat) (r : List Byte) : Packet :=
  { mkPacket 0x43 s.pos dst with atop := BitVec.ofNat 4 atop, hops := BitVec.ofNat 4 hops, gran := [r] }

/-- Send a POWER packet on a port that is UP. -/
def State.sendPower (s : State) (p atop dst hops : Nat) (r : List Byte) : State :=
  if s.portUp p then s.send p (s.powerPkt atop dst hops r) else s

/-- Send a record on both ring ports. -/
def State.sendRing (s : State) (atop hops : Nat) (r : List Byte) : State :=
  (s.sendPower (s.ringPort false) atop s.pos hops r).sendPower (s.ringPort true) atop s.pos hops r

/-- Forward a record on the other ring port, while HOPS is below 7 (R598) (DEDUCED in part, log entry 82). -/
def State.forwardRing (s : State) (p atop hops : Nat) (r : List Byte) : State :=
  if 7 ≤ hops then s
  else if p = s.ringPort false then s.sendPower (s.ringPort true) atop s.pos (hops + 1) r
  else if p = s.ringPort true then s.sendPower (s.ringPort false) atop s.pos (hops + 1) r
  else s

/-- Send the module's INTENT record at the start of an epoch (R598); none while the Ductus image reloads (17 R680). -/
def State.sendIntent (s : State) : State :=
  if !s.exchanges || s.power.ductusReload then s else
  let r := s.intentRec
  let s : State := { s with base := { s.base with intents := Map.set s.base.intents s.slotNo r },
                            power := { s.power with wantLow := false } }
  s.sendRing 0 0 r

/-! ## Arrivals -/

/-- Hold and forward an INTENT record (R598, R599). -/
def State.rxIntent (s : State) (p : Nat) (r : List Byte) (hops : Nat) : State :=
  let pos := bNat r 4 2
  if !s.exchanges || pos / 256 != s.pos / 256 || !(s.heldEpoch (bEpoch r)) then s else
  let slot := pos / 16 % 8
  let seen := match Map.get? s.base.intents slot with
    | none => false
    | some o => bEpoch o == bEpoch r
  if seen then s else
  State.forwardRing { s with base := { s.base with intents := Map.set s.base.intents slot r } } p 0 hops r

/-- Hold a TRAY record of tray t; two different ones of a tray spoil the vector (R602). -/
def State.holdTray (s : State) (t : Nat) (r : List Byte) : State :=
  let b := s.base
  match Map.get? b.trays t with
  | some o =>
    if bEpoch o = bEpoch r then
      (if o == r then s else { s with base := { b with conflict := b.conflict ++ [bEpoch r] } })
    else { s with base := { b with trays := Map.set b.trays t r } }
  | none => { s with base := { b with trays := Map.set b.trays t r } }

/-- Hold and forward a TRAY record (R598, R602). -/
def State.rxTray (s : State) (p : Nat) (r : List Byte) (hops : Nat) : State :=
  let t := bNat r 4 1
  if !s.exchanges || 8 ≤ t || !(s.heldEpoch (bEpoch r)) then s else
  let new := !(s.base.seen.contains r)
  let s := s.holdTray t r
  if p = s.planePort 0 then if 7 ≤ hops then s else s.sendRing 1 (hops + 1) r
  else if t = s.trayNo && new then
    State.forwardRing { s with base := { s.base with seen := s.base.seen ++ [r] } } p 1 hops r
  else s

/-- INTENT. -/
def execIntent (p : Fin 10) (gr : List Byte) (hops : BitVec 4) (s : State) : Host.Outcome State Fault Refusal :=
  actIf (gr.length == 64) s fun s => s.rxIntent p.val gr hops.toNat

/-- TRAY. -/
def execTray (p : Fin 10) (gr : List Byte) (hops : BitVec 4) (s : State) : Host.Outcome State Fault Refusal :=
  actIf (gr.length == 64) s fun s => s.rxTray p.val gr hops.toNat

/-! ## The tray lead (R601) -/

/-- The INTENT record of a slot that is held for the epoch in progress. -/
def State.intentOf (s : State) (slot : Nat) : Option (List Byte) :=
  match Map.get? s.base.intents slot with
  | none => none
  | some r => if bEpoch r = s.curEpoch then some r else none

/-- The TRAY record the lead builds (R599). -/
def State.trayRec (s : State) : List Byte :=
  let held := (List.range 8).filter fun i => (s.intentOf i).isSome
  let rec_ (i : Nat) : List Byte := (s.intentOf i).getD []
  let joined := held.filter fun i => bit (bNat (rec_ i) 10 1) 0
  let mask (l : List Nat) : Nat := l.foldl (fun a i => a + 2 ^ i) 0
  leBytes 4 s.curEpoch ++ leBytes 2 (s.trayNo + 256 * s.slotNo) ++ leBytes 2 (mask held + 256 * mask joined) ++ leBytes 3 0 ++
  leBytes 1 (joined.head?.getD 255) ++ leBytes 4 ((joined.head?.map fun i => bNat (rec_ i) 12 4).getD 0) ++
  leBytes 4 (held.foldl (fun m i => min m (bNat (rec_ i) 16 4)) (2 ^ 32 - 1)) ++
  ((List.range 8).flatMap fun i => leBytes 2 (bNat (rec_ i) 6 2) ++ leBytes 2 (bNat (rec_ i) 8 2)) ++ List.replicate 12 0

/-- TRAY_LEAD_TIMER (R598, R601). -/
def execTrayLeadTimer (s : State) : Host.Outcome State Fault Refusal :=
  act s fun s =>
    let lead := (List.range 8).find? fun i => (s.intentOf i).any fun r => bit (bNat r 10 1) 1
    if !s.exchanges || lead != some s.slotNo then s else
    let r := s.trayRec
    let s := s.holdTray s.trayNo r
    let s : State := { s with base := { s.base with seen := s.base.seen ++ [r] } }
    let s := s.sendRing 1 0 r
    (List.range 64).foldl (fun s i =>
      if s.planned i && i / 8 != s.trayNo then s.sendPower (s.planePort 0) 1 (idxPos (posIdx s.pos / 64 * 64 + i)) 0 r else s) s

/-! ## The rule (R602, R603) -/

/-- The TRAY record of a tray that is held for the epoch in progress. -/
def State.trayOf (s : State) (t : Nat) : Option (List Byte) :=
  match Map.get? s.base.trays t with
  | none => none
  | some r => if bEpoch r = s.curEpoch then some r else none

/-- Is the own MASK bit set in the own tray's record? -/
def State.ownMask (s : State) : Bool := (s.trayOf s.trayNo).any fun r => bit (bNat r 6 1) s.slotNo

/-- Is the vector complete (R602)? -/
def State.complete (s : State) : Bool :=
  s.trays.all (fun t => (s.trayOf t).isSome) && s.ownMask && !(s.base.conflict.contains s.curEpoch)

/-- What each position of the rack wants and needs: (w, p) of index i (R603). -/
def State.needs (s : State) : List (Nat × Nat) :=
  (List.range 64).map fun i =>
    let r := (s.trayOf (i / 8)).getD []
    if bit (bNat r 6 1) (i % 8) then (bNat r (20 + 4 * (i % 8)) 2, bNat r (22 + 4 * (i % 8)) 2)
    else if s.planned i then (600, 600) else (0, 0)

/-- Sum of a list. -/
def total (l : List Nat) : Nat := l.foldl (· + ·) 0

/-- Add 1 to each of the first r positions that want anything (R603). -/
def spread : Nat → List ((Nat × Nat) × Nat) → List Nat
  | _, [] => []
  | r, (wp, g) :: l => if r ≠ 0 ∧ wp.1 ≠ 0 then (g + 1) :: spread (r - 1) l else g :: spread r l

/-- A difference of two 32-bit values (R603). -/
def sub32 (a b : Nat) : Nat := (a + 2 ^ 32 - b % 2 ^ 32) % 2 ^ 32

/-- The grants of the 64 positions for a rack total (R603): 32-bit values, with 64-bit products. -/
def grantsOf (l : List (Nat × Nat)) (g : Nat) : List Nat :=
  let iw := total (l.map Prod.fst)
  let pw := total (l.map Prod.snd)
  let gr := l.map fun x =>
    (if iw ≤ g then (if iw = 0 then 0 else x.1 + (g - iw) * x.1 / iw)
     else x.2 + sub32 g pw * sub32 x.1 x.2 / sub32 iw pw) % 2 ^ 32
  (spread (sub32 g (total gr)) (l.zip gr)).map (· % 2 ^ 32)

/-- What the rule computes of the rack total: count, g, forced, fill and capr (R603). -/
structure Ruled where
  count : Nat
  g : Nat
  forced : Bool
  fill : Bool
  capr : Nat
  deriving DecidableEq, Repr

/-- The rack total of a complete vector (R603): iw, pw, gp, capr, the limits up and dn, TOL, FILL_EN and the stored count. -/
def rackTotal (iw pw gp capr up dn tol : Nat) (fillEn : Bool) (count : Nat) : Ruled :=
  let t := min iw capr
  let g := min (max t (gp - dn)) ((gp + up) % 2 ^ 32)
  let above := decide (capr < g)
  let count := if above then (count + 1) % 2 ^ 32 else 0
  let forced := above && decide (tol < count)
  let g := max (if forced then capr else g) pw
  ⟨count, g, forced, decide (iw ≤ g) && decide (t < g) && fillEn, capr⟩

/-- GPREV the rule starts from (R603). -/
def State.gprev (s : State) : Nat :=
  match (List.range 8).findSome? fun t => (s.trayOf t).bind fun r => if bNat r 11 1 = 255 then none else some (bNat r 12 4) with
  | some g => g
  | none => 600 * s.plannedCount

/-- The least CAPMIN over the trays, at least 600 W for each planned position (R603). -/
def State.capr (s : State) : Nat :=
  max ((List.range 8).foldl (fun m t => match s.trayOf t with | none => m | some r => min m (bNat r 16 4)) (2 ^ 32 - 1))
    (600 * s.plannedCount)

/-- The decision of a complete vector (DEDUCED in part, log entry 81). -/
def State.decide_ (s : State) : State :=
  let l := s.needs
  let up := if s.rdb Reg.PWR_STAT 25 then 512 else 1024
  let dn := if s.rdb Reg.PWR_STAT 25 then 512 else 2048
  let r := rackTotal (total (l.map Prod.fst)) (total (l.map Prod.snd)) s.gprev s.capr up dn
    (max 1 (min 10000 (s.rd Reg.BL_CFG 13 0))) (s.rdb Reg.BL_CFG 30) s.base.count
  let own := (grantsOf l r.g).getD (posIdx s.pos % 64) 0
  let d : Decision := ⟨r.g, r.capr, own, r.fill, r.forced⟩
  { s with base := { s.base with count := r.count, decision := some d, incomplete := false, ownMissing := false } }

/-- A vector that is not complete: a miss, and an event that names the missing trays (R606) (DEDUCED in part, log entry 79). -/
def State.missed (s : State) : State :=
  let gone := (List.range 8).foldl (fun a t => if s.trays.contains t && (s.trayOf t).isNone then a + 2 ^ t else a) 0
  let b := s.base
  let s : State := { s with base := { b with decision := none, incomplete := true, ownMissing := b.ownMissing || ((s.trayOf s.trayNo).isSome && !s.ownMask) } }
  (s.bumpSat Reg.BL_MISS).postOnce 0x0203 [s.curEpoch, gone] 0

/-- BASELINE_DEADLINE: at 60 µs the rule is computed once (R598, R602, R603, R606). -/
def execBaselineDeadline (s : State) : Host.Outcome State Fault Refusal :=
  act s fun s =>
    if !s.exchanges || s.base.done then s else
    let s : State := { s with base := { s.base with done := true } }
    if s.complete then s.decide_ else s.missed

/-! ## The start of an epoch (R604, R606, R608) -/

/-- The grant of the last decision applies, or the grant of a module that its tray missed falls (R604, R606)
(DEDUCED in part, log entry 125). -/
def State.applyGrant (s : State) (e : Nat) : State :=
  if !s.exchanges then s else
  match s.base.decision with
  | none =>
    if s.base.done && s.base.ownMissing then s.wr Reg.GRANT 11 0 (min (s.rd Reg.GRANT 11 0) (max 600 (s.rd Reg.GRANT 11 0 - 64))) else s
  | some d =>
    let s := ((s.wr Reg.GRANT 11 0 d.grant).wr Reg.RACKG 17 0 d.g).wrb Reg.PWR_STAT 28 d.fill
    let s := (s.wrb Reg.PWR_STAT 29 d.forced).wrb Reg.PWR_STAT 27 true
    if d.forced then (s.bumpSat Reg.BL_FORCED).post 0x0202 [d.g, d.capr, e] else s

/-- RCAP_CUR takes RCAP_NEXT at the first epoch at or after RCAP_EPOCH (R608) (DEDUCED in part, log entry 80). -/
def State.takeRcap (s : State) (e : Nat) : State :=
  if !s.base.rcapDone && decide ((e + 2 ^ 32 - (s.word Reg.RCAP_EPOCH).toNat) % 2 ^ 32 < 2 ^ 31) then
    State.wr { s with base := { s.base with rcapDone := true } } Reg.RCAP_CUR 17 0 (s.rd Reg.RCAP_NEXT 17 0)
  else s

/-- The governor at the start of epoch e: the grant applies, old records go, the INTENT record is sent. -/
def State.baselineEpoch (s : State) (e : Nat) : State :=
  let s := (s.applyGrant e).takeRcap e
  let now (r : Nat × List Byte) : Bool := bEpoch r.2 == e % 2 ^ 32
  let b := s.base
  let s : State := { s with base := { b with
    intents := b.intents.filter now, trays := b.trays.filter now, conflict := b.conflict.filter (· == e % 2 ^ 32),
    decision := none, done := false, seen := b.seen.filter fun r => bEpoch r == e % 2 ^ 32 } }
  s.sendIntent

end Sys2Proof.Machine
end

