-- ==== Sys2Proof/Machine/Calibrate.lean ====
section
/-! DEFINITION. Live calibration and self-test (16_startup_config.md R658 to R667). -/

namespace Sys2Proof.Machine

/-! ## Live calibration (R658 to R661) -/

/-- Add a calibration; calibrations of one kind on one unit run one at a time. -/
def State.addCalib (s : State) (kind unit sub : Nat) : State := { s with calib := s.calib ++ [⟨kind, unit, sub⟩] }

/-- LANE_RECALIBRATION: a lane of an UP port at W = 8 is borrowed, or a failed lane is retrained, once a second at most (R511, 12 R509)
(DEDUCED in part, log entry 93). -/
def execLaneRecalibration (p : Fin 10) (lane : Fin 8) (s : State) : Host.Outcome State Fault Refusal :=
  act s fun s =>
    let p := p.val
    let failed := s.rdb (Reg.LANE_FAIL p) lane.val
    if !(s.rdb Reg.CALCTL 31) || !(s.portUp p) || s.calib.any (fun c => c.kind == 0 && c.unit == p) then s
    else if failed then
      let r := s.port p
      if (Map.get? r.retrained lane.val).any fun t => decide (s.now < t + 1000000000) then s
      else (s.setPort p { r with retrained := Map.set r.retrained lane.val s.now }).addCalib 0 p lane.val
    else if s.rd (Reg.PORT_STAT p) 15 12 != 8 || (s.port p).borrowed.isSome then s
    else
      let s := s.addCalib 0 p lane.val
      let s := s.setPort p { s.port p with borrowed := some lane.val }
      ((s.setPortStat p 3 7 (255 - 2 ^ lane.val)).bump (Reg.BORROWS p)).sendLink p 2 lane.val

/-- May a calibration start on a quire (R659)? -/
def State.mayCalibrate (s : State) (q : Nat) : Bool :=
  let st := s.quireUnder q
  decide (q < s.nq) && st != 1 && st != 5 && st != 6 && (st == 0 || s.sheetState (s.ownerOf q) != 5)

/-- A quire under calibration shows TEST and keeps its state. -/
def State.showTest (s : State) (q : Nat) : State :=
  if (s.quire q).testFrom.isSome then s else
  (s.wr (Reg.QUIRE_STAT q) 2 0 7).setQuire q { s.quire q with testFrom := some (s.quireState q) }

/-- The quire shows its state again, TEST where its sheet is under self-test, unless another calibration of it goes on. -/
def State.leaveTest (s : State) (q : Nat) : State :=
  if s.underCal q then s else
  match (s.quire q).testFrom with
  | none => s
  | some st => ((s.setQuire q { s.quire q with testFrom := none }).setQuireState q st).setClock q

/-- DROOP_CALIBRATION: the other detector of the quire stays armed (DEDUCED in part, log entry 94). -/
def execDroopCalibration (q : Fin 64) (det : Fin 2) (s : State) : Host.Outcome State Fault Refusal :=
  act s fun s =>
    if !(s.rdb Reg.CALCTL 30) || s.calib.any (fun c => c.kind == 1) || !(s.mayCalibrate q.val) then s
    else ((s.addCalib 1 q.val det.val).showTest q.val).budget

/-- THERMAL_CALIBRATION: of a quire's sensor, or of a slice group's. -/
def execThermalCalibration (g : Bool) (n : Fin 64) (s : State) : Host.Outcome State Fault Refusal :=
  act s fun s =>
    let kind := if g then 3 else 2
    if !(s.rdb Reg.CALCTL 29) || s.calib.any (fun c => c.kind == kind) then s
    else if g then (if n.val < 16 then s.addCalib 3 n.val 0 else s)
    else if s.mayCalibrate n.val then (s.addCalib 2 n.val 0).showTest n.val
    else s

/-- CHANNEL_RETRAIN of a channel that start-up trained (R660) (DEDUCED in part, log entry 96). -/
def execChannelRetrain (ch : Fin 24) (s : State) : Host.Outcome State Fault Refusal :=
  act s fun s =>
    if !(s.rdb Reg.CALCTL 28) || s.calib.any (fun c => c.kind == 4) || !(s.start.chans.contains ch.val) then s
    else s.addCalib 4 ch.val 0

/-- A lane's calibration passes: a borrowed lane is returned; a failed one rejoins through LINK WIDTH (R509). -/
def State.lanePass (s : State) (p lane : Nat) : State :=
  let s := s.bump Reg.CAL_LANE
  let r := s.port p
  if s.rdb (Reg.LANE_FAIL p) lane then
    let s := s.wrb (Reg.LANE_FAIL p) lane false
    let best := bestSet (s.goodLanes p)
    if s.portUp p then (s.setPort p { r with proposed := best }).sendLink p 1 best else s
  else if r.borrowed = some lane && s.portUp p then
    ((s.setPort p { r with borrowed := none }).setPortStat p 3 8 255).sendLink p 2 (256 + lane)
  else s

/-- A channel's retrain passes; with the last channel a new MEMTRAIN image is the active one (17 R680). -/
def State.channelPass (s : State) (ch : Nat) : State :=
  let s := s.bump Reg.CAL_MEM
  let s : State := { s with calFails := Map.erase s.calFails ch }
  if (Map.get? s.sec.pendIn 5).isNone then s else
  let d := ch :: s.sec.memDone.filter (· != ch)
  let s : State := { s with sec := { s.sec with memDone := d } }
  if d.length = 24 then s.activate 5 else s

/-- Note whether the last calibration of a droop detector of a quire failed (R661). -/
def State.holdDroop (s : State) (q det : Nat) (v : Bool) : State :=
  let x := s.quire q
  let m : BitVec 2 := BitVec.ofNat 2 (2 ^ det)
  s.setQuire q { x with calHeld := if v then x.calHeld ||| m else x.calHeld &&& ~~~ m }

/-- A calibration passes. -/
def State.calibPass (s : State) (c : Calib) : State :=
  match c.kind with
  | 0 => s.lanePass c.unit c.sub
  | 1 => ((s.holdDroop c.unit c.sub false).leaveTest c.unit |>.bump Reg.CAL_QUIRE).budget
  | 2 => (s.leaveTest c.unit).bump Reg.CAL_QUIRE
  | 3 => s.bump Reg.CAL_QUIRE
  | _ => s.channelPass c.unit

/-- Three failed retrains of a channel in a row post CHANFAULT (R661). -/
def State.channelFails (s : State) (ch : Nat) : State :=
  let n := Map.getD s.calFails ch 0 + 1
  if n < 3 then { s with calFails := Map.set s.calFails ch n }
  else State.post { s with calFails := Map.erase s.calFails ch } 0x0104 [ch]

/-- A calibration fails: its unit keeps the settings it had (R661) (DEDUCED in part, log entry 95). -/
def State.calibFail (s : State) (c : Calib) : State :=
  let s := s.bumpSat Reg.CAL_FAIL
  match c.kind with
  | 0 =>
    let s := s.post 0x0103 [0, c.unit * 8 + c.sub]
    if s.rdb (Reg.LANE_FAIL c.unit) c.sub then s else s.laneFails c.unit c.sub
  | 1 => (((s.post 0x0103 [1, c.unit]).holdDroop c.unit c.sub true).leaveTest c.unit).budget
  | 2 => (s.post 0x0103 [2, c.unit]).leaveTest c.unit
  | 3 => s.post 0x0103 [2, 0x100 + c.unit]
  | _ => (s.post 0x0103 [3, c.unit]).channelFails c.unit

/-- CALIBRATION_COMPLETE: of the calibration that started first (DEDUCED in part, log entry 92). -/
def execCalibrationComplete (ok : Bool) (s : State) : Host.Outcome State Fault Refusal :=
  act s fun s =>
    match s.calib with
    | [] => s
    | c :: rest =>
      let s : State := { s with calib := rest }
      if ok then s.calibPass c else s.calibFail c

/-! ## Self-test (R662 to R666) -/

/-- STSTAT.RESULT. -/
def State.stStat (s : State) (r : Nat) : State := s.wr Reg.STSTAT 1 0 r

/-- The record that STREC names, as a physical address. -/
def State.stRec (s : State) : Nat := s.addrOf Reg.STREC_LO Reg.STREC_HI 64

/-- Is a test of sheet scope? -/
def stSheet (kind : Nat) : Bool := kind == 1 || kind == 2 || kind == 3

/-- Put every quire of a sheet under self-test into TEST, and back to IDLE. -/
def State.stQuires (s : State) (i st : Nat) : State := (s.quiresOf i).foldl (fun s q => (s.setQuireState q st).setClock q) s

/-- A test starts: its record reads RUNNING, and its sheet is in TEST (R663). -/
def State.stRun (s : State) (t : SelfTest) : State :=
  let s := s.recRun t.rec_ 0 0xFF 4
  let s : State := { s with selftest := some { t with running := true, start := s.now } }
  if stSheet t.kind then (s.setSheetState t.sheet 5).stQuires t.sheet 7 else s

/-- A request that ends at once (R663, R666). -/
def State.stNow (s : State) (rec_ outcome : Nat) : State := (s.recRun rec_ 0 0xFF 4).recEnd rec_ 0 0xFF 4 outcome 0 0

/-- A request whose record is good (R662, R663) (DEDUCED in part, log entry 97). -/
def State.stRequest (s : State) (kind sheet : Nat) (force resv : Bool) : State :=
  let r := physCarve s.stRec
  let t : SelfTest := ⟨kind, sheet, r, false, 0⟩
  if resv || kind = 0 || 5 < kind || (stSheet kind && s.sheetState sheet == 0) then s.stNow r 9
  else if stSheet kind then
    let st := s.sheetState sheet
    if st = 4 then s.stRun t
    else if force && (st == 2 || st == 3) then
      let s := s.tearSheet sheet
      if s.sheetState sheet = 4 then s.stRun t else { s with selftest := some t }
    else { s with selftest := some t }
  else if ((List.range 16).any fun i => s.sheetState i != 0) || s.rdb Reg.MIRR_CTL 31 then s.stNow r 2
  else s.stRun t

/-- STCMD START; a record that cannot be corrected stops it (05_memory.md R216) (DESIGN CHOICE, log entry 163). -/
def State.stStart (s : State) (v : Nat) : State :=
  if s.selftest.isSome then s.stStat 1 else
  let s := s.stStat 0
  let a := s.stRec
  if !(s.carveRecOk a) then s.post 0x0106 [4, a, 0xFF]
  else
    let s := s.seen (physCarve a) 64 a 16
    match s.recState (physCarve a) with
    | 0 => s.stRequest (bits v 27 24) (bits v 23 20) (bit v 19) (bits v 18 0 != 0)
    | 3 | 0xFF => s
    | _ => s.post 0x0702 [a]

/-- Make the range of a test zero (R664). -/
def State.stZero (s : State) (t : SelfTest) : State :=
  match t.kind with
  | 1 => (s.quiresOf t.sheet).foldl (fun s q => (List.range 8).foldl (fun s k => s.zero (physWell (8 * q + k) 0) 0x180000) s) s
  | 2 => (s.slicesOf t.sheet).foldl (fun s k => s.zero (physT0 (sliceRange k).1) ((sliceRange k).2 * 65536)) s
  | 3 => { s with scribes := s.scribes.filter fun e => !((s.quiresOf t.sheet).contains (e.1 / 8)) }
  | 4 => (List.range 4).foldl (fun s d => s.zero (physT1 (d * 368640)) (352256 * 65536)) s
  | _ => (s.zero (physT2 0 0) (s.t2Gran.getD 0 0 * 65536)).zero (physT2 1 0) (s.t2Gran.getD 1 0 * 65536)

/-- Units of a test's range: 64 KiB units, or quires for ARRAY (R664). -/
def State.stUnits (s : State) (t : SelfTest) : Nat :=
  match t.kind with
  | 1 => (s.quiresOf t.sheet).length * 8 * 24
  | 2 => s.q0 t.sheet
  | 3 => (s.quiresOf t.sheet).length
  | 4 => s.rd Reg.CAP_T1 31 0
  | _ => s.t2Gran.getD 0 0 + s.t2Gran.getD 1 0

/-- The running test ends: zero, terminal record, its sheet DRAINED again (R663, R664). -/
def State.stEnd (s : State) (t : SelfTest) (outcome progress faddr abrq : Nat) : State :=
  let s := (s.stZero t).recEnd t.rec_ 0 0xFF 4 outcome progress faddr abrq
  let s : State := { s with selftest := none }
  if stSheet t.kind then (s.setSheetState t.sheet 4).stQuires t.sheet 2 else s

/-- STCMD ABORT: on the record in STREC under R256 (R665); how far a running test came is free (log entry 159). -/
def State.stAbort (s : State) : State :=
  let s := s.stStat 0
  let a := s.stRec
  let r := physCarve a
  if !(s.carveRecOk a) then s else
  let s := s.seen r 64 a 16
  match s.recState r, s.selftest with
  | 0, t =>
    let s := s.store r (recBytes 0 0xFF 4 7 3 0 0 0 s.now s.now)
    if t.any fun t => t.rec_ == r then { s with selftest := none } else s
  | 1, some t => if t.running && t.rec_ == r then
      (s.stEnd t 7 (Config.testProgress s.draws % (s.stUnits t + 1)) (Config.testFault s.draws).toNat s.now).draw else s
  | _, _ => s

/-- A write of STCMD. -/
def State.stCommand (s : State) (v : Nat) : State :=
  match bits v 31 28 with
  | 1 => s.stStart v
  | 2 => s.stAbort
  | _ => s.stStat 2

/-- SELFTEST_START: the write of STCMD with CMD START, whatever bits [31:28] of the operand say. -/
def execSelftestStart (w : W32) (s : State) : Host.Outcome State Fault Refusal := act s fun s => s.stStart w.toNat

/-- SELFTEST_DEFERRED_START: the sheet of a waiting request is DRAINED (R663). -/
def execSelftestDeferredStart (s : State) : Host.Outcome State Fault Refusal :=
  act s fun s =>
    match s.selftest with
    | some t =>
      if t.running || s.sheetState t.sheet != 4 then s else
      let s := s.seen t.rec_ 64 (t.rec_ % 2 ^ 48) 16
      if s.recState t.rec_ == 0 then s.stRun t else s
    | none => s

/-- SELFTEST_ABORT. -/
def execSelftestAbort (s : State) : Host.Outcome State Fault Refusal := act s State.stAbort

/-- SELFTEST_COMPLETE with the failing addresses as FADDR gives them, the first one first; 64 of them post events (R664, R666). -/
def execSelftestComplete (faults : List (BitVec 64)) (s : State) : Host.Outcome State Fault Refusal :=
  act s fun s =>
    match s.selftest with
    | some t =>
      if !t.running then s else
      let s := (faults.take 64).foldl (fun s f => s.post 0x0105 [t.kind, f.toNat]) s
      s.stEnd t (if faults.isEmpty then 0 else 1) (s.stUnits t) ((faults.headD 0).toNat) 0
    | none => s

end Sys2Proof.Machine
end

