-- ==== Sys2Proof/Machine/Messages.lean ====
section
/-! DEFINITION. The endpoint's messages to its clients, the egress ring, publication of a prefix, and what the endpoint does when a
Roll command is done (09_serving.md R366, R369, R375, R376, R382 to R387, R390; 13_topology_failover.md R561, R570). -/

namespace Sys2Proof.Machine

/-! ## Messages (R386, R387) -/

/-- A message to the client. -/
def message (type rid : Nat) (body : List Byte) : List Byte :=
  leBytes 2 0x594E ++ leBytes 1 1 ++ leBytes 1 type ++ leBytes 4 (16 + body.length) ++ leBytes 8 rid ++ body

/-- Send a message on a service port. -/
def State.say (s : State) (type rid : Nat) (body : List Byte) : State := { s with svc := s.svc ++ [message type rid body] }

/-- REFUSE with a code (R389). -/
def State.refuseMsg (s : State) (rid code lead : Nat) : State :=
  s.say 3 rid (leBytes 1 code ++ leBytes 3 0 ++ leBytes 2 lead ++ leBytes 2 0)

/-- ACCEPT (R387). -/
def State.accept (s : State) (rid slip gen dropped : Nat) : State :=
  s.say 2 rid (leBytes 4 slip ++ leBytes 1 gen ++ leBytes 1 0 ++ leBytes 2 dropped ++ leBytes 4 (16 * bits (s.slip slip) 124 113))

/-- CANCEL_RESULT. -/
def State.cancelResult (s : State) (rid c : Nat) : State := s.say 7 rid (leBytes 1 c ++ leBytes 7 0)

/-- Replace a request. -/
def State.setRequest (s : State) (r r' : Request) : State :=
  { s with requests := s.requests.map fun x => if x == r then r' else x }

/-- END, sent last; the code in PUB for a publication's outcome is a free value (DESIGN CHOICE, log entry 35). -/
def State.sendEnd (s : State) (r : Request) (st why : Nat) : State :=
  (s.setRequest r { r with ended := true }).say 5 r.rid
    (leBytes 1 st ++ leBytes 1 why ++ [Config.pubCode r.pubRes, 0] ++ leBytes 4 r.sent ++ leBytes 4 r.lastPos ++ leBytes 4 0 ++
      leBytes 8 s.now)

/-- The first position of a recovery line's tokens. -/
def rlPos (line : Nat) : Nat := bits line 87 64
/-- How many tokens a recovery line holds, at most 9. -/
def rlCount (line : Nat) : Nat := min 9 (bits line 95 88)

/-- One TOKENS message of n tokens again; its commit rack time is a free value (DESIGN CHOICE, log entry 152). -/
def State.sayAgain (s : State) (rid pos n : Nat) (toks : List Byte) : State :=
  s.draw.say 4 rid (leBytes 4 pos ++ leBytes 2 n ++ [0, 0] ++ leBytes 8 (Config.resendTime s.draws).toNat ++ toks)

/-- ETOK again (13 R561, R570). -/
def State.resendTokens (s : State) (rid line : Nat) : State :=
  if rlCount line = 0 then s else s.sayAgain rid (rlPos line) (rlCount line) (leBytes (4 * rlCount line) (bits line 383 96))

/-! ## The egress ring (R366) -/

/-- Base of the egress ring of a slot. -/
def State.egBase (s : State) (j : Nat) : Nat := jAddr (s.jobRec j) 5
/-- Entries of the egress ring. -/
def State.egSize (s : State) (j : Nat) : Nat := 2 ^ jEgLog (s.jobRec j)
/-- Producer count. -/
def State.egProd (s : State) (j : Nat) : Nat := s.carveLe (s.egBase j + 64 * s.egSize j) 8
/-- Consumer count. -/
def State.egCons (s : State) (j : Nat) : Nat := s.carveLe (s.egBase j + 64 * s.egSize j + 8) 8
/-- The egress record of a count. -/
def State.egRecord (s : State) (j c : Nat) : Nat := s.carveLe (s.egBase j + 64 * (c % s.egSize j)) 64

/-- Records the endpoint has not consumed. -/
def State.egLeft (s : State) (j : Nat) : List Nat :=
  if s.ringOk (s.egBase j) (s.egSize j) then
    (List.range (min (s.egSize j) ((s.egProd j + 2 ^ 64 - s.egCons j) % 2 ^ 64))).map fun k => s.egRecord j (s.egCons j + k)
  else []

/-- Is a record one of a request's slip? -/
def recordOf (r : Request) (e : Nat) : Bool := bits e 17 0 == r.slip && bits e 25 18 == r.gen

/-! ## Publication (R385) -/

/-- Where the search of a handle begins (R383). -/
def handleIndex (h : Nat) : Nat :=
  let x : W32 := (BitVec.ofNat 32 h ^^^ BitVec.ofNat 32 (h / 2 ^ 32)) * 0x9e3779b1
  x.toNat / 65536

/-- Address of an entry of a side of a slot's handle table (R382). -/
def State.handleAt (s : State) (j side k : Nat) : Nat := jAddr (s.jobRec j) 6 + side * 0x200000 + 32 * (k % 65536)

/-- Does an entry of a handle stand where R383's search of the recto finds it? -/
def State.rectoHas (s : State) (j h : Nat) : Nat → Nat → Bool
  | 0, _ => false
  | fuel + 1, i =>
    let e := s.sheetLe (s.jSheet j) (s.handleAt j (s.rd (Reg.JCFG j) 27 27) i) 32
    bit e 63 && (bits e 127 64 == h || s.rectoHas j h fuel (i + 1))

/-- The place of a handle in the verso where R383's search finds it: an entry that stands, or the first free one. -/
def State.versoPlace (s : State) (j h : Nat) : Nat → Nat → Option (Nat × Bool)
  | 0, _ => none
  | fuel + 1, i =>
    let a := s.handleAt j (1 - s.rd (Reg.JCFG j) 27 27) i
    let e := s.sheetLe (s.jSheet j) a 32
    if !(bit e 63) then some (a, true)
    else if bits e 127 64 = h then some (a, false)
    else s.versoPlace j h fuel (i + 1)

/-- The lead's part of publishing a request's prefix once its pages are dry on every member: the record, the verso entry, HTPEND
(R384, R385).  An entry of the handle in either side is not replaced.  Nothing is written while a turn is pending (16 R654); without a
place nothing is published (DEDUCED in part, log entry 153). -/
def State.publish (s : State) (j : Nat) (r : Request) : State × Request :=
  match r.pub with
  | none => (s, r)
  | some p =>
    let w := s.slip r.slip
    if r.pubRes != 0 || slGen w != r.gen || slState w == 0 || slClen w < p.len || p.len < 16 || s.rdb (Reg.JCFG j) 28 then (s, r)
    else if s.rectoHas j p.handle 16 (handleIndex p.handle) then (s, { r with pubRes := 2 })
    else match s.versoPlace j p.handle 16 (handleIndex p.handle) with
    | none => (s, r)
    | some (_, false) => (s, { r with pubRes := 2 })
    | some (a, true) =>
      let i := s.jSheet j
      let n := p.len / 16
      let s := s.sysPut i p.list_ ((List.range n).flatMap fun k => leBytes 4 (s.sheetLe i (slPlist w + 4 * k) 4))
      let s := s.sysPut i (jAddr (s.jobRec j) 7 + 16 * p.prec) (leBytes 16 (n * 2 ^ 32 + p.list_ * 2 ^ 64))
      let e := p.prec + n * 2 ^ 16 + (if p.gv then p.gloss * 2 ^ 50 + 2 ^ 62 else 0) + 2 ^ 63 + p.handle * 2 ^ 64 +
        p.digest * 2 ^ 128 + (s.now + 1000000000 * p.ttl) % 2 ^ 64 * 2 ^ 192
      ((s.sysPut i a (leBytes 32 e)).wrb (Reg.JCFG j) 28 true, { r with pubRes := 1 })

/-- Publish, with the request that says so. -/
def State.published (s : State) (j : Nat) (r : Request) : State × Request :=
  let p := s.publish j r
  (p.1.setRequest r p.2, p.2)

/-! ## Ends outside a step (R390) -/

/-- An end outside a step is told once no record of the request is left in the egress ring (R369, R390). -/
def State.tellOver (j : Nat) (s : State) (r : Request) : State :=
  match r.untold with
  | none => s
  | some (st, why) =>
    if r.job != j || r.ended || (s.egLeft j).any (recordOf r) then s else
    let p := s.published j r
    p.1.sendEnd p.2 st why

/-- Tell the ends of a slot that are due. -/
def State.sendEnds (s : State) (j : Nat) : State := s.requests.foldl (State.tellOver j) s

/-! ## Commands the endpoint's firmware posts (R350, R369, R375) -/

/-- Base of the Roll's command ring. -/
def State.rcqBase (s : State) : Nat := s.addrOf Reg.RCQ_BASE_LO Reg.RCQ_BASE_HI 64

/-- Producer count of the command ring. -/
def State.rcqProd (s : State) : Nat := s.carveLe (s.rcqBase + 64 * 256) 8

/-- Has the command ring room for one more entry: firmware overwrites none that the Roll has not taken (R350)? -/
def State.rcqRoom (s : State) : Bool :=
  s.ringOk s.rcqBase 256 && decide ((s.rcqProd + 2 ^ 64 - (s.word Reg.RCQ_CONS).toNat) % 2 ^ 32 < 256)

/-- Write a post into the ring when it has room and no earlier one waits. -/
def State.postOne (st : State × List RollPost) (p : RollPost) : State × List RollPost :=
  let s := st.1
  if p.at_.isSome || !(s.rcqRoom) || st.2.any (fun x => x.at_.isNone) then (s, st.2 ++ [p]) else
  let n := s.rcqProd
  ((s.storeCarve (s.rcqBase + 64 * (n % 256)) (leBytes 64 p.entry)).carvePut (s.rcqBase + 64 * 256) (leBytes 8 ((n + 1) % 2 ^ 64)),
    st.2 ++ [{ p with at_ := some (n % 2 ^ 32) }])

/-- Write every post that waits and finds room. -/
def State.postAll (s : State) : State :=
  let r := s.posts.foldl State.postOne (s, [])
  { r.1 with posts := r.2 }

/-- What the endpoint does with the result of a command it posted: ADMIT's ACCEPT or REFUSE, the order to the prefill job, the
slip record that is claimed, CANCEL's result (R369, R375, R376; 13 R570). -/
def State.wishDone (s : State) (p : RollPost) (c slip gen : Nat) : State :=
  match p.wish with
  | .cancel => s.cancelResult p.rid (if c ≤ 1 then 0 else if c = 5 then 1 else if c = 6 then 2 else 3)
  | .enter r dropped order =>
    if c != 0 then s.refuseMsg p.rid 2 0 else
    let s : State := { s with
      requests := s.requests ++ [{ r with slip := slip, gen := gen, owed := r.owed.map fun x => (x.1, dropped) }],
      orders := s.orders ++ (order.map fun o => { o with slip := slip, gen := gen }).toList
      records := if r.owed.isSome then s.records.filter fun x => !(x.job == p.job && bits x.line 63 0 == p.rid) else s.records }
    if r.owed.isSome then s else s.accept p.rid slip gen dropped

/-- ACTIVATE of an adopted request: ACCEPT, then ETOK (13 R570). -/
def State.adopted (j slip : Nat) (s : State) (r : Request) : State :=
  match r.owed with
  | none => s
  | some (line, dropped) =>
    if r.job != j || r.slip != slip || slGen (s.slip slip) != r.gen then s else
    ((s.setRequest r { r with owed := none }).accept r.rid slip r.gen dropped).resendTokens r.rid line

/-- RETRY: a new order for the slip (R381). -/
def State.reorder (s : State) (j slip : Nat) : State :=
  let mine := s.orders.filter fun o => o.job == j && o.slip == slip && o.gen == slGen (s.slip slip)
  { s with orders := s.orders ++ mine.getLast?.toList }

/-- A Roll command is done: entry e, taken as count `cons`, gave result c, with ADMIT's slip and generation. -/
def State.rollTold (s : State) (cons e c slip gen : Nat) : State :=
  let j := bits e 11 8
  let mine := s.posts.filter fun p => p.at_ == some cons
  let s : State := { s with posts := s.posts.filter fun p => p.at_ != some cons }
  let s := mine.foldl (fun s p => s.wishDone p c slip gen) s
  let s := if c = 0 ∧ bits e 7 0 = 3 then s.requests.foldl (State.adopted j (bits e 49 32)) s else s
  let s := if c = 0 ∧ bits e 7 0 = 7 then s.reorder j (bits e 49 32) else s
  (s.sendEnds j).postAll

end Sys2Proof.Machine
end

