-- ==== Sys2Proof/Machine/Roll.lean ====
section
/-! DEFINITION. The Roll: ring commands, transitions, the header action, the commit, cancel, deadlines, Roll messages at a
member, and the ROL registers (09_serving.md R338 to R373, R380, R382, R384, R392, R393; 12_fabric_links.md R496, R497). -/

namespace Sys2Proof.Machine

/-! ## Messages to members (R343, R496, R497) -/

/-- The Roll's mark on its messages. -/
def rollIssuer (jr : Nat) : Issuer := ⟨4, 0, jId jr, 0, 0, 0, 0⟩

/-- A payload cut into granules. -/
def granules (bs : List Byte) : List (List Byte) := (chunks 64 (bs.length + 1) bs).map (fit 64 0)

/-- Send a Roll message to every other member in member-list order (R359, R364, R367). -/
def State.sendMembers (s : State) (j opc atop off imm : Nat) (bs : List Byte) : State :=
  let jr := s.jobRec j
  let g := granules bs
  (s.members j).foldl (fun s m =>
    if m.pos = s.pos then s else
    let p : Packet := { mkPacket opc s.pos m.pos with
      atop := BitVec.ofNat 4 atop, offset := BitVec.ofNat 36 off, imm := BitVec.ofNat 64 imm
      issuer := BitVec.ofNat 8 m.slot, gran := g, ngm1 := BitVec.ofNat 10 (g.length - 1) }
    s.issue p (rollIssuer jr) 0 0 true) s

/-- Send the slip to every member (R352, R496 SLIP; log entry 31). -/
def State.sendSlip (s : State) (j i : Nat) : State := s.sendMembers j 0x30 0 i 0 (leBytes 128 (s.slip i))

/-- Send every slip of a slot that is not FREE (13 R560). -/
def State.sendSlips (s : State) (j : Nat) : State :=
  let s := (s.seenJob j 0).seenSlips j
  ((s.slipsOf j).filter fun i => slState (s.slip i) != 0).foldl (fun s i => s.sendSlip j i) s

/-- Write step-table entries or their post fields in n granules each of at most 1,024 (R496). -/
def State.sendEntries (s : State) (j atop : Nat) (es : List Nat) : State :=
  ((List.range ((es.length + 1023) / 1024)).foldl (fun s b =>
    s.sendMembers j 0x30 atop (1024 * b) 0 (((es.drop (1024 * b)).take 1024).flatMap (leBytes 64))) s)

/-! ## Ends and prefix records (R346, R384) -/

/-- The requests of a slip that ends outside a step: their END is due (R390). -/
def State.markOver (s : State) (j i st why : Nat) : State :=
  let g := slGen (s.slip i)
  { s with requests := s.requests.map fun r =>
      if r.job == j && r.slip == i && r.gen == g && !r.ended then { r with untold := some (st, why) } else r }

/-- End a slip outside a step, with the counters of the slot (R393). -/
def State.endSlip (s : State) (j i st why : Nat) : State :=
  let s := (s.markOver j i st why).setSlip j i (putBits (putBits (s.slip i) 3 0 st) 447 444 why)
  if st = 7 then s.bump (Reg.ROL_CANCELS j) else if st = 8 then s.bumpSat (Reg.FAILS j) else s

/-- Change REFS of prefix record r of a slot (R384). -/
def State.refs (s : State) (j r : Nat) (up : Bool) : State :=
  let a := jAddr (s.jobRec j) 7 + 16 * r
  let n := s.sheetLe (s.jSheet j) a 4
  s.sysPut (s.jSheet j) a (leBytes 4 (if up then n + 1 else n + 2 ^ 32 - 1))

/-! ## Egress records (R366) -/

/-- Has the egress ring room for n records?  A ring that does not lie in the carve-out has none (DESIGN CHOICE in part, log entry 45). -/
def State.egRoom (s : State) (j n : Nat) : Bool :=
  s.ringOk (s.egBase j) (s.egSize j) &&
  decide (n + (s.egProd j + 2 ^ 64 - s.egCons j) % 2 ^ 64 ≤ s.egSize j)

/-- Write one egress record: slip, its state and reason, and what it emitted. -/
def State.egress (s : State) (j i st why : Nat) (emit : List (Nat × Nat)) : State :=
  let w := s.slip i
  let b := leBytes 8 (i % 2 ^ 18 + slGen w * 2 ^ 18 + st % 16 * 2 ^ 26 + why % 16 * 2 ^ 30 + emit.length % 16 * 2 ^ 34) ++
    leBytes 3 ((emit.headD (0, 0)).1) ++ leBytes 3 (slCref w) ++ leBytes 2 0 ++ leBytes 8 s.now ++
    fit 36 0 (emit.flatMap fun x => leBytes 4 x.2) ++ leBytes 4 0
  let p := s.egProd j
  let base := s.egBase j
  let n := s.egSize j
  (s.storeCarve (base + 64 * (p % n)) b).carvePut (base + 64 * n) (leBytes 8 ((p + 1) % 2 ^ 64))

/-! ## Ring commands (R350 to R353) -/

/-- What a ring command does: its result, and for ADMIT the slip and its generation; none where it is not taken yet. -/
structure RollRes where
  st : State
  res : Option Nat
  slip : Nat
  gen : Nat

/-- A result. -/
def RollRes.of (s : State) (r : Nat) : RollRes := ⟨s, some r, 0, 0⟩

/-- A slip without its reserved bits, which the module writes as zero (R341, R342; 00 R8). -/
def slipFields (w : Nat) : Nat :=
  [(255, 253), (127, 125), (91, 88), (43, 40), (15, 13)].foldl (fun w r => putBits w r.1 r.2 0) w

/-- ADMIT of an image (R352); a module that flushes answers FULL (13 R565) (DEDUCED in part, log entry 41). -/
def State.admitSlip (s : State) (j img : Nat) : RollRes :=
  match (if s.power.leaving then none else (s.slipsOf j).find? fun i => slState (s.slip i) == 0) with
  | none => RollRes.of s 2
  | some i =>
    let g := (slGen (s.slip i) + 1) % 256
    let w := putBits (putBits (slipFields img) 3 0 1) 443 436 g
    let s := s.setSlip j i w
    let s := if slPfx w then s.refs j (slPrec w) true else s
    ⟨(s.bump (Reg.ADMITS j)).sendSlip j i, some 0, i, g⟩

/-- A transition of R347 from one of the states given, for a role when one is named (0 decode, 1 prefill). -/
def State.transit (s : State) (j i : Nat) (ok : Bool) (next : Nat) : RollRes :=
  if !ok then RollRes.of s 3 else RollRes.of ((s.setSlip j i (putBits (s.slip i) 3 0 next)).sendSlip j i) 0

/-- CANCEL or FAIL (R349, R367, R369). -/
def State.cancelSlip (s : State) (j i why : Nat) (fail : Bool) : RollRes :=
  let w := s.slip i
  let st := slState w
  if st = 6 then RollRes.of (if fail then s else s.bumpSat (Reg.LATECAN j)) 5
  else if st = 7 ∨ st = 8 then RollRes.of s 6
  else if st = 0 then RollRes.of s 3
  else if slInstep w then
    let s := s.setSlip j i (putBits (putBits w 8 8 1) 447 444 why)
    let s : State := { s with pendFail := s.pendFail.filter (· != i) ++ if fail then [i] else [] }
    let a := slAct w
    let v := s.stepWordAt j (64 + 8 * (a / 64))
    let v := if bit v (a % 64) then v - 2 ^ (a % 64) else v
    let s := s.stepPut j (64 + 8 * (a / 64)) (leBytes 8 v)
    RollRes.of (s.sendMembers j 0x31 2 (a / 64) v []) 1
  else RollRes.of ((s.endSlip j i (if fail then 8 else 7) why).sendSlip j i) 0

/-- The token of a hand-off record's TAIL. -/
def hoTail (h j : Nat) : Nat := bits h (575 + 32 * j) (544 + 32 * j)

/-- The slip after LANDED (R380): C, TLEN, TAIL and NEXT, and the end if there is one. -/
def landedSlip (w h : Nat) : Nat :=
  let n := bits h 447 424
  let tl := bits h 423 420
  let w := putBits (putBits (putBits w 39 16 (n - tl)) 47 44 tl) 479 448 (bits h 543 512)
  let w := (List.range 15).foldl (fun w k => putBits w (511 + 32 * k) (480 + 32 * k) (hoTail h k)) w
  let why := if bit h 389 then 1 else if slCmax w ≤ n + 1 then 2 else 0
  putBits (putBits w 3 0 (if why = 0 then 4 else 6)) 447 444 why

/-- Combined prefix outcome of the decode and the prefill job (R383). -/
def pfxOf (dec pre : Nat) : Nat :=
  if dec = 1 then (if pre = 1 then 1 else 2) else if pre = 1 then 2 else dec

/-- LANDED (R380): it is not taken while the egress ring has no room (DEDUCED, log entry 32). -/
def State.landed (s : State) (j i a : Nat) : RollRes :=
  let w := s.slip i
  if s.prefill j || slState w != 3 then RollRes.of s 3
  else if !(s.inCarve a 128) then RollRes.of s 8 else
  let h := s.carveLe a 128
  if bits h 407 390 != i || bits h 415 408 != slGen w then RollRes.of s 4
  else if !(s.egRoom j 1) then ⟨s, none, 0, 0⟩ else
  let w' := landedSlip w h
  let s := s.setSlip j i w'
  let s := s.egress j i (slState w') (slReason w') [(bits h 447 424, bits h 543 512)]
  let s : State := { s with requests := s.requests.map fun r =>
    if r.job == j && r.slip == i && r.gen == slGen w && !r.ended then { r with pfx := pfxOf r.pfx (bits h 419 416) } else r }
  RollRes.of (s.sendSlip j i) 0

/-- MSET (R352; 13 R554). -/
def State.mset (s : State) (j i a : Nat) : RollRes :=
  if !(s.inCarve a 32) then RollRes.of s 8 else
  let m := s.carveLe a 32
  let w := s.slip i
  let pfx := bit m 208
  let old := slPfx w
  let w := putBits (putBits (putBits w 175 128 (bits m 47 0)) 112 96 (bits m 80 64)) 239 192 (bits m 175 128)
  let w := putBits (putBits w 1023 1008 (bits m 207 192)) 11 11 (if pfx then 1 else 0)
  let s := s.setSlip j i w
  let s := if pfx && !old then s.refs j (slPrec w) true else s
  RollRes.of (s.mirrorMset j i) 0

/-- RELEASE and MFREE: the prefix record is given back and the slip is FREE (R352). -/
def State.freeSlip (s : State) (j i : Nat) : RollRes :=
  let w := s.slip i
  let s := if slPfx w then s.refs j (slPrec w) false else s
  RollRes.of (s.setSlip j i (putBits (putBits w 3 0 0) 11 11 0)) 0

/-- PAUSE (R371). -/
def State.pause (s : State) (j i : Nat) : RollRes :=
  let w := s.slip i
  if slState w != 4 then RollRes.of s 3
  else if slInstep w then RollRes.of (s.setSlip j i (putBits w 9 9 1)) 1
  else s.transit j i true 5

/-- Is an operation code defined (R352)? -/
def rollOp (o : Nat) : Bool := decide (1 ≤ o ∧ o ≤ 0xC) || o == 0x10 || o == 0x11

/-- The effect of a ring command (R352, R353) (DEDUCED in part, log entry 38). -/
def State.rollDo (s : State) (e : Nat) : RollRes :=
  let o := bits e 7 0
  let j := bits e 11 8
  let i := bits e 49 32
  let a0 := bits e 127 64
  if !(rollOp o) || bits e 511 192 != 0 || bits e 63 58 != 0 || bits e 31 24 != 0 || bits e 15 12 != 0 then RollRes.of s 8
  else if !(s.slotOn j) || (o ≤ 0xC && !(s.isLead j)) || (o == 0x11 && s.isLead j) then RollRes.of s 7
  else if o = 1 then
    let a := a0 % 2 ^ 48
    if s.inCarve a 128 then s.admitSlip j (s.carveLe a 128) else RollRes.of s 8
  else if !(s.inRange j i) then RollRes.of s 7
  else if slGen (s.slip i) != bits e 57 50 then RollRes.of s 4
  else
    let st := slState (s.slip i)
    let dec := !(s.prefill j)
    match o with
    | 0x02 => s.transit j i (st == 1 && dec) 2
    | 0x03 => s.transit j i (st == 1) (if dec then 4 else 2)
    | 0x04 => s.transit j i (st == 2 && dec) 3
    | 0x05 => s.landed j i (a0 % 2 ^ 48)
    | 0x06 =>
      if st == 3 && !dec then RollRes.of ((s.endSlip j i 6 7).sendSlip j i) 0 else RollRes.of s 3
    | 0x07 => s.transit j i ((st == 2 || st == 3) && dec) 1
    | 0x08 => s.pause j i
    | 0x09 => s.transit j i (st == 5) 4
    | 0x0A => s.cancelSlip j i (a0 % 16) false
    | 0x0B => s.cancelSlip j i (a0 % 16) true
    | 0x10 => s.mset j i (a0 % 2 ^ 48)
    | _ => if terminal st then s.freeSlip j i else RollRes.of s 3

/-! ## The header action (R357 to R359) -/

/-- Selectable slips in descending PRIO and ascending index (R357); after a re-map slips of the torn step are among them (13 R562). -/
def State.selectable (s : State) (j : Nat) : List Nat :=
  let want := if s.prefill j then 2 else 4
  let l := (s.slipsOf j).filter fun i => slState (s.slip i) == want
  (List.range 16).flatMap fun p => l.filter fun i => slPrio (s.slip i) == 15 - p

/-- The pre fields of a slip: TC, tokens, CATCH and LAST (R357). -/
structure Pre where
  tc : Nat
  tok : List Nat
  catch_ : Bool
  last : Bool
  deriving DecidableEq, Repr

/-- The draft line of a slip: its BASE, N and tokens (R358). -/
def State.draftLine (s : State) (j i : Nat) : Nat :=
  s.sheetLe (s.jSheet j) (jAddr (s.jobRec j) 4 + 64 * (i - s.rd (Reg.SBASE j) 17 0)) 64

/-- The pseudocode of R357 up to the window position; at most 8 drafts are taken. -/
def preFields (prefill : Bool) (chunk w draft : Nat) : Pre :=
  let c := slClen w
  let b := c % 16
  let tl := slTlen w
  if prefill then ⟨min (slCmax w - c) chunk, [], false, false⟩
  else if b < tl then
    let r := tl - b
    if 9 ≤ r then ⟨9, (List.range 9).map fun k => slTail w (b + k), true, false⟩
    else ⟨r + 1, (List.range r).map (fun k => slTail w (b + k)) ++ [slNext w], true, true⟩
  else
    let nd := if bits draft 23 0 = c then min (min (bits draft 27 24) (bits w 95 92)) 8 else 0
    ⟨1 + nd, slNext w :: (List.range nd).map fun k => bits draft (287 + 32 * k) (256 + 32 * k), false, false⟩

/-- Window position for the step (R282, R357). -/
def windowPos (prefill : Bool) (w tc : Nat) : Nat :=
  let wq := bits w 124 113
  let ws := if prefill then min (16 * wq) (32768 - 16 * ((tc + 14) / 16)) else 16 * wq
  slClen w - ws

/-- A step-table entry with its pre fields (R356). -/
def preEntry (i w wpos : Nat) (p : Pre) : Nat :=
  i % 2 ^ 18 + p.tc % 65536 * 2 ^ 18 + (if p.catch_ then 2 ^ 38 else 0) + (if p.last then 2 ^ 39 else 0) + slClen w * 2 ^ 56 +
  wpos % 2 ^ 24 * 2 ^ 128 + ((List.range 9).map fun k => p.tok.getD k 0 % 2 ^ 32 * 2 ^ (192 + 32 * k)).foldl (· + ·) 0

/-- TC, WPOS, ACT, INSTEP and STEP of a slip a step takes (R349, R359, R341). -/
def takenSlip (w tc wpos a v : Nat) : Nat :=
  putBits (putBits (putBits (putBits (putBits w 63 48 tc) 87 64 wpos) 435 424 a) 10 10 1) 415 384 v

/-- Turn the handle table when a turn is pending (R382). -/
def State.handleTurn (s : State) (j : Nat) : State :=
  let o := Reg.JCFG j
  if s.rdb o 28 then (s.wrb o 28 false).wrb o 27 (!(s.rdb o 27)) else s

/-- The bytes of the header line: STEP, NACT and role, rack time (R355). -/
def headerLine (v n : Nat) (prefill : Bool) (t : Nat) : List Byte :=
  leBytes 8 v ++ leBytes 8 (n + if prefill then 65536 else 0) ++ leBytes 8 t ++ List.replicate 40 0

/-- Write a header line: words 1 to 7, then word 0 (R359). -/
def State.putHeader (s : State) (j : Nat) (h : List Byte) : State := (s.stepPut j 8 (h.drop 8)).stepPut j 0 (h.take 8)

/-- May the lead's Roll take a header action (R357, 13 R565)? -/
def State.headerDue (s : State) (j : Nat) : Bool :=
  s.slotOn j && s.isLead j && !s.power.leaving && s.jobRec j != 0 &&
  s.stepWordAt j 0x250 == jNmem (s.jobRec j) && !(s.selectable j).isEmpty

/-- The header action. -/
def State.headerAction (s : State) (j : Nat) : State :=
  let s := (s.seenJob j 0).seenSlips j
  let jr := s.jobRec j
  let sel := s.selectable j
  let n := min sel.length (jMaxact jr)
  let v := (s.stepWordAt j 0x240 + 1) % 2 ^ 64
  let pf := s.prefill j
  let s := if n < sel.length then s.bumpSat (Reg.DEFER j) (sel.length - n) else s
  let s := s.handleTurn j
  let r := ((List.range n).zip sel).foldl (fun (st : State × List Nat) x =>
    let s := st.1
    let w := s.slip x.2
    let p := preFields pf (jChunk jr) w (s.draftLine j x.2)
    let wp := windowPos pf w p.tc
    (s.setSlip j x.2 (takenSlip w p.tc wp x.1 v), st.2 ++ [preEntry x.2 w wp p])) (s, [])
  let es := r.2
  let mask := leBytes 512 (2 ^ n - 1)
  let hd := headerLine v n pf s.now
  let s := (r.1.stepPut j 0x10000 (es.flatMap (leBytes 64))).stepPut j 0x40 mask
  let s := ((s.sendEntries j 1 es).sendMembers j 0x30 3 0 0 mask).sendMembers j 0x31 0 0 0 hd
  let s := ((s.stepPut j 0x250 (leBytes 8 0)).stepPut j 0x248 (leBytes 8 0)).putHeader j hd
  (s.wrb (Reg.ACTIVE j) 31 true).wr (Reg.ACTIVE j) 12 0 n

/-- HEADER_ACTION (DEDUCED in part, log entry 39). -/
def execHeaderAction (j : Fin 16) (s : State) : Host.Outcome State Fault Refusal :=
  act s fun s => if s.headerDue j.val then s.headerAction j.val else s

/-! ## The commit (R362 to R366) -/

/-- What the commit of one entry gives. -/
structure Outcome where
  pstate : Nat
  reason : Nat
  newc : Nat
  next : Nat
  emit : List (Nat × Nat)
  big : Bool
  deriving DecidableEq, Repr

/-- The end rules of emitted tokens: EOS before LIMIT (R362). -/
def endEmit (o : Outcome) (eos cmax out : Nat) : Outcome :=
  if o.emit.isEmpty then o else
  let o := if eos < o.emit.length then { o with emit := o.emit.take (eos + 1), pstate := 6, reason := 1 } else o
  let o := if cmax ≤ (o.emit.getLastD (0, 0)).1 + 1 then
    { o with emit := o.emit.filter fun x => decide (x.1 < cmax), pstate := 6, reason := 2 } else o
  { o with next := out }

/-- The end rules of an ACTIVE slip (R362). -/
def endActive (o : Outcome) (deadline now : Nat) (psp : Bool) : Outcome :=
  let o := if o.pstate = 4 ∧ 1048567 ≤ o.newc then { o with pstate := 6, reason := 3 } else o
  let o := if o.pstate = 4 ∧ deadline ≠ 0 ∧ deadline ≤ now then { o with pstate := 6, reason := 4 } else o
  if o.pstate = 4 && psp then { o with pstate := 5 } else o

/-- The pseudocode of R362 for a slip w with entry e and verdict v in step `step` (DEDUCED in part, log entry 40)
(DEDUCED in part, log entry 42). -/
def outcome (prefill fail : Bool) (w e v step now : Nat) : Outcome :=
  let c := teC e
  let tc := teTc e
  let catch_ := bit e 38
  let last := bit e 39
  let out := bits v 31 0
  let o : Outcome := ⟨slState w, slReason w, c, slNext w, [], false⟩
  let needv := (!prefill && (!catch_ || last)) || (prefill && c + tc == slCmax w)
  let o :=
    if slCxp w then { o with pstate := if fail then 8 else 7 }
    else if needv && bits v 63 48 != step % 65536 then { o with pstate := 8, reason := 10 }
    else if prefill then
      if c + tc = slCmax w then { o with newc := c + tc, pstate := 3, next := out } else { o with newc := c + tc }
    else if catch_ then { o with newc := c + tc, emit := if last then [(c + tc, out)] else [] }
    else
      let acc := bits v 35 32
      let a := min acc (tc - 1)
      { o with newc := c + 1 + a, big := decide (tc - 1 < acc),
               emit := (List.range a).map (fun k => (c + 1 + k, teTok e (k + 1))) ++ [(c + 1 + a, out)] }
  endActive (endEmit o (bits v 39 36) (slCmax w) out) (slDeadline w) now (slPsp w)

/-- TAIL and TLEN after a commit (R363); a prefill step has no tokens. -/
def tailAfter (prefill : Bool) (w e newc : Nat) : Nat :=
  let c := teC e
  let w' := if prefill then w else
    (List.range 9).foldl (fun w k =>
      if c + k < newc && decide (newc / 16 * 16 ≤ c + k) then
        putBits w (511 + 32 * ((c + k) % 16)) (480 + 32 * ((c + k) % 16)) (teTok e k)
      else w) w
  if c / 16 * 16 + slTlen w ≤ newc then putBits w' 47 44 (newc % 16) else w'

/-- The slip after a commit (R362, R363). -/
def committedSlip (prefill : Bool) (w e pstate newc next : Nat) : Nat :=
  let w := tailAfter prefill w e newc
  putBits (putBits (putBits (putBits (putBits w 3 0 pstate) 39 16 newc) 479 448 next) 63 48 0) 10 8 0

/-- An entry with its post fields (R356). -/
def postEntry (e : Nat) (o : Outcome) : Nat :=
  putBits (putBits (putBits e 37 34 o.pstate) 103 80 o.newc) 183 152 o.next

/-- Write one entry's commit into the lead's slip and the step table (R362). -/
def State.commitEntry (j a step : Nat) (st : State × List (Nat × Outcome)) : State × List (Nat × Outcome) :=
  let s := st.1
  let e := s.stepEntry j a
  let i := teSlip e
  let w := s.slip i
  let v := s.stepWordAt j (0x50000 + 8 * a)
  let o := outcome (s.prefill j) (s.pendFail.contains i) w e v step s.now
  let s := if o.big then s.post 0x0501 [i, step, bits v 35 32] else s
  let w' := putBits (committedSlip (s.prefill j) w e o.pstate o.newc o.next) 447 444 o.reason
  let s := s.setSlip j i w'
  let s := if o.pstate = slState w then s else
    if o.pstate = 7 then s.bump (Reg.ROL_CANCELS j) else if o.pstate = 8 then s.bumpSat (Reg.FAILS j) else s
  (({ s with pendFail := s.pendFail.filter (· != i) } : State).stepPut j (0x10000 + 64 * a) (leBytes 64 (postEntry e o)),
    st.2 ++ [(i, o)])

/-- Put COMMITTED in the step area and in STEP (R362, R393). -/
def State.setCommitted (s : State) (j v : Nat) : State :=
  (s.stepPut j 0x240 (leBytes 8 v)).wr64 (Reg.STEP_LO j) (Reg.STEP_HI j) v

/-- Has every member done the step (R362)? -/
def State.commitDue (s : State) (j : Nat) : Bool :=
  s.slotOn j && s.isLead j && s.rdb (Reg.ACTIVE j) 31 && s.jobRec j != 0 && s.stepWordAt j 0x248 == jNmem (s.jobRec j)

/-- The commit: slips and post fields, COMMITTED, egress records, messages. -/
def State.commit (s : State) (j : Nat) : State :=
  let n := s.rd (Reg.ACTIVE j) 12 0
  let s := s.seenJob j n
  let s := s.seenSheet (s.jSheet j) (jStepa (s.jobRec j) + 0x50000) (8 * n)
  let step := s.stepWordAt j 0
  let r := (List.range n).foldl (fun st a => State.commitEntry j a step st) (s, [])
  let s := (r.1.setCommitted j step).stepPut j 0x250 (leBytes 8 0)
  let s := r.2.foldl (fun s x =>
    if x.2.emit.isEmpty && !(terminal x.2.pstate) then s else s.egress j x.1 x.2.pstate x.2.reason x.2.emit) s
  let s := (s.sendEntries j 2 ((List.range n).map (s.stepEntry j))).sendMembers j 0x31 1 0 step []
  let s : State := { s with egStall := s.egStall.filter (· != j) }
  (s.wrb (Reg.ACTIVE j) 31 false).bump (Reg.COMMITS j)

/-- A commit that is due: one that finds no room in the egress ring waits, and is counted once (R362, R366). -/
def State.tryCommit (s : State) (j : Nat) : State :=
  if !(s.commitDue j) then s
  else if s.egRoom j (s.rd (Reg.ACTIVE j) 12 0) then s.commit j
  else if s.egStall.contains j then s
  else { s.bumpSat (Reg.EGSTALL j) with egStall := s.egStall ++ [j] }

/-- STEP_COMMIT. -/
def execStepCommit (j : Fin 16) (s : State) : Host.Outcome State Fault Refusal := act s fun s => s.tryCommit j.val

/-! ## Taking ring commands (R348, R350) -/

/-- The point between two ring commands: the Roll takes every commit whose conditions hold (R348). -/
def State.rollPoint (s : State) : State := (List.range 16).foldl State.tryCommit s

/-- What the Roll reads for a ring command: the slot's job record, the slip it names, or for ADMIT every slip, and what A0 points to
(05 R213, R215). -/
def State.rollSeen (s : State) (e : Nat) : State :=
  let o := bits e 7 0
  let j := bits e 11 8
  let s := s.seenJob j 0
  let s := if o = 1 then s.seenSlips j else if s.inRange j (bits e 49 32) then s.seenSlip (bits e 49 32) else s
  if o = 1 ∨ o = 5 then s.seenCarve (bits e 111 64) 128 else if o = 0x10 then s.seenCarve (bits e 111 64) 32 else s

/-- The next entry of the Roll's ring, with what it reads for it. -/
def State.rollHead (s : State) : Head :=
  let h := s.ringHead 129 0x0502 s.rcqBase 256 (s.word Reg.RCQ_CONS).toNat
  match h.entry with
  | none => h
  | some e => ⟨h.st.rollSeen e, some e⟩

/-- The Roll takes the next entry of its ring when `want` has its operation, writes the result into it and tells the endpoint. -/
def State.rollNext (s : State) (want : Nat → Bool) : State :=
  let s := s.rollPoint
  let cons := (s.word Reg.RCQ_CONS).toNat
  let h := s.rollHead
  match h.entry with
  | none => h.st
  | some e =>
    if !(want (bits e 7 0)) then h.st else
    let r := h.st.rollDo e
    match r.res with
    | none => h.st
    | some c =>
      let ok := bits e 7 0 = 1 ∧ c = 0
      let e' := putBits e 23 16 c
      let e' := if ok then putBits (putBits e' 49 32 r.slip) 57 50 r.gen else e'
      let s := (r.st.storeCarve (s.rcqBase + 64 * (cons % 256)) (leBytes 64 e')).bump Reg.RCQ_CONS
      let s := if c = 3 ∨ c = 4 ∨ c = 7 ∨ c = 8 then s.bumpSat Reg.CMD_REJ else s
      s.rollTold cons e c r.slip r.gen

/-- A row of the ring: the next entry when it is of the row's operation, or of a reserved one. -/
def State.rollTake (s : State) (op : Nat) : State := s.rollNext fun o => o == op || !(rollOp o)

/-- Firmware posts a command for the endpoint; the Roll takes it at once when no earlier entry waits (R348, R350). -/
def State.postCommand (s : State) (p : RollPost) : State :=
  let s := ({ s with posts := s.posts ++ [p] } : State).postAll
  if (s.posts.getLast?.bind RollPost.at_) = some (s.word Reg.RCQ_CONS).toNat then s.rollNext fun _ => true else s

/-- ADMIT. -/
def execAdmit (s : State) : Host.Outcome State Fault Refusal := act s fun s => s.rollTake 0x01
/-- PREFILLING. -/
def execPrefilling (s : State) : Host.Outcome State Fault Refusal := act s fun s => s.rollTake 0x02
/-- ACTIVATE. -/
def execActivate (s : State) : Host.Outcome State Fault Refusal := act s fun s => s.rollTake 0x03
/-- SHIPPING. -/
def execShipping (s : State) : Host.Outcome State Fault Refusal := act s fun s => s.rollTake 0x04
/-- LANDED. -/
def execLanded (s : State) : Host.Outcome State Fault Refusal := act s fun s => s.rollTake 0x05
/-- HANDED. -/
def execHanded (s : State) : Host.Outcome State Fault Refusal := act s fun s => s.rollTake 0x06
/-- RETRY. -/
def execRetry (s : State) : Host.Outcome State Fault Refusal := act s fun s => s.rollTake 0x07
/-- PAUSE. -/
def execPause (s : State) : Host.Outcome State Fault Refusal := act s fun s => s.rollTake 0x08
/-- RESUME. -/
def execResume (s : State) : Host.Outcome State Fault Refusal := act s fun s => s.rollTake 0x09
/-- CANCEL. -/
def execCancel (s : State) : Host.Outcome State Fault Refusal := act s fun s => s.rollTake 0x0A
/-- FAIL. -/
def execFail (s : State) : Host.Outcome State Fault Refusal := act s fun s => s.rollTake 0x0B
/-- RELEASE. -/
def execRelease (s : State) : Host.Outcome State Fault Refusal := act s fun s => s.rollTake 0x0C
/-- MSET. -/
def execMset (s : State) : Host.Outcome State Fault Refusal := act s fun s => s.rollTake 0x10
/-- MFREE. -/
def execMfree (s : State) : Host.Outcome State Fault Refusal := act s fun s => s.rollTake 0x11

/-! ## Deadlines (R373) -/

/-- End the slips of a slot whose DEADLINE has passed and that no step holds. -/
def State.sweepDeadlines (s : State) (j : Nat) : State :=
  (s.slipsOf j).foldl (fun s i =>
    let s := s.seenSlip i
    let w := s.slip i
    let st := slState w
    if st = 0 || terminal st || slInstep w || slDeadline w = 0 || s.now < slDeadline w then s
    else (s.endSlip j i (if st = 4 then 6 else 7) 4).sendSlip j i) s

/-- DEADLINE_SWEEP. -/
def execDeadlineSweep (j : Fin 16) (s : State) : Host.Outcome State Fault Refusal :=
  act s fun s => if s.slotOn j.val && s.isLead j.val then (s.sweepDeadlines j.val).sendEnds j.val else s

/-! ## Roll messages at a member (R343, R359, R364, R367, 12 R496, R497) -/

/-- The fields of a slip that are local to a module: PLIST, PCNT, RLIST, PREC with its valid bit, and CREF (R343). -/
def localSlip (own new : Nat) : Nat :=
  let w := putBits (putBits (putBits new 175 128 (slPlist own)) 112 96 (slPcnt own)) 239 192 (slRlist own)
  putBits (putBits (putBits w 1023 1008 (slPrec own)) 11 11 (if slPfx own then 1 else 0)) 983 960 (slCref own)

/-- A step-table entry without its reserved bits, which the module writes as zero (R356; 00 R8). -/
def entryFields (e : Nat) : Nat :=
  [(511, 480), (191, 184), (127, 104), (55, 40)].foldl (fun e r => putBits e r.1 r.2 0) e

/-- SLIP at a member: every field but the local ones is the lead's (R343) (DEDUCED in part, log entry 31). -/
def State.rxSlip (s : State) (j i new : Nat) : State :=
  if s.inRange j i then s.setSlip j i (localSlip (s.slip i) (slipFields new)) else s

/-- POST: only the post fields of an entry are written. -/
def State.rxPost (s : State) (j a new : Nat) : State :=
  let e := s.stepEntry j a
  s.stepPut j (0x10000 + 64 * a)
    (leBytes 64 (putBits (putBits (putBits e 37 34 (bits new 37 34)) 103 80 (bits new 103 80)) 183 152 (bits new 183 152)))

/-- HEADER at a member: a pending handle-table turn, its slips from the entries, then the header line (R359, R382, R393). -/
def State.rxHeader (s : State) (j : Nat) (h : List Byte) : State :=
  let v := leNat (h.take 8)
  let s := s.handleTurn j
  let s := ((s.wrb (Reg.ACTIVE j) 31 true).wr (Reg.ACTIVE j) 12 0 (leNat ((h.drop 8).take 8)))
  let s := (List.range (leNat ((h.drop 8).take 8) % 8192)).foldl (fun s a =>
    let e := s.stepEntry j a
    let i := teSlip e
    if s.inRange j i then s.setSlip j i (takenSlip (s.slip i) (teTc e) (bits e 151 128) a v) else s) s
  s.putHeader j h

/-- COMMIT at a member: its slips from the entries, then COMMITTED; the slot's step is over (R364, R393) (DEDUCED in part, log entry 44). -/
def State.rxCommit (s : State) (j v : Nat) : State :=
  let pf := bit (s.stepWordAt j 8) 16
  let s := s.seenJob j (s.headNact j)
  let s := (List.range (s.headNact j)).foldl (fun s a =>
    let e := s.stepEntry j a
    let i := teSlip e
    if s.inRange j i then
      s.setSlip j i (committedSlip pf (s.slip i) e (bits e 37 34) (bits e 103 80) (bits e 183 152))
    else s) s
  ((s.setCommitted j v).wrb (Reg.ACTIVE j) 31 false).bump (Reg.COMMITS j)

/-- A Roll message at its target: the state and the status it answers. -/
def State.rxRoll (s : State) (p : Packet) : State × Nat :=
  let j := p.issuer.toNat % 16
  let off := p.offset.toNat
  let bs := p.gran.flatMap id
  if !(s.slotOn j) then (s, 2) else
  let s := s.seenJob j 0
  if jLead (s.jobRec j) != p.src.toNat then (s, 2) else
  if p.opc.toNat = 0x30 then
    match p.atop.toNat with
    | 0 => (s.rxSlip j (off % 2 ^ 18) (leNat (fit 128 0 bs)), 0)
    | 1 => (s.stepPut j (0x10000 + 64 * (off % 4096)) (p.gran.flatMap fun g => leBytes 64 (entryFields (leNat (fit 64 0 g)))), 0)
    | 2 => (((List.range p.gran.length).foldl (fun s k => s.rxPost j (off % 4096 + k) (leNat (p.gran.getD k []))) s), 0)
    | 3 => (s.stepPut j 0x40 (fit 512 0 bs), 0)
    | _ => (s, 0)
  else
    match p.atop.toNat with
    | 0 => (s.rxHeader j (fit 64 0 bs), 0)
    | 1 => (s.rxCommit j p.imm.toNat, 0)
    | 2 => (s.stepPut j (64 + 8 * (off % 64)) (leBytes 8 p.imm.toNat), 0)
    | _ => (s, 0)

/-! ## Registers (R392, R393) -/

/-- HTPEND. -/
def execHtpend (j : Fin 16) (s : State) : Host.Outcome State Fault Refusal := act s fun s => s.wrb (Reg.JCFG j.val) 28 true

/-- A write of JCFG: SHEET, ROLE and LEAD only while EN is 0; EN written 1 clears the counters (R393, log entry 33).
A write that leaves a lead enabled makes it send its slips in use to the members, a spare among them (13 R560) (DESIGN CHOICE, log
entry 174). -/
def State.jcfgWrite (s : State) (j v cls : Nat) : State :=
  let o := Reg.JCFG j
  let old := s.word o
  let s := s.writeReg o v
  let fixed (w : W32) : Nat := bits w.toNat 30 29 * 16 + bits w.toNat 23 20
  let s := if old.toNat / 2 ^ 31 % 2 = 1 && fixed old != fixed (s.word o) then
      (((s.wr o 30 29 (bits old.toNat 30 29)).wr o 23 20 (bits old.toNat 23 20)).logWrite o v cls)
    else s
  let s := if old.toNat / 2 ^ 31 % 2 = 0 && s.slotOn j then
    let s := { s with csr := s.csr.filter fun e => !(decide (Reg.COMMITS j ≤ e.1) && decide (e.1 ≤ Reg.DEFER j)) }
    State.wrb s (Reg.ACTIVE j) 31 false
  else s
  if s.slotOn j && s.isLead j && !(bit v 28) then s.sendSlips j else s

/-- A write in ROL. -/
def State.rolWrite (s : State) (off v cls : Nat) : State :=
  if 0x51000 ≤ off ∧ off < 0x51400 then
    let j := (off - 0x51000) / 0x40
    if off = Reg.JCFG j then s.jcfgWrite j v cls
    else if off < Reg.ACTIVE j then s.guardedWrite (!(s.slotOn j)) off v cls
    else s.writeReg off v
  else s.writeReg off v

end Sys2Proof.Machine
end

