-- ==== Sys2Proof/Machine/Endpoint.lean ====
section
/-! DEFINITION. The serving endpoint and what firmware does for it: SUBMIT, CANCEL, DRAFT and TOKENS (09_serving.md R374 to
R376, R382, R383, R386 to R391; 13_topology_failover.md R555, R561). -/

namespace Sys2Proof.Machine

/-! ## Messages (R386, R387) -/

/-- A field of a message: n bytes at an offset. -/
def mLe (m : List Byte) (o n : Nat) : Nat := leNat ((m.drop o).take n)

/-- Does the header of a message fit: MAGIC, VERSION, TYPE and LENGTH? -/
def headOk (m : List Byte) (type len : Nat) : Bool :=
  mLe m 0 2 == 0x594E && mLe m 2 1 == 1 && mLe m 3 1 == type && mLe m 4 4 == len && m.length == len

/-- RID. -/
def mRid (m : List Byte) : Nat := mLe m 8 8

/-! ## SUBMIT (R374, R375, R388) -/

/-- n of a SUBMIT. -/
def sbN (m : List Byte) : Nat := mLe m 48 4
/-- NRUB. -/
def sbNrub (m : List Byte) : Nat := mLe m 52 2
/-- MAXNEW. -/
def sbMaxnew (m : List Byte) : Nat := mLe m 24 4
/-- Prompt token k. -/
def sbTok (m : List Byte) (k : Nat) : Nat := mLe m (56 + 4 * k) 4
/-- A flag bit. -/
def sbFlag (m : List Byte) (i : Nat) : Bool := bit (mLe m 17 1) i
/-- W. -/
def sbW (m : List Byte) : Nat := mLe m 20 4

/-- Is a SUBMIT of a form R387 and R388 give? -/
def submitOk (m : List Byte) : Bool :=
  headOk m 1 (56 + 4 * sbN m + 4 * sbNrub m) && decide (1 ≤ sbN m) && decide (1 ≤ sbMaxnew m) && decide (sbNrub m ≤ 256) &&
  decide (mLe m 54 1 ≤ 8)

/-- Search of the handle table (R383): at most 16 entries from i on. -/
def State.lookup (s : State) (j h n gloss : Nat) (gv : Bool) (prompt : List Byte) : Nat → Nat → Nat × Nat × Nat
  | 0, _ => (3, 0, 0)
  | fuel + 1, i =>
    let e := s.sheetLe (s.jSheet j) (s.handleAt j (s.rd (Reg.JCFG j) 27 27) i) 32
    if !(bit e 63) then (3, 0, 0)
    else if bits e 127 64 != h then s.lookup j h n gloss gv prompt fuel (i + 1)
    else
      let plen := bits e 32 16
      if bits e 255 192 < s.now then (4, 0, 0)
      else if bit e 62 != gv || (gv && bits e 61 50 != gloss) || n - 1 < 16 * plen ||
          bits e 191 128 != leNat (shake256 (prompt.take (64 * plen)) 8) then (5, 0, 0)
      else (1, plen, bits e 15 0)

/-- Outcome of the decode job's look-up: code, prefix pages, record (R383). -/
def State.prefixOf (s : State) (j : Nat) (m : List Byte) : Nat × Nat × Nat :=
  if !(sbFlag m 1) then (0, 0, 0) else
  let h := mLe m 32 8
  s.lookup j h (sbN m) (mLe m 18 2 % 4096) (sbFlag m 2) ((m.drop 56).take (4 * sbN m)) 16 (handleIndex h)

/-- Insert an index into an ascending list without repeats. -/
def insertIdx : Nat → List Nat → List Nat
  | x, [] => [x]
  | x, y :: t => if x < y then x :: y :: t else if x = y then y :: t else y :: insertIdx x t

/-- The rubric list of a request: the job's set and the request's indices, at most 256, with how many were dropped (R283). -/
def rubricList (job req : List Nat) : List Nat × Nat :=
  let base := job.foldl (fun a x => insertIdx x a) []
  let extra := (req.foldl (fun a x => insertIdx x a) []).filter fun x => !(base.contains x)
  let room := 256 - base.length
  ((extra.take room).foldl (fun a x => insertIdx x a) base, extra.length - room)

/-- The job's rubric set (R340 RSET). -/
def State.rubricSet (s : State) (j : Nat) : List Nat :=
  let a := jAddr (s.jobRec j) 8
  (List.range (min 256 (s.sheetLe (s.jSheet j) a 4))).map fun k => s.sheetLe (s.jSheet j) (a + 4 + 4 * k) 4

/-- Put a list of fields into a number. -/
def putAll (w : Nat) (fs : List (Nat × Nat × Nat)) : Nat := fs.foldl (fun w f => putBits w f.1 f.2.1 f.2.2) w

/-- The slip image of a SUBMIT that takes no prefix (R375). -/
def State.submitImage (s : State) (j : Nat) (m : List Byte) (plist rlist cref : Nat) : Nat :=
  let jr := s.jobRec j
  let wq := (if sbW m = 0 then jWin jr else min (sbW m) (jWin jr)) / 16
  let limit := mLe m 28 4
  putAll 0 [(7, 4, mLe m 16 1), (12, 12, if sbFlag m 0 then 1 else 0), (95, 92, mLe m 54 1), (124, 113, wq),
    (175, 128, plist), (191, 176, jId jr), (239, 192, rlist), (251, 240, mLe m 18 2), (252, 252, if sbFlag m 2 then 1 else 0),
    (319, 256, if sbFlag m 1 then mLe m 32 8 else 0), (383, 320, if limit = 0 then 0 else s.now + 1000 * limit), (419, 416, j),
    (423, 420, s.jSheet j), (983, 960, cref), (1007, 984, sbN m + sbMaxnew m)]

/-- A prefix record (R384): how many pages, and the address of their numbers. -/
def State.prefixRec (s : State) (j r : Nat) : Nat × Nat :=
  let e := s.sheetLe (s.jSheet j) (jAddr (s.jobRec j) 7 + 16 * r) 16
  (bits e 48 32, bits e 111 64)

/-- An image takes a prefix of P positions: PREC, PFX, PCNT; with local prefill also C, TAIL, TLEN and NEXT (R376, R384). -/
def takePrefix (w : Nat) (m : List Byte) (p npg prec : Nat) : Nat :=
  let n := sbN m
  let w := putAll w [(11, 11, 1), (1023, 1008, prec), (112, 96, npg)]
  if n ≤ p + 16 then
    putAll w ((List.range (n - 1 - p)).map (fun k => (511 + 32 * k, 480 + 32 * k, sbTok m (p + k))) ++
      [(39, 16, p), (47, 44, n - 1 - p), (479, 448, sbTok m (n - 1))])
  else w

/-- The image of an adopted request: what the loaded record gives, with the page list of its whole pages (13 R570). -/
def takeRecord (w rec_ : Nat) : Nat :=
  let c := slClen rec_
  putAll w [(112, 96, c / 16), (39, 16, c / 16 * 16), (47, 44, c % 16), (959, 480, bits rec_ 959 480), (479, 448, slNext rec_),
    (1007, 984, slCmax rec_), (383, 320, slDeadline rec_), (252, 240, bits rec_ 252 240), (124, 113, bits rec_ 124 113)]

/-- The request the endpoint serves under a RID in a job slot, if its slip still holds it. -/
def State.request (s : State) (j rid : Nat) : Option Request :=
  s.requests.find? fun r => r.job == j && r.rid == rid && slGen (s.slip r.slip) == r.gen && slState (s.slip r.slip) != 0

/-- Is a slip's recovery line one of a RID? -/
def State.lineOf (s : State) (i rid : Nat) : Bool := bits (s.recoveryLine i) 63 0 == rid

/-- The non-terminal slip of a job under a RID: one the endpoint serves, or at a new lead one whose recovery line names the RID
(13 R561). -/
def State.slipOfRid (s : State) (j rid : Nat) : Option Request :=
  match (s.request j rid).filter fun r => !(terminal (slState (s.slip r.slip))) with
  | some r => some r
  | none =>
    ((s.slipsOf j).find? fun i => slState (s.slip i) != 0 && !(terminal (slState (s.slip i))) && s.lineOf i rid).map fun i =>
      ⟨rid, i, slGen (s.slip i), j, 0, 0, false, 0, none, none, none, 0⟩

/-- Tokens of the last committed step, from position `from_` on, that the step table holds for a slip: what a new lead has from its POST
entries (13 R572; R356, R362). -/
def State.heldCommit (s : State) (j i from_ : Nat) : List (Nat × Nat) :=
  if s.prefill j || s.stepWordAt j 0 != s.stepWordAt j 0x240 then [] else
  match ((List.range (s.headNact j)).map (s.stepEntry j)).find? fun e => teSlip e == i with
  | none => []
  | some e =>
    let c := teC e
    let newc := bits e 103 80
    let first := if bit e 38 then newc else c + 1
    if newc ≤ c || (bit e 38 && !(bit e 39)) then [] else
    ((List.range (newc + 1 - first)).map fun k =>
      (first + k, if first + k = newc then bits e 183 152 else teTok e (first + k - c))).filter fun x => decide (from_ ≤ x.1)

/-- A SUBMIT of a RID that a non-terminal slip holds: ACCEPT and ETOK again, and at a new lead the commit that it holds and the old lead
did not send (13 R561, R572). -/
def State.acceptAgain (s : State) (m : List Byte) (r : Request) : State :=
  let rid := mRid m
  let line := s.recoveryLine r.slip
  let held := s.requests.contains r
  let has := s.lineOf r.slip rid && rlCount line != 0
  let pos := rlPos line + rlCount line
  let toks := if held || !has then [] else s.heldCommit r.job r.slip pos
  let n := toks.length
  let s : State := if held then s else
    { s with requests := s.requests ++ [if has then { r with sent := pos + n - sbN m, lastPos := pos + n } else r] }
  let s := s.accept rid r.slip r.gen 0
  let s := if s.lineOf r.slip rid then s.resendTokens rid line else s
  if n = 0 then s else s.sayAgain rid pos n (toks.flatMap fun x => leBytes 4 x.2)

/-! ## Adoption by the partner domain (13 R569, R570) -/

/-- Load every slip record of copy (MSEQ mod 2) of a mirrored job slot from the module's own mirror area (DEDUCED in part, log
entry 154). -/
def State.loadRecords (s : State) (j old : Nat) : State :=
  let copy := s.unitLe (s.mirrorPhys (8 * old)) 8 % 2
  let base := if copy = 0 then 0x10000 else 0x3010000
  let line (o : Nat) : Nat := s.unitLe (s.mirrorPhys o) 64
  { s with records := s.records ++ (List.range 262144).filterMap fun i =>
      let w := line (base + 192 * i) + line (base + 192 * i + 64) * 2 ^ 512
      if slState w != 0 && bits w 419 416 == old then some ⟨j, i, w, line (base + 192 * i + 128), s.now⟩ else none }

/-- Records left unclaimed for 60 s of rack time are discarded. -/
def State.dropRecords (s : State) : State :=
  { s with records := s.records.filter fun r => decide (s.now < r.at_ + 60000000000) }

/-- The loaded record of a RID. -/
def State.recordFor (s : State) (j rid : Nat) : Option SlipRecord :=
  s.records.find? fun r => r.job == j && bits r.line 63 0 == rid

/-- The indices of an adopted slip's hot set: rubric pages and window pages, below CLEN / 16 (13 R560, R570). -/
def hotSet (rub : List Nat) (rec_ : Nat) : List Nat :=
  let c := slClen rec_
  let lo := (c - 16 * bits rec_ 124 113) / 16
  (List.range (c / 16)).filter fun k => rub.contains k || decide (lo ≤ k)

/-- Copy a page set from the module's own mirror into a page slot; what cannot be corrected is not copied (13 R549, R560; 05 R216). -/
def State.restorePage (s : State) (i p slot : Nat) : State :=
  ((List.range 64).filter fun k => bit (s.mtab i (8 + k)) 63 && bit (s.poolEntry i k) 255).foldl (fun s k =>
    let e := s.poolEntry i k
    let n := bits e 59 48
    let o := s.mtab i (8 + k) % 2 ^ 48 + 64 * n * p
    (List.range n).foldl (fun s l =>
      match s.readPhys (s.mirrorPhys (o + 64 * l)) 64 (o + 64 * l) 0 i with
      | (s, .ok b) => s.sysPut i (bits e 47 0 + 64 * n * slot + 64 * l) b
      | (s, .error _) => s) s) s

/-- Restore the hot set of an adopted slip from the module's own mirror, once per page number, into the slots firmware allocates, and
write the page list (13 R560, R570).  The mirrored lists and pools lie as the sheet's own mirror table says (DEDUCED, log entry 154). -/
def State.restoreHot (s : State) (j : Nat) (x : SlipRecord) (rub : List Nat) (plist : Nat) (slots : List (BitVec 32)) : State :=
  let i := s.jSheet j
  let old := s.unitLe (s.mirrorPhys (0x6010000 + 32 * x.idx)) 8 % 2 ^ 48
  let entry (k : Nat) : Nat := s.unitLe (s.mirrorPhys (s.mtab i 2 + (old + 4 * k - s.mtab i 0))) 4
  let hot := (hotSet rub x.slip).filter fun k => decide (entry k < 0xFFFFFFFE)
  let nums := distinct (hot.map entry)
  let slot (p : Nat) : Nat := ((slots[nums.idxOf p]?).map BitVec.toNat).getD 0xFFFFFFFF
  let s' := nums.foldl (fun s p => if slot p = 0xFFFFFFFF then s else s.restorePage i p (slot p)) s
  s'.sysPut i plist ((List.range (slClen x.slip / 16)).flatMap fun k => leBytes 4 (if hot.contains k then slot (entry k) else 0xFFFFFFFF))

/-! ## What SUBMIT does -/

/-- Is the gloss a SUBMIT names in every staged directory of the sheet (R389; 10 R423) (DEDUCED in part, log entry 155)? -/
def State.glossStaged (s : State) (j : Nat) (m : List Byte) (dirs : List (BitVec 48)) : Bool :=
  !(sbFlag m 2) || (!dirs.isEmpty && dirs.all fun d =>
    let e := s.sheetLe (s.jSheet j) (d.toNat + 16 * (mLe m 18 2 % 4096)) 16
    decide (0 < planeFolios (bits e 63 56)) && bits e 127 112 != 0)

/-- The code a SUBMIT is refused with, if it is (R374, R387 to R389). -/
def State.submitRefusal (s : State) (j : Nat) (m : List Byte) (dirs : List (BitVec 48)) : Option Nat :=
  if !(submitOk m) then some 5
  else if !(s.slotOn j) || !(s.isLead j) || s.prefill j then some 1
  else if 1048567 < sbN m + sbMaxnew m then some 3
  else if sbW m != 0 && (sbW m % 16 != 0 || sbW m < 256 || 32768 < sbW m) then some 6
  else if sbFlag m 0 && (mLe m 40 4 % 16 != 0 || sbN m - 1 < mLe m 40 4) then some 7
  else if !(s.glossStaged j m dirs) then some 4
  else none

/-- The rubric list of a SUBMIT (R283). -/
def State.submitRubric (s : State) (j : Nat) (m : List Byte) : List Nat × Nat :=
  rubricList (s.rubricSet j) ((List.range (sbNrub m)).map fun k => mLe m (56 + 4 * sbN m + 4 * k) 4 / 16)

/-- What a SUBMIT asks to publish (R385, R388). -/
def submitPublish (m : List Byte) (plan : SubmitPlan) : Option Publish :=
  if sbFlag m 0 && sbFlag m 1 then
    some ⟨mLe m 40 4, mLe m 32 8, mLe m 44 4, sbFlag m 2, mLe m 18 2 % 4096,
      leNat (shake256 ((m.drop 56).take (4 * mLe m 40 4)) 8), plan.prec.toNat, plan.pubList.toNat⟩
  else none

/-- Firmware builds the lists and the image, and posts ADMIT; the Roll takes it at once when no earlier entry waits (R350, R375). -/
def State.postAdmit (s : State) (j : Nat) (m : List Byte) (plan : SubmitPlan) (image : Nat) (r : Request)
    (order : Option PrefillOrder) : State :=
  let rub := s.submitRubric j m
  let s := s.sysPut (s.jSheet j) plan.rlist.toNat (leBytes 4 rub.1.length ++ rub.1.flatMap (leBytes 4))
  let s := s.storeCarve plan.image.toNat (leBytes 128 image)
  s.postCommand ⟨none, 1 + j * 256 + plan.image.toNat * 2 ^ 64, j, mRid m, .enter r rub.2 order⟩

/-- SUBMIT of a request the job does not hold: a new one, or one adopted from a loaded record (R375, R376, R384; 13 R570). -/
def State.submitNew (s : State) (j : Nat) (m : List Byte) (plan : SubmitPlan) : State :=
  let rid := mRid m
  let plist := plan.plist.toNat
  let w := s.submitImage j m plist plan.rlist.toNat (s.requests.length % 2 ^ 24)
  let r : Request := ⟨rid, 0, 0, j, 0, 0, false, 0, none, none, submitPublish m plan, 0⟩
  match (s.recordFor j rid).filter fun x => slState x.slip == 4 || slState x.slip == 5 with
  | some x =>
    let pos := rlPos x.line + rlCount x.line
    let r := if rlCount x.line = 0 then r else { r with sent := pos - sbN m, lastPos := pos }
    let s := s.restoreHot j x (s.submitRubric j m).1 plist plan.hot
    s.postAdmit j m plan (takeRecord w x.slip) { r with owed := some (x.line, 0) } none
  | none =>
    let s : State := { s with records := s.records.filter fun x => !(x.job == j && bits x.line 63 0 == rid) }
    let pf := s.prefixOf j m
    let p := 16 * pf.2.1
    let hit := pf.1 == 1
    let rec_ := s.prefixRec j pf.2.2
    let i := s.jSheet j
    let pages := if hit then (List.range rec_.1).flatMap fun k => leBytes 4 (s.sheetLe i (rec_.2 + 4 * k) 4) else []
    let s := s.sysPut i plist pages
    let w' := if hit then takePrefix w m p rec_.1 pf.2.2 else w
    let order : PrefillOrder := ⟨j, 0, 0, sbN m, if hit then p else 0, (m.drop 56).take (4 * sbN m),
      if sbFlag m 2 then some (mLe m 18 2 % 4096) else none, slDeadline w⟩
    s.postAdmit j m plan w' { r with pfx := pf.1 } (if hit && decide (sbN m ≤ p + 16) then none else some order)

/-- SUBMIT on the lead of a decode job: the checks of R389, the image, ADMIT, then ACCEPT (R375).  Firmware settles the plan
(DEDUCED, log entry 34). -/
def State.submit (s : State) (j : Nat) (m : List Byte) (plan : SubmitPlan) (adopt : Option (Fin 16)) : State :=
  match s.submitRefusal j m plan.dirs with
  | some c => s.refuseMsg (mRid m) c (if c = 1 then jLead (s.jobRec j) else 0)
  | none =>
    let s := (s.seenJob j (s.headNact j)).seenSlips j
    let s := (match adopt with
      | none => s
      | some old => s.loadRecords j old.val).dropRecords
    match s.slipOfRid j (mRid m) with
    | some r => s.acceptAgain m r
    | none => s.submitNew j m plan

/-- SUBMIT. -/
def execSubmit (j : Fin 16) (msg : List Byte) (plan : SubmitPlan) (adopt : Option (Fin 16)) (s : State) : Host.Outcome State Fault Refusal :=
  act s fun s => s.submit j.val msg plan adopt

/-! ## CANCEL and DRAFT (R387, R391) -/

/-- A client's CANCEL: firmware posts a Roll CANCEL with reason CLIENT (R369). -/
def State.clientCancel (s : State) (j : Nat) (m : List Byte) : State :=
  let rid := mRid m
  if !(headOk m 6 16) then s.refuseMsg rid 5 0 else
  match s.request j rid with
  | none => s.cancelResult rid 3
  | some r =>
    if !(s.slotOn j) || !(s.isLead j) then s.cancelResult rid 3 else
    s.postCommand ⟨none, 0x0A + j * 2 ^ 8 + r.slip * 2 ^ 32 + r.gen * 2 ^ 50 + 5 * 2 ^ 64, j, rid, .cancel⟩

/-- CLIENT_CANCEL. -/
def execClientCancel (j : Fin 16) (msg : List Byte) (s : State) : Host.Outcome State Fault Refusal :=
  act s fun s => s.clientCancel j.val msg

/-- DRAFT: the draft line of an ACTIVE request's slip (R358, R391). -/
def State.draft (s : State) (j : Nat) (m : List Byte) : State :=
  let n := mLe m 20 1
  if !(headOk m 8 (24 + 4 * n)) || 8 < n then s.refuseMsg (mRid m) 5 0 else
  match s.request j (mRid m) with
  | none => s
  | some r =>
    if slState (s.slip r.slip) != 4 then s else
    s.sysPut (s.jSheet j) (jAddr (s.jobRec j) 4 + 64 * (r.slip - s.rd (Reg.SBASE j) 17 0))
      (leBytes 32 (mLe m 16 4 % 2 ^ 24 + n * 2 ^ 24) ++ fit 32 0 (m.drop 24))

/-- DRAFT. -/
def execDraft (j : Fin 16) (msg : List Byte) (s : State) : Host.Outcome State Fault Refusal := act s fun s => s.draft j.val msg

/-! ## TOKENS (R366, R390, 13 R555) -/

/-- May records of the last commit leave: its MSEQ is acknowledged where the module mirrors, and READY has reached NMEM? -/
def State.tokensDue (s : State) (j : Nat) : Bool :=
  let v := s.stepWordAt j 0x240
  (!s.mirrors || s.suspended || decide (v ≤ (s.mirr j).acked)) &&
  (s.rdb (Reg.ACTIVE j) 31 || s.stepWordAt j 0x250 == jNmem (s.jobRec j))

/-- One egress record to its client: TOKENS, then END when the slip is terminal; a publication that is due comes before them (R385). -/
def State.deliver (s : State) (j rec_ : Nat) : State :=
  let n := bits rec_ 37 34
  let pos := bits rec_ 87 64
  match s.requests.find? fun r => r.job == j && recordOf r rec_ && !r.ended with
  | none => s
  | some r =>
    let x := s.published j r
    let s := x.1
    let r := x.2
    let r' := if n = 0 then r else { r with sent := r.sent + n, lastPos := pos + n }
    let s := if n = 0 then s else
      (s.setRequest r r').say 4 r.rid (leBytes 4 pos ++ leBytes 2 n ++ leBytes 1 (if r.sent = 0 then r.pfx else 0) ++
        leBytes 1 0 ++ leBytes 8 (bits rec_ 191 128) ++ leBytes (4 * n) (bits rec_ 479 192))
    if terminal (bits rec_ 29 26) then s.sendEnd r' (bits rec_ 29 26) (bits rec_ 33 30) else s

/-- The endpoint reads a slot's egress ring: its counts and the next record (05 R213, R215). -/
def State.seenEgress (s : State) (j : Nat) : State :=
  if s.slotOn j && s.isLead j then
    let s := s.seenJob j 0
    let b := s.egBase j
    let n := s.egSize j
    (s.seenCarve (b + 64 * n) 16).seenCarve (b + 64 * (s.egCons j % n)) 64
  else s

/-- TOKENS: the next egress record, the consumer count, and the ends that waited for it (DESIGN CHOICE in part, log entry 43). -/
def State.tokens (s : State) (j : Nat) : State :=
  let s := s.seenEgress j
  let base := s.egBase j
  let size := s.egSize j
  let c := s.egCons j
  if !(s.slotOn j) || !(s.isLead j) || !(s.ringOk base size) || c = s.egProd j || !(s.tokensDue j) then s else
  let s := (s.deliver j (s.egRecord j c)).carvePut (base + 64 * size + 8) (leBytes 8 ((c + 1) % 2 ^ 64))
  s.sendEnds j

/-- TOKENS. -/
def execTokens (j : Fin 16) (s : State) : Host.Outcome State Fault Refusal := act s fun s => s.tokens j.val

end Sys2Proof.Machine
end

