-- ==== Sys2Proof/Machine/Images.lean ====
section
/-! DEFINITION. The configuration flash: colophon copies, images and slot headers, and the checks of the security engine
(16_startup_config.md R634 to R644, 17_firmware_security.md R668 to R678). -/

namespace Sys2Proof.Machine

/-- The first 32 bytes of the SHAKE256 output (R635). -/
def digest32 (bs : List Byte) : List Byte := shake256 bs 32

/-! ## Owner keys (17 R685) -/

/-- The current owner: the lowest programmed slot that is not revoked. -/
def Chip.owner (c : Chip) : Option Nat :=
  (List.range 4).find? fun i => (c.ownerDigest.getD i none).isSome && !(c.ownerRevoked.getD i false)

/-- Flash address of the public key of an owner slot. -/
def ownerKeyAt (i : Nat) : Nat := 0x0C600000 + 0x4000 * i

/-- The public key of the current owner, when its digest matches the slot. -/
def State.ownerKey (s : State) : Option (List Byte) :=
  match s.chip.owner with
  | none => none
  | some i =>
    let k := s.flashRead (ownerKeyAt i) 1793
    if some (digest32 k) == s.chip.ownerDigest.getD i none then some k else none

/-! ## Colophons (16 R635 to R637) -/

/-- A reader of bytes: an offset and a count. -/
abbrev Reader := Nat → Nat → List Byte

/-- A number in what a reader reads. -/
def rdLe (r : Reader) (a n : Nat) : Nat := leNat (r a n)

/-- Directory entries of a copy: type, offset, length. -/
def sections (r : Reader) : List (Nat × Nat × Nat) :=
  (List.range (rdLe r 5 1)).map fun k => (rdLe r (64 + 16 * k) 1, rdLe r (68 + 16 * k) 4, rdLe r (72 + 16 * k) 4)

/-- Do two sections overlap? -/
def overlaps (x y : Nat × Nat × Nat) : Bool := decide (x.2.1 < y.2.1 + y.2.2) && decide (y.2.1 < x.2.1 + x.2.2)

/-- Are the sections of a copy in place, apart, and of the numbers R637 allows? -/
def sectionsOk (l : List (Nat × Nat × Nat)) (len : Nat) : Bool :=
  l.all (fun x => decide (320 ≤ x.2.1) && decide (x.2.1 + x.2.2 ≤ len)) &&
  (List.range l.length).all (fun i => (List.range i).all fun j => !(overlaps (l.getD i (0, 0, 0)) (l.getD j (0, 0, 0)))) &&
  (l.filter fun x => x.1 == 1).length == 1 && decide ((l.filter fun x => x.1 == 2).length ≤ 1) &&
  decide ((l.filter fun x => x.1 == 3).length ≤ 1)

/-- The checks of R637 but for SIG: the firmware reads the present layout version, 1, and the one before it (R640). -/
def colophonOk (r : Reader) : Bool :=
  let len := rdLe r 16 4
  rdLe r 0 4 == 0x4F4C4F43 && decide (rdLe r 4 1 ≤ 1) && decide (1 ≤ rdLe r 5 1 ∧ rdLe r 5 1 ≤ 16) &&
  decide (320 ≤ len ∧ len ≤ 0xFF000) && sectionsOk (sections r) len &&
  r 24 32 == digest32 (r 0 24 ++ r 64 (len - 64))

/-- SIG of a copy verifies against the owner key; an unowned module does not check it (R637, 17 R685). -/
def State.colophonSig (s : State) (r : Reader) : Bool :=
  match s.chip.owner with
  | none => true
  | some _ => s.ownerKey.any fun k =>
      decide (rdLe r 0xFF000 2 ≤ 1280) && falconVerify k (r 0xFF002 (rdLe r 0xFF000 2)) (r 24 32)

/-- A flash reader from an address. -/
def State.flashAt (s : State) (base : Nat) : Reader := fun a n => s.flashRead (base + a) n

/-- A carve-out reader from an address: what cannot be corrected is not used, and the reader finds zeros (05_memory.md R216)
(DESIGN CHOICE, log entry 139). -/
def State.carveAt (s : State) (base : Nat) : Reader := fun a n =>
  if s.clean (physCarve (base + a)) n then Mem.read s.mem (physCarve (base + a)) n else List.replicate n 0

/-- A copy as the firmware uses it: one of the version before is converted in memory (R640) (DESIGN CHOICE, log entry 160). -/
def converted (r : Reader) : Reader :=
  if rdLe r 4 1 = 1 then r else
  let b := Config.convertCopy (r 0 (rdLe r 16 4))
  fun a n => fit n 0 (b.drop a)

/-- The bytes of the section of a type; none of that type gives no bytes. -/
def sectionOf (r : Reader) (t : Nat) : List Byte :=
  match (sections r).find? fun x => x.1 == t with
  | none => []
  | some x => r x.2.1 x.2.2

/-- Is a flash copy valid? -/
def State.copyValid (s : State) (k : Nat) : Bool :=
  colophonOk (s.flashAt (0x100000 * k)) && s.colophonSig (s.flashAt (0x100000 * k))

/-! ## Slot headers (17 R672) -/

/-- Flash address of a slot. -/
def slotAt (b : Nat) : Nat := 0x600000 + 0x6000000 * b

/-- STATE of a slot: EMPTY when its MAGIC or CRC fails. -/
def State.slotState (s : State) (b : Nat) : Nat :=
  let h := s.flashRead (slotAt b) 64
  if leNat (h.take 4) == 0x544F4C53 && leNat (h.drop 60) == crc32c (h.take 60) then leNat ((h.drop 8).take 1) else 0

/-- SEQ of a slot. -/
def State.slotSeq (s : State) (b : Nat) : Nat := leNat (s.flashRead (slotAt b + 4) 4)

/-- TRIES of a slot. -/
def State.slotTries (s : State) (b : Nat) : Nat := leNat (s.flashRead (slotAt b + 9) 1)

/-- Write a slot header. -/
def State.setSlot (s : State) (b seq st tries : Nat) : State :=
  let h := leBytes 4 0x544F4C53 ++ leBytes 4 seq ++ leBytes 1 st ++ leBytes 1 tries ++ List.replicate 50 0
  s.flashWrite (slotAt b) (h ++ leBytes 4 (crc32c h))

/-! ## Images (17 R668 to R670) -/

/-- Region offset in a slot and region size of a kind; the LOADER's size is that of a loader half (R668). -/
def regionOf (k : Nat) : Nat × Nat :=
  match k with
  | 1 => (0x100000, 0x4000000)
  | 2 => (0x4100000, 0x800000)
  | 3 => (0x4900000, 0x400000)
  | 4 => (0x4D00000, 0x800000)
  | 5 => (0x5500000, 0x400000)
  | _ => (0, 0x200000)

/-- Flash address of the region of a kind in a slot; for the LOADER the second argument is the half. -/
def regionAt (k b : Nat) : Nat := if k = 6 then 0x200000 + 0x200000 * b else slotAt b + (regionOf k).1

/-- Place of a kind in the update order (R668). -/
def orderOf (k : Nat) : Nat := 6 - k

/-- KIND of an image. -/
def iKind (r : Reader) : Nat := rdLe r 5 1
/-- VERSION. -/
def iVersion (r : Reader) : Nat := rdLe r 12 4
/-- GEN. -/
def iGen (r : Reader) : Nat := rdLe r 16 2
/-- FLOOR. -/
def iFloor (r : Reader) : Nat := rdLe r 7 1
/-- DATAVER. -/
def iData (r : Reader) : Nat := rdLe r 18 2
/-- BODYLEN. -/
def iBody (r : Reader) : Nat := rdLe r 24 4
/-- REQUIRES for a kind. -/
def iRequires (r : Reader) (k : Nat) : Nat := rdLe r (60 + 4 * (k - 1)) 4

/-- Checks 1 to 4 of R670: 0, or the outcome of the first that fails. -/
def State.headerCheck (s : State) (r : Reader) : Nat :=
  let k := iKind r
  let sl := rdLe r 254 2
  if !(rdLe r 0 4 == 0x474D494E && rdLe r 4 1 == 1 && decide (1 ≤ k ∧ k ≤ 6) && rdLe r 22 2 == 0 && rdLe r 80 174 == 0 &&
      decide (1 ≤ sl ∧ sl ≤ 1280) && decide (1536 + iBody r ≤ (regionOf k).2)) then 4
  else if !(rdLe r 8 2 == 0x4C56 && bit (rdLe r 10 2) s.chip.stepping.toNat) then 5
  else if 4 ≤ rdLe r 6 1 || s.chip.keyRevoked.getD (rdLe r 6 1) true ||
      !(falconVerify (s.chip.nyfKeys.getD (rdLe r 6 1) []) (r 256 sl) (digest32 (r 0 256))) then 6
  else if iFloor r < s.chip.floors.getD (k - 1) 0 then 8
  else 0

/-- Check 8 of R670. -/
def bodyOk (r : Reader) : Bool := r 28 32 == digest32 (r 1536 (iBody r))

/-- Check 6 of R670. -/
def State.migrateOk (s : State) (r : Reader) : Bool := decide (rdLe r 20 2 ≤ s.chip.dataVer)

/-- Is a set of images, one reader a kind from 1 to 5, consistent (R678)? -/
def setOk (f : Nat → Reader) : Bool :=
  let ks := [1, 2, 3, 4, 5]
  (ks.all fun k => ks.all fun j => decide (iRequires (f k) j ≤ iVersion (f j))) &&
  ks.all fun k => ks.all fun j => decide (iGen (f k) ≤ iGen (f j) + 1)

/-- The reader of the region of a kind in a slot. -/
def State.imageAt (s : State) (k b : Nat) : Reader := s.flashAt (regionAt k b)

/-- May a slot boot: every region passes checks 1 to 6 and 8, and the set is consistent (R673)? -/
def State.slotOk (s : State) (b : Nat) : Bool :=
  [1, 2, 3, 4, 5].all (fun k =>
    s.headerCheck (s.imageAt k b) == 0 && iKind (s.imageAt k b) == k && s.migrateOk (s.imageAt k b) && bodyOk (s.imageAt k b)) &&
  setOk fun k => s.imageAt k b

/-- Is a loader half valid? -/
def State.loaderOk (s : State) (h : Nat) : Bool :=
  s.headerCheck (s.imageAt 6 h) == 0 && iKind (s.imageAt 6 h) == 6 && s.migrateOk (s.imageAt 6 h) && bodyOk (s.imageAt 6 h)

/-- The loader half that would run: the valid half with the higher VERSION (R673). -/
def State.loaderHalf (s : State) : Nat :=
  if s.loaderOk 1 && (!(s.loaderOk 0) || decide (iVersion (s.imageAt 6 0) < iVersion (s.imageAt 6 1))) then 1 else 0

/-- What attestation measures of an image (R692). -/
def measure (src : Nat) (r : Reader) : Measured := ⟨src, iVersion r, iGen r, iFloor r, iData r, digest32 (r 0 256)⟩

end Sys2Proof.Machine
end

