-- ==== Sys2Proof/Machine/Layout.lean ====
section
/-! DEFINITION. Where the stores hold their lines: the banks and rows of a well (03_scribe.md R87), and the blocks, devices and
byte addresses of T1 and T2 with their check lines (05_memory.md R207, R210 to R212). -/

namespace Sys2Proof.Machine

/-- Bank of line L of a well (03_scribe.md R87). -/
def wellBank (l : Nat) : Nat := l % 24

/-- Row of line L of a well in its bank (R87). -/
def wellRow (l : Nat) : Nat := l / 24

/-- Where line i of block B lies in its block row, in bytes: 16 lines of 64 bytes, the first 15 of them data (R210). -/
def blockData (b i : Nat) : Nat := 1024 * b + 64 * i

/-- Where the check bytes of line i of block B lie (R210). -/
def blockCheck (b i : Nat) : Nat := 1024 * b + 960 + 4 * i

/-- A place in the devices of T1 or T2: the GDDR7 device or root port, and the byte addresses of a line and of its check bytes. -/
structure DevPlace where
  dev : Nat
  data : Nat
  check : Nat
  deriving DecidableEq, Repr

/-- The place of line `line` of usable GDDR7 granule n (R211). -/
def t1Place (n line : Nat) : DevPlace :=
  let u := n % 368640 * 1024 + line
  let b := u / 15
  ⟨6 * (n / 368640) + b % 6, blockData (b / 6) (u % 15), blockCheck (b / 6) (u % 15)⟩

/-- The place of line `line` of usable granule n of a root port (R212). -/
def t2Place (port n line : Nat) : DevPlace :=
  let u := n * 1024 + line
  ⟨port, blockData (u / 15) (u % 15), blockCheck (u / 15) (u % 15)⟩

/-- Physical start of usable GDDR7 granule n.  The die granules above the tiered ones hold the Quill carve-out (R175, 01 R22), a
quarter of it on each die in die order (DESIGN CHOICE, log entry 137). -/
def State.t1Phys (s : State) (n : Nat) : Nat :=
  if n % 368640 < 352256 then physT1 n
  else physCarve (s.chip.carveBase + (n / 368640 * 16384 + (n % 368640 - 352256)) * 65536)

/-- Byte j, of 68, of the codeword a store holds for the line at a physical address (R206, R207): what was written, with what has
been lost since. -/
def State.storedByte (s : State) (p j : Nat) : Byte :=
  let d := Mem.read s.mem p 64
  (d ++ rsCheck d).getD j 0 ^^^ Map.getD (Map.getD s.upsets (p / 64) []) j 0

/-- The byte at offset o of block B, whose usable lines lie at `phys` (R210): data lines, check line, reserved zeros. -/
def State.blockByte (s : State) (phys : Nat → Nat) (b o : Nat) : Byte :=
  if o < 960 then s.storedByte (phys (15 * b + o / 64)) (o % 64)
  else if o < 1020 then s.storedByte (phys (15 * b + (o - 960) / 4)) (64 + (o - 960) % 4)
  else 0

/-- The byte at an address of GDDR7 device `dev` (R210, R211). -/
def State.t1Byte (s : State) (dev a : Nat) : Byte :=
  s.blockByte (fun u => s.t1Phys (dev / 6 * 368640 + u / 1024) + u % 1024 * 64) (6 * (a / 1024) + dev % 6) (a % 1024)

/-- The byte at an address of the expander range of a root port (R210, R212). -/
def State.t2Byte (s : State) (port a : Nat) : Byte :=
  s.blockByte (fun u => physT2 port (u / 1024) + u % 1024 * 64) (a / 1024) (a % 1024)

end Sys2Proof.Machine
end

