-- ==== Sys2Proof/Machine/Tiers.lean ====
section
/-! DEFINITION. The migrator: tier commands, placement, demotion, moves and their flip, eviction, patrol scrubbing and the T2
ports (05_memory.md R172 to R205, R213 to R217, R747; 10_sheets.md R426, R427; 18_module_interfaces.md R714). -/

namespace Sys2Proof.Machine

/-! ## What is mapped, and where -/

/-- The granules with VALID set, in ascending index. -/
def State.mapped (s : State) : List Nat :=
  let b := physCarve s.chip.ttBase
  (s.mem.filter fun c => decide (b ≤ c.1) && decide (c.1 < b + 2 ^ 29) && (c.1 - b) % 8 == 7 && c.2.getLsbD 7).map fun c =>
    (c.1 - b) / 8

/-- Granules of a sheet in a tier, in ascending index. -/
def State.inTier (s : State) (i tier : Nat) : List Nat :=
  s.mapped.filter fun g => entSheet (s.entry g) == i && entTier (s.entry g) == tier

/-- Is a location in use: by an entry, as a move's destination, or as a source that is still read (R193)? -/
def State.locUsed (s : State) (tier loc : Nat) : Bool :=
  (s.mapped.any fun g => entTier (s.entry g) == tier && entLoc (s.entry g) == loc) ||
  (s.moves.any fun m => m.dtier == tier && m.dloc == loc) || (s.freeing.any fun f => f.1 == tier * 2 ^ 25 + loc)

/-- Usage register of a sheet and tier. -/
def usageReg (i tier : Nat) : Nat := if tier = 0 then Reg.U0 i else if tier = 1 then Reg.U1 i else Reg.U2 i

/-- Usage of a tier by a sheet with the destinations its moves reserve (R218). -/
def State.claimed (s : State) (i tier : Nat) : Nat :=
  (s.word (usageReg i tier)).toNat + (s.moves.filter fun m => m.sheet == i && m.dtier == tier).length

/-- Quota of a sheet in a tier (R172, R218). -/
def State.quota (s : State) (i tier : Nat) : Nat :=
  if tier = 0 then s.q0 i else (s.word (if tier = 1 then Reg.Q1 i else Reg.Q2 i)).toNat

/-- Count a granule in or out of a tier. -/
def State.usage (s : State) (i tier : Nat) (up : Bool) : State :=
  let o := usageReg i tier
  s.wrw o (if up then s.word o + 1 else s.word o - 1)

/-- Count a writable granule in or out (R201). -/
def State.writable (s : State) (i : Nat) (up : Bool) : State :=
  s.wrw (Reg.WR i) (if up then s.word (Reg.WR i) + 1 else s.word (Reg.WR i) - 1)

/-- Granules of a sheet that an UNDRY is moving out of T2: each has its place among the writable ones (R181, R201). -/
def State.undrying (s : State) (i : Nat) : Nat :=
  (s.moves.filter fun m => m.sheet == i && s.tierCmds.any fun c => some c.crec == m.cmd && c.op == 4).length

/-- May one more granule of a sheet be writable (R201)? -/
def State.writableRoom (s : State) (i : Nat) : Bool :=
  decide ((s.word (Reg.WR i)).toNat + s.undrying i < min (s.word (Reg.WQ i)).toNat (s.quota i 0 + s.quota i 1))

/-! ## Free locations (R172, R175, R747) -/

/-- The first free location of a list, from a place in it that is free (DESIGN CHOICE, log entry 14). -/
def State.pickFree (s : State) (tier : Nat) (l : List Nat) : Option Nat :=
  let k := Config.slot s.draws % l.length
  (l.drop k ++ l.take k).find? fun x => !(s.locUsed tier x)

/-- T2 granules of root port n beyond the mirror area (R747). -/
def State.t2Usable (s : State) (n : Nat) : List Nat :=
  let m := s.rd Reg.MIRROR_T2 31 0
  let u := s.t2Gran.getD 0 0
  let skip := if n = 0 then m else m - u
  if s.t2Up.getD n false then (List.range (s.t2Gran.getD n 0 - skip)).map fun k => n * 2 ^ 24 + skip + k else []

/-- The base die on which a granule of a sheet must lie in T0: the die below the quire whose block of an enabled context's save
area holds it (10_sheets.md R407, R408). -/
def State.saveDie (s : State) (i g : Nat) : Option Nat :=
  (s.enabled i).findSome? fun c =>
    let a := s.recW i c 0 / 65536
    if a = 0 || decide (g < a) then none else ((s.quiresOf i)[(g - a) / 33]?).map s.dieOf

/-- Free location of a tier for a sheet; on a base die, or on any when `die` is none (R183; 10_sheets.md R408). -/
def State.freeLoc (s : State) (i tier : Nat) (die : Option Nat) : Option Nat :=
  match tier with
  | 0 =>
    let ks := match die with
      | some d => (s.slicesOf i).filter fun k => k / 16 == d
      | none => s.slicesOf i
    s.pickFree 0 (ks.flatMap fun k => (List.range (sliceRange k).2).map ((sliceRange k).1 + ·))
  | 1 =>
    let ds := match die with
      | some d => [d]
      | none => (List.range 4).map fun k => (Config.die s.draws + k) % 4
    ds.findSome? fun d => s.pickFree 1 ((List.range 352256).map (d * 368640 + ·))
  | _ => s.pickFree 2 (s.t2Usable 0 ++ s.t2Usable 1)

/-! ## Flips and demotions (R189 to R199, R426) -/

/-- Copy a granule to another location and flip its entry; false when a source line cannot be read (R195, R215). -/
def State.relocate (s : State) (g tier loc : Nat) : State × Bool :=
  let e := s.entry g
  let i := entSheet e
  let src := locPhys (entTier e) (entLoc e)
  if s.entryBad g then (s.uncorr 4 g 0 i, false) else
  let c := s.ecc src 65536 (65536 * g) 0 i
  if c.2.isSome then (c.1, false) else
  let s := c.1
  let s : State := { s with mem := Mem.copy s.mem src 65536 (locPhys tier loc),
                            upsets := clearUpsets s.upsets (locPhys tier loc) 65536 }
  ((((s.putEntry g (mkEntry i (entDry e) (entPin e) false tier 0 0 loc)).usage i (entTier e) false).usage i tier true).draw, true)

/-- A location that still serves reads of granule g: free only once they have returned (R193, R195). -/
def State.holdLoc (s : State) (g tier loc : Nat) : State :=
  { s with freeing := Map.set s.freeing (tier * 2 ^ 25 + loc) (g, tier) }

/-- Demote a granule to a location: its source is freed under R193 (R197). -/
def State.demote (s : State) (g tier loc : Nat) : State × Bool :=
  let e := s.entry g
  let r := s.relocate g tier loc
  if r.2 then (r.1.holdLoc g (entTier e) (entLoc e), true) else r

/-- Can a granule be demoted from its tier (R199)? -/
def eligible (tier e : Nat) : Bool := !(entPin e) && !(entMoving e) && (tier == 0 || entDry e)

/-- Does a granule that rests in T0 or T1 lie on the base die named, or on any when none is? -/
def State.onDie (s : State) (tier : Nat) (die : Option Nat) (g : Nat) : Bool :=
  match die with
  | none => true
  | some d => entLoc (s.entry g) / (if tier = 0 then 10240 else 368640) == d

/-- The clock over granules in order: touched ones are cleared and passed over, and so are those of another base die than the one that
needs room, and those whose copy has failed (R199). -/
def State.clock (tier : Nat) (die : Option Nat) (skip : List Nat) : List Nat → State → State × Option Nat
  | [], s => (s, none)
  | g :: rest, s =>
    if s.touched g then State.clock tier die skip rest (s.untouch g)
    else if eligible tier (s.entry g) && s.onDie tier die g && !(skip.contains g) then (s, some g)
    else State.clock tier die skip rest s

/-- A victim of a sheet in a tier, from the sheet's one hand, within two turns (R199) (DESIGN CHOICE, log entry 12). -/
def State.victim (s : State) (i tier : Nat) (die : Option Nat := none) (skip : List Nat := []) : State × Option Nat :=
  let l := s.inTier i tier
  let h := Map.getD s.hands i 0
  let turn := l.filter (fun g => decide (h ≤ g)) ++ l.filter fun g => decide (g < h)
  let r := State.clock tier die skip (turn ++ turn) s
  match r.2 with
  | none => r
  | some g => ({ r.1 with hands := Map.set r.1.hands i (g + 1) }, some g)

/-- Demote from T1 to T2 one dry unpinned granule of a sheet whose lines can all be read, trying at most fuel of them (R197). -/
def State.demoteFrom (i : Nat) (die : Option Nat) : Nat → List Nat → State → State × Bool
  | 0, _, s => (s, false)
  | n + 1, skip, s =>
    if s.quota i 2 ≤ s.claimed i 2 then (s, false) else
    let v := s.victim i 1 die skip
    match v.2, v.1.freeLoc i 2 none with
    | some g, some l =>
      let r := v.1.demote g 2 l
      if r.2 then r else State.demoteFrom i die n (g :: skip) r.1
    | _, _ => (v.1, false)

/-- Demote one dry unpinned granule of a sheet from T1 to T2 (R197): the demotions made for room are complete with the command
that needs them (DEDUCED, log entry 36). -/
def State.demoteT1 (s : State) (i : Nat) (die : Option Nat := none) : State × Bool :=
  State.demoteFrom i die (s.inTier i 1).length [] s

/-- Sheets R426 may take from. -/
def State.evictable (s : State) (die : Option Nat) (i : Nat) : Bool :=
  !(s.rdb (Reg.SCTL i) 4) && decide ((s.word (Reg.U2 i)).toNat < s.quota i 2) &&
  ((s.inTier i 1).any fun g => entDry (s.entry g) && !(entPin (s.entry g)) && s.onDie 1 die g)

/-- The victim sheet: the lowest BUSY_s, then the lowest number; not one that could give no granule. -/
def State.victimSheet (s : State) (die : Option Nat) (skip : List Nat) : Option Nat :=
  ((List.range 16).filter fun i => s.evictable die i && !(skip.contains i)).foldl (fun b i =>
    match b with
    | none => some i
    | some x => if s.rd (Reg.BUSY i) 13 0 < s.rd (Reg.BUSY x) 13 0 then some i else b) none

/-- Count a granule taken from a sheet: in EVICTED, and for the event of the epoch (R427). -/
def State.countEvict (s : State) (i : Nat) : State :=
  let e := (s.sheet i).evicts
  (s.bump Reg.EVICTED).setSheet i { s.sheet i with evicts := (s.epoch, (if e.1 = s.epoch then e.2 else 0) + 1) }

/-- Demote one granule under R426 from the first victim sheet that can give one. -/
def State.evictFrom (die : Option Nat) : Nat → List Nat → State → State × Option Nat
  | 0, _, s => (s, none)
  | n + 1, skip, s =>
    match s.victimSheet die skip with
    | none => (s, none)
    | some i =>
      let r := s.demoteT1 i die
      if r.2 then (r.1.countEvict i, some i) else State.evictFrom die n (i :: skip) r.1

/-- Demote one granule under R426: the victim sheet, if one was found. -/
def State.evictOne (s : State) (die : Option Nat := none) : State × Option Nat := State.evictFrom die 16 [] s

/-- Demote under R426 until free T1, with the sources whose reads are still to return, reaches a count: at most fuel granules; the first
victim sheet. -/
def State.evictLoop (stop : Nat) : Nat → Option Nat → State → State × Option Nat
  | 0, v, s => (s, v)
  | n + 1, v, s =>
    if stop ≤ s.t1Free + s.t1Freeing then (s, v) else
    let r := s.evictOne
    match r.2 with
    | none => (r.1, v)
    | some i => State.evictLoop stop n (v.orElse fun _ => some i) r.1

/-- The eviction event, once per epoch: the first victim sheet, and the granules taken from it in the epoch (R427; 19_registers.md R736)
(DESIGN CHOICE in part, log entry 164). -/
def State.evictEvent (s : State) : Option Nat → State
  | none => s
  | some i => s.postOnce 0x0404 [i, (s.sheet i).evicts.2] 0

/-- The demotion R426 starts, up to 2 × LOW; for a placement, until there is a free location at the least. -/
def State.evict (s : State) (atLeast : Nat) : State :=
  let stop := max atLeast (2 * s.rd Reg.EVICT_CTL 20 0)
  let r := State.evictLoop stop stop none s
  r.1.evictEvent r.2

/-- A free location within the sheet's quota, with no demotion. -/
def State.roomFree (s : State) (i tier : Nat) (die : Option Nat) : Option Nat :=
  if s.claimed i tier < s.quota i tier then s.freeLoc i tier die else none

/-- Will a location come free once the reads that sources still serve have returned (R193)? -/
def State.coming (s : State) (i tier : Nat) (die : Option Nat) : Bool :=
  (s.roomFree i tier die).isNone && (({ s with freeing := [] } : State).roomFree i tier die).isSome

/-- The base die a demotion must clear: the one named, when it has no free location. -/
def State.tightDie (s : State) (i tier : Nat) (die : Option Nat) : Option Nat :=
  if (s.freeLoc i tier die).isNone then die else none

/-- A T1 location for a sheet: within its quota, after a demotion of its own, or after the one of R426, which goes on for the base die
named while that has none (R197, 10 R425, R426). -/
def State.roomT1 (s : State) (i : Nat) (die : Option Nat) : State × Option Nat :=
  if (s.roomFree i 1 die).isSome then (s.draw, s.roomFree i 1 die)
  else if s.coming i 1 die then (s, none) else
  let r := s.demoteT1 i (s.tightDie i 1 die)
  if r.2 then (r.1.draw, r.1.roomFree i 1 die)
  else if s.quota i 1 ≤ s.claimed i 1 then (r.1, none) else
  let s := r.1.evict 1
  let s := if (s.roomFree i 1 die).isSome || s.coming i 1 die then s else
    let e := s.evictOne die
    e.1.evictEvent e.2
  (s.draw, s.roomFree i 1 die)

/-- Demote one unpinned granule of a sheet from T0 to T1, whose lines can all be read: at most fuel of them are tried (R197). -/
def State.demoteT0 (i : Nat) (die : Option Nat) : Nat → List Nat → State → State × Bool
  | 0, _, s => (s, false)
  | n + 1, skip, s =>
    let v := s.victim i 0 die skip
    match v.2 with
    | none => (v.1, false)
    | some g =>
      let r := v.1.roomT1 i none
      match r.2 with
      | none => (r.1, false)
      | some l =>
        let d := r.1.demote g 1 l
        if d.2 then d else State.demoteT0 i die n (g :: skip) d.1

/-- A T0 location for a sheet: within its quota, after one demotion to T1 (R197). -/
def State.roomT0 (s : State) (i : Nat) (die : Option Nat) : State × Option Nat :=
  if (s.roomFree i 0 die).isSome then (s.draw, s.roomFree i 0 die)
  else if s.coming i 0 die then (s, none) else
  let r := State.demoteT0 i (s.tightDie i 0 die) (s.inTier i 0).length [] s
  if r.2 then (r.1.draw, r.1.roomFree i 0 die) else (r.1, none)

/-- A location in the tier a placement names (R196, R197). -/
def State.room (s : State) (i tier : Nat) (die : Option Nat) : State × Option Nat :=
  match tier with
  | 0 => s.roomT0 i die
  | 1 => s.roomT1 i die
  | _ => (s.draw, s.roomFree i 2 none)

/-- Has a placement that found no room a demotion under way to wait for (R193, R197)? -/
def State.roomComing (s : State) (i tier : Nat) (die : Option Nat) : Bool :=
  s.coming i tier die || (tier == 0 && s.coming i 1 none)

/-! ## Tier commands (R183 to R188) -/

/-- The outcome of a command on one granule: done, a move it waits for, something else it waits for, or a failure. -/
inductive TierStep where
  | done (s : State)
  | moving (s : State)
  | blocked (s : State)
  | fail (s : State) (outcome : Nat)

/-- Start a move of a granule to a location (R189). -/
def State.startMove (s : State) (c : TierCmd) (g tier loc : Nat) : State :=
  let e := s.entry g
  let s := s.putEntry g (mkEntry (entSheet e) (entDry e) (entPin e) true (entTier e) tier loc (entLoc e))
  { s with moves := s.moves ++ [⟨g, c.sheet, tier, loc, some c.crec⟩] }

/-- Move a granule to a tier, for a command. -/
def State.tierTo (s : State) (c : TierCmd) (g tier : Nat) (die : Option Nat) : TierStep :=
  if 64 ≤ s.moves.length then .blocked s else
  let r := s.room c.sheet tier die
  match r.2 with
  | none => if r.1.roomComing c.sheet tier die then .blocked r.1 else .fail r.1 1
  | some l => .moving (r.1.startMove c g tier l)

/-- Rewrite the DRY and PIN bits of an entry. -/
def State.setMarks (s : State) (g : Nat) (dry pin : Bool) : State :=
  let e := s.entry g
  s.putEntry g (mkEntry (entSheet e) dry pin (entMoving e) (entTier e) (bits e 53 52) (bits e 49 25) (entLoc e))

/-- MAP of one granule (R184, R196, R201): a bound beyond QW is NOROOM, and an entry that could not be read is good again (R215). -/
def State.mapOne (s : State) (c : TierCmd) (g : Nat) : TierStep :=
  if !(s.writableRoom c.sheet) then .fail s 1 else
  let tier := if s.claimed c.sheet 0 < s.quota c.sheet 0 then 0 else 1
  let die := if tier = 0 then s.saveDie c.sheet g else none
  let r := s.room c.sheet tier die
  match r.2 with
  | none => if r.1.roomComing c.sheet tier die then .blocked r.1 else .fail r.1 1
  | some l =>
    let s := (r.1.zero (locPhys tier l) 65536).healEntry g
    .done (((s.putEntry g (mkEntry c.sheet false false false tier 0 0 l)).usage c.sheet tier true).writable c.sheet true)

/-- End a running command: its record, those of the ABORTs that waited for it, and, on a failure, the event (R185, R186, R188). -/
def State.tierEnd (s : State) (c : TierCmd) (outcome : Nat) (abrq : Nat := 0) : State :=
  let s : State := { s with tierCmds := s.tierCmds.filter fun x => x.crec != c.crec }
  let s := s.recEnd (physCarve c.crec) 0 0xFF 3 outcome c.done (if outcome = 0 then 0 else c.gran + c.done) abrq
  let s := c.abortBy.foldl (fun s x => s.recEnd (physCarve x.1) 0 0xFF 3 (if outcome = 6 then 0 else 0x80) 0 0) s
  if outcome = 0 then s else s.post 0x0801 [c.crec, outcome, c.gran + c.done]

/-- Abandon the move of a granule: it stays at its source (R188, R195). -/
def State.abandon (s : State) (g : Nat) : State :=
  let e := s.entry g
  let s := s.putEntry g (mkEntry (entSheet e) (entDry e) (entPin e) false (entTier e) 0 0 (entLoc e))
  { s with moves := s.moves.filter fun m => m.g != g }

/-- UNMAP of one granule: a move on it is abandoned, its command ends ABORTED, and source and destination are freed under R193
(R184, R195). -/
def State.unmapOne (s : State) (c : TierCmd) (g : Nat) : State :=
  let s := match s.moves.find? fun m => m.g == g with
    | none => s
    | some m =>
      let s := ((s.abandon g).holdLoc g (entTier (s.entry g)) (entLoc (s.entry g))).holdLoc g m.dtier m.dloc
      match s.tierCmds.find? fun (x : TierCmd) => some x.crec == m.cmd && x.crec != c.crec with
      | none => s
      | some x => s.tierEnd x 6
  let e := s.entry g
  let s := (s.putEntry g 0).usage c.sheet (entTier e) false
  if entDry e then s else s.writable c.sheet false

/-- An operation on one granule (R184, R195): while the sheet's memory is being zeroed no granule of it is placed or moved (R203),
and an entry that cannot be read stops all but MAP and UNMAP (R215). -/
def State.tierOne (s : State) (c : TierCmd) (g : Nat) : TierStep :=
  let e := s.entry g
  if !(s.inRun c.sheet g) || (entValid e == (c.op == 1)) then .fail s 3
  else if s.sheetState c.sheet = 1 then .blocked s
  else if s.entryBad g && c.op != 1 && c.op != 2 then .fail (s.uncorr 4 g 0 c.sheet) 5 else
  match c.op with
  | 1 => s.mapOne c g
  | 2 => .done (s.unmapOne c g)
  | 3 =>
    if entDry e then .done s else .done ((s.setMarks g true (entPin e)).writable c.sheet false)
  | 4 =>
    if entMoving e then .blocked s
    else if !(entDry e) then .done s
    else if !(s.writableRoom c.sheet) then .fail s 1
    else if entTier e = 2 then s.tierTo c g 1 none
    else .done ((s.setMarks g false (entPin e)).writable c.sheet true)
  | 5 =>
    if entMoving e then .blocked s
    else if entTier e = 0 then .done (s.setMarks g (entDry e) true)
    else s.tierTo c g 0 (s.saveDie c.sheet g)
  | 6 => if entMoving e then .blocked s else .done (s.setMarks g (entDry e) false)
  | _ =>
    let die := if c.dtier = 0 then s.saveDie c.sheet g else if c.dany then none else some c.die
    if entMoving e then .blocked s
    else if entTier e = c.dtier && !(c.dtier == 1 && !c.dany && entLoc e / 368640 != c.die) then .done s
    else if c.dtier = 2 && !(entDry e) then .fail s 2
    else if entTier e = 0 && entPin e then .fail s 4
    else s.tierTo c g c.dtier die

/-- Does an earlier running command still have a granule to do (R187)?  UNMAP meets a move in progress, and DRY one that is not an
UNDRY's (R195). -/
def State.aheadOf (s : State) (c : TierCmd) (g : Nat) : Bool :=
  (s.tierCmds.takeWhile fun x => x.crec != c.crec).any fun x =>
    decide (x.gran + x.done ≤ g) && decide (g < x.gran + x.count) &&
    !((s.moves.any fun m => m.g == g && m.cmd == some x.crec) && (c.op == 2 || (c.op == 3 && x.op != 4)))

/-- Replace a running command. -/
def State.setTierCmd (s : State) (c : TierCmd) : State :=
  { s with tierCmds := s.tierCmds.map fun x => if x.crec == c.crec then c else x }

/-- Run a command on until it ends or must wait: at most fuel granules.  An UNMAP or an UNPIN may take the ground from under a DMA ring
(06 R748). -/
def State.tierRun : Nat → TierCmd → State → State
  | 0, c, s => s.tierEnd c 0
  | n + 1, c, s =>
    let g := c.gran + c.done
    if s.aheadOf c g then s else
    match (s.seenEntry g).tierOne c g with
    | .blocked s => s
    | .moving s => s
    | .fail s o => s.tierEnd c o
    | .done s =>
      let c := { c with done := c.done + 1 }
      let s := s.setTierCmd c
      State.tierRun n c (if c.op == 2 || c.op == 6 then s.ringsCheck else s)

/-- Let every waiting command go on, in ring order; a DMA queue whose ring is no longer pinned in T0 stops (06 R748). -/
def State.tierSweep (s : State) : State :=
  (s.tierCmds.foldl (fun s c =>
    match s.tierCmds.find? fun x => x.crec == c.crec with
    | none => s
    | some c => if s.moves.any fun m => m.cmd == some c.crec then s else State.tierRun (c.count - c.done) c s) s).ringsCheck

/-- Does a command break R183 (BADOP)? -/
def tierBad (e : Nat) : Bool :=
  let op := bits e 7 0
  !(decide (1 ≤ op ∧ op ≤ 8)) || bits e 207 176 != 0 || bits e 111 106 != 0 || bits e 79 76 != 0 || bits e 66 8 != 0 ||
  (op != 8 && bits e 175 128 != 0) || (op == 8 && bits e 175 128 % 64 != 0) || (op != 7 && bits e 71 67 != 0) ||
  (op == 7 && bits e 71 70 == 3)

/-- ABORT, with its own record, of the command whose record is at TREC: the outcome of the ABORT, or none while it waits for the
granule boundary of a PIN or an UNDRY that moves a granule (R188). -/
def State.tierAbort (s : State) (own t : Nat) : State × Option Nat :=
  let a := physCarve t
  if !(s.carveRecOk t) then (s, some 0x81) else
  let s := s.seen a 64 t 16
  match s.recState a with
  | 0 => (s.store a (recBytes (Mem.le s.mem a 4) 0xFF 3 6 3 0 0 0 s.now s.now), some 0)
  | 1 =>
    if s.recKind a != 3 then (s, some 0x81) else
    match s.tierCmds.find? fun c => c.crec == t with
    | none => (s, some 0x81)
    | some c =>
      let mine := s.moves.filter fun m => m.cmd == some t
      if c.op != 7 && !mine.isEmpty then (s.setTierCmd { c with abortBy := c.abortBy ++ [(own, s.now)] }, none) else
      let s := mine.foldl (fun s m => s.abandon m.g) s
      ((s.tierEnd c 6 s.now).tierSweep, some 0)
  | 0xFF => (s, some 5)
  | _ => (s, some 0x80)

/-- The migrator takes the next command of its ring when it is of the operation named, or of a reserved one (R182)
(DEDUCED in part, log entry 48). -/
def State.tierTake (s : State) (op : Nat) : State :=
  let base := s.addrOf Reg.MCQ_BASE_LO Reg.MCQ_BASE_HI 64
  let cons := (s.word Reg.MCQ_CONS).toNat
  let h := s.ringHead 128 0x0805 base 128 cons (base + 32 * (cons % 256)) 32
  match h.entry with
  | none => h.st
  | some e =>
  let o := bits e 7 0
  if o != op && decide (1 ≤ o ∧ o ≤ 8) then h.st else
  let s := h.st.bump Reg.MCQ_CONS
  let crec := bits e 255 208
  if !(s.carveRecOk crec) then s.post 0x0806 [3, crec, 0xFF] else
  let t := s.recTake (physCarve crec) crec 0 0xFF 3
  if !t.2 then t.1 else
  let s := t.1
  if tierBad e then s.recEnd (physCarve crec) 0 0xFF 3 7 0 0
  else if o = 8 then
    let r := s.tierAbort crec (bits e 175 128)
    match r.2 with
    | none => r.1
    | some x => r.1.recEnd (physCarve crec) 0 0xFF 3 x 0 0
  else
    let c : TierCmd := ⟨o, crec, bits e 75 72, bits e 105 80, bits e 127 112 + 1, 0, bits e 71 70, bit e 69, bits e 68 67, []⟩
    (State.tierRun c.count c { s with tierCmds := s.tierCmds ++ [c] }).tierSweep

/-- MAP. -/
def execMap (s : State) : Host.Outcome State Fault Refusal := act s fun s => s.tierTake 1
/-- UNMAP. -/
def execUnmap (s : State) : Host.Outcome State Fault Refusal := act s fun s => s.tierTake 2
/-- DRY. -/
def execDry (s : State) : Host.Outcome State Fault Refusal := act s fun s => s.tierTake 3
/-- UNDRY. -/
def execUndry (s : State) : Host.Outcome State Fault Refusal := act s fun s => s.tierTake 4
/-- PIN. -/
def execPin (s : State) : Host.Outcome State Fault Refusal := act s fun s => s.tierTake 5
/-- UNPIN. -/
def execUnpin (s : State) : Host.Outcome State Fault Refusal := act s fun s => s.tierTake 6
/-- TIER_MOVE. -/
def execTierMove (s : State) : Host.Outcome State Fault Refusal := act s fun s => s.tierTake 7
/-- TIER_ABORT. -/
def execTierAbort (s : State) : Host.Outcome State Fault Refusal := act s fun s => s.tierTake 8

/-- SHEET_WAKE_COMPLETE: the quires are ungated and the memory is zero (10_sheets.md R397, R203); tier commands that waited for it go
on. -/
def execSheetWakeComplete (i : Fin 16) (s : State) : Host.Outcome State Fault Refusal :=
  act s fun s =>
    if s.sheetState i.val != 1 then s else
    let s := s.zeroWaking i.val
    let s := (s.quiresOf i.val).foldl (fun s q => ((s.setQuireState q 2).firstPoint q).setClock q) s
    ((s.setSheetState i.val (s.sheet i.val).wakeTo).schedule i.val).tierSweep

/-! ## Moves (R189 to R195) -/

/-- What a flip completes for its command: PIN sets PIN, UNDRY clears DRY (R181, R184). -/
def State.moveDone (s : State) (m : Move) : State :=
  match s.tierCmds.find? fun (c : TierCmd) => some c.crec == m.cmd with
  | none => s
  | some c =>
    let e := s.entry m.g
    let s := if c.op = 5 then s.setMarks m.g (entDry e) true
      else if c.op = 4 then (s.setMarks m.g false (entPin e)).writable c.sheet true else s
    let c := { c with done := c.done + 1 }
    match c.abortBy with
    | x :: _ => s.tierEnd c 6 x.2
    | [] => State.tierRun (c.count - c.done) c (s.setTierCmd c)

/-- Is a location of T1 on a base die one of whose channels is being retrained (16_startup_config.md R660; log entry 96)? -/
def State.retraining (s : State) (tier loc : Nat) : Bool :=
  tier == 1 && s.calib.any fun c => c.kind == 4 && c.unit / 6 == loc / 368640

/-- MOVE_FLIP: the copying of a granule's move ends and its entry flips; on a base die under retrain it waits at the end of its RECOPY
(16 R660), and the memory of a waking sheet is zero before it (R203). -/
def State.moveFlip (s : State) (g : Nat) : State :=
  match s.moves.find? fun m => m.g == g with
  | none => s
  | some m =>
    if s.retraining (entTier (s.entry g)) (entLoc (s.entry g)) || s.retraining m.dtier m.dloc then s else
    let s := s.zeroWaking m.sheet
    let e := s.entry g
    let r := s.relocate g m.dtier m.dloc
    if r.2 then
      let s : State := { r.1 with moves := r.1.moves.filter fun x => x.g != g }
      ((s.holdLoc g (entTier e) (entLoc e)).moveDone m).tierSweep
    else
      let s := r.1.abandon g
      (match s.tierCmds.find? fun (c : TierCmd) => some c.crec == m.cmd with
       | none => s
       | some c => s.tierEnd c 5).tierSweep

/-- MOVE_FLIP. -/
def execMoveFlip (g : BitVec 26) (s : State) : Host.Outcome State Fault Refusal := act s fun s => s.moveFlip g.toNat

/-- MOVE_SOURCE_FREE: the reads served from the source have returned (R193). -/
def execMoveSourceFree (g : BitVec 26) (s : State) : Host.Outcome State Fault Refusal :=
  act s fun s => ({ s with freeing := s.freeing.filter fun f => f.2.1 != g.toNat } : State).tierSweep

/-- Demote from T1 while a sheet's usage exceeds 15/16 of Q1 (R198): at most fuel granules. -/
def State.demoteLoop (i : Nat) : Nat → State → State
  | 0, s => s
  | n + 1, s =>
    if 16 * (s.word (Reg.U1 i)).toNat ≤ 15 * s.quota i 1 then s else
    let r := s.demoteT1 i
    if r.2 then State.demoteLoop i n r.1 else r.1

/-- T1_DEMOTION. -/
def execT1Demotion (i : Fin 16) (s : State) : Host.Outcome State Fault Refusal :=
  act s fun s => State.demoteLoop i.val (s.word (Reg.U1 i.val)).toNat s

/-- EVICTION (R426, R427). -/
def execEviction (s : State) : Host.Outcome State Fault Refusal :=
  act s fun s =>
    if s.rd Reg.EVICT_CTL 20 0 ≤ s.t1Free then s else s.evict 0

/-! ## Scrubbing and the T2 ports -/

/-- Physical start of granule n of a scrubbed store, when it exists. -/
def State.scrubPhys (s : State) (st : ScrubStore) (n : Nat) : Option Nat :=
  match st with
  | .t0 => if n < 40960 then some (physT0 n) else none
  | .t1 => if n < 1474560 then some (s.t1Phys n) else none
  | .t2cx0 => if n < s.t2Gran.getD 0 0 then some (physT2 0 n) else none
  | .t2cx1 => if n < s.t2Gran.getD 1 0 then some (physT2 1 n) else none

/-- Tier and location of granule n of a store. -/
def scrubLoc (st : ScrubStore) (n : Nat) : Nat × Nat :=
  match st with
  | .t0 => (0, n)
  | .t1 => (1, n)
  | .t2cx0 => (2, n)
  | .t2cx1 => (2, 2 ^ 24 + n)

/-- Is a line's transfer lost: over GDDR7 after four retries of a failed data CRC (18_module_interfaces.md R711), over CXL when the
link answers with an error (18 R713)? -/
def transferLost (st : ScrubStore) (fails : Nat) : Bool :=
  match st with
  | .t0 => false
  | .t1 => decide (4 < fails)
  | .t2cx0 => decide (0 < fails)
  | .t2cx1 => decide (0 < fails)

/-- A line among the failing ones, in order and once. -/
def insertLine (k : Nat) (l : List Nat) : List Nat := l.filter (decide <| · < k) ++ k :: l.filter (decide <| k < ·)

/-- PATROL_SCRUB reads one line; its transfer fails as said, then and at every later read until the line is scrubbed again (R213, R214, R217; 18 R711, R713) (DESIGN CHOICE, log entry 138).
A line that no entry names records its offset in the store (DEDUCED, log entry 37). -/
def execPatrolScrub (st : ScrubStore) (n : Nat) (line : Fin 1024) (read : ScrubRead) (s : State) :
    Host.Outcome State Fault Refusal :=
  act s fun s =>
    match s.scrubPhys st n with
    | none => s
    | some a =>
      let k := a / 64 + line.val
      let p := (read.err.foldl (fun m x => Map.set m x.1.val (Map.getD m x.1.val 0 ^^^ x.2)) (Map.getD s.upsets k [])).filter fun e => e.2 != 0
      let s : State := { s with upsets := if p.isEmpty then Map.erase s.upsets k else Map.set s.upsets k p,
                                failing := if transferLost st read.fails then insertLine k s.failing else s.failing.filter (· != k) }
      if !(s.rdb Reg.SCRUB_CTL 0) then s else
      let l := scrubLoc st n
      match s.mapped.find? fun g => entTier (s.entry g) == l.1 && entLoc (s.entry g) == l.2 with
      | some g => (s.ecc (64 * k) 64 (65536 * g + 64 * line.val) 0 (entSheet (s.entry g))).1
      | none => (s.ecc (64 * k) 64 (65536 * n + 64 * line.val) 0 16).1

/-- CAP_T2 from the ports in service and MIRROR_T2 (R747). -/
def State.setCapT2 (s : State) : State :=
  let n := (List.range 2).foldl (fun n p => n + if s.t2Up.getD p false then s.t2Gran.getD p 0 else 0) 0
  s.wr Reg.CAP_T2 31 0 (n - s.rd Reg.MIRROR_T2 31 0)

/-- May MIRROR_T2 take a value after start-up: the ports that trained count, in service or not (R747)? -/
def State.mirrorT2Ok (s : State) (v : Nat) : Bool :=
  let n := s.t2Gran.getD 0 0 + s.t2Gran.getD 1 0
  !(s.rdb Reg.MIRR_CTL 31) && (List.range 16).all (fun i => s.rd (Reg.U2 i) 25 0 == 0) && decide (v ≤ n)

/-- A write of MIRROR_T2 (R747). -/
def State.mirrorT2Write (s : State) (v cls : Nat) : State :=
  if s.mirrorT2Ok v then
    (s.wr Reg.MIRROR_T2 31 0 v).setCapT2
  else s.logWrite Reg.MIRROR_T2 v cls

/-- MIRROR_T2_WRITE. -/
def execMirrorT2Write (v : W32) (s : State) : Host.Outcome State Fault Refusal := act s fun s => s.mirrorT2Write v.toNat 0

/-- Does the mirror area lie on root port n (R747)? -/
def State.mirrorOn (s : State) (n : Nat) : Bool :=
  let m := s.rd Reg.MIRROR_T2 31 0
  if n = 0 then decide (0 < m) && decide (0 < s.t2Gran.getD 0 0) else decide (s.t2Gran.getD 0 0 < m)

/-- CXL_PORT_DOWN (18 R714). -/
def execCxlPortDown (n : Fin 2) (s : State) : Host.Outcome State Fault Refusal :=
  act s fun s =>
    let s : State := { s with t2Up := s.t2Up.set n.val false }
    let s := s.setCapT2.post 0x0906 [16 + n.val, 0, 0]
    if s.mirrorOn n.val then (s.wr Reg.MIRR_CTL 29 28 3).report else s

/-- QUILL_CORE_STORE to the carve-out: one that touches the tier table or the touch bitmap is not performed (R173), nor one that
writes part of a line that cannot be corrected (R215). -/
def execQuillCoreStore (addr : BitVec 48) (data : List Byte) (s : State) : Host.Outcome State Fault Refusal :=
  act s fun s =>
    let a := addr.toNat
    if s.hitsTables a data.length then (s.answer 2 []).post 0x0804 [a]
    else if s.inCarve a data.length then
      let r := s.eccEdges (physCarve a) data.length a 0 16
      if r.2.isSome then r.1.answer 2 [] else (r.1.storeCarve a data).answer 0 []
    else s.answer 2 []

/-- A write in MEM. -/
def State.memWrite (s : State) (off v cls : Nat) : State :=
  if off = Reg.MIRROR_T2 then s.mirrorT2Write v cls
  else if 0x81000 ≤ off ∧ off < 0x81400 then s.memSheetWrite off v cls
  else s.writeReg off v

end Sys2Proof.Machine
end

