-- ==== Sys2Proof/Machine/Startup.lean ====
section
/-! DEFINITION. Start-up, resets and the requests for turns (16_startup_config.md R638 to R656, 17_firmware_security.md R673 R674,
01_architecture.md R24 R25, 18_module_interfaces.md R704). -/

namespace Sys2Proof.Machine

/-! ## Register presets (16 R643, R644) -/

/-- The bits of a register that are RW fields with reset "colophon". -/
def colophonMask (off : Nat) : Nat :=
  if off = Reg.MIRROR_T2 then 0xFFFFFFFF
  else if off = Reg.MCQ_BASE_LO ∨ off = Reg.WTAB_LO then 0xFFFFFFC0
  else if off = Reg.MCQ_BASE_HI ∨ off = Reg.WTAB_HI ∨ off = Reg.QIMP_HI ∨ off = Reg.RTAB_HI ∨ off = Reg.PTAB_HI then 0xFFFF
  else if off = Reg.EVICT_CTL then 0x1FFFFF
  else if off = Reg.TLOST_CTL then 0x3FF
  else if off = Reg.QIMP_LO then 0xFFFF0000
  else if off = Reg.RTAB_LO then 0xFFFFF000
  else if off = Reg.PTAB_LO then 0xFFF00000
  else if off = Reg.TOPO_CFG then 1
  else if off = Reg.BUDDY then 0x1FFFF
  else if off = Reg.MCAP then 0xFFF
  else if off = Reg.RCAP_NEXT then 0x3FFFF
  else if off = Reg.BL_CFG then 0xC0003FFF
  else if off = Reg.DROOP_CFG then 0xFF
  else if off = Reg.ACC_MGMT ∨ off = Reg.ACC_FAB then 0x1FFF
  else if (copyAt (Reg.RCFG 0) 0x40 16 off).isSome then 8
  else 0

/-- Does a register refuse a write at this moment under its own chapter's rule (R656)? -/
def State.presetRefused (s : State) (off v : Nat) : Bool :=
  if off = Reg.MIRROR_T2 then !(s.mirrorT2Ok v)
  else if off = Reg.WTAB_LO ∨ off = Reg.WTAB_HI then !s.windows.isEmpty
  else if off = Reg.QIMP_LO ∨ off = Reg.QIMP_HI then s.quillBusy
  else if off = Reg.RTAB_LO ∨ off = Reg.RTAB_HI then s.rdb Reg.RTCTL 31
  else if off = Reg.BUDDY then s.mirrors
  else false

/-- One entry of a REGS section (R643); `turn` says that it is applied at a colophon-set turn (R656) (DEDUCED in part, log entry 90). -/
def State.preset (turn : Bool) (s : State) (e : List Byte) : State :=
  let off := leNat (e.take 4)
  let val := leNat ((e.drop 4).take 4)
  let mask := leNat ((e.drop 8).take 4)
  let pmatch := leNat ((e.drop 12).take 2)
  let pmask := leNat ((e.drop 14).take 2)
  if s.pos &&& pmask != pmatch &&& pmask then s
  else if mask ||| colophonMask off != colophonMask off then s.logWrite off val
  else
    let old := (s.word off).toNat
    let v := (old &&& (0xFFFFFFFF - mask)) ||| (val &&& mask)
    if turn && s.presetRefused off v then (s.bumpSat Reg.CT_SKIP).post 0x0102 [s.rd Reg.CSCTL 29 28, off]
    else
      let v := if off = Reg.ACC_MGMT ∨ off = Reg.ACC_FAB then v - (v &&& 0x801) else v
      let s := s.wrw off (BitVec.ofNat 32 v)
      if turn && off == Reg.MIRROR_T2 then s.setCapT2 else s

/-- Apply a REGS section in list order. -/
def State.presets (s : State) (turn : Bool) (regs : List Byte) : State :=
  ((chunks 16 (regs.length / 16) regs).filter fun e => e.length == 16).foldl (State.preset turn) s

/-! ## The colophon and the plan (16 R638, R641, R642) -/

/-- Take the sections of a colophon copy and the digest of its plan, which is used as it is stored (R528, R640, R641). -/
def State.takeSections (s : State) (r : Reader) : State :=
  let plan := sectionOf r 1
  let c := converted r
  { s with start := { s.start with
      plan := plan, planDigest := shake256 plan 16, colDigest := r 24 32, regs := sectionOf c 2, update := sectionOf c 3 } }

/-- What the module takes from its own position entry (R642) (DEDUCED in part, log entry 87) (DEDUCED, log entry 91). -/
def State.takePlan (s : State) : State :=
  let a := 16 + 16 * posIdx s.pos
  let fl := s.planFlags
  let pair := s.planLe 1 1 == 1
  let s := s.wrb Reg.TOPO_CFG 0 (bit (s.planLe 2 1) 0)
  let s := s.wr Reg.BUDDY 15 0 (if pair then s.pos ^^^ 0x8000 else s.planLe (a + 4) 2)
  let s := s.wrb Reg.BUDDY 16 (pair || bit fl 6)
  let s := s.wr Reg.TIM_STAT 27 26 (if bit fl 5 then 2 else if bit fl 4 then 1 else 0)
  let s := s.wrw Reg.MCFG (BitVec.ofNat 32 (s.planLe (a + 6) 2 + 65536 * s.planLe (a + 8) 2))
  s.wr Reg.TIM_STAT 15 0 (s.planLe (a + 6) 2)

/-- Take the selected copy (R638, R643, R644). -/
def State.takeCopy (s : State) (k : Nat) (other : Bool) : State :=
  let r := s.flashAt (0x100000 * k)
  let s := s.wrw Reg.CFG_STAT (BitVec.ofNat 32 (4 * k + (if other then 2 else 0) + 1))
  let s := (s.wr64 Reg.COLO_SEQ_LO Reg.COLO_SEQ_HI (rdLe r 8 8)).wrw Reg.COLO_VER (BitVec.ofNat 32 (rdLe r 4 1))
  let s := s.takeSections r
  let s := s.wr Reg.RCAP_NEXT 17 0 (2400 * s.plannedCount)
  let s := s.takePlan.presets false s.start.regs
  s.wr Reg.RCAP_CUR 17 0 (s.rd Reg.RCAP_NEXT 17 0)

/-- Select a colophon copy (R638): the selected copy, or none. -/
def State.selectCopy (s : State) : State × Bool :=
  let v0 := s.copyValid 0
  let v1 := s.copyValid 1
  let q (k : Nat) : Nat := rdLe (s.flashAt (0x100000 * k)) 8 8
  let d (k : Nat) : List Byte := (s.flashAt (0x100000 * k)) 24 32
  if !v0 && !v1 then (s, false) else
  let k := if v1 && (!v0 || decide (q 0 < q 1)) then 1 else 0
  let s := if v0 && v1 && q 0 == q 1 && d 0 != d 1 then
    s.post 0x0101 [q 0, leNat ((d 0).take 8), leNat ((d 1).take 8)] else s
  (s.takeCopy k (v0 && v1), true)

/-! ## Boot (17 R673) -/

/-- May a slot be a candidate? -/
def State.candidate (s : State) (b : Nat) : Bool := s.slotState b == 3 || (s.slotState b == 2 && decide (s.slotTries b < 3))

/-- The newest version of the flash structures that the images of a slot can use, of the copies in flash (R682). -/
def State.bootData (s : State) (b : Nat) : Nat :=
  let dv := ([1, 2, 3, 4, 5].map fun k => iData (s.imageAt k b)).foldl max 0
  match s.chip.dataCopies.filter (· ≤ dv) with
  | [] => s.chip.dataVer
  | l => l.foldl max 0

/-- Boot a slot: its images become active with the flash structures they can use, SEC_STAT shows it. -/
def State.bootSlot (s : State) (b : Nat) : State :=
  let s : State := { s with chip := { s.chip with dataVer := s.bootData b } }
  let s := [1, 2, 3, 4, 5].foldl (fun s k => s.setActive k (measure b (s.imageAt k b))) s
  (s.wrb Reg.SEC_STAT 26 (b == 1)).wrb Reg.SEC_STAT 27 (s.slotState b == 2)

/-- Try candidates, the highest SEQ first, slot A on equal SEQ; each try of a TRIAL slot is counted first. -/
def State.bootFrom : Nat → List Nat → State → State × Bool
  | 0, _, s => (s, false)
  | n + 1, cand, s =>
    match cand with
    | [] => (s, false)
    | c :: rest =>
      let b := rest.foldl (fun b x => if s.slotSeq b < s.slotSeq x then x else b) c
      let s := if s.slotState b = 2 then s.setSlot b (s.slotSeq b) 2 (s.slotTries b + 1) else s
      if s.slotOk b then (s.bootSlot b, true)
      else State.bootFrom n (cand.filter (· != b)) (s.setSlot b (s.slotSeq b) 4 (s.slotTries b))

/-- The boot ROM chooses the loader half that would run. -/
def State.loaderSelect (s : State) : State :=
  let h := s.loaderHalf
  let s := s.wrb Reg.SEC_STAT 25 (h == 1)
  if s.loaderOk h then s.setActive 6 (measure (2 + h) (s.imageAt 6 h)) else s

/-- The boot ROM's choice of a slot (DEDUCED in part, log entry 88). -/
def State.bootSelect (s : State) : State × Bool :=
  State.bootFrom 2 ((List.range 2).filter s.candidate) s

/-! ## Resets (16 R646, R650, R651; 18 R704; 19 R739) -/

/-- Slots of the flash log: the log area but for its first 64 KiB, to the end of the flash (16 R634, 19 R739). -/
def flogSlots : Nat := 949248

/-- Where the flash log goes on: the first free slot after a written one (19 R739). -/
def State.flogStart (s : State) : Nat :=
  let lo := physFlash 0x0C610000
  let used := (s.mem.filter fun c => decide (lo ≤ c.1) && decide (c.1 < lo + 64 * flogSlots)).map fun c => (c.1 - lo) / 64
  match used.find? fun n => !(used.contains ((n + 1) % flogSlots)) with
  | none => 0x0C610000
  | some n => 0x0C610000 + 64 * ((n + 1) % flogSlots)

/-- A fresh owner-command nonce (17 R686; log entry 6). -/
def State.drawNonce (s : State) : State :=
  let n := (Config.nonce s.draws).toNat
  ((List.range 4).foldl (fun s i => s.wrw (Reg.NONCE i) (BitVec.ofNat 32 (n / 2 ^ (32 * i)))) s).draw

/-- The module with every register at reset, the nonce drawn anew (00_scope.md R9, 17 R686; log entry 6): flash and cable memories, manufacture, the queue and what has left it stay. -/
def State.cleared (s : State) (straps : BitVec 13) (feed : Bool) (kind : Nat) : State :=
  { State.reset with
    pending := s.pending, draws := s.draws + 1, chip := s.chip, straps := straps, strapPins := s.strapPins, feed := feed,
    csr := csrSources s.chip straps feed kind (Config.nonce s.draws), mem := Mem.above s.mem (physFlash 0), tx := s.tx, svc := s.svc, answers := s.answers }

/-- A link unit after a MODULE reset: a ring port goes on, another starts afresh; usage counts are kept, and rack time starts at 0 (R650;
13_topology_failover.md R540, R541). -/
def PortRt.carried (r : PortRt) (p : Nat) (hours now : Nat) : PortRt :=
  if 8 ≤ p then r.jump (-now) else { PortRt.zero with mates := r.mates, hours := r.hours + hours, wire := r.wire }

/-- What a MODULE reset leaves as it was (R650, R719): sampled signals, LEAVING, INLOSS, the shutdown latch, the ring ports and what they
carry (13_topology_failover.md R535). -/
def State.carried (new old : State) : State :=
  let keep (o : Nat) (s : State) : State := if s.word o = old.word o then s else s.wrw o (old.word o)
  let sb := Reg.SB_STAT
  let s := (new.wr sb 31 30 (old.rd sb 31 30)).wr sb 28 23 (old.rd sb 28 23)
  let s := (((s.wr Reg.HOLDUP 30 30 (old.rd Reg.HOLDUP 30 30)) |> keep Reg.VIN_STAT) |> keep (Reg.PORT_STAT 8)) |> keep (Reg.PORT_STAT 9)
  let s := ((keep (Reg.LANE_FAIL 8) s) |> keep (Reg.LANE_FAIL 9))
  let p := old.power
  let s : State := { s with
    power := { s.power with leaving := p.leaving, alertLatched := p.alertLatched, inMV := p.inMV, wantLow := p.wantLow, unmated := p.unmated },
    ports := old.ports.map fun e => (e.1, e.2.carried e.1
      (if old.portState e.1 = 0 then 0 else ((old.now - e.2.hoursFrom) / 3600000000000).toNat) old.now) }
  let s := if old.portUp 8 || old.portUp 9 then ((keep Reg.PLANE_MAP s).wrb Reg.TOPO_CFG 1 (old.rdb Reg.TOPO_CFG 1)) else s
  let s := [8, 9].foldl (fun s q => if s.portState q = 0 then s else s.cableRefresh q) s
  if p.leaving then s.wr Reg.TOPO_STAT 2 0 4 else s

/-- From the RESET record to the choice of a slot (R646, R649, R651, 01 R25). -/
def State.begin_ (s : State) (kind before : Nat) : State :=
  let s := s.wrw Reg.FLOG_HEAD (BitVec.ofNat 32 s.flogStart)
  let s := s.post 0x0001 [kind, before]
  let s := if s.rdb Reg.POSITION 16 then s.post 0x0005 [s.straps.toNat] else s
  let s := [(4, 750), (5, 800), (6, 1200), (7, 900)].foldl (fun (s : State) (x : Nat × Nat) => s.wr (Reg.RAILV x.1) 31 16 x.2) s
  let s := (s.loaderSelect).wr Reg.START_STAT 3 0 1
  let c := s.selectCopy
  if !c.2 then c.1.startFails 1
  else if c.1.rdb Reg.POSITION 16 || !(bit c.1.planFlags 0) then c.1.startFails 5
  else
    let b := (c.1.wr Reg.START_STAT 3 0 2).bootSelect
    if b.2 then b.1 else b.1.startFails 2

/-- POWER_GOOD (R646, R699): the straps and FEED_CLASS are latched; the connectors are mated (PRESUMED in part, log entry 85). -/
def State.powerUp (s : State) (straps : BitVec 13) (feed : Bool) : State :=
  let s : State := { s.cleared straps feed 0 with strapPins := straps }
  (s.wr Reg.SB_STAT 27 23 31).begin_ 0 0

/-- POWER_GOOD acts on a module that is off as well. -/
def execPowerGood (straps : BitVec 13) (feed : Bool) (s : State) : Host.Outcome State Fault Refusal :=
  .next (s.powerUp straps feed)

/-- STRAPCHG: a later change of the straps is logged and has no other effect (01 R24). -/
def execStrapchg (straps : BitVec 13) (s : State) : Host.Outcome State Fault Refusal :=
  act s fun s =>
    if straps = s.strapPins then s
    else ({ s with strapPins := straps } : State).post 0x0004 [s.straps.toNat, straps.toNat]

/-- A MODULE reset (R650) (DEDUCED in part, log entry 86). -/
def State.resetModule (s : State) : State :=
  let s := s.lostSelf
  ((s.cleared s.straps s.feed 1).carried s).begin_ 1 (s.word Reg.START_STAT).toNat

/-- MODULE_RESET. -/
def execModuleReset (s : State) : Host.Outcome State Fault Refusal := act s State.resetModule

/-- A QUILL reset, refused and logged while a job slot is enabled (R650, R651). -/
def State.resetQuill (s : State) (v cls : Nat) : State :=
  if (List.range 16).any fun j => s.rdb (Reg.JCFG j) 31 then s.logWrite Reg.RST_CMD v cls else
  let s := (List.range 64).foldl (fun s n => (s.wrw (Reg.QW_ADDR_LO n) 0).wrw (Reg.QW_ADDR_HI n) 0) s
  let s := (s.wrw Reg.QW_PEND_LO 0).wrw Reg.QW_PEND_HI 0
  (s.wr Reg.GSTAT 29 28 2).post 0x0001 [2, (s.word Reg.START_STAT).toNat]

/-- QUILL_RESET. -/
def execQuillReset (s : State) : Host.Outcome State Fault Refusal := act s fun s => s.resetQuill 0x5A000002 0

/-- QUILL_RESET_COMPLETE: the reloaded firmware runs; an image written in place is active (R650, 17 R680). -/
def execQuillResetComplete (s : State) : Host.Outcome State Fault Refusal := act s fun s => s.activate 1

/-- A write of RST_CMD (R651). -/
def State.resetCommand (s : State) (v cls : Nat) : State :=
  if bits v 31 24 != 0x5A then s.logWrite Reg.RST_CMD v cls
  else match v % 4 with
    | 1 => s.resetModule
    | 2 => s.resetQuill v cls
    | _ => s

/-! ## From the images to ready (16 R645 to R648) -/

/-- IMAGES_LOADED (R646, R649). -/
def execImagesLoaded (ok : Bool) (s : State) : Host.Outcome State Fault Refusal :=
  act s fun s =>
    if (s.word Reg.START_STAT).toNat % 256 != 2 then s
    else if !ok then s.startFails 2 else
    let s : State := { s with start := { s.start with images := true } }
    let s := (List.range 4).foldl (fun s d =>
      s.wr (Reg.RAILV d) 31 16 (600 + (((List.range s.nq).filter fun q => s.dieOf q == d).map fun q => s.rd (Reg.QPT q) 7 0).foldl max 0)) s
    (s.wr Reg.START_STAT 3 0 3).setClocks

/-- A side of the colophon set takes the selected copy, converted where it is of the version before, with its signature area (R635, R640,
R656), where CSET names a place for the side (DEDUCED in part, log entry 89). -/
def State.fillSide (s : State) (a : Nat) : State :=
  let base := 0x100000 * s.rd Reg.CFG_STAT 2 2
  let r := s.flashAt base
  if !(s.inCarve a 0x100000) || s.hitsTables a 0x100000 then s else
  let s := if rdLe r 4 1 = 1 then { s with mem := Mem.copy s.mem (physFlash base) (rdLe r 16 4) (physCarve a) }
    else s.storeCarve a (Config.convertCopy (r 0 (rdLe r 16 4)))
  { s with mem := Mem.copy s.mem (physFlash (base + 0xFF000)) (2 + rdLe r 0xFF000 2) (physCarve (a + 0xFF000)) }

/-- Both sides of the colophon set hold the selected copy at start (R656). -/
def State.fillCset (s : State) : State :=
  let a := s.addrOf Reg.CSET_LO Reg.CSET_HI 0x100000
  (s.fillSide a).fillSide (a + 0x100000)

/-- Memory is trained: the tier table and the touch bitmap are zeroed; STAGE is LINKS, and the ports may have been matched by now (R646). -/
def State.memoryUp (s : State) : State :=
  let s := (s.zero (physCarve s.chip.ttBase) (2 ^ 29)).zero (physCarve s.chip.tbBase) (2 ^ 23)
  let s := s.fillCset
  let s : State := { s with start := { s.start with linksFrom := s.now } }
  (s.wr Reg.START_STAT 3 0 4).checkMatched

/-- CHANNEL_TRAINING_DONE: a failed channel is retried twice (R648). -/
def execChannelTrainingDone (ch : Fin 24) (ok : Bool) (s : State) : Host.Outcome State Fault Refusal :=
  act s fun s =>
    if (s.word Reg.START_STAT).toNat % 256 != 3 then s
    else if ok then
      let c := ch.val :: s.start.chans.filter (· != ch.val)
      let s : State := { s with start := { s.start with chans := c } }
      if c.length = 24 then s.memoryUp else s
    else
      let n := Map.getD s.start.chanTries ch.val 0 + 1
      let s : State := { s with start := { s.start with chanTries := Map.set s.start.chanTries ch.val n } }
      if 3 ≤ n then s.startFails 3 else s

/-- Usable T2 granules of a root port for its attached bytes: 15/16 of at most 1 TiB (05_memory.md R168). -/
def t2UsableOf (cap : Nat) : Nat := min cap (2 ^ 40) * 15 / 16 / 65536

/-- CXL_ENUMERATION_DONE: attached bytes, width and rate of each root port, zero width for one that did not train
(05_memory.md R168 R217 R747, 16 R645 R648, 18 R712). -/
def execCxlEnumerationDone (cap0 cap1 w0 r0 w1 r1 : Nat) (s : State) : Host.Outcome State Fault Refusal :=
  act s fun s =>
    let st := (s.word Reg.START_STAT).toNat % 256
    if st < 3 ∨ 7 ≤ st ∨ s.start.cxlDone then s else
    let up (w : Nat) : Bool := decide (0 < w)
    let g (n w : Nat) : Nat := if up w then t2UsableOf n else 0
    let s : State := { s with t2Gran := [g cap0 w0, g cap1 w1], t2Up := [up w0, up w1], start := { s.start with cxlDone := true } }
    let s := s.setCapT2
    let s := if w0 < 16 ∨ r0 < 64 then s.post 0x0906 [0x10, w0, r0] else s
    let s := if w1 < 16 ∨ r1 < 64 then s.post 0x0906 [0x11, w1, r1] else s
    if g cap0 w0 + g cap1 w1 < s.rd Reg.MIRROR_T2 31 0 then s.startFails 4 else s

/-- Do all conditions of R647 hold? -/
def State.mayServe (s : State) : Bool :=
  s.rdb Reg.CFG_STAT 0 && bit s.planFlags 0 && !(s.rdb Reg.POSITION 16) && s.start.images && s.start.chans.length == 24 &&
  s.start.cxlDone && s.rd Reg.START_STAT 7 4 == 0 && s.start.matched && decide (6 ≤ s.upPlanes) && s.rdb Reg.TIM_STAT 31 &&
  s.rdb Reg.PWR_STAT 27

/-- A TRIAL slot that reached READY is GOOD, and the floor counters rise (17 R674). -/
def State.trialGood (s : State) : State :=
  if !(s.rdb Reg.SEC_STAT 27) then s else
  let b := s.rd Reg.SEC_STAT 26 26
  let s := (s.setSlot b (s.slotSeq b) 3 (s.slotTries b)).wrb Reg.SEC_STAT 27 false
  let o := 1 - b
  let fl := [1, 2, 3, 4, 5].map fun k =>
    let f := iFloor (s.imageAt k b)
    max (s.chip.floors.getD (k - 1) 0) (if s.slotState o = 3 then min f (iFloor (s.imageAt k o)) else f)
  let s : State := { s with chip := { s.chip with floors := fl ++ s.chip.floors.drop 5 } }
  (List.range 5).foldl (fun s i => s.wr (Reg.RUN_INFO (i + 1)) 7 0 (fl.getD i 0)) s

/-- Firmware migrates its flash structures to the new DATAVER before it reports ready, a copy beside the old one (R640, 17 R682). -/
def State.migrate (s : State) : State :=
  let dv := s.sec.active.foldl (fun n e => max n e.2.dataVer) s.chip.dataVer
  if dv = s.chip.dataVer then s
  else { s with chip := { s.chip with dataVer := dv, dataCopies := dv :: s.chip.dataCopies.filter (· != dv) } }

/-- The old copy is erased once the booted slot is GOOD (17 R682). -/
def State.eraseOld (s : State) : State :=
  if s.slotState (s.rd Reg.SEC_STAT 26 26) = 3 then { s with chip := { s.chip with dataCopies := [s.chip.dataVer] } } else s

/-- SVC_READY (R646, R647): the report is sent, by no module that is LEAVING (13 R566); flash structures have been migrated (R640, 17 R682). -/
def execSvcReady (s : State) : Host.Outcome State Fault Refusal :=
  act s fun s =>
    if !s.mayServe || s.rd Reg.START_STAT 3 0 == 7 || s.power.leaving then s else
    let s := s.wr Reg.START_STAT 3 0 7
    let s : State := { s.migrate with time := { s.time with readyOnce := true } }
    ((s.setSvc 1).trialGood).eraseOld

/-! ## Requests for turns (16 R652, R654) -/

/-- CSPEND. -/
def execCspend (s : State) : Host.Outcome State Fault Refusal := act s fun s => s.wrb Reg.CSCTL 31 true

/-- RTPEND. -/
def execRtpend (s : State) : Host.Outcome State Fault Refusal := act s fun s => s.wrb Reg.RTCTL 31 true

/-- RECIPE_TURN_REQUEST. -/
def execRecipeTurnRequest (mask : BitVec 16) (s : State) : Host.Outcome State Fault Refusal :=
  act s fun s => s.wr Reg.RECIPE_TURN 15 0 (s.rd Reg.RECIPE_TURN 15 0 ||| mask.toNat)

/-- The colophon-set turn of epoch e (R652, R656). -/
def State.colophonTurn (s : State) (e : Nat) : State :=
  if !(s.rdb Reg.CSCTL 31) || decide (2 ^ 31 ≤ (e + 2 ^ 32 - (s.word Reg.CS_TEPOCH).toNat) % 2 ^ 32) then s else
  let side := 1 - s.rd Reg.CSCTL 30 30
  let a := s.addrOf Reg.CSET_LO Reg.CSET_HI 0x100000 + side * 0x100000
  let s := s.wrb Reg.CSCTL 31 false
  let s := s.seen (physCarve a) 0x100000 a 16
  if s.inCarve a 0x100000 && s.clean (physCarve a) 0x100000 && colophonOk (s.carveAt a) then
    let s := (s.wr Reg.CSCTL 30 30 side).wr Reg.CSCTL 29 28 1
    let d := s.start.colDigest
    let s := s.takeSections (s.carveAt a)
    (State.presets { s with start := { s.start with colDigest := d } } true s.start.regs).report
  else (s.wr Reg.CSCTL 29 28 2).post 0x0102 [2, 0]

end Sys2Proof.Machine
end

