-- ==== Sys2Proof/Machine/Epoch.lean ====
section
/-! DEFINITION. The epoch boundary: everything the module does when an epoch begins (15_clocks_time.md R631; 02_formats.md R67 R70,
10_sheets.md R426 R428, 12_fabric_links.md R507 R516, 14_power.md R586 R591 R595 R597 R604 R608 to R612, 16 R652, 17 R680). -/

namespace Sys2Proof.Machine

/-! ## Energy (10 R428, 14 R609) -/

/-- Add to a 64-bit counter. -/
def State.add64 (s : State) (lo hi n : Nat) : State := s.wr64 lo hi ((s.rd64 lo hi + n) % 2 ^ 64)

/-- Each quire's part of its die's rail energy, which the measurements of the quires never exceed. -/
def quireShare (left : Nat) : List (Nat × Nat) → List (Nat × Nat)
  | [] => []
  | (q, e) :: l => (q, min e left) :: quireShare (left - min e left) l

/-- Energy of every quire in the ended epoch. -/
def State.quireEnergy (s : State) (m : EpochMeas) : List (Nat × Nat) :=
  (List.range 4).flatMap fun d =>
    quireShare (m.railUJ.getD d 0) (((List.range s.nq).filter fun q => s.dieOf q == d).map fun q => (q, m.quireUJ.getD q 0))

/-- The context that a switch of a sheet brings in: the one it restores, and while it still saves the one that is to be (R404, R428). -/
def State.incoming (s : State) (i : Nat) : Option Nat :=
  match (s.sheet i).restoring with
  | some c => some c
  | none => if (s.sheet i).saving.isSome then s.bestReady i else none

/-- Bring a resident context's RUNTIME and its time of this epoch up to now, and a switch's time with them. -/
def State.settle (s : State) (i : Nat) : State :=
  let s := match (s.sheet i).cur with
    | none => s
    | some c => if (s.ctx i c).since.isNone then s else (s.leave i c).setCtx i c { (s.leave i c).ctx i c with since := some s.now }
  let s := match s.incoming i with
    | none => s
    | some c => s.setCtx i c { s.ctx i c with epochNs := (s.ctx i c).epochNs + (s.now - (s.sheet i).resSince) }
  if (s.sheet i).restoring.isSome || (s.sheet i).saving.isSome then s.setSheet i { s.sheet i with resSince := s.now } else s

/-- Add a sheet's energy, and the shares of its contexts by their time in the epoch; `qe` is its quires' part. -/
def State.sheetEnergy (s : State) (i qe e : Nat) : State :=
  let ns := (List.range 8).map fun c => (s.ctx i c).epochNs
  let whole := max 100000 (ns.foldl (· + ·) 0)
  let s := s.add64 (Reg.ENERGY_LO i) (Reg.ENERGY_HI i) e
  (List.range 8).foldl (fun s c =>
    let n := ns.getD c 0
    if n = 0 then s
    else (s.add64 (Reg.CENERGY_LO i c) (Reg.CENERGY_HI i c) (qe * n / whole)).setCtx i c { s.ctx i c with epochNs := 0 }) s

/-- Count the energy of the ended epoch (DEDUCED in part, log entry 55) (DEDUCED, log entry 112). -/
def State.energyEpoch (s : State) (m : EpochMeas) : State :=
  let s := (List.range 16).foldl State.settle s
  let s := (List.range 8).foldl (fun s r => s.add64 (Reg.RAILE_LO r) (Reg.RAILE_HI r) (m.railUJ.getD r 0)) s
  let total := ((List.range 8).map fun r => m.railUJ.getD r 0).foldl (· + ·) 0
  let s := (s.add64 Reg.TOTAL_E_LO Reg.TOTAL_E_HI total).add64 Reg.INPUT_E_LO Reg.INPUT_E_HI m.inputUJ
  let qs := s.quireEnergy m
  let mem := m.railUJ.getD 4 0 + m.railUJ.getD 6 0
  let lines := (m.sheetLines.take 16).foldl (· + ·) 0
  let part (i : Nat) : Nat × Nat :=
    let qe := ((qs.filter fun x => bit (s.sheet i).qmask x.1 && s.quireUnder x.1 != 0).map Prod.snd).foldl (· + ·) 0
    (qe, qe + if lines = 0 then 0 else mem * m.sheetLines.getD i 0 / lines)
  let parts := (List.range 16).map part
  let s := ((List.range 16).zip parts).foldl (fun s x => s.sheetEnergy x.1 x.2.1 x.2.2) s
  s.add64 Reg.UNATTR_LO Reg.UNATTR_HI (total - (parts.map Prod.snd).foldl (· + ·) 0)

/-! ## Quires (14 R586, R597, R612) -/

/-- More trips than DLIM in the ended epoch lower the highest point for 10 epochs (R586) (DEDUCED in part, log entry 73). -/
def State.droopEpoch (s : State) (e q : Nat) : State :=
  let x := s.quire q
  let above := s.rd Reg.DROOP_CFG 15 8 < x.trips
  let keep := x.dlim.filter (e < ·)
  let s := s.setQuire q { x with trips := 0, dlim := if above then keep ++ [e + 10] else keep }
  if above then s.monOnce 0x0308 [q, x.trips] 4 else s

/-- kmax falls by one while a running quire is at THROT_T, down to point 0, and rises again below THROT_T − 5 °C (R597). -/
def State.throttleEpoch (s : State) (q : Nat) : State :=
  let x := s.quire q
  let t : Int := 8 * (s.rd Reg.THERM_CFG 31 24 : Int)
  if s.runs q && decide (t ≤ s.temp q) then
    if s.coolMax q = 0 then s else s.setQuire q { x with thr := x.thr + 1 }
  else if s.temp q < t - 40 then s.setQuire q { x with thr := x.thr - 1 }
  else s

/-- The process monitor: 5 mV more when the count has fallen by 1 % since the last step (R612) (DEDUCED in part, log entry 74)
(DEDUCED in part, log entry 114). -/
def State.ageEpoch (s : State) (q count : Nat) : State :=
  let s := s.wrw (Reg.QRO q) (BitVec.ofNat 32 count)
  let x := s.quire q
  let ref := if x.roRef = 0 then s.chip.roBase.getD q 0 else x.roRef
  let v := s.rd (Reg.QPT q) 7 0
  if ref = 0 ∨ ref * 99 < count * 100 ∨ s.chip.voff.getD q 0 + 30 < v + 5 then s else
  ((s.wr (Reg.QPT q) 7 0 (v + 5)).setQuire q { x with roRef := count }).monPost 0x0307 [q, v + 5] 3

/-- Everything an epoch boundary does to a quire. -/
def State.quireEpoch (s : State) (e : Nat) (m : EpochMeas) (q : Nat) : State :=
  ((s.droopEpoch e q).throttleEpoch q).ageEpoch q (m.roCounts.getD q 0)

/-! ## Blots, recipe turns and use of a sheet (02 R67, R70; 10 R426) -/

/-- Evaluate a recipe slot (R67) (DEDUCED in part, log entry 120). -/
def State.blotSlot (s : State) (i p wf wb : Nat) : State :=
  let w := s.unitLe (s.tierPhys (s.scb i + 0x1000 * s.rd Reg.RECIPE_SIDE i i + 16 * p)) 16
  if s.scbOk i && decide (bits w 47 32 ≤ wf) && decide (bits w 63 48 * wf < wb * 65536) then
    (s.wrb Reg.BLOT_EVT i true).post 0x0301 [i + 256 * p, wb, wf]
  else s

/-- The blot evaluation of a sheet at epoch e; its windows start again (R67). -/
def State.blotEpoch (s : State) (e i : Nat) : State :=
  let win := min 1024 (s.rd (Reg.BLOT_WIN i) 10 0)
  if win = 0 ∨ e % win ≠ 0 then s else
  let mine := s.blotWin.filter fun x => x.1 / 256 == i
  let s := mine.foldl (fun s x => s.blotSlot i (x.1 % 256) x.2.1 x.2.2) s
  { s with blotWin := s.blotWin.filter fun x => x.1 / 256 != i }

/-- BUSY: epochs of the last 10,000 in which a stroke of the sheet ran (DEDUCED in part, log entry 115). -/
def State.busyEpoch (s : State) (i : Nat) : State :=
  let x := s.sheet i
  if !x.ran && x.busyHist = 0 then s else
  let n := s.rd (Reg.BUSY i) 13 0 + (if x.ran then 1 else 0) - if bit x.busyHist 9999 then 1 else 0
  (s.wr (Reg.BUSY i) 13 0 n).setSheet i { x with ran := false, busyHist := (2 * x.busyHist + if x.ran then 1 else 0) % 2 ^ 10000 }

/-- Everything an epoch boundary does to a sheet: the blot evaluation reads the recipe side that was recto in the ended epoch, before
the turn of the same boundary (DESIGN CHOICE, log entry 150). -/
def State.sheetEpoch (s : State) (e i : Nat) : State :=
  let stepped := (List.range 8).any fun c => s.rdb (Reg.CCFG i c) 31 && s.rdb (Reg.CCFG i c) 9
  let s := (s.blotEpoch e i).busyEpoch i
  if stepped then s else s.recipeTurn i

/-! ## Monitors and turns (12 R507; 14 R579, R615; 18 R719, R720) -/

/-- The measured registers. -/
def State.monitorEpoch (s : State) (m : EpochMeas) : State :=
  let s := (s.wr Reg.HOLDUP 15 0 (min 65535 m.holdMJ)).wrb Reg.HOLDUP 31 (decide (m.holdMJ < 2000))
  let s := (s.wr Reg.INPUT_W 11 0 (min 4095 m.inputW)).wr Reg.VIN_STAT 15 0 (min 65535 m.inputMV)
  let s := (List.range 8).foldl (fun s r =>
    (s.wr (Reg.RAILV r) 15 0 (m.railMinMV.getD r 0)).wrw (Reg.RAILI r)
      (BitVec.ofNat 32 (m.railPeakA.getD r 0 % 65536 * 65536 + m.railAvgA.getD r 0 % 65536))) s
  let s := (List.range 10).foldl (fun s p =>
    let w := m.worst.getD p (0, 0)
    s.wrw (Reg.LFEC_WORST p) (BitVec.ofNat 32 (w.1 % 8 * 65536 + min 65535 w.2))) s
  let s := if s.power.inMV = 0 then s else s.inputBands s.power.inMV
  { s with power := { s.power with fx16 := m.fx16 } }

/-- The turn of the fabric route table (R507); a position that it leaves without a path is lost (R506; 11 R473). -/
def State.routeTableTurn (s : State) : State :=
  if s.rdb Reg.RTCTL 31 then State.lostSince s ((s.wrb Reg.RTCTL 31 false).wrb Reg.RTCTL 30 (!(s.rdb Reg.RTCTL 30))) else s

/-- A DUCTUS image written in place takes over (17 R680). -/
def State.ductusEpoch (s : State) : State :=
  if (Map.get? s.sec.pendIn 3).isNone then s
  else
    let s := s.activate 3
    { s with power := { s.power with ductusReload := true } }

/-- Epoch e begins. -/
def State.beginEpoch (s : State) (e : Nat) (m : EpochMeas) : State :=
  let t := s.time
  let s : State := { s with time := { t with rack := max t.rack (100000 * e * 2 ^ 32), lastEpoch := e } }
  let s := s.energyEpoch m
  let s := (List.range s.nq).foldl (fun s q => s.quireEpoch e m q) s
  let s := (List.range 16).foldl (fun s i => s.sheetEpoch e i) s
  let s := ((s.monitorEpoch m).colophonTurn e).routeTableTurn
  let s := ((s.phaseTurn e).ductusEpoch).baselineEpoch e
  let s := (List.range 10).foldl State.cableEpoch s
  s.sendRingmap.budget

/-- EPOCH_BOUNDARY: the first epoch boundary not yet acted on (DEDUCED in part, log entry 83). -/
def execEpochBoundary (m : EpochMeas) (s : State) : Host.Outcome State Fault Refusal :=
  act s fun s => s.beginEpoch (s.time.lastEpoch + 1) m

end Sys2Proof.Machine
end

