-- ==== Sys2Proof/Machine/Receive.lean ====
section
/-! DEFINITION. What arrives on a link: flits, packets, operations of other modules and answers to the module's own
(12_fabric_links.md R483 to R503 R512 R519, 11_fabric_ops.md R438 R446 R451 to R454 R469). -/

namespace Sys2Proof.Machine

/-! ## Sequence state of a pair at its target (12 R498, R501) -/

/-- How far a sequence number lies above the lowest unanswered one, modulo 2^32. -/
def Peer.ahead (r : Peer) (v : Nat) : Nat := (v + 2 ^ 32 - r.low) % 2 ^ 32

/-- Has an operation been answered: below the lowest unanswered one, or marked above it? -/
def Peer.done (r : Peer) (v : Nat) : Bool := decide (2 ^ 31 ≤ r.ahead v) || (Map.get? r.answered v).isSome

/-- Advance the lowest unanswered number over answered ones, at most fuel of them. -/
def advanceLow : Nat → Map (Nat × Nat × List (List Byte)) → Nat → Nat
  | 0, _, v => v
  | n + 1, m, v => if (Map.get? m v).isSome then advanceLow n m ((v + 1) % 2 ^ 32) else v

/-- Record an answer, for 2,048 below the lowest unanswered number and above it (R454, 12 R501). -/
def Peer.answer (r : Peer) (v status imm : Nat) (gran : List (List Byte)) : Peer :=
  let m := Map.set r.answered v (status, imm, gran)
  let r : Peer := { r with low := advanceLow (m.length + 1) m r.low, answered := m }
  { r with answered := m.filter fun e => decide (r.ahead e.1 < 2048) || decide (2 ^ 32 - 2048 ≤ r.ahead e.1) }

/-! ## Serving an operation -/

/-- Flag-class opcodes (R493). -/
def isFlag (opc : Nat) : Bool := opc == 0x0C || opc == 0x22 || opc == 0x24 || opc == 0x31

/-- Requests (R493). -/
def isRequest (opc : Nat) : Bool := opc == 0x01 || opc == 0x02 || opc == 0x03

/-- Apply an operation to the module: a memory operation, a routing message or a Roll message. -/
def State.perform (s : State) (p : Packet) : State × Reply :=
  let st (r : State × Nat) : State × Reply := (r.1, ⟨r.2, 0, []⟩)
  match p.opc.toNat with
  | 0x20 => st (s.rxDispatch p)
  | 0x21 => st (s.rxPoolans p)
  | 0x22 => st (s.rxClose p)
  | 0x23 => st (s.rxRetrow p)
  | 0x24 => st (s.rxRethdr p)
  | 0x30 => st (s.rxRoll p)
  | 0x31 => st (s.rxRoll p)
  | _ => s.applyMem p

/-- Apply and answer: RDATA for a request, one ACK for a write-class operation, whose answer is recorded (R446, R454, R501). -/
def State.serve (s : State) (p : Packet) : State :=
  let r := s.perform p
  let s := r.1.countIn r.2
  if isRequest p.opc.toNat then s.sendAny (s.replyTo p false r.2)
  else
    let src := p.src.toNat
    (s.setPeer src ((s.peer src).answer p.pseq.toNat r.2.status r.2.imm r.2.gran)).sendAny (s.replyTo p true r.2)

/-- Answer with REFUSE: the packet is not taken (R499). -/
def State.refuse (s : State) (p : Packet) : State :=
  (s.bumpSat Reg.REFUSED).sendAny
    { mkPacket 0x12 s.pos p.src.toNat with
      pseq := if isRequest p.opc.toNat then 0 else p.pseq, rtag := if isRequest p.opc.toNat then p.rtag else 0,
      pver := BitVec.ofNat 4 (s.pver p.src.toNat) }

/-- Does an operation wait for the one its DEP names (R499)? -/
def State.waitsDep (s : State) (p : Packet) : Bool :=
  match p.dep with
  | none => false
  | some d => !((s.peer p.src.toNat).done d.toNat)

/-- May a held or arriving operation be applied: its DEP is answered, and a flag has every lower number answered (R451)? -/
def State.mayServe_ (s : State) (p : Packet) : Bool :=
  !(s.waitsDep p) && (!(isFlag p.opc.toNat) || (s.peer p.src.toNat).low == p.pseq.toNat)

/-- Serve an operation, hold it, or refuse it when its store is full (R452, R499). -/
def State.serveOrHold (s : State) (p : Packet) : State :=
  if s.mayServe_ p then s.serve p
  else if isFlag p.opc.toNat then
    if 1024 ≤ s.heldFlags.length then s.refuse p else { s with heldFlags := s.heldFlags ++ [p] }
  else if 1024 ≤ s.heldPkts.length then s.refuse p
  else { s with heldPkts := s.heldPkts ++ [p] }

/-- Is the same operation of a source held already? (DEDUCED in part, log entry 118) -/
def State.isHeld (s : State) (p : Packet) : Bool :=
  (s.heldFlags ++ s.heldPkts).any fun x =>
    x.src == p.src && isRequest x.opc.toNat == isRequest p.opc.toNat &&
      (if isRequest p.opc.toNat then x.rtag == p.rtag else x.pseq == p.pseq)

/-- An operation of another module (R498 to R501) (DEDUCED in part, log entry 117). -/
def State.rxOp (s : State) (p : Packet) : State :=
  let p := s.markClosed p
  if s.isHeld p then s
  else if isRequest p.opc.toNat then s.serveOrHold p
  else
    let r := s.peer p.src.toNat
    let v := p.pseq.toNat
    if 2048 ≤ r.ahead v && decide (r.ahead v < 2 ^ 31) then s
    else match Map.get? r.answered v with
      | some a => (s.bumpSat Reg.DUPS).sendAny (s.replyTo p true ⟨a.1, a.2.1, a.2.2⟩)
      | none => if 2 ^ 31 ≤ r.ahead v then s.bumpSat Reg.DUPS else s.serveOrHold p

/-! ## Packets -/

/-- Opcodes of R493. -/
def knownOpc (o : Nat) : Bool :=
  o ∈ [0x01, 0x02, 0x03, 0x08, 0x09, 0x0A, 0x0B, 0x0C, 0x10, 0x11, 0x12, 0x20, 0x21, 0x22, 0x23, 0x24, 0x30, 0x31, 0x40, 0x41, 0x42, 0x43]

/-- A packet for this module on REQ or RSP (DEDUCED in part, log entry 116). -/
def State.rxPacket (s : State) (p : Packet) : State :=
  if p.opc.toNat = 0x10 && p.badGranule then (if 1 < p.pver.toNat then s.bumpSat Reg.BADVER else s.rxBadRdata p)
  else s.taken p fun s =>
    match p.opc.toNat with
    | 0x10 => s.rxRdata p
    | 0x11 => ((s.rxAck p).mirrorSweep).pumpDma
    | 0x12 => s.rxRefuse p
    | _ => s.rxOp p

/-- A link-local packet (R493, R503, R519, R510, R520; 13 R527; 14 R599). -/
def State.rxLocal (s : State) (port : Nat) (p : Packet) : State :=
  let g := fit 64 0 (p.gran.headD [])
  let imm := p.imm.toNat
  s.taken p fun s =>
  match p.opc.toNat, p.atop.toNat with
  | 0x40, 0 => s.rxSync port p.src.toNat g
  | 0x40, 1 => s.rxReply g (s.time.rack / 65536)
  | 0x41, 0 => s.rxVersion port imm
  | 0x41, 1 => s.rxWidth port imm
  | 0x41, 2 => s.rxBorrow port imm
  | 0x41, 3 => s.rxUnreach port (imm % 65536)
  | 0x41, 4 => s.rxReachable port (imm % 65536)
  | 0x41, 5 => s.rxRingmap port imm
  | 0x42, _ => s.rxIdent port g
  | 0x43, 0 => s.rxIntent port g p.hops.toNat
  | 0x43, 1 => s.rxTray port g p.hops.toNat
  | _, _ => s

/-- The codeword nearest a received granule, as its data bytes (R490). -/
def granData (g : List Byte) : Option (List Byte) := (rsDecode g).map fun c => c.take 64

/-- Read a packet from its bytes (R490, R491). -/
def parsePacket (b : List Byte) : Packet :=
  let le (i n : Nat) : Nat := leNat ((b.drop i).take n)
  let grans := (chunks 68 (b.length / 68 + 1) (b.drop 40)).map granData
  let flg := le 1 1
  let size := le 6 2
  { opc := BitVec.ofNat 8 (le 0 1), hops := BitVec.ofNat 4 (bits flg 7 4), src := BitVec.ofNat 16 (le 2 2),
    dst := BitVec.ofNat 16 (le 4 2), ngm1 := BitVec.ofNat 10 (bits size 9 0), status := BitVec.ofNat 4 (bits size 13 10),
    pseq := BitVec.ofNat 32 (le 8 4), dep := if bit flg 3 then some (BitVec.ofNat 32 (le 12 4)) else none,
    rtag := BitVec.ofNat 12 (le 16 2), atop := BitVec.ofNat 4 (bits (le 16 2) 15 12), issuer := BitVec.ofNat 8 (le 18 1),
    gen := BitVec.ofNat 8 (le 19 1), win := BitVec.ofNat 12 (le 20 2), pver := BitVec.ofNat 4 (bits (le 20 2) 15 12),
    offset := BitVec.ofNat 36 (le 22 5), be := BitVec.ofNat 8 (le 27 1), imm := BitVec.ofNat 64 (le 28 8),
    gran := grans.map fun g => g.getD (List.replicate 64 0), badGranule := grans.any Option.isNone }

/-- Is a packet's header good: HCHK, opcode and virtual lane (R492)? -/
def headerGood (b : List Byte) : Bool :=
  let h := (b.take 36).set 1 (b.getD 1 0 &&& 0x0F)
  crc32c h == leNat ((b.drop 36).take 4) && knownOpc (b.getD 0 0).toNat && decide ((b.getD 1 0).toNat % 8 ≤ 4)

/-- A whole packet arrived on a port: link-local, for this module, or to be forwarded on the ring (R492, R512); a port that is
not UP carries link-local packets alone (13 R534), and forwarded ones where start-up stopped (16 R649). -/
def State.rxBytes (s : State) (port : Nat) (b : List Byte) : State :=
  if !(headerGood b) then s.bumpSat Reg.HDR_ERR else
  let p := parsePacket b
  if vlOf p.opc.toNat = 4 then s.rxLocal port p
  else if p.dst.toNat = s.pos then (if s.portUp port then s.rxPacket p else s)
  else if s.ringCarries port then s.forward port p
  else s

/-- FLIT_RECEIVE. -/
def execFlitReceive (p : Fin 10) (flit : List Byte) (corr unc : Nat) (s : State) : Host.Outcome State Fault Refusal :=
  actIf (flit.length == 256) s fun s =>
    let st := s.portState p.val
    if st = 0 ∨ st = 1 ∨ st = 5 then s else
    let r := s.flitIn p.val flit corr unc
    r.2.foldl (fun s b => s.rxBytes p.val b) r.1

/-! ## Rows of one packet -/

/-- Payload granules that a packet's header announces (R490, R494). -/
def payloadCount (p : Packet) : Nat :=
  let n := p.ngm1.toNat + 1
  if p.opc.toNat = 0x0A ∧ p.atop.toNat % 2 = 1 then n + (n + 7) / 8 else n

/-- Does a packet have the opcode of its row, and a payload as its header and its opcode give (DESIGN CHOICE, log entry 13)? -/
def packetOk (p : Packet) (opc : Nat) : Bool :=
  p.opc.toNat == opc && p.gran.all (fun g => g.length == 64) && (p.gran.isEmpty || p.gran.length == payloadCount p) &&
  !((opc == 0x09 || opc == 0x0A) && p.gran.isEmpty)

/-- As `packetOk`, for a row of one operation or subtype in ATOP. -/
def packetOp (p : Packet) (opc atop : Nat) : Bool := packetOk p opc && p.atop.toNat == atop

/-- A packet reaches the module it is for. -/
def State.arrive (s : State) (p : Packet) : State := if p.dst.toNat = s.pos then s.rxPacket p else s

/-- LOAD8. -/
def execLoad8 (p : Packet) (s : State) : Host.Outcome State Fault Refusal := actIf (packetOk p 0x01) s fun s => s.arrive p
/-- LOAD64. -/
def execLoad64 (p : Packet) (s : State) : Host.Outcome State Fault Refusal := actIf (packetOk p 0x02) s fun s => s.arrive p
/-- BULKR. -/
def execBulkr (p : Packet) (s : State) : Host.Outcome State Fault Refusal := actIf (packetOk p 0x03) s fun s => s.arrive p
/-- STORE8. -/
def execStore8 (p : Packet) (s : State) : Host.Outcome State Fault Refusal := actIf (packetOk p 0x08) s fun s => s.arrive p
/-- STORE64. -/
def execStore64 (p : Packet) (s : State) : Host.Outcome State Fault Refusal := actIf (packetOk p 0x09) s fun s => s.arrive p
/-- BULKW. -/
def execBulkw (p : Packet) (s : State) : Host.Outcome State Fault Refusal := actIf (packetOk p 0x0A) s fun s => s.arrive p
/-- ATOMIC ADD. -/
def execAtomicAdd (p : Packet) (s : State) : Host.Outcome State Fault Refusal := actIf (packetOp p 0x0B 0) s fun s => s.arrive p
/-- ATOMIC MIN. -/
def execAtomicMin (p : Packet) (s : State) : Host.Outcome State Fault Refusal := actIf (packetOp p 0x0B 1) s fun s => s.arrive p
/-- ATOMIC MAX. -/
def execAtomicMax (p : Packet) (s : State) : Host.Outcome State Fault Refusal := actIf (packetOp p 0x0B 2) s fun s => s.arrive p
/-- ATOMIC SWAP. -/
def execSwap (p : Packet) (s : State) : Host.Outcome State Fault Refusal := actIf (packetOp p 0x0B 3) s fun s => s.arrive p
/-- ATOMIC CAS. -/
def execCas (p : Packet) (s : State) : Host.Outcome State Fault Refusal := actIf (packetOp p 0x0B 4) s fun s => s.arrive p
/-- A flagged store. -/
def execFlaggedStore (p : Packet) (s : State) : Host.Outcome State Fault Refusal := actIf (packetOp p 0x0C 0) s fun s => s.arrive p
/-- A flagged add. -/
def execFlaggedAdd (p : Packet) (s : State) : Host.Outcome State Fault Refusal := actIf (packetOp p 0x0C 1) s fun s => s.arrive p
/-- RDATA. -/
def execRdata (p : Packet) (s : State) : Host.Outcome State Fault Refusal := actIf (packetOk p 0x10) s fun s => s.arrive p
/-- ACK. -/
def execAck (p : Packet) (s : State) : Host.Outcome State Fault Refusal := actIf (packetOk p 0x11) s fun s => s.arrive p
/-- REFUSE. -/
def execRefuse (p : Packet) (s : State) : Host.Outcome State Fault Refusal := actIf (packetOk p 0x12) s fun s => s.arrive p
/-- BULK_COMPLETE: the RDATA or ACK of a bulk transfer (11 R469). -/
def execBulkComplete (p : Packet) (s : State) : Host.Outcome State Fault Refusal :=
  actIf (packetOk p 0x10 || packetOk p 0x11) s fun s => s.arrive p
/-- DISPATCH (08 R318). -/
def execDispatch (p : Packet) (s : State) : Host.Outcome State Fault Refusal := actIf (packetOk p 0x20) s fun s => s.arrive p
/-- POOLANS. -/
def execPoolans (p : Packet) (s : State) : Host.Outcome State Fault Refusal := actIf (packetOk p 0x21) s fun s => s.arrive p
/-- CLOSE. -/
def execClose (p : Packet) (s : State) : Host.Outcome State Fault Refusal := actIf (packetOk p 0x22) s fun s => s.arrive p
/-- RETROW. -/
def execRetrow (p : Packet) (s : State) : Host.Outcome State Fault Refusal := actIf (packetOk p 0x23) s fun s => s.arrive p
/-- RETHDR. -/
def execRethdr (p : Packet) (s : State) : Host.Outcome State Fault Refusal := actIf (packetOk p 0x24) s fun s => s.arrive p
/-- ROLL SLIP. -/
def execSlip (p : Packet) (s : State) : Host.Outcome State Fault Refusal := actIf (packetOp p 0x30 0) s fun s => s.arrive p
/-- ROLL ENTRIES. -/
def execEntries (p : Packet) (s : State) : Host.Outcome State Fault Refusal := actIf (packetOp p 0x30 1) s fun s => s.arrive p
/-- ROLL POST. -/
def execPost (p : Packet) (s : State) : Host.Outcome State Fault Refusal := actIf (packetOp p 0x30 2) s fun s => s.arrive p
/-- ROLL MASK. -/
def execMask (p : Packet) (s : State) : Host.Outcome State Fault Refusal := actIf (packetOp p 0x30 3) s fun s => s.arrive p
/-- ROLLFLAG HEADER. -/
def execHeader (p : Packet) (s : State) : Host.Outcome State Fault Refusal := actIf (packetOp p 0x31 0) s fun s => s.arrive p
/-- ROLLFLAG COMMIT. -/
def execCommit (p : Packet) (s : State) : Host.Outcome State Fault Refusal := actIf (packetOp p 0x31 1) s fun s => s.arrive p
/-- ROLLFLAG MASKWORD. -/
def execMaskword (p : Packet) (s : State) : Host.Outcome State Fault Refusal := actIf (packetOp p 0x31 2) s fun s => s.arrive p

/-! ## Held operations (11 R451, 12 R499) -/

/-- The first held operation of a source that may be applied now. -/
def State.heldReady (s : State) (l : List Packet) (src : BitVec 16) : Option Packet := l.find? fun p => p.src == src && s.mayServe_ p

/-- Apply held flags of a source in their order, at most fuel of them. -/
def State.applyFlags : Nat → BitVec 16 → State → State
  | 0, _, s => s
  | n + 1, src, s =>
    match s.heldReady s.heldFlags src with
    | none => s
    | some p => State.applyFlags n src (State.serve { s with heldFlags := s.heldFlags.erase p } p)

/-- FLAG_APPLY: held flags of a source whose lower-numbered operations are all answered (R451, R453) (DEDUCED in part, log entry 119). -/
def execFlagApply (src : BitVec 16) (s : State) : Host.Outcome State Fault Refusal :=
  act s fun s => State.applyFlags 1024 src s

/-- Serve held packets of a source, at most fuel of them. -/
def State.releaseHeld : Nat → BitVec 16 → State → State
  | 0, _, s => s
  | n + 1, src, s =>
    match s.heldReady s.heldPkts src with
    | none => s
    | some p => State.releaseHeld n src (State.serve { s with heldPkts := s.heldPkts.erase p } p)

/-- HELD_PACKET_RELEASE: packets of a source whose DEP is answered (12 R499). -/
def execHeldPacketRelease (src : BitVec 16) (s : State) : Host.Outcome State Fault Refusal :=
  act s fun s => State.releaseHeld 1024 src s

end Sys2Proof.Machine
end

