-- ==== Sys2Proof/Machine/Security.lean ====
section
/-! DEFINITION. The security engine: firmware updates, owner commands and attestation (17_firmware_security.md R668 to R696,
16_startup_config.md R639). -/

namespace Sys2Proof.Machine

/-! ## The update record and its conditions (17 R675, R694, R696) -/

/-- UPD_STAT.RESULT. -/
def State.updStat (s : State) (r : Nat) : State := s.wr Reg.UPD_STAT 1 0 r

/-- The carve-out address of the record that UPD_REC names. -/
def State.updRec (s : State) : Nat := s.addrOf Reg.UPD_REC_LO Reg.UPD_REC_HI 64

/-- The carve-out address of the image buffer. -/
def State.updSrc (s : State) : Nat := s.addrOf Reg.UPD_SRC_LO Reg.UPD_SRC_HI 64

/-- The length of the image. -/
def State.updLen (s : State) : Nat := s.rd Reg.UPD_LEN 26 0

/-- MOVING or POWER, when one holds. -/
def State.updHalt (s : State) : Nat := if s.moving then 1 else if s.powerBad then 2 else 0

/-- The outcome with which a request is refused, or 0 (R675). -/
def State.updRefusal (s : State) : Nat := if s.updHalt != 0 then s.updHalt else if s.chip.lock then 3 else 0

/-- A request ends: record, counter, event (R675, R696) (DEDUCED in part, log entry 100). -/
def State.updEnd (s : State) (rec_ kind outcome progress faddr abrq : Nat) : State :=
  let s := s.recEnd rec_ 0 0xFF 5 outcome progress faddr abrq
  let s := if 1 ≤ outcome ∧ outcome ≤ 3 then s.bumpSat Reg.UPD_REFUSED else s
  State.post { s with sec := { s.sec with upd := none } } 0x0B01 [kind, outcome]

/-- Take a request: BUSY while an update runs; its record must be good; then `f` runs on the record. -/
def State.updTake (s : State) (resv : Bool) (f : Nat → State → State) : State :=
  if s.sec.upd.isSome then s.updStat 1 else
  let s := s.updStat 0
  let a := s.updRec
  if !(s.carveRecOk a) then s.post 0x0B03 [5, a, 0xFF] else
  let t := s.recTake (physCarve a) a 0 0xFF 5
  if !t.2 then t.1
  else if resv then t.1.updEnd (physCarve a) 0 4 0 0 0
  else f (physCarve a) t.1

/-! ## STAGE (17 R670, R676 to R680) -/

/-- Does only the loader run (R673)? -/
def State.loaderOnly (s : State) : Bool := (Map.get? s.sec.active 1).isNone

/-- The slot that is not written: the running one.  With the loader alone running, a set goes into a slot that is being written, else into
slot A where B holds a complete set, else into B (R673) (DESIGN CHOICE, log entry 161). -/
def State.activeSlot (s : State) : Nat :=
  if !s.loaderOnly then s.rd Reg.SEC_STAT 26 26
  else if s.slotState 1 = 1 then 0
  else if s.slotState 0 = 1 || s.slotState 1 == 2 || s.slotState 1 == 3 then 1
  else 0

/-- The loader half that runs (R673, R676). -/
def State.runHalf (s : State) : Nat :=
  match Map.get? s.sec.active 6 with
  | some m => m.src - 2
  | none => s.rd Reg.SEC_STAT 25 25

/-- PLACE of a kind in the colophon's UPDATE section; no section means SLOT. -/
def State.place (s : State) (k : Nat) : Nat := ((s.start.update.getD (4 + 8 * (k - 1)) 0)).toNat

/-- TARGET of a kind. -/
def State.target (s : State) (k : Nat) : Nat := leNat ((s.start.update.drop (8 + 8 * (k - 1))).take 4)

/-- Does a STAGE of a kind go into the active slot?  With the loader alone running there is none. -/
def State.inplace (s : State) (k : Nat) : Bool := k != 6 && s.place k == 1 && !s.loaderOnly

/-- The slot whose images stand beside a staged one: the active slot, also while the inactive one is yet to be copied from it. -/
def State.besideSlot (s : State) (k : Nat) : Nat :=
  if s.inplace k || (!s.sec.copied && !s.loaderOnly) then s.activeSlot else 1 - s.activeSlot

/-- Check 5: GEN beside the running image, and REQUIRES of the active slot with an in-place image (R678). -/
def State.compatOk (s : State) (r : Reader) : Bool :=
  let k := iKind r
  (match Map.get? s.sec.active k with
   | none => true
   | some m => decide (iGen r ≤ m.gen + 1) && decide (m.gen ≤ iGen r + 1)) &&
  (!(s.inplace k) || setOk fun j => if j = k then r else s.imageAt j s.activeSlot)

/-- Check 7: 0, ORDER or PLACE (R677) (DEDUCED in part, log entry 103). -/
def State.placeCheck (s : State) (k : Nat) : Nat :=
  let early := [1, 2, 3, 4, 5].any fun j =>
    k != 6 && decide (orderOf j < orderOf k) && decide (iVersion (s.imageAt j (s.besideSlot k)) < s.target j)
  let bad :=
    if k = 6 then s.slotState 0 == 1 || s.slotState 1 == 1
    else decide (2 ≤ s.place k) || (s.inplace k && s.slotState (1 - s.activeSlot) != 3)
  if early then 10 else if bad || s.rdb Reg.SEC_STAT 27 then 11 else 0

/-- Checks 1 to 7, which read no body byte: 0, or the outcome of the first that fails (DEDUCED in part, log entry 98). -/
def State.stageHead (s : State) (r : Reader) : Nat :=
  let h := s.headerCheck r
  if h == 4 || decide (s.updLen < 1536 + iBody r) then 4
  else if h != 0 then h
  else if !(s.compatOk r) then 9
  else if !(s.migrateOk r) then 14
  else s.placeCheck (iKind r)

/-- 64 KiB flash sectors of a length (DEDUCED in part, log entry 99). -/
def sectorsOf (n : Nat) : Nat := (n + 65535) / 65536

/-- Is the image buffer in the carve-out? -/
def State.updBuf (s : State) : Bool := s.inCarve s.updSrc s.updLen

/-- Programming of a checked image begins (R679, R680) (DEDUCED in part, log entry 101) (DEDUCED, log entry 102). -/
def State.stageBegin (s : State) (rec_ : Nat) (r : Reader) : State :=
  let k := iKind r
  let act_ := s.activeSlot
  let inp := s.inplace k
  let n := sectorsOf (1536 + iBody r)
  let job (dest copies : Nat) : UpdJob :=
    ⟨1, k, s.updSrc, 1536 + iBody r, dest, slotAt act_ + 0x100000, slotAt (1 - act_) + 0x100000, copies, copies + n, 0, inp, rec_⟩
  let put (s : State) (j : UpdJob) : State := { s with sec := { s.sec with upd := some j } }
  if k = 6 then put s (job (regionAt 6 (1 - s.runHalf)) 0)
  else if inp then put s (job (regionAt k act_) 0)
  else if s.sec.copied || (s.loaderOnly && s.slotState (1 - act_) == 1) then put s (job (regionAt k (1 - act_)) 0)
  else put (s.setSlot (1 - act_) (s.slotSeq act_ + 1) 1 0) (job (regionAt k (1 - act_)) (if s.loaderOnly then 0 else 1408))

/-- STAGE. -/
def State.stage (s : State) (resv : Bool) : State :=
  s.updTake resv fun rec_ s =>
    let s := if s.updBuf then s.seen (physCarve s.updSrc) (min s.updLen 1536) s.updSrc 16 else s
    let r := s.carveAt s.updSrc
    let kind := if s.updBuf then iKind r else 0
    if s.updRefusal != 0 then s.updEnd rec_ kind s.updRefusal 0 0 0
    else if !s.updBuf then s.updEnd rec_ 0 4 0 0 0
    else if s.stageHead r != 0 then s.updEnd rec_ kind (s.stageHead r) 0 0 0
    else
      let s := s.seen (physCarve (s.updSrc + 1536)) (iBody r) (s.updSrc + 1536) 16
      if !(bodyOk r) then s.updEnd rec_ kind 12 0 0 0 else s.stageBegin rec_ r

/-- STAGE. -/
def execStage (s : State) : Host.Outcome State Fault Refusal := act s fun s => s.stage false

/-! ## COMMIT, DISCARD, COLOPHON, ABORT -/

/-- COMMIT: the inactive slot becomes TRIAL (R678, R679). -/
def State.commitUpd (s : State) (resv : Bool) : State :=
  s.updTake resv fun rec_ s =>
    let b := 1 - s.activeSlot
    if s.updRefusal != 0 then s.updEnd rec_ 0 s.updRefusal 0 0 0
    else if s.slotState b != 1 then s.updEnd rec_ 0 11 0 0 0
    else if !(setOk fun k => s.imageAt k b) then s.updEnd rec_ 0 9 0 0 0
    else
      let s := s.setSlot b (s.slotSeq b) 2 0
      State.updEnd { s with sec := { s.sec with copied := false } } rec_ 0 0 0 0 0

/-- COMMIT_UPDATE. -/
def execCommitUpdate (s : State) : Host.Outcome State Fault Refusal := act s fun s => s.commitUpd false

/-- DISCARD: the WRITING slot becomes EMPTY (R679); only the owner lock refuses it (R688). -/
def State.discard (s : State) (resv : Bool) : State :=
  s.updTake resv fun rec_ s =>
    let b := 1 - s.activeSlot
    if s.chip.lock then s.updEnd rec_ 0 3 0 0 0
    else if s.slotState b != 1 then s.updEnd rec_ 0 11 0 0 0
    else
      let s := s.setSlot b (s.slotSeq b) 0 0
      State.updEnd { s with sec := { s.sec with copied := false } } rec_ 0 0 0 0 0

/-- DISCARD. -/
def execDiscard (s : State) : Host.Outcome State Fault Refusal := act s fun s => s.discard false

/-- COLOPHON: the copy that was not selected is erased and programmed (16 R639) (DEDUCED in part, log entry 105). -/
def State.colophonWrite (s : State) (resv : Bool) : State :=
  s.updTake resv fun rec_ s =>
    if s.updRefusal != 0 then s.updEnd rec_ 0 s.updRefusal 0 0 0
    else if 0x100000 < s.updLen || !s.updBuf then s.updEnd rec_ 0 4 0 0 0
    else
      let dest := 0x100000 * (1 - s.rd Reg.CFG_STAT 2 2)
      let s := s.flashErase dest 0x100000
      { s with sec := { s.sec with upd := some ⟨5, 0, s.updSrc, s.updLen, dest, 0, 0, 0, sectorsOf s.updLen, 0, false, rec_⟩ } }

/-- COLOPHON. -/
def execColophon (s : State) : Host.Outcome State Fault Refusal := act s fun s => s.colophonWrite false

/-- Flash address of the first sector of a job that is not programmed. -/
def UpdJob.next (j : UpdJob) : Nat :=
  if j.done < j.copies then j.copyTo + 0x10000 * j.done else j.dest + 0x10000 * (j.done - j.copies)

/-- ABORT: on the record in UPD_REC under 06_dma_pages.md R256. -/
def State.updAbort (s : State) : State :=
  let s := s.updStat 0
  let a := s.updRec
  let r := physCarve a
  if !(s.carveRecOk a) then s else
  let s := s.seen r 64 a 16
  match s.recState r, s.sec.upd with
  | 0, _ => s.store r (recBytes 0 0xFF 5 7 3 0 0 0 s.now s.now)
  | 1, some j => if j.rec_ = r then s.updEnd r j.kind 7 j.done j.next s.now else s
  | _, _ => s

/-- UPDATE_ABORT. -/
def execUpdateAbort (s : State) : Host.Outcome State Fault Refusal := act s State.updAbort

/-! ## Programming (17 R675, R679, R680) -/

/-- What a sector of the image takes from the buffer; a buffer that cannot be corrected stops the update (05_memory.md R216). -/
def State.sectorSource (s : State) (j : UpdJob) : ReadBytes :=
  if j.done < j.copies then (s, .ok [])
  else s.readCarve (j.src + 0x10000 * (j.done - j.copies)) (min 0x10000 (j.len - 0x10000 * (j.done - j.copies)))

/-- The data of an image sector; a colophon's first sector gets SEQ one above the selected SEQ (16 R639). -/
def State.sectorData (s : State) (j : UpdJob) (d : List Byte) (n : Nat) : List Byte :=
  if j.cmd = 5 ∧ n = 0 then (d.take 8 ++ leBytes 8 (s.rd64 Reg.COLO_SEQ_LO Reg.COLO_SEQ_HI + 1)).take d.length ++ d.drop 16 else d

/-- Program the next sector of a job with what the buffer holds for it. -/
def State.sectorPut (s : State) (j : UpdJob) (d : List Byte) : State :=
  if j.done < j.copies then
    { s with mem := Mem.copy s.mem (physFlash (j.copyFrom + 0x10000 * j.done)) 0x10000 (physFlash (j.copyTo + 0x10000 * j.done)) }
  else (s.flashErase j.next 0x10000).flashWrite j.next (s.sectorData j d (j.done - j.copies))

/-- SECTOR_PROGRAMMED: the conditions are checked again before the next sector; a buffer that cannot be corrected ends the update
with FLASH (DESIGN CHOICE, log entry 139). -/
def execSectorProgrammed (ok : Bool) (s : State) : Host.Outcome State Fault Refusal :=
  act s fun s =>
    match s.sec.upd with
    | none => s
    | some j =>
      if j.total ≤ j.done then s
      else if !ok then s.updEnd j.rec_ j.kind 13 j.done j.next 0
      else match s.sectorSource j with
      | (s, .error _) => s.updEnd j.rec_ j.kind 13 j.done j.next 0
      | (s, .ok d) =>
        let s := s.sectorPut j d
        let j : UpdJob := { j with done := j.done + 1 }
        let s : State := { s with sec := { s.sec with upd := some j, copied := s.sec.copied || (decide (0 < j.copies) && j.done == j.copies) } }
        if j.done < j.total ∧ s.updHalt ≠ 0 then s.updEnd j.rec_ j.kind s.updHalt j.done j.next 0 else s

/-- An image written in place waits for its activation point (R680). -/
def State.placed (s : State) (k : Nat) : State :=
  let s : State := { s with sec := { s.sec with pendIn := Map.set s.sec.pendIn k (measure s.activeSlot (s.imageAt k s.activeSlot)) } }
  match k with
  | 2 =>
    let old := (List.range 16).filter fun i => s.sheetState i != 0
    let s : State := { s with sec := { s.sec with scribeOld := old } }
    if old.isEmpty then s.activate 2 else s
  | 4 => { s with sec := { s.sec with linkPending := List.range 10 } }
  | 5 => { s with sec := { s.sec with memDone := [] } }
  | _ => s

/-- UPDATE_COMPLETE: every sector is programmed and read back; a failed read-back names the job's first sector
(DEDUCED in part, log entry 104). -/
def execUpdateComplete (ok : Bool) (s : State) : Host.Outcome State Fault Refusal :=
  act s fun s =>
    match s.sec.upd with
    | none => s
    | some j =>
      if j.done < j.total then s
      else if !ok then s.updEnd j.rec_ j.kind 13 j.done j.dest 0
      else if j.cmd = 5 then
        let r := s.flashAt j.dest
        s.updEnd j.rec_ 0 (if colophonOk r && s.colophonSig r then 0 else 15) j.done 0 0
      else
        let s := s.updEnd j.rec_ j.kind 0 j.done 0 0
        if j.kind = 6 then s.wrb Reg.SEC_STAT 25 (s.loaderHalf == 1)
        else if j.inplace then s.placed j.kind
        else s

/-- PORT_RELOAD: one port at a time, DOWN for at most 50 ms, while 7 logical planes stay UP (R680) (DEDUCED in part, log entry 106). -/
def execPortReload (p : Fin 10) (s : State) : Host.Outcome State Fault Refusal :=
  act s fun s =>
    let p := p.val
    let busy := (List.range 10).any fun q => (s.port q).reload && (s.portState q == 1 || s.portState q == 2 || s.portState q == 5) &&
      (s.port q).downAt.any fun t => decide (s.now < t + 50000000)
    let left := s.upPlanes - if p < 8 && s.portUp p then 1 else 0
    if s.sec.linkPending.head? != some p || busy || left < 7 then s else
    let rest := s.sec.linkPending.drop 1
    let s : State := { s with sec := { s.sec with linkPending := rest }, ports := s.ports.map fun e => (e.1, { e.2 with reload := false }) }
    let s := if s.portState p = 0 ∨ s.portState p = 5 then s else (s.setPort p { s.port p with reload := true }).portGoesDown p
    if rest.isEmpty then s.activate 4 else s

/-- A write of UPD_CMD (R695). -/
def State.updCommand (s : State) (v cls : Nat) : State :=
  if bits v 23 16 != 0xA5 then s.logWrite Reg.UPD_CMD v cls else
  let resv := bits v 27 24 != 0 || bits v 15 0 != 0
  match bits v 31 28 with
  | 1 => s.stage resv
  | 2 => s.commitUpd resv
  | 3 => s.updAbort
  | 4 => s.discard resv
  | 5 => s.colophonWrite resv
  | _ => s.updStat 2

/-! ## Owner commands (17 R685 to R688) -/

/-- Show the fused owner and lock state in SEC_STAT. -/
def State.showOwner (s : State) : State :=
  let o := s.chip.owner
  let krev := (List.range 4).foldl (fun a i => if s.chip.keyRevoked.getD i false then a + 2 ^ i else a) 0
  let s := (s.wrb Reg.SEC_STAT 31 s.chip.lock).wrb Reg.SEC_STAT 30 o.isSome
  (s.wr Reg.SEC_STAT 29 28 (o.getD 0)).wr Reg.SEC_STAT 19 16 krev

/-- The result of a lock or owner command: RESULT and an event. -/
def State.ownerEnd (s : State) (cmd result : Nat) : State := ((s.wr Reg.LOCK_CMD 1 0 result).showOwner).post 0x0B02 [cmd, result]

/-- LOCK_CMD SET (R688). -/
def State.lockSet (s : State) : State :=
  if s.chip.owner.isNone then s.ownerEnd 0 1
  else State.ownerEnd { s with chip := { s.chip with lock := true } } 0 0

/-- The carve-out address of the owner-command token. -/
def State.tokAddr (s : State) : Nat := s.addrOf Reg.LOCK_TOK_LO Reg.LOCK_TOK_HI 64

/-- The owner-command token. -/
def State.token (s : State) : List Byte := s.carveAt s.tokAddr 0 3136

/-- Does the token lie in the carve-out? -/
def State.tokenOk (s : State) : Bool := s.inCarve s.tokAddr 3136

/-- KEY of a token. -/
def tokKey (t : List Byte) : List Byte := (t.drop 1304).take 1793

/-- The digest that the owner signs (R686). -/
def State.ownerDigest (s : State) (t : List Byte) : List Byte :=
  digest32 (t.take 1 ++ leBytes 8 (s.rd64 Reg.SERIAL_LO Reg.SERIAL_HI) ++
    ((List.range 4).flatMap fun i => leBytes 4 (s.word (Reg.NONCE i)).toNat) ++ (t.drop 4).take 16 ++
    (if t.headD 0 = 3 then digest32 (tokKey t) else List.replicate 32 0))

/-- Is a token signed by the owner, or an ENROLL that needs no signature? -/
def State.tokenSigned (s : State) (t : List Byte) : Bool :=
  let n := leNat ((t.drop 20).take 2)
  match s.chip.owner with
  | none => t.headD 0 == 3
  | some _ => decide (1 ≤ n ∧ n ≤ 1280) && s.ownerKey.any fun k => falconVerify k ((t.drop 22).take n) (s.ownerDigest t)

/-- TRANSFER to an owner slot. -/
def State.transfer (s : State) (n : Nat) : State × Nat :=
  match s.chip.owner with
  | none => (s, 1)
  | some i =>
    let c : Chip := { s.chip with ownerRevoked := s.chip.ownerRevoked.set i true }
    if c.owner = some n ∧ n ≠ i then ({ s with chip := c }, 0) else (s, 1)

/-- ENROLL of a key. -/
def State.enroll (s : State) (t : List Byte) : State × Nat :=
  let d := digest32 (tokKey t)
  if d.take 16 != (t.drop 4).take 16 then (s, 2) else
  match (List.range 4).find? fun i => (s.chip.ownerDigest.getD i none).isNone with
  | none => (s, 1)
  | some i =>
    (State.flashWrite { s with chip := { s.chip with ownerDigest := s.chip.ownerDigest.set i (some d) } } (ownerKeyAt i) (tokKey t), 0)

/-- The effect of an owner command and its result. -/
def State.ownerEffect (s : State) (t : List Byte) : State × Nat :=
  let cmd := (t.headD 0).toNat
  let arg := leNat ((t.drop 4).take 16)
  let keylen := leNat ((t.drop 1302).take 2)
  if cmd = 0 ∨ 4 < cmd ∨ keylen ≠ (if cmd = 3 then 1793 else 0) ∨ (s.chip.lock = true ∧ cmd ≠ 1) then (s, 1)
  else if !(s.tokenSigned t) then (s, 2)
  else match cmd with
    | 1 => ({ s with chip := { s.chip with lock := false } }, 0)
    | 2 => s.transfer arg
    | 3 => s.enroll t
    | _ => if arg < 4 then ({ s with chip := { s.chip with keyRevoked := s.chip.keyRevoked.set arg true } }, 0) else (s, 1)

/-- LOCK_CMD OWNER: the command of the token runs, and a new NONCE is drawn whether it passes or fails (R686)
(DEDUCED in part, log entry 107). -/
def State.ownerCommand (s : State) : State :=
  if !s.tokenOk then (s.drawNonce).ownerEnd 0 1 else
  let s := s.seen (physCarve s.tokAddr) 3136 s.tokAddr 16
  let t := s.token
  let r := s.ownerEffect t
  (r.1.drawNonce).ownerEnd (t.headD 0).toNat r.2

/-- A row of one owner command: it acts when the token holds that command. -/
def State.ownerRow (s : State) (cmd : Nat) : State :=
  if s.tokenOk && (s.token.headD 0).toNat == cmd then s.ownerCommand else s

/-- LOCK_SET. -/
def execLockSet (s : State) : Host.Outcome State Fault Refusal := act s State.lockSet
/-- UNLOCK. -/
def execUnlock (s : State) : Host.Outcome State Fault Refusal := act s fun s => s.ownerRow 1
/-- TRANSFER. -/
def execTransfer (s : State) : Host.Outcome State Fault Refusal := act s fun s => s.ownerRow 2
/-- ENROLL. -/
def execEnroll (s : State) : Host.Outcome State Fault Refusal := act s fun s => s.ownerRow 3
/-- REVOKEKEY. -/
def execRevokekey (s : State) : Host.Outcome State Fault Refusal := act s fun s => s.ownerRow 4

/-- A write of LOCK_CMD (R695). -/
def State.lockCommand (s : State) (v cls : Nat) : State :=
  if bits v 23 16 != 0xA5 then s.logWrite Reg.LOCK_CMD v cls
  else match bits v 31 28 with
    | 1 => s.lockSet
    | 2 => s.ownerCommand
    | _ => s

/-! ## Attestation (17 R691 to R693) -/

/-- The carve-out address of the attestation buffer. -/
def State.attBuf (s : State) : Nat := s.addrOf Reg.ATT_BUF_LO Reg.ATT_BUF_HI 64

/-- A measurement entry: the boot ROM's is fixed by manufacture, one of a kind measures the image that is active. -/
def State.attEntry (s : State) (k : Nat) : List Byte :=
  if k = 0 then fit 48 0 s.chip.rom else
  let fc := leBytes 1 (s.chip.floors.getD (k - 1) 0)
  match Map.get? s.sec.active k with
  | none => leBytes 4 k ++ List.replicate 7 0 ++ fc ++ List.replicate 36 0
  | some m => leBytes 1 k ++ leBytes 3 m.src ++ leBytes 4 m.version ++ leBytes 2 m.gen ++ leBytes 1 m.floor ++ fc ++
      List.replicate 4 0 ++ fit 32 0 m.digest

/-- The signed bytes of the report (R692). -/
def State.attBody (s : State) : List Byte :=
  let f (b : Bool) (n : Nat) : Nat := if b then n else 0
  let o := s.chip.owner
  let flags := f s.chip.lock 1 + f o.isNone 2 + f (s.rdb Reg.SEC_STAT 27) 4 + f (s.rdb Reg.SEC_STAT 26) 8 + f (s.rdb Reg.SEC_STAT 25) 16
  leBytes 4 0x54545441 ++ [1, 7, 0, 0] ++ leBytes 8 (s.rd64 Reg.SERIAL_LO Reg.SERIAL_HI) ++ leBytes 2 s.pos ++ leBytes 1 s.nq ++
  leBytes 1 flags ++ leBytes 8 s.now ++ leBytes 2 (o.getD 0xFFFF) ++ [0, 0] ++ s.carveAt s.attBuf 32 32 ++
  leBytes 8 (s.rd64 Reg.COLO_SEQ_LO Reg.COLO_SEQ_HI) ++ fit 32 0 s.start.colDigest ++ fit 16 0 s.start.planDigest ++
  List.replicate 8 0 ++ (List.range 7).flatMap s.attEntry

/-- REPORT (DEDUCED in part, log entry 108). -/
def State.attReport (s : State) : State :=
  if !(s.inCarve s.attBuf 1746) || s.hitsTables s.attBuf 1746 then s.wr Reg.ATT_STAT 1 0 3 else
  let s := s.seen (physCarve (s.attBuf + 32)) 32 (s.attBuf + 32) 16
  let b := s.attBody
  let sig : List Byte := 0x3A :: (Config.signature (digest32 b) s.draws).take 1279
  let s := s.draw.storeCarve s.attBuf (b ++ leBytes 2 sig.length ++ sig)
  s.wr Reg.ATT_STAT 1 0 2

/-- A certificate of the chain: its ROLE, the public key of its issuer, and the serial for the module's own (R690). -/
def State.certBytes (s : State) (k : Nat) : List Byte :=
  let c := s.chip.certs.getD k ⟨0, 0, 0, [], []⟩
  let issuer := s.chip.certs.getD (k - 1) ⟨0, 0, 0, [], []⟩
  let b := leBytes 4 0x54524543 ++ [1, BitVec.ofNat 8 k, 0, 0] ++
    leBytes 8 (if k = 2 then s.rd64 Reg.SERIAL_LO Reg.SERIAL_HI else c.subject.toNat) ++ leBytes 8 c.notBefore.toNat ++
    leBytes 8 c.notAfter.toNat ++ digest32 (fit 1793 0 issuer.pubkey) ++ fit 1793 0 c.pubkey
  let sig : List Byte := 0x3A :: c.sig.take 1279
  fit 3200 0 (b ++ leBytes 2 sig.length ++ sig)

/-- The chain: the product root, the manufacturing intermediate and the module certificate (R690) (DESIGN CHOICE, log entry 4). -/
def State.chain (s : State) : List Byte := [0, 1, 2].flatMap s.certBytes

/-- CHAIN. -/
def State.attChain (s : State) : State :=
  if !(s.inCarve s.attBuf 9600) || s.hitsTables s.attBuf 9600 then s.wr Reg.ATT_STAT 1 0 3 else
  (s.storeCarve s.attBuf s.chain).wr Reg.ATT_STAT 1 0 2

/-- REPORT. -/
def execReport (s : State) : Host.Outcome State Fault Refusal := act s State.attReport
/-- CHAIN. -/
def execChain (s : State) : Host.Outcome State Fault Refusal := act s State.attChain

/-- A write in SEC (R695) (DEDUCED in part, log entry 109). -/
def State.secWrite (s : State) (off v cls : Nat) : State :=
  if off = Reg.UPD_CMD then s.updCommand v cls
  else if off = Reg.LOCK_CMD then s.lockCommand v cls
  else if off = Reg.ATT_CMD then
    match bits v 31 28 with
    | 1 => s.attReport
    | 2 => s.attChain
    | _ => s
  else if Reg.UPD_SRC_LO ≤ off ∧ off ≤ Reg.UPD_REC_HI then s.guardedWrite s.sec.upd.isNone off v cls
  else s.writeReg off v

end Sys2Proof.Machine
end

