-- ==== Sys2Proof/Machine/Registers.lean ====
section
/-! DEFINITION. Control space: every write by block, reads, refused accesses, the proxy channels, and the event log's own registers
(00_scope.md R10 to R12, 10_sheets.md R429, 16_startup_config.md R667, 19_registers.md R722 to R741). -/

namespace Sys2Proof.Machine

/-! ## The event log's registers (R737 to R741) -/

/-- A write of ELOG_CFG: EN is set only for a ring of 8 to 15 that lies, with its watch line, in the carve-out (R737). -/
def State.elogCfgWrite (s : State) (v cls : Nat) : State :=
  if s.rdb Reg.ELOG_CFG 31 then
    let size := s.rd Reg.ELOG_CFG 3 0
    let s := s.wrb Reg.ELOG_CFG 31 (bit v 31)
    if bits v 3 0 = size then s else s.logWrite Reg.ELOG_CFG v cls
  else
    let k := bits v 3 0
    let s := s.wr Reg.ELOG_CFG 3 0 k
    if !(bit v 31) then s else
    let n := 64 * 2 ^ k + 64
    let a := s.addrOf Reg.ELOG_BASE_LO Reg.ELOG_BASE_HI 64
    if 8 ≤ k && s.inCarve a n && !(s.hitsTables a n) then s.wrb Reg.ELOG_CFG 31 true else s.logWrite Reg.ELOG_CFG v cls

/-- A write of ECONS: refused when more than the ring's records would stand unconsumed (R741). -/
def State.econsWrite (s : State) (v cls : Nat) : State :=
  let used := ((s.word Reg.EPROD).toNat + 2 ^ 32 - v % 2 ^ 32) % 2 ^ 32
  if 2 ^ s.rd Reg.ELOG_CFG 3 0 < used then s.logWrite Reg.ECONS v cls else s.wrw Reg.ECONS (BitVec.ofNat 32 v)

/-- A write of 1 to HPOP.POP drops the oldest held record while EN is 0 (R740). -/
def State.hpop (s : State) : State := if s.rdb Reg.ELOG_CFG 31 then s else { s with heldEvents := s.heldEvents.drop 1 }

/-- A write in ERL (DEDUCED in part, log entry 111). -/
def State.erlWrite (s : State) (off v cls : Nat) : State :=
  if off = Reg.ELOG_CFG then s.elogCfgWrite v cls
  else if off = Reg.ELOG_BASE_LO ∨ off = Reg.ELOG_BASE_HI then s.guardedWrite (!(s.rdb Reg.ELOG_CFG 31)) off v cls
  else if off = Reg.ECONS then s.econsWrite v cls
  else if off = Reg.HPOP then (if bit v 0 then s.hpop else s)
  else s.writeReg off v

/-- ELOG_ENABLE: a write of ELOG_CFG. -/
def execElogEnable (v : W32) (s : State) : Host.Outcome State Fault Refusal := act s fun s => s.elogCfgWrite v.toNat 0
/-- ECONS_WRITE. -/
def execEconsWrite (v : W32) (s : State) : Host.Outcome State Fault Refusal := act s fun s => s.econsWrite v.toNat 0
/-- HPOP. -/
def execHpop (s : State) : Host.Outcome State Fault Refusal := act s State.hpop
/-- HELD_RECORD_FLUSH: the ring has room (R738). -/
def execHeldRecordFlush (s : State) : Host.Outcome State Fault Refusal := act s State.flushHeld

/-! ## Writes by block -/

/-- A write in CFG (16 R651, R663, R667). -/
def State.cfgWrite (s : State) (off v cls : Nat) : State :=
  if off = Reg.CSET_LO ∨ off = Reg.CSET_HI then s.guardedWrite (!(s.rdb Reg.CSCTL 31)) off v cls
  else if off = Reg.STREC_LO ∨ off = Reg.STREC_HI then s.guardedWrite s.selftest.isNone off v cls
  else if off = Reg.RST_CMD then s.resetCommand v cls
  else if off = Reg.STCMD then s.stCommand v
  else if off = Reg.CALCTL then
    let old := s.rd Reg.CALCTL 31 28
    let s := s.writeReg off v
    if old &&& bits v 31 28 = old then s else s.logWrite off v cls
  else s.writeReg off v

/-- A write in any block but IDB. -/
def State.blockWrite (s : State) (off v cls : Nat) : State :=
  match off / 0x10000 with
  | 0x1 => s.cfgWrite off v cls
  | 0x2 => s.pwrWrite off v
  | 0x4 => s.shtWrite off v cls
  | 0x5 => s.rolWrite off v cls
  | 0x6 => s.rulWrite off v cls
  | 0x7 => s.dmaWriteReg off v cls
  | 0x8 => s.memWrite off v cls
  | 0x9 =>
    if off < 0x91000 then s.fopsWrite off v cls
    else if off < 0x93000 then s.linkWrite off v cls
    else s.topoWrite off v cls
  | 0xB => s.secWrite off v cls
  | 0xC => s.erlWrite off v cls
  | _ => s.writeReg off v

/-- Is an offset a word of a block (R722)? -/
def inSpace (off : Nat) : Bool := off % 4 == 0 && decide (off < 0xD0000)

/-- An access that is not performed: an error response and an event (R10, R722). -/
def State.refuseAccess (s : State) (off size : Nat) : State := (s.answer 2 []).post 0x0002 [0, off, size]

/-! ## The proxy channels (R725 to R728) -/

/-- May a class write a block: its bit of the class's mask, and never IDB or SEC (R726, R727)? -/
def State.mayWrite (s : State) (cls off : Nat) : Bool :=
  let b := off / 0x10000
  b != 0 && b != 0xB && s.rdb (if cls = 1 then Reg.ACC_MGMT else Reg.ACC_FAB) b

/-- PXY_STAT of a channel. -/
def State.pxyStat (s : State) (k r : Nat) : State := s.wr (Reg.PXY_STAT k) 1 0 r

/-- A write of PXY_ADDR of a channel. -/
def State.proxy (s : State) (k v : Nat) : State :=
  let cls := bits v 31 30
  let off := bits v 19 0
  if cls = 0 ∨ cls = 3 then s.pxyStat k 3
  else if !(inSpace off) then s.pxyStat k 2
  else if bit v 29 then
    if s.mayWrite cls off then (s.blockWrite off (s.word (Reg.PXY_DATA k)).toNat cls).pxyStat k 0
    else (s.post 0x0006 [cls, off]).pxyStat k 1
  else if (copyAt (Reg.NONCE 0) 4 4 off).isSome then (s.wrw (Reg.PXY_DATA k) 0).pxyStat k 0
  else
    let r := s.readReg off false
    (r.1.wrw (Reg.PXY_DATA k) r.2).pxyStat k 0

/-- PROXY_ACCESS. -/
def execProxyAccess (ch : Fin 4) (v : W32) (s : State) : Host.Outcome State Fault Refusal := act s fun s => s.proxy ch.val v.toNat

/-! ## The Quill's accesses -/

/-- A write by a Quill core at an offset. -/
def State.regWrite (s : State) (off v : Nat) : State :=
  if !(inSpace off) then s.refuseAccess off 4
  else if off = Reg.ACC_MGMT ∨ off = Reg.ACC_FAB then s.writeReg off (v % 2 ^ 32 - (v &&& 0x801))
  else match copyAt (Reg.PXY_ADDR 0) 0x10 4 off with
    | some k => s.proxy k v
    | none => s.blockWrite off v 0

/-- A read by a Quill core: the word goes to the core, RC fields are cleared (R11, R429).  A read of QF_ISSUED begins a fence, which
flushes the gathers with a Quill write (11 R457, R458). -/
def State.regRead (s : State) (off : Nat) : State :=
  if !(inSpace off) then s.refuseAccess off 4 else
  let s := if off = Reg.QF_ISSUED then s.flushOf fun x => x.kind == 2 else s
  let r := s.readReg off true
  r.1.answer 0 (leBytes 4 r.2.toNat)

/-- REGISTER_WRITE. -/
def execRegisterWrite (off : BitVec 20) (v : W32) (s : State) : Host.Outcome State Fault Refusal :=
  act s fun s => s.regWrite off.toNat v.toNat
/-- READ_TO_CLEAR. -/
def execReadToClear (off : BitVec 20) (s : State) : Host.Outcome State Fault Refusal := act s fun s => s.regRead off.toNat
/-- COUNTER_LO_READ: a read of a LO word latches its HI word (R429). -/
def execCounterLoRead (off : BitVec 20) (s : State) : Host.Outcome State Fault Refusal := act s fun s => s.regRead off.toNat

/-- CSACCESS: an access that R10 or R722 refuses; one they allow is a register read or write, and has its own row
(DEDUCED in part, log entry 110). -/
def execCsaccess (off : BitVec 32) (size : Nat) (write : Bool) (s : State) : Host.Outcome State Fault Refusal :=
  let _ := write
  act s fun s => if size = 4 && inSpace off.toNat then s else s.refuseAccess off.toNat size

end Sys2Proof.Machine
end

