-- ==== Sys2Proof/Machine/Dispatch.lean ====
section
/-! DEFINITION. The meaning of every command by name: one arm per row of the table. -/

namespace Sys2Proof.Machine

/-- The effect of a command on everything but the queue. -/
def exec (i : Instr) (s : State) : Host.Outcome State Fault Refusal :=
  match i with
  | .powerGood straps feed => Sys2Proof.Machine.execPowerGood straps feed s
  | .strapchg straps => Sys2Proof.Machine.execStrapchg straps s
  | .channelTrainingDone ch ok => Sys2Proof.Machine.execChannelTrainingDone ch ok s
  | .cxlEnumerationDone cap0 cap1 w0 r0 w1 r1 => Sys2Proof.Machine.execCxlEnumerationDone cap0 cap1 w0 r0 w1 r1 s
  | .svcReady => Sys2Proof.Machine.execSvcReady s
  | .moduleReset => Sys2Proof.Machine.execModuleReset s
  | .quillReset => Sys2Proof.Machine.execQuillReset s
  | .registerWrite off v => Sys2Proof.Machine.execRegisterWrite off v s
  | .readToClear off => Sys2Proof.Machine.execReadToClear off s
  | .counterLoRead off => Sys2Proof.Machine.execCounterLoRead off s
  | .csaccess off size write => Sys2Proof.Machine.execCsaccess off size write s
  | .proxyAccess ch v => Sys2Proof.Machine.execProxyAccess ch v s
  | .nop q k lost => Sys2Proof.Machine.execNop q k lost s
  | .matmul q k lost => Sys2Proof.Machine.execMatmul q k lost s
  | .down q k lost => Sys2Proof.Machine.execDown q k lost s
  | .up q k lost => Sys2Proof.Machine.execUp q k lost s
  | .fwd q k lost => Sys2Proof.Machine.execFwd q k lost s
  | .prob q k lost => Sys2Proof.Machine.execProb q k lost s
  | .vecAdd q k lost => Sys2Proof.Machine.execVecAdd q k lost s
  | .vecSub q k lost => Sys2Proof.Machine.execVecSub q k lost s
  | .vecMul q k lost => Sys2Proof.Machine.execVecMul q k lost s
  | .vecFma q k lost => Sys2Proof.Machine.execVecFma q k lost s
  | .vecMin q k lost => Sys2Proof.Machine.execVecMin q k lost s
  | .vecMax q k lost => Sys2Proof.Machine.execVecMax q k lost s
  | .vecAbs q k lost => Sys2Proof.Machine.execVecAbs q k lost s
  | .vecSel q k lost => Sys2Proof.Machine.execVecSel q k lost s
  | .vecScale q k lost => Sys2Proof.Machine.execVecScale q k lost s
  | .vecExp2 q k lost => Sys2Proof.Machine.execVecExp2 q k lost s
  | .vecRcp q k lost => Sys2Proof.Machine.execVecRcp q k lost s
  | .vecRsqrt q k lost => Sys2Proof.Machine.execVecRsqrt q k lost s
  | .rowmul q k lost => Sys2Proof.Machine.execRowmul q k lost s
  | .rowdiv q k lost => Sys2Proof.Machine.execRowdiv q k lost s
  | .cvt q k lost => Sys2Proof.Machine.execCvt q k lost s
  | .redSum q k lost => Sys2Proof.Machine.execRedSum q k lost s
  | .redMax q k lost => Sys2Proof.Machine.execRedMax q k lost s
  | .sumsq q k lost => Sys2Proof.Machine.execSumsq q k lost s
  | .rmsr q k lost => Sys2Proof.Machine.execRmsr q k lost s
  | .quant q k lost => Sys2Proof.Machine.execQuant q k lost s
  | .residualDowncast q k lost => Sys2Proof.Machine.execResidualDowncast q k lost s
  | .kvputKey q k lost => Sys2Proof.Machine.execKvputKey q k lost s
  | .kvputValue q k lost => Sys2Proof.Machine.execKvputValue q k lost s
  | .move q k lost => Sys2Proof.Machine.execMove q k lost s
  | .rule q k lost => Sys2Proof.Machine.execRule q k lost s
  | .return_ q k lost => Sys2Proof.Machine.execReturn q k lost s
  | .waitGe q k => Sys2Proof.Machine.execWaitGe q k s
  | .waitEq q k => Sys2Proof.Machine.execWaitEq q k s
  | .waitNe q k => Sys2Proof.Machine.execWaitNe q k s
  | .step q k => Sys2Proof.Machine.execStep q k s
  | .watchWake line => Sys2Proof.Machine.execWatchWake line s
  | .flagStore q k => Sys2Proof.Machine.execFlagStore q k s
  | .flagAdd q k => Sys2Proof.Machine.execFlagAdd q k s
  | .liveany q k => Sys2Proof.Machine.execLiveany q k s
  | .cmp q k => Sys2Proof.Machine.execCmp q k s
  | .variant q k => Sys2Proof.Machine.execVariant q k s
  | .ret q k lost => Sys2Proof.Machine.execRet q k lost s
  | .end_ q k lost => Sys2Proof.Machine.execEnd q k lost s
  | .strokeOverrun q k => Sys2Proof.Machine.execStrokeOverrun q k s
  | .liveMaskSample q k => Sys2Proof.Machine.execLiveMaskSample q k s
  | .quantumExpiry sh => Sys2Proof.Machine.execQuantumExpiry sh s
  | .yieldExpiry sh => Sys2Proof.Machine.execYieldExpiry sh s
  | .saveComplete sh => Sys2Proof.Machine.execSaveComplete sh s
  | .restoreComplete sh => Sys2Proof.Machine.execRestoreComplete sh s
  | .waitingWake line => Sys2Proof.Machine.execWaitingWake line s
  | .assign sh => Sys2Proof.Machine.execAssign sh s
  | .sheetWakeComplete sh => Sys2Proof.Machine.execSheetWakeComplete sh s
  | .drain sh => Sys2Proof.Machine.execDrain sh s
  | .reopen sh => Sys2Proof.Machine.execReopen sh s
  | .reshape sh => Sys2Proof.Machine.execReshape sh s
  | .sheetRelease sh => Sys2Proof.Machine.execSheetRelease sh s
  | .teardown sh => Sys2Proof.Machine.execTeardown sh s
  | .sheetDrained sh => Sys2Proof.Machine.execSheetDrained sh s
  | .contextStart sh c => Sys2Proof.Machine.execContextStart sh c s
  | .contextStop sh c => Sys2Proof.Machine.execContextStop sh c s
  | .contextReset sh c => Sys2Proof.Machine.execContextReset sh c s
  | .map => Sys2Proof.Machine.execMap s
  | .unmap => Sys2Proof.Machine.execUnmap s
  | .dry => Sys2Proof.Machine.execDry s
  | .undry => Sys2Proof.Machine.execUndry s
  | .pin => Sys2Proof.Machine.execPin s
  | .unpin => Sys2Proof.Machine.execUnpin s
  | .tierMove => Sys2Proof.Machine.execTierMove s
  | .tierAbort => Sys2Proof.Machine.execTierAbort s
  | .moveFlip g => Sys2Proof.Machine.execMoveFlip g s
  | .moveSourceFree g => Sys2Proof.Machine.execMoveSourceFree g s
  | .t1Demotion sh => Sys2Proof.Machine.execT1Demotion sh s
  | .eviction => Sys2Proof.Machine.execEviction s
  | .patrolScrub st g line read => Sys2Proof.Machine.execPatrolScrub st g line read s
  | .mirrorT2Write v => Sys2Proof.Machine.execMirrorT2Write v s
  | .cxlPortDown n => Sys2Proof.Machine.execCxlPortDown n s
  | .quillCoreStore addr data => Sys2Proof.Machine.execQuillCoreStore addr data s
  | .queueEnable qn v => Sys2Proof.Machine.execQueueEnable qn v s
  | .copy op n => Sys2Proof.Machine.execCopy op n s
  | .folio op n => Sys2Proof.Machine.execFolio op n s
  | .walk op n => Sys2Proof.Machine.execWalk op n s
  | .stream op n => Sys2Proof.Machine.execStream op n s
  | .readyWrite qn => Sys2Proof.Machine.execReadyWrite qn s
  | .gloss op => Sys2Proof.Machine.execGloss op s
  | .dmaCancel qn => Sys2Proof.Machine.execDmaCancel qn s
  | .dmaAbort qn => Sys2Proof.Machine.execDmaAbort qn s
  | .descriptorComplete qn => Sys2Proof.Machine.execDescriptorComplete qn s
  | .dispatch p => Sys2Proof.Machine.execDispatch p s
  | .poolans p => Sys2Proof.Machine.execPoolans p s
  | .close p => Sys2Proof.Machine.execClose p s
  | .retrow p => Sys2Proof.Machine.execRetrow p s
  | .rethdr p => Sys2Proof.Machine.execRethdr p s
  | .vsel v => Sys2Proof.Machine.execVsel v s
  | .vtimeout sh r => Sys2Proof.Machine.execVtimeout sh r s
  | .tpend sh => Sys2Proof.Machine.execTpend sh s
  | .mpend sh => Sys2Proof.Machine.execMpend sh s
  | .admitSlip => Sys2Proof.Machine.execAdmit s
  | .prefilling => Sys2Proof.Machine.execPrefilling s
  | .activate => Sys2Proof.Machine.execActivate s
  | .shipping => Sys2Proof.Machine.execShipping s
  | .landed => Sys2Proof.Machine.execLanded s
  | .handed => Sys2Proof.Machine.execHanded s
  | .retry => Sys2Proof.Machine.execRetry s
  | .pause => Sys2Proof.Machine.execPause s
  | .resume => Sys2Proof.Machine.execResume s
  | .cancel => Sys2Proof.Machine.execCancel s
  | .fail => Sys2Proof.Machine.execFail s
  | .release => Sys2Proof.Machine.execRelease s
  | .mset => Sys2Proof.Machine.execMset s
  | .mfree => Sys2Proof.Machine.execMfree s
  | .headerAction j => Sys2Proof.Machine.execHeaderAction j s
  | .stepCommit j => Sys2Proof.Machine.execStepCommit j s
  | .deadlineSweep j => Sys2Proof.Machine.execDeadlineSweep j s
  | .slip p => Sys2Proof.Machine.execSlip p s
  | .entries p => Sys2Proof.Machine.execEntries p s
  | .post p => Sys2Proof.Machine.execPost p s
  | .mask p => Sys2Proof.Machine.execMask p s
  | .header p => Sys2Proof.Machine.execHeader p s
  | .commit p => Sys2Proof.Machine.execCommit p s
  | .maskword p => Sys2Proof.Machine.execMaskword p s
  | .submit j msg plan adopt => Sys2Proof.Machine.execSubmit j msg plan adopt s
  | .clientCancel j msg => Sys2Proof.Machine.execClientCancel j msg s
  | .draft j msg => Sys2Proof.Machine.execDraft j msg s
  | .tokens j => Sys2Proof.Machine.execTokens j s
  | .windowOpen w => Sys2Proof.Machine.execWindowOpen w s
  | .windowClose w => Sys2Proof.Machine.execWindowClose w s
  | .closeComplete => Sys2Proof.Machine.execCloseComplete s
  | .reachMark pos => Sys2Proof.Machine.execReachMark pos s
  | .reachClear pos => Sys2Proof.Machine.execReachClear pos s
  | .tlostTimeout pos => Sys2Proof.Machine.execTlostTimeout pos s
  | .load8 p => Sys2Proof.Machine.execLoad8 p s
  | .load64 p => Sys2Proof.Machine.execLoad64 p s
  | .bulkr p => Sys2Proof.Machine.execBulkr p s
  | .store8 p => Sys2Proof.Machine.execStore8 p s
  | .store64 p => Sys2Proof.Machine.execStore64 p s
  | .bulkw p => Sys2Proof.Machine.execBulkw p s
  | .atomicAdd p => Sys2Proof.Machine.execAtomicAdd p s
  | .atomicMin p => Sys2Proof.Machine.execAtomicMin p s
  | .atomicMax p => Sys2Proof.Machine.execAtomicMax p s
  | .swap p => Sys2Proof.Machine.execSwap p s
  | .cas p => Sys2Proof.Machine.execCas p s
  | .flaggedStore p => Sys2Proof.Machine.execFlaggedStore p s
  | .flaggedAdd p => Sys2Proof.Machine.execFlaggedAdd p s
  | .flagApply src => Sys2Proof.Machine.execFlagApply src s
  | .heldPacketRelease src => Sys2Proof.Machine.execHeldPacketRelease src s
  | .rdata p => Sys2Proof.Machine.execRdata p s
  | .ack p => Sys2Proof.Machine.execAck p s
  | .refuse p => Sys2Proof.Machine.execRefuse p s
  | .refuseResend pos => Sys2Proof.Machine.execRefuseResend pos s
  | .e2eResend pos => Sys2Proof.Machine.execE2eResend pos s
  | .gatherTimeout pos => Sys2Proof.Machine.execGatherTimeout pos s
  | .quillLoad aper line => Sys2Proof.Machine.execQuillLoad aper line s
  | .quillStore aper be data => Sys2Proof.Machine.execQuillStore aper be data s
  | .quillAtomic aper op a b => Sys2Proof.Machine.execQuillAtomic aper op a b s
  | .bulkRead => Sys2Proof.Machine.execBulkRead s
  | .bulkWrite => Sys2Proof.Machine.execBulkWrite s
  | .bulkAbort => Sys2Proof.Machine.execBulkAbort s
  | .bulkComplete p => Sys2Proof.Machine.execBulkComplete p s
  | .flitReceive p flit corr unc => Sys2Proof.Machine.execFlitReceive p flit corr unc s
  | .replayTimeout p => Sys2Proof.Machine.execReplayTimeout p s
  | .forward p pkt => Sys2Proof.Machine.execForward p pkt s
  | .laneFail p lane => Sys2Proof.Machine.execLaneFail p lane s
  | .portDown p => Sys2Proof.Machine.execPortDown p s
  | .portDownResend p => Sys2Proof.Machine.execPortDownResend p s
  | .flitLock p lanes => Sys2Proof.Machine.execFlitLock p lanes s
  | .version p imm => Sys2Proof.Machine.execVersion p imm s
  | .width p imm => Sys2Proof.Machine.execWidth p imm s
  | .borrow p imm => Sys2Proof.Machine.execBorrow p imm s
  | .unreach p imm => Sys2Proof.Machine.execUnreach p imm s
  | .reachable p imm => Sys2Proof.Machine.execReachable p imm s
  | .ringmap p imm => Sys2Proof.Machine.execRingmap p imm s
  | .ringmapTimeout pos => Sys2Proof.Machine.execRingmapTimeout pos s
  | .ident p frame => Sys2Proof.Machine.execIdent p frame s
  | .identTimer p => Sys2Proof.Machine.execIdentTimer p s
  | .absentDeadline => Sys2Proof.Machine.execAbsentDeadline s
  | .cableUsageWrite p ok => Sys2Proof.Machine.execCableUsageWrite p ok s
  | .syncInterval => Sys2Proof.Machine.execSyncInterval s
  | .sync p src gr => Sys2Proof.Machine.execSync p src gr s
  | .reply p gr t4 => Sys2Proof.Machine.execReply p gr t4 s
  | .phaseEnd => Sys2Proof.Machine.execPhaseEnd s
  | .refloss => Sys2Proof.Machine.execRefloss s
  | .refclkReturn => Sys2Proof.Machine.execRefclkReturn s
  | .epochBoundary m => Sys2Proof.Machine.execEpochBoundary m s
  | .phaseCopyComplete => Sys2Proof.Machine.execPhaseCopyComplete s
  | .phaseBoundary q ns obs fx16 => Sys2Proof.Machine.execPhaseBoundary q ns obs fx16 s
  | .pointRaiseSettled q => Sys2Proof.Machine.execPointRaiseSettled q s
  | .intent p gr hops => Sys2Proof.Machine.execIntent p gr hops s
  | .tray p gr hops => Sys2Proof.Machine.execTray p gr hops s
  | .trayLeadTimer => Sys2Proof.Machine.execTrayLeadTimer s
  | .baselineDeadline => Sys2Proof.Machine.execBaselineDeadline s
  | .droopTrip q det => Sys2Proof.Machine.execDroopTrip q det s
  | .droopRelease q => Sys2Proof.Machine.execDroopRelease q s
  | .clamp r => Sys2Proof.Machine.execClamp r s
  | .clampRelease r => Sys2Proof.Machine.execClampRelease r s
  | .thermalSample quires groups => Sys2Proof.Machine.execThermalSample quires groups s
  | .railSample r die mv us => Sys2Proof.Machine.execRailSample r die mv us s
  | .inputLoss => Sys2Proof.Machine.execInputLoss s
  | .overvoltage => Sys2Proof.Machine.execOvervoltage s
  | .latchOpen => Sys2Proof.Machine.execLatchOpen s
  | .mateDetectOpen m => Sys2Proof.Machine.execMateDetectOpen m s
  | .battLow low => Sys2Proof.Machine.execBattLow low s
  | .mirrorStepTrigger j => Sys2Proof.Machine.execMirrorStepTrigger j s
  | .mirrorStepComplete j => Sys2Proof.Machine.execMirrorStepComplete j s
  | .mirrorBatchTrigger j => Sys2Proof.Machine.execMirrorBatchTrigger j s
  | .resync => Sys2Proof.Machine.execResync s
  | .resyncComplete => Sys2Proof.Machine.execResyncComplete s
  | .cspend => Sys2Proof.Machine.execCspend s
  | .rtpend => Sys2Proof.Machine.execRtpend s
  | .htpend j => Sys2Proof.Machine.execHtpend j s
  | .ptpend => Sys2Proof.Machine.execPtpend s
  | .recipeTurnRequest mask => Sys2Proof.Machine.execRecipeTurnRequest mask s
  | .laneRecalibration p lane => Sys2Proof.Machine.execLaneRecalibration p lane s
  | .droopCalibration q det => Sys2Proof.Machine.execDroopCalibration q det s
  | .thermalCalibration g n => Sys2Proof.Machine.execThermalCalibration g n s
  | .channelRetrain ch => Sys2Proof.Machine.execChannelRetrain ch s
  | .calibrationComplete ok => Sys2Proof.Machine.execCalibrationComplete ok s
  | .selftestStart w => Sys2Proof.Machine.execSelftestStart w s
  | .selftestDeferredStart => Sys2Proof.Machine.execSelftestDeferredStart s
  | .selftestAbort => Sys2Proof.Machine.execSelftestAbort s
  | .selftestComplete faults => Sys2Proof.Machine.execSelftestComplete faults s
  | .stage => Sys2Proof.Machine.execStage s
  | .commitUpdate => Sys2Proof.Machine.execCommitUpdate s
  | .updateAbort => Sys2Proof.Machine.execUpdateAbort s
  | .discard => Sys2Proof.Machine.execDiscard s
  | .colophon => Sys2Proof.Machine.execColophon s
  | .sectorProgrammed ok => Sys2Proof.Machine.execSectorProgrammed ok s
  | .updateComplete ok => Sys2Proof.Machine.execUpdateComplete ok s
  | .portReload p => Sys2Proof.Machine.execPortReload p s
  | .lockSet => Sys2Proof.Machine.execLockSet s
  | .unlock => Sys2Proof.Machine.execUnlock s
  | .transfer => Sys2Proof.Machine.execTransfer s
  | .enroll => Sys2Proof.Machine.execEnroll s
  | .revokekey => Sys2Proof.Machine.execRevokekey s
  | .report => Sys2Proof.Machine.execReport s
  | .chain => Sys2Proof.Machine.execChain s
  | .elogEnable v => Sys2Proof.Machine.execElogEnable v s
  | .econsWrite v => Sys2Proof.Machine.execEconsWrite v s
  | .hpop => Sys2Proof.Machine.execHpop s
  | .heldRecordFlush => Sys2Proof.Machine.execHeldRecordFlush s
  | .inputVoltageChange mv => Sys2Proof.Machine.execInputVoltageChange mv s
  | .powerLoss => Sys2Proof.Machine.execPowerLoss s
  | .latchClose => Sys2Proof.Machine.execLatchClose s
  | .mateDetectClose m => Sys2Proof.Machine.execMateDetectClose m s
  | .farEndDetect e => Sys2Proof.Machine.execFarEndDetect e s
  | .ductusReloadDone => Sys2Proof.Machine.execDuctusReloadDone s
  | .quillResetComplete => Sys2Proof.Machine.execQuillResetComplete s
  | .imagesLoaded ok => Sys2Proof.Machine.execImagesLoaded ok s

end Sys2Proof.Machine
end

