-- ==== Sys2Proof/Machine/Step.lean ====
section
/-! DEFINITION. The step of the module: the command at the front of its queue, or one tick of the timebase on an empty queue. -/

namespace Sys2Proof.Machine

/-- Take the command at the front of the queue and run it with the queue's rest; on an empty queue the
timebase counts one tick (15_clocks_time.md R622; log entry 2) (DESIGN CHOICE, log entry 8). -/
def step (s : State) : Host.Outcome State Fault Refusal :=
  match s.pending with
  | [] => .next s.tick
  | c :: rest => exec c { s with pending := rest }

/-- The state with the command that a word spells at the front of its queue (DEDUCED in part, log entry 127). -/
def State.withFetchWord (s : State) (nbits w : Nat) : State :=
  match decodeTableWord nbits w with
  | none => s
  | some c => { s with pending := c :: s.pending }

end Sys2Proof.Machine
end

