-- ==== Sys2Proof/WellFormed.lean ====
section
/-! DEFINITION. Which commands are well formed: the operand lists have the lengths that the rules of a granule, a flit, a line,
a frame and a packet give them, and a packet row's packet has the row's opcode (DESIGN CHOICE, log entry 13).  A register offset, an address or
a value is well formed whatever it is: the rules say what each does. -/

namespace Sys2Proof

open Sys2Proof.Machine (packetOk packetOp)

/-- The check of a command's operands. -/
def Instr.wellFormed : Instr → Bool
  | .load8 p => packetOk p 0x01
  | .load64 p => packetOk p 0x02
  | .bulkr p => packetOk p 0x03
  | .store8 p => packetOk p 0x08
  | .store64 p => packetOk p 0x09
  | .bulkw p => packetOk p 0x0A
  | .atomicAdd p => packetOp p 0x0B 0
  | .atomicMin p => packetOp p 0x0B 1
  | .atomicMax p => packetOp p 0x0B 2
  | .swap p => packetOp p 0x0B 3
  | .cas p => packetOp p 0x0B 4
  | .flaggedStore p => packetOp p 0x0C 0
  | .flaggedAdd p => packetOp p 0x0C 1
  | .rdata p => packetOk p 0x10
  | .ack p => packetOk p 0x11
  | .refuse p => packetOk p 0x12
  | .bulkComplete p => packetOk p 0x10 || packetOk p 0x11
  | .dispatch p => packetOk p 0x20
  | .poolans p => packetOk p 0x21
  | .close p => packetOk p 0x22
  | .retrow p => packetOk p 0x23
  | .rethdr p => packetOk p 0x24
  | .slip p => packetOp p 0x30 0
  | .entries p => packetOp p 0x30 1
  | .post p => packetOp p 0x30 2
  | .mask p => packetOp p 0x30 3
  | .header p => packetOp p 0x31 0
  | .commit p => packetOp p 0x31 1
  | .maskword p => packetOp p 0x31 2
  | .quillStore _ _ data => data.length == 8 || data.length == 64
  | .flitReceive _ flit _ _ => flit.length == 256
  | .ident _ frame => frame.length == 64
  | .sync _ _ gr => gr.length == 64
  | .reply _ gr _ => gr.length == 64
  | .intent _ gr _ => gr.length == 64
  | .tray _ gr _ => gr.length == 64
  | .thermalSample quires groups => quires.length == 64 && groups.length == 16
  | .farEndDetect e => e.cable.isEmpty || e.cable.length == 192
  | .powerGood .. | .strapchg .. | .channelTrainingDone .. | .cxlEnumerationDone .. | .svcReady .. | .moduleReset ..
  | .quillReset .. | .registerWrite .. | .readToClear .. | .counterLoRead .. | .csaccess .. | .proxyAccess .. | .nop ..
  | .matmul .. | .down .. | .up .. | .fwd .. | .prob .. | .vecAdd .. | .vecSub .. | .vecMul .. | .vecFma ..
  | .vecMin .. | .vecMax .. | .vecAbs .. | .vecSel .. | .vecScale .. | .vecExp2 .. | .vecRcp .. | .vecRsqrt ..
  | .rowmul .. | .rowdiv .. | .cvt .. | .redSum .. | .redMax .. | .sumsq .. | .rmsr .. | .quant ..
  | .residualDowncast .. | .kvputKey .. | .kvputValue .. | .move .. | .rule .. | .return_ .. | .waitGe .. | .waitEq ..
  | .waitNe .. | .step .. | .watchWake .. | .flagStore .. | .flagAdd .. | .liveany .. | .cmp .. | .variant .. | .ret ..
  | .end_ .. | .strokeOverrun .. | .liveMaskSample .. | .quantumExpiry .. | .yieldExpiry .. | .saveComplete ..
  | .restoreComplete .. | .waitingWake .. | .assign .. | .sheetWakeComplete .. | .drain .. | .reopen .. | .reshape ..
  | .sheetRelease .. | .teardown .. | .sheetDrained .. | .contextStart .. | .contextStop .. | .contextReset ..
  | .map .. | .unmap .. | .dry .. | .undry .. | .pin .. | .unpin .. | .tierMove .. | .tierAbort .. | .moveFlip ..
  | .moveSourceFree .. | .t1Demotion .. | .eviction .. | .patrolScrub .. | .mirrorT2Write .. | .cxlPortDown ..
  | .quillCoreStore .. | .queueEnable .. | .copy .. | .folio .. | .walk .. | .stream .. | .readyWrite .. | .gloss ..
  | .dmaCancel .. | .dmaAbort .. | .descriptorComplete .. | .vsel .. | .vtimeout .. | .tpend .. | .mpend .. | .admitSlip ..
  | .prefilling .. | .activate .. | .shipping .. | .landed .. | .handed .. | .retry .. | .pause .. | .resume ..
  | .cancel .. | .fail .. | .release .. | .mset .. | .mfree .. | .headerAction .. | .stepCommit .. | .deadlineSweep ..
  | .submit .. | .clientCancel .. | .draft .. | .tokens .. | .windowOpen .. | .windowClose .. | .closeComplete ..
  | .reachMark .. | .reachClear .. | .tlostTimeout .. | .flagApply .. | .heldPacketRelease .. | .refuseResend ..
  | .e2eResend .. | .gatherTimeout .. | .quillLoad .. | .quillAtomic .. | .bulkRead .. | .bulkWrite .. | .bulkAbort ..
  | .replayTimeout .. | .forward .. | .laneFail .. | .portDown .. | .portDownResend .. | .flitLock .. | .version ..
  | .width .. | .borrow .. | .unreach .. | .reachable .. | .ringmap .. | .ringmapTimeout .. | .identTimer ..
  | .absentDeadline .. | .cableUsageWrite .. | .syncInterval .. | .phaseEnd .. | .refloss .. | .refclkReturn ..
  | .epochBoundary .. | .phaseCopyComplete .. | .phaseBoundary .. | .pointRaiseSettled .. | .trayLeadTimer ..
  | .baselineDeadline .. | .droopTrip .. | .droopRelease .. | .clamp .. | .clampRelease .. | .railSample ..
  | .inputLoss .. | .overvoltage .. | .latchOpen .. | .mateDetectOpen .. | .battLow .. | .mirrorStepTrigger ..
  | .mirrorStepComplete .. | .mirrorBatchTrigger .. | .resync .. | .resyncComplete .. | .cspend .. | .rtpend ..
  | .htpend .. | .ptpend .. | .recipeTurnRequest .. | .laneRecalibration .. | .droopCalibration ..
  | .thermalCalibration .. | .channelRetrain .. | .calibrationComplete .. | .selftestStart ..
  | .selftestDeferredStart .. | .selftestAbort .. | .selftestComplete .. | .stage .. | .commitUpdate ..
  | .updateAbort .. | .discard .. | .colophon .. | .sectorProgrammed .. | .updateComplete .. | .portReload ..
  | .lockSet .. | .unlock .. | .transfer .. | .enroll .. | .revokekey .. | .report .. | .chain .. | .elogEnable ..
  | .econsWrite .. | .hpop .. | .heldRecordFlush .. | .inputVoltageChange .. | .powerLoss .. | .latchClose ..
  | .mateDetectClose .. | .ductusReloadDone .. | .quillResetComplete .. | .imagesLoaded .. => true

end Sys2Proof
end

