-- ==== Sys2Proof/Safety.lean ====
section
/-! DEFINITION. What a safe run is, in the terms the claims use: no command stops the module, and the memory stays in its
canonical form. -/

namespace Sys2Proof.Machine

/-- A command completes from a state: exec answers a next state. -/
def Completes (c : Instr) (s : State) : Prop := ∃ t, exec c s = .next t

/-- The module runs n steps without a stop and ends in `t`. -/
def Runs : Nat → State → State → Prop
  | 0, s, t => s = t
  | n + 1, s, t => ∃ u, step s = .next u ∧ Runs n u t

/-- Every waiting command is well formed. -/
def QueueOk (s : State) : Prop := ∀ c ∈ s.pending, c.wellFormed = true

/-- The invariant of the whole module: its memory is in canonical form. -/
def Inv (s : State) : Prop := Memory.wf s.mem = true

/-! ## Frames -/

/-- t differs from s in control space alone, and there in the listed registers alone. -/
def Only (regs : List Nat) (s t : State) : Prop := t = { s with csr := t.csr } ∧ ∀ o, o ∉ regs → t.word o = s.word o

/-- The bytes of a physical range. -/
def Within (a n x : Nat) : Prop := a ≤ x ∧ x < a + n

/-- The registers that taking an event may change. -/
def logRegs : List Nat :=
  [Reg.EPROD, Reg.ESEQ, Reg.ELOST, Reg.ESTAT, Reg.FLOG_HEAD, Reg.QW_PEND_LO, Reg.QW_PEND_HI]

/-- Is a physical address in the event ring, its watch line, or the flash log? -/
def inLog (s : State) (a : Nat) : Prop :=
  (physCarve (s.addrOf Reg.ELOG_BASE_LO Reg.ELOG_BASE_HI 64) ≤ a ∧
    a < physCarve (s.addrOf Reg.ELOG_BASE_LO Reg.ELOG_BASE_HI 64) + 64 * 2 ^ s.rd Reg.ELOG_CFG 3 0 + 8) ∨ physFlash 0 ≤ a

/-- t differs from s at most in what taking events changes. -/
structure LogOnly (s t : State) : Prop where
  rest : t = { s with csr := t.csr, mem := t.mem, upsets := t.upsets, gates := t.gates, heldEvents := t.heldEvents, dropCount := t.dropCount, dropSev := t.dropSev }
  regs : ∀ o, o ∉ logRegs → t.word o = s.word o
  mem : ∀ a, ¬ inLog s a → Mem.read1 t.mem a = Mem.read1 s.mem a

/-! ## What the claims name -/

/-- No two fields of a register overlap, and every field lies in its word. -/
def fieldsApart : List Field → Prop
  | [] => True
  | f :: rest => f.lo ≤ f.hi ∧ f.hi < 32 ∧ (∀ g ∈ rest, g.hi < f.lo ∨ f.hi < g.lo) ∧ fieldsApart rest

/-- A scribe stands at a stroke: `u` is the state after the fetch, which met no fault, and the stroke is of the opcode and
sub-operation named and breaks no check. -/
def StandsAt (s : State) (q k op : Nat) (sub : Nat → Bool) (r : Run) (u : State) : Prop :=
  ∃ i c, s.runsOn q = some (i, c) ∧
    (State.seek i k scriptFuel (s.scribe (8 * q + k)).pc s).cause = 0 ∧
    u = (State.seek i k scriptFuel (s.scribe (8 * q + k)).pc s).st ∧
    r = ⟨i, c, q, k, (State.seek i k scriptFuel (s.scribe (8 * q + k)).pc s).pc,
      (State.seek i k scriptFuel (s.scribe (8 * q + k)).pc s).d⟩ ∧
    opDefined (kOp r.d) (kSub r.d) = true ∧ kOp r.d = op ∧ sub (kSub r.d) = true ∧ fetchCause k r.d = 0

/-- As `StandsAt`, and the stroke is not skipped under its predicate. -/
def MayRun (s : State) (q k op : Nat) (sub : Nat → Bool) (r : Run) (u : State) : Prop :=
  StandsAt s q k op sub r u ∧ u.skipped q r.d = false

/-- A command on a scribe that carries the cycles lost to conflicts. -/
abbrev StrokeCmd := Fin 64 → Fin 8 → Nat → Instr

/-- The VEC commands with their sub-operation and what each computes from its elements a, b, c (04_strokes.md R145). -/
def vecRows : List (StrokeCmd × Nat × (W32 → W32 → W32 → W32 → W32)) :=
  [(.vecAdd, 0, fun _ a b _ => fadd a b), (.vecSub, 1, fun _ a b _ => fsub a b), (.vecMul, 2, fun _ a b _ => fmul a b),
   (.vecFma, 3, fun _ a b c => ffma a b c), (.vecMin, 4, fun _ a b _ => fmin a b), (.vecMax, 5, fun _ a b _ => fmax a b),
   (.vecAbs, 6, fun _ a _ _ => fabs a), (.vecSel, 7, fun _ a b c => (Fp.of32 (if (Fp.of32 c).isZero then b else a)).to32),
   (.vecScale, 8, fun f a _ _ => fmul a f), (.vecExp2, 9, fun _ a _ _ => fexp2 a), (.vecRcp, 10, fun _ a _ _ => frcp a),
   (.vecRsqrt, 11, fun _ a _ _ => frsqrt a), (.rowmul, 12, fun _ a b _ => fmul a b),
   (.rowdiv, 13, fun _ a b _ => fmul a (frcp b)), (.cvt, 14, fun _ a _ _ => a)]

/-- The commands that compute a stroke, with its opcode, sub-operation and the operands it reads and writes. -/
def computeRows : List (StrokeCmd × Nat × (Nat → Bool) × (Run → State → Got Done)) :=
  [(.matmul, 0x01, fun _ => true, matmulStroke),
   (.down, 0x02, (· == 0), glossStroke), (.up, 0x02, (· == 1), glossStroke), (.fwd, 0x03, (· == 0), fwdStroke),
   (.prob, 0x03, (· == 1), probStroke), (.redSum, 0x05, (· == 0), redStroke), (.redMax, 0x05, (· == 1), redStroke),
   (.sumsq, 0x05, (· == 2), redStroke), (.rmsr, 0x05, (· == 3), redStroke), (.quant, 0x06, (· == 0), quantStroke none),
   (.residualDowncast, 0x06, (· == 1), quantStroke (some 4)), (.kvputKey, 0x07, (· == 0), kvputStroke 0),
   (.kvputValue, 0x07, (· == 1), kvputStroke 1), (.move, 0x08, fun _ => true, moveStroke),
   (.rule, 0x09, fun _ => true, ruleStroke), (.return_, 0x0A, fun _ => true, returnStroke)] ++
  vecRows.map fun x => (x.1, 0x04, (· == x.2.1), vecStroke)

/-- The wait strokes: WAIT_GE, WAIT_EQ, WAIT_NE and STEP, with the condition each waits for on the word `v` (R99, R152, R153). -/
def waitRows : List ((Fin 64 → Fin 8 → Instr) × Nat × (Nat → Nat → W64 → Prop)) :=
  [(.waitGe, 0, fun v ref _ => ref ≤ v), (.waitEq, 1, fun v ref _ => v = ref), (.waitNe, 2, fun v ref _ => v ≠ ref),
   (.step, 3, fun v _ last => v = (last.toNat + 1) % 2 ^ 64)]

/-- The commands of strokes, with the opcode and the sub-operations each is for (04_strokes.md R113, R135 to R163). -/
def strokeRows : List (StrokeCmd × Nat × (Nat → Bool)) :=
  computeRows.map (fun x => (x.1, x.2.1, x.2.2.1)) ++ waitRows.map (fun x => (fun q k _ => x.1 q k, 0x10, (· == x.2.1))) ++
  [(.nop, 0x00, fun _ => true), (fun q k _ => .flagStore q k, 0x11, (· == 0)), (fun q k _ => .flagAdd q k, 0x11, (· == 1)),
   (fun q k _ => .liveany q k, 0x12, (· == 0)), (fun q k _ => .cmp q k, 0x12, (· == 1)),
   (fun q k _ => .variant q k, 0x18, fun _ => true), (.ret, 0x19, fun _ => true), (.end_, 0x1F, fun _ => true)]

/-- The tier commands with their OP (05_memory.md R183). -/
def tierRows : List (Instr × Nat) :=
  [(.map, 1), (.unmap, 2), (.dry, 3), (.undry, 4), (.pin, 5), (.unpin, 6), (.tierMove, 7)]

/-- What the migrator finds at the head of its command ring (R182). -/
def tierHead (s : State) : Head :=
  let base := s.addrOf Reg.MCQ_BASE_LO Reg.MCQ_BASE_HI 64
  s.ringHead 128 0x0805 base 128 (s.word Reg.MCQ_CONS).toNat (base + 32 * ((s.word Reg.MCQ_CONS).toNat % 256)) 32

/-- The state in which an operation whose record is at `crec` starts: the count of its ring `cons` goes on, the record is read, and it is
written RUNNING (06 R253). -/
def takenAs (h : State) (cons crec tag kind : Nat) : State :=
  ((h.bump cons).seen (physCarve crec) 64 crec 16).recRun (physCarve crec) tag 0xFF kind

/-- An operation of a ring read in state `h` can start: its record is good and IDLE (06 R251, R253). -/
def CanTake (h : State) (cons crec : Nat) : Prop :=
  (h.bump cons).carveRecOk crec = true ∧ ((h.bump cons).seen (physCarve crec) 64 crec 16).recState (physCarve crec) = 0

/-- The migrator's ring holds the entry `e` next, read in state `h`, and it can be taken: it is well formed and its record is IDLE
(R182, R183, 06 R253). -/
def TierReady (s h : State) (e : Nat) : Prop :=
  s.powered = true ∧ tierHead s = ⟨h, some e⟩ ∧ CanTake h Reg.MCQ_CONS (bits e 255 208) ∧ tierBad e = false

/-- The ring of every enabled queue that has not stopped lies where it must (06 R222, R748). -/
def RingsKept (s : State) : Prop :=
  ∀ qn, qn < 128 → s.rdb (Reg.QCFG qn) 31 = true → s.rdb (Reg.QCFG qn) 20 = false → s.qRingOk qn = true

/-- No error is held against any line: no pattern, no failing transfer, no entry that could not be read. -/
def Sound (s : State) : Prop := s.upsets = [] ∧ s.failing = [] ∧ s.badEntries = []

/-- The command an entry spells (R183). -/
def tierCmdOf (e : Nat) : TierCmd :=
  ⟨bits e 7 0, bits e 255 208, bits e 75 72, bits e 105 80, bits e 127 112 + 1, 0, bits e 71 70, bit e 69, bits e 68 67, []⟩

/-- Two entries with the same sheet, move and place. -/
def SamePlace (e f : Nat) : Prop :=
  entSheet e = entSheet f ∧ entMoving e = entMoving f ∧ entTier e = entTier f ∧ entLoc e = entLoc f ∧ entValid e = true

/-- The rows of one packet that asks the module for something: requests, write-class operations, routing and Roll messages. -/
def servedRows : List (Packet → Instr) :=
  [.load8, .load64, .bulkr, .store8, .store64, .bulkw, .atomicAdd, .atomicMin, .atomicMax, .swap, .cas, .flaggedStore,
   .flaggedAdd, .dispatch, .poolans, .close, .retrow, .rethdr, .slip, .entries, .post, .mask, .header, .commit, .maskword]

/-- A packet is for this module, undamaged and of a known version (R503, R519). -/
def ForUs (s : State) (p : Packet) : Prop := p.dst.toNat = s.pos ∧ p.badGranule = false ∧ p.pver.toNat ≤ 1

/-- An operation may be served at once: nothing of its source is held, it names no operation to wait for, and a write-class one
is new within its pair's window, with every lower number answered when it is of the flag class (R451, R498 to R501). -/
def MayServeNow (s : State) (p : Packet) : Prop :=
  s.heldFlags = [] ∧ s.heldPkts = [] ∧ s.closing = none ∧ p.dep = none ∧
  (isRequest p.opc.toNat = false → (s.peer p.src.toNat).ahead p.pseq.toNat < 2048 ∧
    Map.get? (s.peer p.src.toNat).answered p.pseq.toNat = none ∧
    (isFlag p.opc.toNat = true → (s.peer p.src.toNat).low = p.pseq.toNat))

/-- The atomic rows with the value each stores from the old one and its operands (R447). -/
def atomicRows : List ((Packet → Instr) × (Nat → Nat → Nat → Nat)) :=
  [(.atomicAdd, fun old a _ => (old + a) % 2 ^ 64), (.atomicMin, fun old a _ => min old a), (.atomicMax, fun old a _ => max old a),
   (.swap, fun _ a _ => a), (.cas, fun old a b => if old = a then b else old)]

/-- The Roll's ring commands with their OP (09_serving.md R352). -/
def rollRows : List (Instr × Nat) :=
  [(.admitSlip, 0x01), (.prefilling, 0x02), (.activate, 0x03), (.shipping, 0x04), (.landed, 0x05), (.handed, 0x06), (.retry, 0x07),
   (.pause, 0x08), (.resume, 0x09), (.cancel, 0x0A), (.fail, 0x0B), (.release, 0x0C), (.mset, 0x10), (.mfree, 0x11)]

/-- The transitions of R347 that a command makes on a slip no step holds: OP, on a prefill job, from, to. -/
def rollMoves : List (Nat × Bool × Nat × Nat) :=
  [(0x02, false, 1, 2), (0x03, false, 1, 4), (0x03, true, 1, 2), (0x04, false, 2, 3), (0x07, false, 2, 1), (0x07, false, 3, 1),
   (0x09, false, 5, 4), (0x09, true, 5, 4)]

/-- The Roll's ring holds the entry `e` next, read in state `h`, and no commit is due at this point (09 R348). -/
def RollReady (s h : State) (e : Nat) : Prop :=
  s.powered = true ∧ (∀ j < 16, s.commitDue j = false) ∧
  s.rollHead = ⟨h, some e⟩

/-- A command of the Roll on slip i of job slot j whose reserved bits are zero, on an enabled slot and a slip of its range whose
GEN it names (R350, R353). -/
def RollOn (s : State) (op e j i : Nat) : Prop :=
  bits e 7 0 = op ∧ rollOp op = true ∧ bits e 511 192 = 0 ∧ bits e 63 58 = 0 ∧ bits e 31 24 = 0 ∧ bits e 15 12 = 0 ∧
  bits e 11 8 = j ∧ bits e 49 32 = i ∧ s.slotOn j = true ∧ (op ≤ 0x0C → s.isLead j = true) ∧ (op = 0x11 → s.isLead j = false) ∧
  s.inRange j i = true ∧ slGen (s.slip i) = bits e 57 50

/-- The client messages that the endpoint answers at once, with the answer's code (09_serving.md R387 to R391). -/
def refuseBytes (rid code lead : Nat) : List Byte := message 3 rid (leBytes 1 code ++ leBytes 3 0 ++ leBytes 2 lead ++ leBytes 2 0)

/-- A request of the security engine may be taken: no update runs, its record is good and IDLE; `u` is the state with the request taken
and its record RUNNING (17 R675; 06 R253). -/
def UpdReady (s u : State) : Prop :=
  s.powered = true ∧ s.sec.upd = none ∧ (s.wr Reg.UPD_STAT 1 0 0).carveRecOk s.updRec = true ∧
  (s.wr Reg.UPD_STAT 1 0 0).recTake (physCarve s.updRec) s.updRec 0 0xFF 5 = (u, true)

end Sys2Proof.Machine
end

