-- ==== Sys2Proof/Certificates/Slice0/Obligations.lean ====
section
/-! DEFINITION. The statements about the model, for the provers. -/

open Sys2Proof Sys2Proof.Machine

/-! ## The step, the queue and power -/

/-- The step takes the command at the front of the queue and answers what `exec` answers with the queue's rest. -/
def Obligations.StepRunsFront : Prop :=
  ∀ (c : Instr) (rest : List Instr) (s : State),
    step { s with pending := c :: rest } = exec c { s with pending := rest }

/-- The model's choice (log entry 2): a powered module with no command waiting counts one tick of its timebase, 2^32 + ADJ
units of 2^-32 ns (15_clocks_time.md R622), and nothing but the timebase changes; an unpowered one stays as it is. -/
def Obligations.EmptyQueueTicks : Prop :=
  ∀ s : State, s.pending = [] →
    (s.powered = true → ∃ t, step s = .next t ∧ t = { s with time := t.time } ∧
      t.time.rack = ((s.time.rack : Int) + 4294967296 + s.time.adj).toNat) ∧
    (s.powered = false → step s = .next s)

/-- A command completes exactly when it is well formed, and stops as malformed when it is not (log entry 13); an unpowered module
does nothing but wait for power-good (log entry 11). -/
def Obligations.WellFormedCompletes : Prop :=
  ∀ (c : Instr) (s : State),
    (c.wellFormed = true → ∃ t, exec c s = .next t) ∧
    (c.wellFormed = false → exec c s = .fault .malformed) ∧
    (s.powered = false → c.wellFormed = true → (∀ straps feed, c ≠ .powerGood straps feed) → exec c s = .next s)

/-- The module latches its straps at power-good; they stay until the next power-good, whatever happens to the straps; a change
of the straps while the module is powered is logged, with the latched straps and the new ones, and has no other effect but on the
log; straps that stay as they stand are no change (01_architecture.md R24). -/
def Obligations.StrapsLatched : Prop :=
  (∀ (straps : BitVec 13) (feed : Bool) (s t : State), exec (.powerGood straps feed) s = .next t →
    t.straps = straps ∧ t.feed = feed) ∧
  (∀ (c : Instr) (s t : State), (∀ straps feed, c ≠ .powerGood straps feed) → exec c s = .next t →
    t.straps = s.straps ∧ t.feed = s.feed) ∧
  (∀ (straps : BitVec 13) (s : State), s.powered = true → straps ≠ s.strapPins →
    ∃ u, u = ({ s with strapPins := straps } : State).post 0x0004 [s.straps.toNat, straps.toNat] ∧
      exec (.strapchg straps) s = .next u ∧ LogOnly { s with strapPins := straps } u) ∧
  (∀ s : State, s.powered = true → exec (.strapchg s.strapPins) s = .next s)

/-- Every step keeps the canonical form of memory: addresses strictly rising, no zero listed. -/
def Obligations.StepKeepsInv : Prop :=
  ∀ s t : State, Inv s → step s = .next t → Inv t

/-- No command adds to the queue or takes from it; so a queue of well-formed commands runs to its end without a stop, one command a
step, first in, first out, whatever the state. -/
def Obligations.QueueRunsToEnd : Prop :=
  (∀ (c : Instr) (s t : State), exec c s = .next t → t.pending = s.pending) ∧
  (∀ s : State, QueueOk s → ∃ t, Runs s.pending.length s t ∧ t.pending = [])

/-- What reset leaves: the numeric reset value of every register that no source of R9 names, empty queues, tables and engines,
every sheet EMPTY and every quire gated, and the memory in its canonical form. -/
def Obligations.ResetState : Prop :=
  (∀ o, o ∉ (csrSources Chip.blank 0 false 0 (Config.nonce 0)).map Prod.fst → State.reset.word o = regReset o) ∧ Inv State.reset ∧
  State.reset.pending = [] ∧ State.reset.dma = [] ∧ State.reset.outOps = [] ∧ State.reset.heldEvents = [] ∧
  State.reset.windows = [] ∧ State.reset.gathers = [] ∧ State.reset.bulks = [] ∧ State.reset.heldFlags = [] ∧
  State.reset.heldPkts = [] ∧ State.reset.closing = none ∧ State.reset.peers = [] ∧ State.reset.tierCmds = [] ∧
  State.reset.moves = [] ∧ State.reset.freeing = [] ∧ State.reset.calib = [] ∧ State.reset.selftest = none ∧
  State.reset.requests = [] ∧ State.reset.posts = [] ∧ State.reset.orders = [] ∧ State.reset.rulSrc = [] ∧
  State.reset.rulHome = [] ∧ State.reset.word Reg.EVICT_CTL = 16384 ∧ State.reset.word Reg.TLOST_CTL = 100 ∧
  State.reset.rd Reg.MCAP 11 0 = 2400 ∧ State.reset.rd Reg.START_STAT 3 0 = 0 ∧
  (∀ i, i < 16 → State.reset.rd (Reg.SCTL i) 2 0 = 0) ∧ (∀ q, q < 64 → State.reset.rd (Reg.QUIRE_STAT q) 2 0 = 0)

/-! ## Start-up and resets -/

/-- POWER_GOOD and MODULE_RESET complete: the module is powered with nothing in any engine, POWER_GOOD latches the straps and
FEED_CLASS of the command, and a MODULE reset keeps the latched ones, LEAVING and the queue (R24, R646, R650). -/
def Obligations.ResetRows : Prop :=
  (∀ (straps : BitVec 13) (feed : Bool) (s : State), ∃ t, exec (.powerGood straps feed) s = .next t ∧
    t.powered = true ∧ t.straps = straps ∧ t.feed = feed ∧ t.chip.serial = s.chip.serial ∧ t.pending = s.pending ∧
    t.quires = [] ∧ t.sheets = [] ∧ t.dma = [] ∧ t.outOps = [] ∧ t.windows = [] ∧ t.moves = [] ∧ t.bulks = [] ∧
    t.tierCmds = [] ∧ t.freeing = [] ∧ t.selftest = none ∧ t.calib = []) ∧
  (∀ s : State, s.powered = true → ∃ t, exec .moduleReset s = .next t ∧
    t.powered = true ∧ t.straps = s.straps ∧ t.feed = s.feed ∧ t.chip.serial = s.chip.serial ∧ t.pending = s.pending ∧
    t.quires = [] ∧ t.sheets = [] ∧ t.dma = [] ∧ t.outOps = [] ∧ t.windows = [] ∧ t.moves = [] ∧ t.bulks = [] ∧
    t.tierCmds = [] ∧ t.freeing = [] ∧ t.selftest = none ∧ t.calib = [] ∧
    t.power.leaving = s.power.leaving)

/-- The rows of start-up (16_startup_config.md R646 to R649, 17 R673): each completes with its own effect. Each has no effect
outside the stage of start-up it belongs to; a failed image or channel is counted as a failure. -/
def Obligations.StartRows : Prop :=
  (∀ s : State, s.powered = true → (s.word Reg.START_STAT).toNat % 256 = 2 →
    ∃ t, exec (.imagesLoaded true) s = .next t ∧ t.start.images = true ∧ t.rd Reg.START_STAT 3 0 = 3 ∧ t.mem = s.mem) ∧
  (∀ (ch : Fin 24) (s : State), s.powered = true → (s.word Reg.START_STAT).toNat % 256 = 3 →
    (ch.val :: s.start.chans.filter (· != ch.val)).length ≠ 24 →
    exec (.channelTrainingDone ch true) s =
      .next { s with start := { s.start with chans := ch.val :: s.start.chans.filter (· != ch.val) } }) ∧
  (∀ (ch : Fin 24) (s : State), s.powered = true → (s.word Reg.START_STAT).toNat % 256 = 3 →
    (ch.val :: s.start.chans.filter (· != ch.val)).length = 24 →
    ∃ u : State, exec (.channelTrainingDone ch true) s = .next u.checkMatched ∧ u.rd Reg.START_STAT 3 0 = 4 ∧
      u.start.linksFrom = s.now) ∧
  (∀ (ch : Fin 24) (s : State), s.powered = true → (s.word Reg.START_STAT).toNat % 256 = 3 →
    2 ≤ Map.getD s.start.chanTries ch.val 0 →
    ∃ t, exec (.channelTrainingDone ch false) s = .next t ∧ t.rd Reg.START_STAT 7 4 = 3) ∧
  (∀ (c0 c1 w0 r0 w1 r1 : Nat) (s : State), s.powered = true → 3 ≤ (s.word Reg.START_STAT).toNat % 256 →
    (s.word Reg.START_STAT).toNat % 256 < 7 → s.start.cxlDone = false →
    ∃ t, exec (.cxlEnumerationDone c0 c1 w0 r0 w1 r1) s = .next t ∧ t.start.cxlDone = true ∧
      t.t2Up = [decide (0 < w0), decide (0 < w1)] ∧
      t.t2Gran = [if 0 < w0 then min c0 (2 ^ 40) * 15 / 16 / 65536 else 0,
        if 0 < w1 then min c1 (2 ^ 40) * 15 / 16 / 65536 else 0]) ∧
  (∀ s : State, s.powered = true → s.mayServe = true → s.rd Reg.START_STAT 3 0 ≠ 7 → s.power.leaving = false →
    ∃ t, exec .svcReady s = .next t ∧ t.time.readyOnce = true ∧ t.rd Reg.START_STAT 3 0 = 7) ∧
  (∀ s : State, s.powered = true → (∀ j, j < 16 → s.rdb (Reg.JCFG j) 31 = false) →
    ∃ t, exec .quillReset s = .next t ∧ t.rd Reg.GSTAT 29 28 = 2 ∧ t.dma = s.dma ∧ t.sheets = s.sheets) ∧
  (∀ (s : State) (m : Measured), s.powered = true → Map.get? s.sec.pendIn 1 = some m →
    ∃ t, exec .quillResetComplete s = .next t ∧ t.word (Reg.RUN_VER 1) = BitVec.ofNat 32 m.version ∧
      Map.get? t.sec.active 1 = some m ∧ t.mem = s.mem) ∧
  (∀ s : State, s.powered = true → (s.word Reg.START_STAT).toNat % 256 = 2 →
    ∃ t, exec (.imagesLoaded false) s = .next t ∧ t.rd Reg.START_STAT 7 4 = 2) ∧
  (∀ (ok : Bool) (s : State), s.powered = true → (s.word Reg.START_STAT).toNat % 256 ≠ 2 → exec (.imagesLoaded ok) s = .next s) ∧
  (∀ (ok : Bool) (ch : Fin 24) (s : State), s.powered = true → (s.word Reg.START_STAT).toNat % 256 ≠ 3 →
    exec (.channelTrainingDone ch ok) s = .next s) ∧
  (∀ (ch : Fin 24) (s : State) (n : Nat), s.powered = true → (s.word Reg.START_STAT).toNat % 256 = 3 →
    n = Map.getD s.start.chanTries ch.val 0 → n < 2 → exec (.channelTrainingDone ch false) s =
      .next { s with start := { s.start with chanTries := Map.set s.start.chanTries ch.val (n + 1) } }) ∧
  (∀ (c0 c1 w0 r0 w1 r1 : Nat) (s : State), s.powered = true →
    ((s.word Reg.START_STAT).toNat % 256 < 3 ∨ 7 ≤ (s.word Reg.START_STAT).toNat % 256 ∨ s.start.cxlDone = true) →
    exec (.cxlEnumerationDone c0 c1 w0 r0 w1 r1) s = .next s) ∧
  (∀ s : State, s.powered = true → (s.mayServe = false ∨ s.rd Reg.START_STAT 3 0 = 7 ∨ s.power.leaving = true) →
    exec .svcReady s = .next s) ∧
  (∀ s : State, s.powered = true → (∃ j, j < 16 ∧ s.rdb (Reg.JCFG j) 31 = true) →
    exec .quillReset s = .next (s.logWrite Reg.RST_CMD 0x5A000002)) ∧
  (∀ s : State, s.powered = true → Map.get? s.sec.pendIn 1 = none → exec .quillResetComplete s = .next s)

/-- The requests for turns: each completes, sets its pending bit and leaves everything else; a mode change to the reserved code has its
pending bit cleared and is logged (16 R652, R654; 08_experts.md R335, R337; 09_serving.md R382; 14_power.md R595). -/
def Obligations.TurnRequests : Prop :=
  (∀ s : State, s.powered = true → ∃ t, exec .cspend s = .next t ∧ t.rdb Reg.CSCTL 31 = true ∧ Only [Reg.CSCTL] s t ∧
    ∀ i, i < 31 → t.rdb Reg.CSCTL i = s.rdb Reg.CSCTL i) ∧
  (∀ s : State, s.powered = true → ∃ t, exec .rtpend s = .next t ∧ t.rdb Reg.RTCTL 31 = true ∧ Only [Reg.RTCTL] s t ∧
    ∀ i, i < 31 → t.rdb Reg.RTCTL i = s.rdb Reg.RTCTL i) ∧
  (∀ (m : BitVec 16) (s : State), s.powered = true → ∃ t, exec (.recipeTurnRequest m) s = .next t ∧
    t.rd Reg.RECIPE_TURN 15 0 = s.rd Reg.RECIPE_TURN 15 0 ||| m.toNat ∧
    t.rd Reg.RECIPE_TURN 31 16 = s.rd Reg.RECIPE_TURN 31 16 ∧ Only [Reg.RECIPE_TURN] s t) ∧
  (∀ s : State, s.powered = true → ∃ t, exec .ptpend s = .next t ∧ t.rdb Reg.PTCTL 31 = true ∧ Only [Reg.PTCTL] s t ∧
    ∀ i, i < 31 → t.rdb Reg.PTCTL i = s.rdb Reg.PTCTL i) ∧
  (∀ (j : Fin 16) (s : State), s.powered = true → ∃ t, exec (.htpend j) s = .next t ∧ t.rdb (Reg.JCFG j.val) 28 = true ∧
    Only [Reg.JCFG j.val] s t ∧ ∀ i, i < 32 → i ≠ 28 → t.rdb (Reg.JCFG j.val) i = s.rdb (Reg.JCFG j.val) i) ∧
  (∀ (i : Fin 16) (s : State), s.powered = true → ∃ t, exec (.tpend i) s = .next t ∧ t.rdb (Reg.RCFG i.val) 30 = true ∧
    Only [Reg.RCFG i.val] s t ∧ ∀ n, n < 32 → n ≠ 30 → t.rdb (Reg.RCFG i.val) n = s.rdb (Reg.RCFG i.val) n) ∧
  (∀ (i : Fin 16) (s : State), s.powered = true →
    (s.rd (Reg.RCFG i.val) 5 4 ≠ 3 → ∃ t, exec (.mpend i) s = .next t ∧ t.rdb (Reg.RCFG i.val) 28 = true ∧
      Only [Reg.RCFG i.val] s t ∧ ∀ n, n < 32 → n ≠ 28 → t.rdb (Reg.RCFG i.val) n = s.rdb (Reg.RCFG i.val) n) ∧
    (s.rd (Reg.RCFG i.val) 5 4 = 3 → ∃ t u, u = s.wrb (Reg.RCFG i.val) 28 true ∧ exec (.mpend i) s = .next t ∧
      t = (u.wrb (Reg.RCFG i.val) 28 false).logWrite (Reg.RCFG i.val) (u.word (Reg.RCFG i.val)).toNat 0 ∧
      t.rdb (Reg.RCFG i.val) 28 = false ∧ t.rd (Reg.RCFG i.val) 5 4 = 3))

/-! ## Control space and the event log -/

/-- A read by a Quill core answers the register's current word, latches its HI word where it has one, and clears the fields that
clear on a read; a proxied read puts the word in its data register; a write to a register whose block gives it no behaviour of its
own (blocks 3 and 0xA hold such registers alone) goes through the access codes of its fields and changes nothing else (00_scope.md
R11, 10_sheets.md R429). A HI word that is latched is answered and released; an access through a proxy window is refused by its
class, its place or its rights. -/
def Obligations.RegisterAccess : Prop :=
  (∀ (off : BitVec 20) (s : State) (r : RegDesc), s.powered = true → inSpace off.toNat = true → regAt off.toNat = some r →
    Map.get? s.latched off.toNat = none → off.toNat ≠ Reg.RT_LO → (off.toNat = Reg.QF_ISSUED → s.gathers = []) →
    ∃ t, exec (.readToClear off) s = .next t ∧ t.answers = s.answers ++ [(0, leBytes 4 (s.view off.toNat).toNat)] ∧
      t.word off.toNat = BitVec.ofNat 32 (clearRc r.fields (s.word off.toNat).toNat) ∧
      (∀ o, o ≠ off.toNat → t.word o = s.word o) ∧ t.mem = s.mem) ∧
  (∀ (off : BitVec 20) (h : Nat) (s : State) (r : RegDesc), s.powered = true → inSpace off.toNat = true →
    regAt off.toNat = some r → Map.get? s.latched off.toNat = none → off.toNat ≠ Reg.RT_LO →
    (off.toNat = Reg.QF_ISSUED → s.gathers = []) → hiOf off.toNat = some h →
    ∃ t, exec (.counterLoRead off) s = .next t ∧ t.answers = s.answers ++ [(0, leBytes 4 (s.view off.toNat).toNat)] ∧
      Map.get? t.latched h = some (s.view h) ∧ t.mem = s.mem) ∧
  (∀ s : State, s.powered = true → Map.get? s.latched Reg.QF_ISSUED = none →
    ∃ t u, u = s.flushOf (fun x => x.kind == 2) ∧ exec (.readToClear (BitVec.ofNat 20 Reg.QF_ISSUED)) s = .next t ∧
      t.answers = s.answers ++ [(0, leBytes 4 (u.word Reg.QF_ISSUED).toNat)] ∧ t.mem = s.mem ∧
      ∀ g ∈ t.gathers, ∀ l ∈ g.lines, ∀ x ∈ l.2.2.2, x.1.kind ≠ 2) ∧
  (∀ (ch : Fin 4) (v : W32) (s : State) (r : RegDesc), s.powered = true → (bits v.toNat 31 30 = 1 ∨ bits v.toNat 31 30 = 2) →
    v.getLsbD 29 = false → inSpace (bits v.toNat 19 0) = true → regAt (bits v.toNat 19 0) = some r →
    Map.get? s.latched (bits v.toNat 19 0) = none → copyAt (Reg.NONCE 0) 4 4 (bits v.toNat 19 0) = none →
    ∃ t, exec (.proxyAccess ch v) s = .next t ∧ t.word (Reg.PXY_DATA ch.val) = s.view (bits v.toNat 19 0) ∧
      t.rd (Reg.PXY_STAT ch.val) 1 0 = 0 ∧ t.mem = s.mem) ∧
  (∀ (off : BitVec 20) (v : W32) (s : State) (r : RegDesc), s.powered = true → inSpace off.toNat = true →
    regAt off.toNat = some r → (off.toNat / 0x10000 = 3 ∨ off.toNat / 0x10000 = 0xA) →
    ∃ t, exec (.registerWrite off v) s = .next t ∧ Only [off.toNat] s t ∧
      t.word off.toNat = BitVec.ofNat 32 (writeFields r.fields (s.word off.toNat).toNat v.toNat)) ∧
  (∀ (off : BitVec 20) (s : State), s.powered = true → inSpace off.toNat = true → regAt off.toNat = none →
    exec (.readToClear off) s = .next (s.answer 0 (leBytes 4 0)) ∧
    exec (.counterLoRead off) s = .next (s.answer 0 (leBytes 4 0))) ∧
  (∀ (off : BitVec 20) (s : State) (r : RegDesc) (h : W32), s.powered = true → inSpace off.toNat = true →
    regAt off.toNat = some r → Map.get? s.latched off.toNat = some h → off.toNat ≠ Reg.QF_ISSUED →
    ∃ t, exec (.readToClear off) s = .next t ∧ t.answers = s.answers ++ [(0, leBytes 4 h.toNat)] ∧
      t = { s with latched := Map.erase s.latched off.toNat, answers := t.answers }) ∧
  (∀ (ch : Fin 4) (v : W32) (s : State) (cls off : Nat), s.powered = true → cls = bits v.toNat 31 30 → off = bits v.toNat 19 0 →
    ((cls = 0 ∨ cls = 3) → exec (.proxyAccess ch v) s = .next (s.wr (Reg.PXY_STAT ch.val) 1 0 3)) ∧
    ((cls = 1 ∨ cls = 2) → inSpace off = false → exec (.proxyAccess ch v) s = .next (s.wr (Reg.PXY_STAT ch.val) 1 0 2)) ∧
    ((cls = 1 ∨ cls = 2) → inSpace off = true → v.getLsbD 29 = true →
      (s.mayWrite cls off = true → exec (.proxyAccess ch v) s =
        .next ((s.blockWrite off (s.word (Reg.PXY_DATA ch.val)).toNat cls).wr (Reg.PXY_STAT ch.val) 1 0 0)) ∧
      (s.mayWrite cls off = false → exec (.proxyAccess ch v) s =
        .next ((s.post 0x0006 [cls, off]).wr (Reg.PXY_STAT ch.val) 1 0 1))) ∧
    ((cls = 1 ∨ cls = 2) → inSpace off = true → v.getLsbD 29 = false → (copyAt (Reg.NONCE 0) 4 4 off).isSome = true →
      exec (.proxyAccess ch v) s = .next ((s.wrw (Reg.PXY_DATA ch.val) 0).wr (Reg.PXY_STAT ch.val) 1 0 0)))

/-- What a write does to one field, by its access code, and to the bits of no field (R11). -/
def Obligations.AccessCodes : Prop :=
  ∀ (fs : List Field) (old v : Nat), fieldsApart fs → old < 2 ^ 32 → v < 2 ^ 32 →
    (∀ f ∈ fs, bits (writeFields fs old v) f.hi f.lo =
      match f.acc with
      | .rw => bits v f.hi f.lo
      | .w1c => bits old f.hi f.lo &&& (2 ^ (f.hi + 1 - f.lo) - 1 - bits v f.hi f.lo)
      | .w1s => bits old f.hi f.lo ||| bits v f.hi f.lo
      | _ => bits old f.hi f.lo) ∧
    (∀ f ∈ fs, bits (clearRc fs old) f.hi f.lo = if f.acc = .rc then 0 else bits old f.hi f.lo) ∧
    (∀ i, i < 32 → (∀ f ∈ fs, i < f.lo ∨ f.hi < i) → bit (writeFields fs old v) i = bit old i ∧ bit (clearRc fs old) i = bit old i)

/-- An access of a wrong size or outside every block is answered with an error and logged (R10, R722). -/
def Obligations.RefusedAccess : Prop :=
  ∀ (off : BitVec 32) (size : Nat) (write : Bool) (s : State), s.powered = true → (size ≠ 4 ∨ inSpace off.toNat = false) →
    ∃ t, exec (.csaccess off size write) s = .next t ∧ t = (s.answer 2 []).post 0x0002 [0, off.toNat, size] ∧
      t.answers = s.answers ++ [(2, [])]

/-- The registers of the event log (19_registers.md R737 to R741). An event posted while the ring has room becomes the 64-byte
record at the ring's next place, with the sequence number, and both counts go on; what is not of the log stays (R732, R735, R737).
With no room, or the ring disabled, a record is held; a full holding buffer drops the new record unless it is FATAL, and counts it
in ELOST (R738). A write that may not be made is logged. -/
def Obligations.EventLog : Prop :=
  (∀ (v : W32) (s : State), s.powered = true → s.rdb Reg.ELOG_CFG 31 = false → v.getLsbD 31 = true → 8 ≤ bits v.toNat 3 0 →
    s.inCarve (s.addrOf Reg.ELOG_BASE_LO Reg.ELOG_BASE_HI 64) (64 * 2 ^ bits v.toNat 3 0 + 64) = true →
    s.hitsTables (s.addrOf Reg.ELOG_BASE_LO Reg.ELOG_BASE_HI 64) (64 * 2 ^ bits v.toNat 3 0 + 64) = false →
    ∃ t, exec (.elogEnable v) s = .next t ∧ t.rdb Reg.ELOG_CFG 31 = true ∧ t.rd Reg.ELOG_CFG 3 0 = bits v.toNat 3 0 ∧
      Only [Reg.ELOG_CFG] s t) ∧
  (∀ (v : W32) (s : State), s.powered = true →
    ((s.word Reg.EPROD).toNat + 2 ^ 32 - v.toNat) % 2 ^ 32 ≤ 2 ^ s.rd Reg.ELOG_CFG 3 0 →
    ∃ t, exec (.econsWrite v) s = .next t ∧ t.word Reg.ECONS = v ∧ Only [Reg.ECONS] s t) ∧
  (∀ s : State, s.powered = true → s.rdb Reg.ELOG_CFG 31 = false →
    exec .hpop s = .next { s with heldEvents := s.heldEvents.drop 1 }) ∧
  (∀ (r : EventRec) (s : State), s.powered = true → s.heldEvents = [r] → s.elogRoom = true → s.dropCount = 0 →
    ∃ t, exec .heldRecordFlush s = .next t ∧ t.heldEvents = [] ∧ t.word Reg.EPROD = s.word Reg.EPROD + 1 ∧ LogOnly s t) ∧
  (∀ (code : Nat) (args : List Nat) (s : State), s.elogRoom = true → s.heldEvents = [] → s.dropCount = 0 → s.gates = [] →
    s.hitsTables (s.addrOf Reg.ELOG_BASE_LO Reg.ELOG_BASE_HI 64) (64 * 2 ^ s.rd Reg.ELOG_CFG 3 0 + 64) = false →
    (sevOf code args < 4 ∧ code ≠ 1) →
    LogOnly s (s.post code args) ∧
    (s.post code args).word Reg.EPROD = s.word Reg.EPROD + 1 ∧ (s.post code args).word Reg.ESEQ = s.word Reg.ESEQ + 1 ∧
    Mem.read (s.post code args).mem
      (physCarve (s.addrOf Reg.ELOG_BASE_LO Reg.ELOG_BASE_HI 64 +
        64 * ((s.word Reg.EPROD).toNat % 2 ^ s.rd Reg.ELOG_CFG 3 0))) 64 =
      (s.mkRec code 1 args).bytes) ∧
  (∀ (r : EventRec) (s : State),
    (s.heldEvents.length < 64 → (s.hold r).heldEvents = s.heldEvents ++ [r] ∧ (s.hold r).word Reg.ESEQ = s.word Reg.ESEQ + 1) ∧
    (64 ≤ s.heldEvents.length → r.sev ≠ 4 → (s.hold r).heldEvents = s.heldEvents ∧
      (s.hold r).word Reg.ELOST = BitVec.ofNat 32 (sat32 ((s.word Reg.ELOST).toNat + 1)) ∧
      (s.hold r).dropCount = s.dropCount + 1) ∧
    LogOnly s (s.hold r)) ∧
  (∀ (v : W32) (s : State), s.powered = true → s.rdb Reg.ELOG_CFG 31 = false →
    (v.getLsbD 31 = false → exec (.elogEnable v) s = .next (s.wr Reg.ELOG_CFG 3 0 (bits v.toNat 3 0))) ∧
    (v.getLsbD 31 = true →
      (bits v.toNat 3 0 < 8 ∨ s.inCarve (s.addrOf Reg.ELOG_BASE_LO Reg.ELOG_BASE_HI 64) (64 * 2 ^ bits v.toNat 3 0 + 64) = false ∨
        s.hitsTables (s.addrOf Reg.ELOG_BASE_LO Reg.ELOG_BASE_HI 64) (64 * 2 ^ bits v.toNat 3 0 + 64) = true) →
      exec (.elogEnable v) s = .next ((s.wr Reg.ELOG_CFG 3 0 (bits v.toNat 3 0)).logWrite Reg.ELOG_CFG v.toNat))) ∧
  (∀ (v : W32) (s u : State), s.powered = true → s.rdb Reg.ELOG_CFG 31 = true → u = s.wrb Reg.ELOG_CFG 31 (v.getLsbD 31) →
    exec (.elogEnable v) s =
      .next (if bits v.toNat 3 0 = s.rd Reg.ELOG_CFG 3 0 then u else u.logWrite Reg.ELOG_CFG v.toNat)) ∧
  (∀ (v : W32) (s : State), s.powered = true →
    2 ^ s.rd Reg.ELOG_CFG 3 0 < ((s.word Reg.EPROD).toNat + 2 ^ 32 - v.toNat) % 2 ^ 32 →
    exec (.econsWrite v) s = .next (s.logWrite Reg.ECONS v.toNat)) ∧
  (∀ s : State, s.powered = true → s.rdb Reg.ELOG_CFG 31 = true → exec .hpop s = .next s) ∧
  (∀ s : State, s.powered = true → s.heldEvents ≠ [] → s.elogRoom = false → exec .heldRecordFlush s = .next s) ∧
  (∀ (s : State) (r : EventRec), 64 ≤ s.heldEvents.length → r.sev = 4 →
    (∀ d rest, takeNonFatal s.heldEvents = some (d, rest) →
      (s.hold r).heldEvents = rest ++ [r] ∧ (s.hold r).dropCount = s.dropCount + 1 ∧ (s.hold r).dropSev = max s.dropSev d.sev) ∧
    (takeNonFatal s.heldEvents = none → (s.hold r).heldEvents = s.heldEvents ∧ (s.hold r).dropCount = s.dropCount + 1 ∧
      (s.hold r).dropSev = max s.dropSev 4))

/-! ## Strokes -/

/-- A stroke that computes completes: it reads its operands and makes its writes at its boundary; where it still waits for fabric
data it stays, and an operand fault becomes a context fault (03_scribe.md R104, R105, 04_strokes.md R129). One whose predicate is
false is passed without any effect of its own, whatever its opcode (R120, R157). NOP, which touches no well, only passes (R135). A
fetch that fails, an opcode that is not defined or an ill-formed descriptor faults the context; another stroke than the one fetched,
or a quire that runs no context, has no effect; a block with M = 0 makes no writes (R164, R165). -/
def Obligations.ComputeStrokes : Prop :=
  (∀ row ∈ computeRows, ∀ (q : Fin 64) (k : Fin 8) (lost : Nat) (s u : State) (r : Run), s.powered = true →
    MayRun s q.val k.val row.2.1 row.2.2.1 r u →
    (∀ v x, row.2.2.2 r u = .ok v x → exec (row.1 q k lost) s = .next (v.boundary r lost x)) ∧
    (∀ v, row.2.2.2 r u = .wait v → exec (row.1 q k lost) s = .next v) ∧
    (∀ v c a, row.2.2.2 r u = .bad v c a → exec (row.1 q k lost) s = .next (v.strokeFault r c a))) ∧
  (∀ row ∈ strokeRows, ∀ (q : Fin 64) (k : Fin 8) (lost : Nat) (s u : State) (r : Run), s.powered = true →
    StandsAt s q.val k.val row.2.1 row.2.2 r u → u.skipped q.val r.d = true →
    exec (row.1 q k lost) s = .next (u.passed r (r.pc + 64) false)) ∧
  (∀ row ∈ computeRows, row.2.1 ∉ [0x08, 0x09, 0x0A] → ∀ (q : Fin 64) (k : Fin 8) (lost : Nat) (s u v : State) (r : Run) (x : Rows),
    s.powered = true → MayRun s q.val k.val row.2.1 row.2.2.1 r u → u.readRows r = .ok v x → x.m = 0 →
    exec (row.1 q k lost) s = .next (v.boundary r lost Done.none)) ∧
  (∀ row ∈ strokeRows, ∀ (q : Fin 64) (k : Fin 8) (lost : Nat) (s : State), s.powered = true →
    (s.runsOn q.val = none → exec (row.1 q k lost) s = .next s) ∧
    (∀ (i c : Nat) (e : Fetched) (r : Run), s.runsOn q.val = some (i, c) →
      e = State.seek i k.val scriptFuel (s.scribe (8 * q.val + k.val)).pc s → r = ⟨i, c, q.val, k.val, e.pc, e.d⟩ →
      (e.cause ≠ 0 → exec (row.1 q k lost) s = .next (e.st.strokeFault r e.cause 0)) ∧
      (e.cause = 0 → opDefined (kOp e.d) (kSub e.d) = false → exec (row.1 q k lost) s = .next (e.st.strokeFault r 0x01 0)) ∧
      (e.cause = 0 → opDefined (kOp e.d) (kSub e.d) = true → (kOp e.d ≠ row.2.1 ∨ row.2.2 (kSub e.d) = false) →
        exec (row.1 q k lost) s = .next s) ∧
      (e.cause = 0 → opDefined (kOp e.d) (kSub e.d) = true → kOp e.d = row.2.1 → row.2.2 (kSub e.d) = true →
        fetchCause k.val e.d ≠ 0 → exec (row.1 q k lost) s = .next (e.st.strokeFault r (fetchCause k.val e.d) 0)))) ∧
  (∀ (q : Fin 64) (k : Fin 8) (lost : Nat) (s u : State) (r : Run), s.powered = true →
    MayRun s q.val k.val 0x00 (fun _ => true) r u → exec (.nop q k lost) s = .next (u.passed r (r.pc + 64) true))

/-- What each VEC command writes: for every tile n, the folio whose live elements are the command's function of the elements of
its operands, converted under the recipe (R104, R125, R138, R145). -/
def Obligations.VecValues : Prop :=
  ∀ row ∈ vecRows, ∀ (q : Fin 64) (k : Fin 8) (lost : Nat) (s u u1 u2 u3 u4 u5 u6 : State) (r : Run) (x : Rows) (rc : Recipe)
    (fa fb fc : List FolioAt) (cb : List W32), s.powered = true →
    MayRun s q.val k.val 0x04 (· == row.2.1) r u → u.readRows r = .ok u1 x → x.m ≠ 0 → u1.useRecipe r none = .ok u2 rc →
    State.readFolios r (oSpace (kSrc0 r.d)) (kStride0 r.d) (kNp r.d) (oAddr r.k (kSrc0 r.d)) [] u2 = .ok u3 fa →
    (if row.2.1 ≤ 5 ∨ row.2.1 = 7 then
      State.readFolios r (oSpace (kSrc1 r.d)) (kStride1 r.d) (kNp r.d) (oAddr r.k (kSrc1 r.d)) [] u3 = .ok u4 fb
      else u4 = u3 ∧ fb = []) →
    (if row.2.1 = 12 ∨ row.2.1 = 13 then u4.readColumn r (oSpace (kSrc1 r.d)) (oAddr r.k (kSrc1 r.d)) = .ok u5 cb
      else u5 = u4 ∧ cb = []) →
    (if row.2.1 = 3 ∨ row.2.1 = 7 then
      State.readPacked r (oSpace (kSrc2 r.d)) (kNp r.d) (oAddr r.k (kSrc2 r.d)) [] u5 = .ok u6 fc
      else u6 = u5 ∧ fc = []) →
    ∃ o : List Out × List Bool,
      o = folioOuts r x rc (kN r.d) (kNp r.d)
        (fun n m c => row.2.2 (kImmf r.d) (tileVal fa n m c)
          (if row.2.1 = 12 ∨ row.2.1 = 13 then cb.getD m 0 else tileVal fb n m c) (tileVal fc n m c))
        (u6.tileRnd r x rc.stream (kImm2 r.d % 256)) ∧
      exec (row.1 q k lost) s = .next (u6.boundary r lost ⟨o.1, o.2, fa ++ fb ++ fc, id⟩)

/-- What the RED commands write: a column of 64 values, each live row reduced over its tiles; rows that are not live keep their place
in the column (04_strokes.md R146). MOVE copies IMM2[13:0] + 1 lines from SRC0 to DST (R149). -/
def Obligations.RedValues : Prop :=
  (∀ row ∈ [((Instr.redSum : StrokeCmd), 0), (.redMax, 1), (.sumsq, 2), (.rmsr, 3)],
  ∀ (q : Fin 64) (k : Fin 8) (lost : Nat) (s u u1 u2 : State) (r : Run) (x : Rows) (fa : List FolioAt), s.powered = true →
    MayRun s q.val k.val 0x05 (· == row.2) r u → u.readRows r = .ok u1 x → x.m ≠ 0 →
    State.readFolios r (oSpace (kSrc0 r.d)) (kStride0 r.d) (kNp r.d) (oAddr r.k (kSrc0 r.d)) [] u1 = .ok u2 fa →
    ∃ keep : List Bool, keep.length = 256 ∧ (∀ b, b < 256 → keep[b]? = some (!(decide (b / 4 < x.m) && !(x.isLive (b / 4))))) ∧
      exec (row.1 q k lost) s = .next (u2.boundary r lost
        ⟨[⟨oSpace (kDst r.d), oAddr r.k (kDst r.d),
          pack 0 (((List.range 64).map fun m => if x.isLive m then
            redRow row.2 (kNp r.d) (kN r.d) (kImmf r.d) (BitVec.ofNat 32 (kImm2 r.d)) (fun t c => tileVal fa t m c) else 0).map
              BitVec.toNat), keep⟩], [], fa, id⟩)) ∧
  (∀ (q : Fin 64) (k : Fin 8) (lost : Nat) (s u v : State) (r : Run) (b : List Byte), s.powered = true →
    MayRun s q.val k.val 0x08 (fun _ => true) r u →
    u.readOp r (oSpace (kSrc0 r.d)) (oAddr r.k (kSrc0 r.d)) (64 * (kImm2 r.d % 16384 + 1)) = .ok v b →
    exec (.move q k lost) s =
      .next (v.boundary r lost ⟨[Out.whole (oSpace (kDst r.d)) (oAddr r.k (kDst r.d)) b], [], [], id⟩))

/-- A scribe that passes a boundary stands at the next address, its quire's STROKES counts it, and neither memory nor another sequencer
changes; of the registers, only STROKES and STATE of its quire do, and those of its point where the quire was watching (03_scribe.md
R108, R116; 14_power.md R588); an output to a well lands in the scribe's well, byte by byte, and every other byte of memory
stays (R104, 04_strokes.md R128). -/
def Obligations.BoundaryEffects : Prop :=
  (∀ (s : State) (r : Run) (next : Nat) (ran : Bool), (s.sheet r.i).cur = some r.c →
    (s.scribe r.scribe).stallFrom = none →
    ((s.passed r next ran).scribe r.scribe).pc = next ∧ ((s.passed r next ran).scribe r.scribe).watch = none ∧
    (s.passed r next ran).word (Reg.STROKES r.q) = s.word (Reg.STROKES r.q) + 1 ∧ (s.passed r next ran).mem = s.mem ∧
    (∀ n, n ≠ r.scribe → (s.passed r next ran).scribe n = s.scribe n) ∧
    (∀ o, o ≠ Reg.STROKES r.q → o ≠ Reg.QUIRE_STAT r.q →
      (s.quireUnder r.q ≠ 4 ∨ (o ≠ Reg.QPT r.q ∧ o ≠ Reg.CLOCK r.q ∧ ∀ d, d < 4 → o ≠ Reg.RAILV d)) →
      (s.passed r next ran).word o = s.word o)) ∧
  (∀ (s : State) (r : Run) (a : Nat) (bs : List Byte) (keep : List Bool),
    (∀ i, i < bs.length → Mem.read1 (s.putOut r ⟨1, a, bs, keep⟩).mem (physWell r.scribe (a + i)) = bs.getD i 0) ∧
    (∀ x, (x < physWell r.scribe a ∨ physWell r.scribe (a + bs.length) ≤ x) →
      Mem.read1 (s.putOut r ⟨1, a, bs, keep⟩).mem x = Mem.read1 s.mem x))

/-- A wait stroke whose condition holds passes; one whose condition does not hold leaves the scribe watching the word (03_scribe.md
R98 to R100, 04_strokes.md R152). A STEP wait makes its word the one the quire judges writes of, and one that completes makes it the
quire's last step sequence (R153); the first one of a script gives the step's recipe side to the scribes that pass over it as well
(02 R71). A word that may not be watched or read faults (04_strokes.md R164). -/
def Obligations.WaitRows : Prop :=
  (∀ row ∈ waitRows, ∀ (q : Fin 64) (k : Fin 8) (s u v : State) (r : Run) (b : List Byte), s.powered = true →
    MayRun s q.val k.val 0x10 (· == row.2.1) r u → u.watchable r (kSrc0 r.d) = true →
    u.readOp r 2 (oAddr r.k (kSrc0 r.d)) 8 = .ok v b →
    (row.2.2 (leNat b) (kSrc2 r.d) (v.scribe r.scribe).last →
      exec (row.1 q k) s = .next ((if row.2.1 = 3 then (v.stepOn r (oAddr r.k (kSrc0 r.d))).takeStep r (leNat b) else v).passed
        r (r.pc + 64) true)) ∧
    (¬row.2.2 (leNat b) (kSrc2 r.d) (v.scribe r.scribe).last →
      exec (row.1 q k) s = .next ((v.stepOn r (oAddr r.k (kSrc0 r.d))).enterWatch r (oAddr r.k (kSrc0 r.d))))) ∧
  (∀ (s : State) (r : Run) (a : Nat), (kSub r.d = 3 → s.stepOn r a = s.setQuire r.q { s.quire r.q with stepAt := some a }) ∧
    (kSub r.d ≠ 3 → s.stepOn r a = s)) ∧
  (∀ (s : State) (r : Run) (v : Nat),
    ((s.takeStep r v).quire r.q).lastStep = BitVec.ofNat 64 v ∧ ((s.takeStep r v).scribe r.scribe).last = BitVec.ofNat 64 v ∧
    (s.takeStep r v).mem = s.mem ∧
    (r.pc = (s.quire r.q).entry → ∀ j, j < 8 → j = r.k ∨ bit (kSmask r.d) j = false →
      ((s.takeStep r v).scribe (8 * r.q + j)).side = ((s.takeStep r v).ctx r.i r.c).stepSide)) ∧
  (∀ row ∈ waitRows, ∀ (q : Fin 64) (k : Fin 8) (s u : State) (r : Run) (a cause : Nat), s.powered = true →
    MayRun s q.val k.val 0x10 (· == row.2.1) r u → a = oAddr r.k (kSrc0 r.d) → cause = u.pinCause r.i a 8 →
    (oSpace (kSrc0 r.d) ≠ 2 → exec (row.1 q k) s = .next (u.strokeFault r 0x0A 0)) ∧
    (oSpace (kSrc0 r.d) = 2 → cause ≠ 0 →
      exec (row.1 q k) s = .next (u.strokeFault r cause (if cause = 0x0B then a else 0))) ∧
    (∀ v c f, u.watchable r (kSrc0 r.d) = true → u.readOp r 2 a 8 = .bad v c f →
      exec (row.1 q k) s = .next (v.strokeFault r c f)))

/-- The barrier strokes: a scribe that is not the last waits at the stroke; the last one makes the stroke act, for the lowest scribe
of its mask (04_strokes.md R154). A FLAG that acts stores or adds SRC2 at the word it names, and every scribe of its mask passes; a
fenced one acts only when every acknowledgement owed to the quire has arrived (R155, 11_fabric_ops.md R456). VARIANT enters the
variant that the selection word names for the quire's step, and RET comes back to the next stroke; with no selection for the step
yet, the scribes watch its word (R162, R163). A word that cannot be read or written, and a selection that is no variant, fault
(R164). -/
def Obligations.BarrierRows : Prop :=
  (∀ row ∈ [((Instr.flagStore : Fin 64 → Fin 8 → Instr), 0x11, ((· == 0) : Nat → Bool), fun (r : Run) (s : State) => s.flagAt r),
      (.flagAdd, 0x11, (· == 1), fun r s => s.flagAt r), (.variant, 0x18, fun _ => true, fun r s => s.variantAt r)],
  ∀ (q : Fin 64) (k : Fin 8) (s u v : State) (r : Run), s.powered = true → MayRun s q.val k.val row.2.1 row.2.2.1 r u →
    v = u.setScribe r.scribe { u.scribe r.scribe with pc := r.pc, atBarrier := true } →
    (v.allAt r = false → exec (row.1 q k) s = .next v) ∧
    (v.allAt r = true → exec (row.1 q k) s = .next (row.2.2.2 { r with k := lowScribe r.d } v))) ∧
  (∀ (s v w : State) (r : Run) (b : List Byte), oSpace (kDst r.d) ≠ 3 →
    s.readOp r (oSpace (kDst r.d)) (oAddr r.k (kDst r.d)) 8 = .ok v b →
    v.outBad r (Out.whole (oSpace (kDst r.d)) (oAddr r.k (kDst r.d))
      (leBytes 8 (if kSub r.d = 1 then (leNat b + kSrc2 r.d) % 2 ^ 64 else kSrc2 r.d))) = (w, none) →
    s.flagAct r = (w.putOut r (Out.whole (oSpace (kDst r.d)) (oAddr r.k (kDst r.d))
      (leBytes 8 (if kSub r.d = 1 then (leNat b + kSrc2 r.d) % 2 ^ 64 else kSrc2 r.d)))).passAll r (r.pc + 64) 0) ∧
  (∀ (s : State) (r : Run), kImm2 r.d % 2 = 0 → s.flagAt r = s.flagAct r) ∧
  (∀ (s u : State) (r : Run), kImm2 r.d % 2 = 1 →
    u = (s.flushOf fun x => x.kind == 0 && x.a == r.i && x.b == r.c && x.c == r.q).recSeen r.i r.c →
    s.flagAt r = if u.fenceOpen r then u.flagAct r else u) ∧
  (∀ (s v w : State) (r : Run) (b tb : List Byte), (s.scribe r.scribe).ret = 0 → s.watchable r (kSrc0 r.d) = true →
    s.readOp r 2 (oAddr r.k (kSrc0 r.d)) 8 = .ok v b → bits (leNat b) 63 32 = (v.quire r.q).lastStep.toNat % 2 ^ 32 →
    v.readOp r (oSpace (kSrc1 r.d)) (oAddr r.k (kSrc1 r.d) + 8 * bits (leNat b) 4 0) 8 = .ok w tb → bit (leNat tb) 63 = true →
    s.variantAt r = (w.setQuire r.q { w.quire r.q with variantAt := r.pc }).passAll r (leNat tb % 2 ^ 48) (r.pc + 64)) ∧
  (∀ (s v : State) (r : Run) (b : List Byte), (s.scribe r.scribe).ret = 0 → s.watchable r (kSrc0 r.d) = true →
    s.readOp r 2 (oAddr r.k (kSrc0 r.d)) 8 = .ok v b → bits (leNat b) 63 32 ≠ (v.quire r.q).lastStep.toNat % 2 ^ 32 →
    s.variantAt r = v.watchAll r (oAddr r.k (kSrc0 r.d))) ∧
  (∀ (s u : State) (r : Run) (a : Nat), oSpace (kDst r.d) = 3 → a = oAddr r.k (kDst r.d) → u = s.seenImport (some r.i) a →
    (importOk (u.importEntry (some r.i) a) (a % 2 ^ 36) 8 (needPerm 0x0C (kSub r.d)) = true → a < 2 ^ 48 →
      s.flagAct r = (u.strokeWrite r 0x0C a fun p => { p with
        atop := BitVec.ofNat 4 (kSub r.d), imm := BitVec.ofNat 64 (kSrc2 r.d) }).passAll r (r.pc + 64) 0) ∧
    (importOk (u.importEntry (some r.i) a) (a % 2 ^ 36) 8 (needPerm 0x0C (kSub r.d)) = false →
      s.flagAct r = u.strokeFault r 0x0B a)) ∧
  (∀ (s v w : State) (r : Run), oSpace (kDst r.d) ≠ 3 →
    (∀ c a, s.readOp r (oSpace (kDst r.d)) (oAddr r.k (kDst r.d)) 8 = .bad v c a → s.flagAct r = v.strokeFault r c a) ∧
    (∀ b f, s.readOp r (oSpace (kDst r.d)) (oAddr r.k (kDst r.d)) 8 = .ok v b →
      v.outBad r (Out.whole (oSpace (kDst r.d)) (oAddr r.k (kDst r.d))
        (leBytes 8 (if kSub r.d = 1 then (leNat b + kSrc2 r.d) % 2 ^ 64 else kSrc2 r.d))) = (w, some f) →
      s.flagAct r = w.strokeFault r f.1 f.2)) ∧
  (∀ (s : State) (r : Run),
    ((s.scribe r.scribe).ret ≠ 0 → s.variantAt r = s.strokeFault r 0x0E 0) ∧
    ((s.scribe r.scribe).ret = 0 → oSpace (kSrc0 r.d) ≠ 2 → s.variantAt r = s.strokeFault r 0x0A 0) ∧
    (∀ v w b tb, (s.scribe r.scribe).ret = 0 → s.watchable r (kSrc0 r.d) = true →
      s.readOp r 2 (oAddr r.k (kSrc0 r.d)) 8 = .ok v b → bits (leNat b) 63 32 = (v.quire r.q).lastStep.toNat % 2 ^ 32 →
      v.readOp r (oSpace (kSrc1 r.d)) (oAddr r.k (kSrc1 r.d) + 8 * bits (leNat b) 4 0) 8 = .ok w tb → bit (leNat tb) 63 = false →
      s.variantAt r = w.strokeFault r 0x0E 0))

/-- LIVEANY and CMP set the predicate IMM2[10:8] at their barrier, from the live rows and from a comparison, and every scribe of the
mask passes (04_strokes.md R156). RET continues after the VARIANT and END returns to the script's first stroke; either faults in the
wrong place (R161, R163). What a predicate reads and cannot, faults. -/
def Obligations.BranchRows : Prop :=
  (∀ (q : Fin 64) (k : Fin 8) (s u v w0 w : State) (r : Run) (b : List Byte), s.powered = true →
    MayRun s q.val k.val 0x12 (· == 0) r u →
    v = u.setScribe r.scribe { u.scribe r.scribe with pc := r.pc, atBarrier := true } → v.allAt r = true →
    v.readOp { r with k := lowScribe r.d } 1 (64 * kRowblk r.d) 576 = .ok w0 b →
    w0.sampleMask r.i r.c ((((List.range (min 64 (leNat (b.take 4)))).map fun m => leNat ((b.drop (64 + 8 * m)).take 8)).filter
      eValid).map eAct) = (w, .ok ()) →
    exec (.liveany q k) s = .next (w.setPred { r with k := lowScribe r.d }
      ((List.range (min 64 (leNat (b.take 4)))).any fun m =>
        eValid (leNat ((b.drop (64 + 8 * m)).take 8)) && w.liveBit r.i r.c (eAct (leNat ((b.drop (64 + 8 * m)).take 8)))))) ∧
  (∀ (q : Fin 64) (k : Fin 8) (s u v w : State) (r : Run) (b : List Byte), s.powered = true →
    MayRun s q.val k.val 0x12 (· == 1) r u →
    v = u.setScribe r.scribe { u.scribe r.scribe with pc := r.pc, atBarrier := true } → v.allAt r = true →
    v.readOp { r with k := lowScribe r.d } (oSpace (kSrc0 r.d)) (oAddr (lowScribe r.d) (kSrc0 r.d)) 8 = .ok w b →
    exec (.cmp q k) s = .next (w.setPred { r with k := lowScribe r.d }
      (match kImm2 r.d % 4 with
        | 0 => decide (kSrc2 r.d ≤ leNat b)
        | 1 => leNat b == kSrc2 r.d
        | 2 => leNat b != kSrc2 r.d
        | _ => decide (leNat b < kSrc2 r.d)))) ∧
  (∀ (s : State) (r : Run) (x : Bool),
    ((s.setPred r x).quire r.q).preds.getLsbD (bits (kImm2 r.d) 10 8) = x ∧
    ∀ j, j < 8 → j ≠ bits (kImm2 r.d) 10 8 → ((s.setPred r x).quire r.q).preds.getLsbD j = (s.quire r.q).preds.getLsbD j) ∧
  (∀ (q : Fin 64) (k : Fin 8) (lost : Nat) (s u : State) (r : Run), s.powered = true →
    MayRun s q.val k.val 0x19 (fun _ => true) r u →
    ((u.scribe r.scribe).ret ≠ 0 → ∃ v : State, exec (.ret q k lost) s = .next (v.passed r (u.scribe r.scribe).ret true) ∧
      (v.scribe r.scribe).ret = 0 ∧ v.mem = u.mem) ∧
    ((u.scribe r.scribe).ret = 0 → exec (.ret q k lost) s = .next (u.strokeFault r 0x0E 0))) ∧
  (∀ (q : Fin 64) (k : Fin 8) (lost : Nat) (s u : State) (r : Run), s.powered = true →
    MayRun s q.val k.val 0x1F (fun _ => true) r u →
    ((u.scribe r.scribe).ret = 0 → exec (.end_ q k lost) s = .next (u.passed r (u.quire r.q).entry true)) ∧
    ((u.scribe r.scribe).ret ≠ 0 → exec (.end_ q k lost) s = .next (u.strokeFault r 0x0E 0))) ∧
  (∀ row ∈ [((Instr.liveany : Fin 64 → Fin 8 → Instr), 0), (.cmp, 1)], ∀ (q : Fin 64) (k : Fin 8) (s u v : State) (r : Run),
    s.powered = true → MayRun s q.val k.val 0x12 (· == row.2) r u →
    v = u.setScribe r.scribe { u.scribe r.scribe with pc := r.pc, atBarrier := true } →
    (v.allAt r = false → exec (row.1 q k) s = .next v) ∧
    (∀ w c a, v.allAt r = true → (if row.2 = 0 then v.readOp { r with k := lowScribe r.d } 1 (64 * kRowblk r.d) 576
        else v.readOp { r with k := lowScribe r.d } (oSpace (kSrc0 r.d)) (oAddr (lowScribe r.d) (kSrc0 r.d)) 8) = .bad w c a →
      exec (row.1 q k) s = .next (w.strokeFault { r with k := lowScribe r.d } c a))) ∧
  (∀ (q : Fin 64) (k : Fin 8) (s u v w0 w : State) (r : Run) (b : List Byte) (a : Nat), s.powered = true →
    MayRun s q.val k.val 0x12 (· == 0) r u →
    v = u.setScribe r.scribe { u.scribe r.scribe with pc := r.pc, atBarrier := true } → v.allAt r = true →
    v.readOp { r with k := lowScribe r.d } 1 (64 * kRowblk r.d) 576 = .ok w0 b →
    w0.sampleMask r.i r.c ((((List.range (min 64 (leNat (b.take 4)))).map fun m => leNat ((b.drop (64 + 8 * m)).take 8)).filter
      eValid).map eAct) = (w, .error a) →
    exec (.liveany q k) s = .next (w.strokeFault { r with k := lowScribe r.d } 0x0D a))

/-- A stroke that reaches 16,384 cycles and is no wait is counted and faults its live context with cause 0x08 (03_scribe.md R97). At
a sample of the live mask, the rows of the running stroke whose slip is not live any more are dropped from it, and nothing else
changes but what reading the mask does (R104). A write to a line wakes a scribe that waits on a word of it: the scribe passes when
the condition holds and goes on watching when it does not; a write to a line that nothing watches wakes no one (R99, R102). The row
block a sample reads stays as it is for the stroke (04 R131). A write that leaves the word of a quire's STEP wait at neither the
last step sequence nor the next posts the event of R153. Where nothing of the kind runs, these rows have no effect. -/
def Obligations.SequencerEvents : Prop :=
  (∀ (q : Fin 64) (k : Fin 8) (s : State) (i c : Nat) (e : Fetched), s.powered = true → s.runsOn q.val = some (i, c) →
    e = State.seek i k.val scriptFuel (s.scribe (8 * q.val + k.val)).pc s → e.cause = 0 → isWait e.d = false →
    (s.scribe (8 * q.val + k.val)).watch = none → (s.scribe (8 * q.val + k.val)).atBarrier = false →
    i < 16 → c < 8 → e.st.live i c = true →
    ∃ t, exec (.strokeOverrun q k) s = .next t ∧
      t = (e.st.bumpSat (Reg.OVERRUN q.val)).strokeFault ⟨i, c, q.val, k.val, e.pc, e.d⟩ 0x08 0 ∧ t.ctxState i c = 5 ∧
      t.word (Reg.OVERRUN q.val) = BitVec.ofNat 32 (sat32 ((e.st.word (Reg.OVERRUN q.val)).toNat + 1))) ∧
  (∀ (q : Fin 64) (k : Fin 8) (s u v : State) (i c : Nat) (e : Fetched) (r : Run) (b : List Byte) (ent : Nat → Nat), s.powered = true →
    s.runsOn q.val = some (i, c) → e = State.seek i k.val scriptFuel (s.scribe (8 * q.val + k.val)).pc s → e.cause = 0 →
    kRbv e.d = true → hasRows (kOp e.d) = true → fetchCause k.val e.d = 0 → s.skipped q.val e.d = false →
    r = ⟨i, c, q.val, k.val, e.pc, e.d⟩ → e.st.rowBlock r = .ok u b → b.length = 576 →
    (∀ m, ent m = leNat ((b.drop (64 + 8 * m)).take 8)) →
    (u.sampleMask i c ((((List.range 64).map ent).filter eValid).map eAct) = (v, .ok ()) →
      ∃ t, exec (.liveMaskSample q k) s = .next t ∧ t = { v with scribes := t.scribes } ∧
        (∀ n, n ≠ r.scribe → t.scribe n = v.scribe n) ∧ t.kept r 1 (64 * kRowblk e.d) 576 = v.kept r 1 (64 * kRowblk e.d) 576 ∧
        (t.scribe r.scribe).pc = (v.scribe r.scribe).pc ∧ (t.scribe r.scribe).watch = (v.scribe r.scribe).watch ∧
        ∀ m, m ∈ (t.scribe r.scribe).dropped ↔
          m ∈ (v.scribe r.scribe).dropped ∨ (m < 64 ∧ eValid (ent m) = true ∧ v.liveBit i c (eAct (ent m)) = false)) ∧
    (∀ a, u.sampleMask i c ((((List.range 64).map ent).filter eValid).map eAct) = (v, .error a) →
      exec (.liveMaskSample q k) s = .next (v.strokeFault r 0x0D a))) ∧
  (∀ (s u : State) (r : Run) (b : List Byte), s.rowBlock r = .ok u b → u.kept r 1 (64 * kRowblk r.d) 576 = some b) ∧
  (∀ (line : BitVec 42) (q : Fin 64) (k : Fin 8) (s v : State) (i c a : Nat) (e : Fetched) (r : Run) (b : List Byte),
    s.powered = true → (s.scribe (8 * q.val + k.val)).watch = some a → a / 64 = line.toNat / 64 →
    (∀ n x, n < 512 → n ≠ 8 * q.val + k.val → (s.scribe n).watch = some x → x / 64 ≠ line.toNat / 64) →
    (∀ n x, n < 64 → (s.quire n).stepAt = some x → x / 64 ≠ line.toNat / 64) →
    s.runsOn q.val = some (i, c) → e = State.seek i k.val scriptFuel (s.scribe (8 * q.val + k.val)).pc s → e.cause = 0 →
    kOp e.d = 0x10 → kSub e.d < 3 → r = ⟨i, c, q.val, k.val, e.pc, e.d⟩ → oAddr r.k (kSrc0 r.d) = a →
    e.st.watchable r (kSrc0 r.d) = true → e.st.readOp r 2 a 8 = .ok v b →
    ((match kSub e.d with
      | 0 => kSrc2 e.d ≤ leNat b
      | 1 => leNat b = kSrc2 e.d
      | _ => leNat b ≠ kSrc2 e.d) → exec (.watchWake line) s = .next (v.passed r (r.pc + 64) true)) ∧
    (¬(match kSub e.d with
      | 0 => kSrc2 e.d ≤ leNat b
      | 1 => leNat b = kSrc2 e.d
      | _ => leNat b ≠ kSrc2 e.d) → exec (.watchWake line) s = .next v)) ∧
  (∀ (line : BitVec 42) (s : State), s.powered = true →
    (∀ n x, n < 512 → (s.scribe n).watch = some x → x / 64 ≠ line.toNat / 64) →
    (∀ n x, n < 64 → (s.quire n).stepAt = some x → x / 64 ≠ line.toNat / 64) → exec (.watchWake line) s = .next s) ∧
  (∀ (s : State) (q i c a line : Nat), s.runsOn q = some (i, c) → (s.quire q).stepAt = some a → a / 64 = line / 64 →
    s.stepEvent q line =
      if s.tierLe a 8 = (s.quire q).lastStep.toNat ∨ s.tierLe a 8 = ((s.quire q).lastStep.toNat + 1) % 2 ^ 64 then s
      else s.post 0x0403 [q, s.tierLe a 8]) ∧
  (∀ (q : Fin 64) (k : Fin 8) (s : State), s.powered = true →
    (s.runsOn q.val = none → exec (.strokeOverrun q k) s = .next s ∧ exec (.liveMaskSample q k) s = .next s) ∧
    (∀ (i c : Nat) (e : Fetched), s.runsOn q.val = some (i, c) →
      e = State.seek i k.val scriptFuel (s.scribe (8 * q.val + k.val)).pc s →
      ((e.cause ≠ 0 ∨ isWait e.d = true ∨ (s.scribe (8 * q.val + k.val)).watch ≠ none ∨
        (s.scribe (8 * q.val + k.val)).atBarrier = true) → exec (.strokeOverrun q k) s = .next s) ∧
      ((e.cause ≠ 0 ∨ kRbv e.d = false ∨ hasRows (kOp e.d) = false ∨ fetchCause k.val e.d ≠ 0 ∨ s.skipped q.val e.d = true) →
        exec (.liveMaskSample q k) s = .next s)))

/-! ## Sheets and contexts -/

/-- The sheet commands in the state each needs (10_sheets.md R395 to R397, R418 to R420): SCMD_STAT reads OK and the sheet has its
new state, masks and memory; the wells of a gated quire and the slices of a woken sheet are zero (the former is the model's choice,
log entry 141). A sheet command in another state is refused: SCMD_STAT reads STATE and nothing else changes (R397). Bad masks are
refused with SHAPE. -/
def Obligations.SheetRows : Prop :=
  (∀ (i : Fin 16) (s : State), s.powered = true → s.sheetState i.val = 0 →
    s.shapeBad i.val (s.qmaskReg i.val) (s.slicesReg i.val) = false →
    ∃ t, exec (.assign i) s = .next t ∧ t.sheetState i.val = 1 ∧ t.rd (Reg.SCMD_STAT i.val) 1 0 = 0 ∧
      (t.sheet i.val).qmask = s.qmaskReg i.val ∧ (t.sheet i.val).slices = s.slicesReg i.val ∧ (t.sheet i.val).wakeTo = 2 ∧
      (∀ q k o, q ∈ t.quiresOf i.val → k < 8 → o < 0x180000 → Mem.read1 t.mem (physWell (8 * q + k) o) = 0) ∧
      (∀ a, physT1 0 ≤ a → a < physWell 0 0 ∨ physCarve 0 ≤ a → Mem.read1 t.mem a = Mem.read1 s.mem a)) ∧
  (∀ (i : Fin 16) (s : State), s.powered = true → s.sheetState i.val = 4 →
    s.shapeBad i.val (s.qmaskReg i.val) (s.slicesReg i.val) = false →
    ∃ t, exec (.reshape i) s = .next t ∧ t.sheetState i.val = 1 ∧ t.rd (Reg.SCMD_STAT i.val) 1 0 = 0 ∧
      (t.sheet i.val).qmask = s.qmaskReg i.val ∧ (t.sheet i.val).slices = s.slicesReg i.val ∧ (t.sheet i.val).wakeTo = 4 ∧
      (∀ q k o, q ∈ t.quiresOf i.val → k < 8 → o < 0x180000 → Mem.read1 t.mem (physWell (8 * q + k) o) = 0) ∧
      (∀ a, physT1 0 ≤ a → a < physWell 0 0 ∨ physCarve 0 ≤ a → Mem.read1 t.mem a = Mem.read1 s.mem a)) ∧
  (∀ (i : Fin 16) (s : State), s.powered = true → s.sheetState i.val = 1 →
    ((s.sheet i.val).wakeTo = 2 ∨ (s.sheet i.val).wakeTo = 4) → (∀ c, c < 8 → s.ctxState i.val c = 0) → s.tierCmds = [] →
    RingsKept s → ∃ t, exec (.sheetWakeComplete i) s = .next t ∧ t.sheetState i.val = (s.sheet i.val).wakeTo ∧
      ((s.sheet i.val).zeroed = true → t.mem = s.mem) ∧
      ((s.sheet i.val).zeroed = false →
        (∀ q k o, q ∈ s.quiresOf i.val → k < 8 → o < 0x180000 → Mem.read1 t.mem (physWell (8 * q + k) o) = 0) ∧
        (∀ n o, n ∈ s.slicesOf i.val → o < 65536 * (sliceRange n).2 → Mem.read1 t.mem (physT0 (sliceRange n).1 + o) = 0) ∧
        (∀ a, physT1 0 ≤ a → a < physWell 0 0 ∨ physCarve 0 ≤ a → Mem.read1 t.mem a = Mem.read1 s.mem a))) ∧
  (∀ (i : Fin 16) (s : State), s.powered = true → s.sheetState i.val = 2 →
    (∀ c, c < 8 → s.ctxState i.val c = 0) → (s.sheet i.val).cur = none →
    ∃ t, exec (.drain i) s = .next t ∧ t.sheetState i.val = 3 ∧ t.rd (Reg.SCMD_STAT i.val) 1 0 = 0 ∧
      Only [Reg.SCTL i.val, Reg.SCMD_STAT i.val] s t) ∧
  (∀ (i : Fin 16) (s : State), s.powered = true → s.sheetState i.val = 2 →
    exec (.drain i) s = .next (((s.setSheetState i.val 3).scmdStat i.val 0).drainSweep i.val)) ∧
  (∀ (i : Fin 16) (s : State), s.powered = true → s.sheetState i.val = 4 → s.sec.scribeOld ≠ [] → i.val ∉ s.sec.scribeOld →
    (∀ c, c < 8 → s.ctxState i.val c = 0) →
    ∃ t, exec (.reopen i) s = .next t ∧ t.sheetState i.val = 2 ∧ t.rd (Reg.SCMD_STAT i.val) 1 0 = 0 ∧
      Only [Reg.SCTL i.val, Reg.SCMD_STAT i.val] s t) ∧
  (∀ (i : Fin 16) (s : State), s.powered = true → s.sheetState i.val = 4 →
    exec (.reopen i) s = .next ((((s.loadScribeCode i.val).setSheetState i.val 2).scmdStat i.val 0).schedule i.val)) ∧
  (∀ (i : Fin 16) (s : State), s.powered = true → s.sheetState i.val = 4 →
    ∃ t, exec (.sheetRelease i) s = .next t ∧ t.sheetState i.val = 0 ∧ t.rd (Reg.SCMD_STAT i.val) 1 0 = 0 ∧
      t.word (Reg.QMASK_LO i.val) = 0 ∧ t.word (Reg.QMASK_HI i.val) = 0 ∧ t.word (Reg.SLICES_LO i.val) = 0 ∧
      t.word (Reg.SLICES_HI i.val) = 0 ∧ (t.sheet i.val).qmask = 0 ∧ (t.sheet i.val).slices = 0 ∧
      (∀ q k o, q ∈ s.quiresOf i.val → k < 8 → o < 0x180000 → Mem.read1 t.mem (physWell (8 * q + k) o) = 0) ∧
      (∀ a, physT1 0 ≤ a → a < physWell 0 0 ∨ physCarve 0 ≤ a → Mem.read1 t.mem a = Mem.read1 s.mem a)) ∧
  (∀ (i : Fin 16) (s : State), s.powered = true → s.sheetState i.val = 2 ∨ s.sheetState i.val = 3 →
    exec (.teardown i) s = .next ((s.tearSheet i.val).scmdStat i.val 0)) ∧
  (∀ (i : Fin 16) (s : State), s.powered = true → s.sheetState i.val = 2 ∨ s.sheetState i.val = 3 →
    (∀ c, c < 8 → s.ctxState i.val c = 0 ∨ s.ctxState i.val c = 5) → s.dma = [] →
    ∃ t, exec (.teardown i) s = .next t ∧ t.sheetState i.val = 4 ∧ (∀ c, c < 8 → t.ctxState i.val c = 0) ∧
      (∀ c, c < 8 → t.rdb (Reg.CCFG i.val c) 31 = false) ∧ t.rd (Reg.SCMD_STAT i.val) 1 0 = 0) ∧
  (∀ (i : Fin 16) (s : State), s.powered = true → s.sheetState i.val = 3 → (∀ c, c < 8 → s.ctxState i.val c = 0) →
    s.dma = [] → ∃ t, exec (.sheetDrained i) s = .next t ∧ t.sheetState i.val = 4 ∧ Only [Reg.SCTL i.val] s t) ∧
  (∀ (i : Fin 16) (s : State) (cmd : Fin 16 → Instr), s.powered = true →
    (cmd = .assign ∧ s.sheetState i.val ≠ 0 ∨ cmd = .drain ∧ s.sheetState i.val ≠ 2 ∨ cmd = .reopen ∧ s.sheetState i.val ≠ 4 ∨
      cmd = .reshape ∧ s.sheetState i.val ≠ 4 ∨ cmd = .sheetRelease ∧ s.sheetState i.val ≠ 4 ∨
      cmd = .teardown ∧ s.sheetState i.val ≠ 2 ∧ s.sheetState i.val ≠ 3) →
    ∃ t, exec (cmd i) s = .next t ∧ t.rd (Reg.SCMD_STAT i.val) 1 0 = 1 ∧ Only [Reg.SCMD_STAT i.val] s t) ∧
  (∀ (i : Fin 16) (s : State), s.powered = true → s.shapeBad i.val (s.qmaskReg i.val) (s.slicesReg i.val) = true →
    (s.sheetState i.val = 0 → exec (.assign i) s = .next (s.wr (Reg.SCMD_STAT i.val) 1 0 2)) ∧
    (s.sheetState i.val = 4 → exec (.reshape i) s = .next (s.wr (Reg.SCMD_STAT i.val) 1 0 2))) ∧
  (∀ (i : Fin 16) (s : State), s.powered = true →
    (s.sheetState i.val ≠ 1 → exec (.sheetWakeComplete i) s = .next s) ∧
    (s.sheetState i.val ≠ 3 ∨ s.drained i.val = false → exec (.sheetDrained i) s = .next s))

/-- The context commands (10_sheets.md R402, R406): START makes a context READY and enabled with a new GEN, STOP and RESET put it to
OFF. A context fault stops its context: STATE is FAULTED, GEN goes on and FAULTS counts it; a context that is OFF or FAULTED already
does not fault (R416). A context command that may not be given is logged and has no other effect. -/
def Obligations.ContextRows : Prop :=
  (∀ (i : Fin 16) (c : Fin 8) (s : State), s.powered = true → s.ctxState i.val c.val = 0 → s.sheetState i.val = 2 →
    s.scbOk i.val = true → s.bindingsOk i.val c.val = true → s.saveAreasOk i.val c.val = true →
    ((s.sheet i.val).saving.isSome = true ∨ (s.sheet i.val).restoring.isSome = true) →
    ∃ t, exec (.contextStart i c) s = .next t ∧ t.ctxState i.val c.val = 1 ∧ t.rdb (Reg.CCFG i.val c.val) 31 = true ∧
      t.gen i.val c.val = (s.gen i.val c.val + 1) % 256 ∧ (t.ctx i.val c.val).begun = false) ∧
  (∀ (i : Fin 16) (c : Fin 8) (s : State), s.powered = true → s.ctxState i.val c.val = 0 → s.sheetState i.val = 2 →
    s.scbOk i.val = true → s.bindingsOk i.val c.val = true → s.saveAreasOk i.val c.val = true →
    (s.sheet i.val).saving = none → (s.sheet i.val).restoring = none → (s.sheet i.val).cur = none →
    (∀ d, d < 8 → d ≠ c.val → s.ctxState i.val d ≠ 1) →
    ∃ t, exec (.contextStart i c) s = .next t ∧ t.ctxState i.val c.val = 4 ∧ (t.sheet i.val).restoring = some c.val ∧
      t.rdb (Reg.CCFG i.val c.val) 31 = true ∧ t.gen i.val c.val = (s.gen i.val c.val + 1) % 256) ∧
  (∀ (i : Fin 16) (c : Fin 8) (s : State), s.powered = true → s.live i.val c.val = true →
    ∃ t, exec (.contextStop i c) s = .next t ∧ t.ctxState i.val c.val = 0 ∧ t.rdb (Reg.CCFG i.val c.val) 31 = false) ∧
  (∀ (i : Fin 16) (c : Fin 8) (s : State), s.powered = true → s.ctxState i.val c.val = 5 →
    ∃ t, exec (.contextReset i c) s = .next t ∧ t.ctxState i.val c.val = 0 ∧ t.rdb (Reg.CCFG i.val c.val) 31 = false ∧
      t.gen i.val c.val = s.gen i.val c.val ∧ Only [Reg.CSTAT i.val c.val, Reg.CCFG i.val c.val] s t) ∧
  (∀ (s : State) (i c cause scribe f1 f2 : Nat), i < 16 → c < 8 → s.live i c = true →
    (s.ctxFault i c cause scribe f1 f2).ctxState i c = 5 ∧
    (s.ctxFault i c cause scribe f1 f2).gen i c = (s.gen i c + 1) % 256 ∧
    (s.ctxFault i c cause scribe f1 f2).word (Reg.FAULTS i) = BitVec.ofNat 32 (sat32 ((s.word (Reg.FAULTS i)).toNat + 1))) ∧
  (∀ (s : State) (i c cause scribe f1 f2 : Nat), s.live i c = false → s.ctxFault i c cause scribe f1 f2 = s) ∧
  (∀ (i : Fin 16) (c : Fin 8) (s : State), s.powered = true →
    (s.ctxState i.val c.val ≠ 0 ∨ s.sheetState i.val ≠ 2 ∨ s.scbOk i.val = false ∨ s.bindingsOk i.val c.val = false ∨
      s.saveAreasOk i.val c.val = false → exec (.contextStart i c) s = .next (s.logWrite (Reg.CCMD i.val c.val) 1)) ∧
    (s.live i.val c.val = false → exec (.contextStop i c) s = .next (s.logWrite (Reg.CCMD i.val c.val) 2)) ∧
    (s.ctxState i.val c.val ≠ 5 → exec (.contextReset i c) s = .next (s.logWrite (Reg.CCMD i.val c.val) 3)))

/-- Switches: an expired quantum or yield starts the save of the resident context when R405 lets another one run, a saved context is
WAITING or READY, a restored one is RESIDENT (R405, R410, R411). A row that nothing waits for has no effect; a context whose saved
state cannot be read faults. -/
def Obligations.SwitchRows : Prop :=
  (∀ (i : Fin 16) (r d : Nat) (s : State), s.powered = true → (s.sheet i.val).cur = some r → s.bestReady i.val = some d →
    s.prio i.val r ≤ s.prio i.val d → s.savable i.val r = true → r < 8 →
    ∃ t, exec (.quantumExpiry i) s = .next t ∧ t.ctxState i.val r = 4 ∧ (t.sheet i.val).saving = some r ∧
      (t.sheet i.val).cur = none ∧ t.mem = s.mem) ∧
  (∀ (i : Fin 16) (r d : Nat) (s : State), s.powered = true → (s.sheet i.val).cur = some r → s.bestReady i.val = some d →
    s.allWatching i.val = true → s.savable i.val r = true → r < 8 →
    ∃ t, exec (.yieldExpiry i) s = .next t ∧ t.ctxState i.val r = 4 ∧ (t.sheet i.val).saving = some r ∧
      (t.sheet i.val).cur = none ∧ t.mem = s.mem) ∧
  (∀ (i : Fin 16) (c : Nat) (s : State), s.powered = true → (s.sheet i.val).saving = some c → c < 8 →
    (s.saveAreaOk i.val c = true → ∀ v, s.saveReads i.val = (v, none) →
      ∃ u w, w = State.schedule (State.drainSweep u i.val) i.val ∧
        exec (.saveComplete i) s = .next (if (w.sheet i.val).restoring.isSome then
          w.setSheet i.val { w.sheet i.val with resSince := (v.sheet i.val).resSince } else w) ∧
        (u.sheet i.val).saving = none ∧ (u.sheet i.val).early = false ∧
        u.ctxState i.val c =
          (if v.allWatching i.val && !(v.sheet i.val).early && decide ((v.watchLines i.val).length ≤ 16) then 3 else 1)) ∧
    (s.saveAreaOk i.val c = true → ∀ v a, s.saveReads i.val = (v, some a) →
      exec (.saveComplete i) s = .next (v.ctxFault i.val c 0x0D 0 0 a)) ∧
    (s.saveAreaOk i.val c = false → exec (.saveComplete i) s = .next (s.ctxFault i.val c 0x0A 0 0 0))) ∧
  (∀ (i : Fin 16) (c : Nat) (s : State), s.powered = true → (s.sheet i.val).restoring = some c → c < 8 →
    (s.ctx i.val c).begun = false →
    ∃ u, exec (.restoreComplete i) s = .next (State.schedule u i.val) ∧ (u.sheet i.val).cur = some c ∧
      (u.sheet i.val).restoring = none ∧ u.ctxState i.val c = 2 ∧ (u.ctx i.val c).begun = true ∧
      u.mem = ((s.quiresOf i.val).foldl (fun v q => (v.bindSeen i.val c q).recSeen i.val c) s).mem) ∧
  (∀ (line : BitVec 42) (s : State), s.powered = true → (∀ i c, i < 16 → c < 8 → s.ctxState i c ≠ 3) →
    (∀ i, i < 16 → s.sheetState i = 0) →  (∀ i, i < 16 → (s.sheet i).saving = none) →
    exec (.waitingWake line) s = .next s) ∧
  (∀ (line : BitVec 42) (s : State), s.powered = true → exec (.waitingWake line) s = .next (s.wakeWaiting line.toNat)) ∧
  (∀ (i : Fin 16) (s : State), s.powered = true →
    ((s.sheet i.val).cur = none ∨ s.bestReady i.val = none → exec (.quantumExpiry i) s = .next s ∧ exec (.yieldExpiry i) s = .next s) ∧
    (∀ r d, (s.sheet i.val).cur = some r → s.bestReady i.val = some d →
      (s.prio i.val d < s.prio i.val r ∨ s.savable i.val r = false → exec (.quantumExpiry i) s = .next s) ∧
      (s.allWatching i.val = false ∨ s.savable i.val r = false → exec (.yieldExpiry i) s = .next s)) ∧
    ((s.sheet i.val).saving = none → exec (.saveComplete i) s = .next s) ∧
    ((s.sheet i.val).restoring = none → exec (.restoreComplete i) s = .next s)) ∧
  (∀ (i : Fin 16) (c : Nat) (s : State), s.powered = true → (s.sheet i.val).restoring = some c →
    (s.ctx i.val c).begun = true → bit (s.recW i.val c 0x28) 16 = true →
    (s.saveReadable i.val c = false → exec (.restoreComplete i) s = .next (s.ctxFault i.val c 0x0A 0 0 0)) ∧
    (s.saveReadable i.val c = true → ∀ v a, s.restoreReads i.val c = (v, some a) →
      exec (.restoreComplete i) s = .next (v.ctxFault i.val c 0x0A 0 0 0)))

/-! ## The memory tiers and DMA -/

/-- A tier command at the head of its ring is taken: MCQ_CONS goes on, its record reads RUNNING, and it runs over its granules;
ABORT ends the command its TREC names (R182 to R188). With nothing in the ring, or a ring that does not lie where it must, nothing
is taken (06 R748). A row for another command than the one at the head takes none; a command whose record lies badly posts its
event, and a bad one ends BADOP. -/
def Obligations.TierRows : Prop :=
  (∀ row ∈ tierRows, ∀ (s h u : State) (e : Nat), TierReady s h e → bits e 7 0 = row.2 →
    u = takenAs h Reg.MCQ_CONS (bits e 255 208) 0 3 →
    exec row.1 s = .next (State.tierSweep (State.tierRun (bits e 127 112 + 1) (tierCmdOf e)
      { u with tierCmds := u.tierCmds ++ [tierCmdOf e] }))) ∧
  (∀ (s h u v : State) (e : Nat) (x : Option Nat), TierReady s h e → bits e 7 0 = 8 →
    u = takenAs h Reg.MCQ_CONS (bits e 255 208) 0 3 →
    u.tierAbort (bits e 255 208) (bits e 175 128) = (v, x) →
    exec .tierAbort s = .next (match x with
      | none => v
      | some o => v.recEnd (physCarve (bits e 255 208)) 0 0xFF 3 o 0 0)) ∧
  (∀ (s : State) (row : Instr × Nat), row ∈ tierRows ∨ row = (.tierAbort, 8) → s.powered = true → (tierHead s).entry = none →
    exec row.1 s = .next (tierHead s).st) ∧
  (∀ (row : Instr × Nat) (s h : State) (e : Nat), row ∈ tierRows ∨ row = (.tierAbort, 8) → s.powered = true →
    tierHead s = ⟨h, some e⟩ →
    (bits e 7 0 ≠ row.2 → 1 ≤ bits e 7 0 → bits e 7 0 ≤ 8 → exec row.1 s = .next h) ∧
    ((bits e 7 0 = row.2 ∨ bits e 7 0 = 0 ∨ 8 < bits e 7 0) →
      ((h.bump Reg.MCQ_CONS).carveRecOk (bits e 255 208) = false →
        exec row.1 s = .next ((h.bump Reg.MCQ_CONS).post 0x0806 [3, bits e 255 208, 0xFF])) ∧
      (CanTake h Reg.MCQ_CONS (bits e 255 208) → tierBad e = true →
        exec row.1 s = .next (State.recEnd (takenAs h Reg.MCQ_CONS (bits e 255 208) 0 3)
          (physCarve (bits e 255 208)) 0 0xFF 3 7 0 0))))

/-- What DRY, UNDRY, PIN, UNPIN and UNMAP do to one granule that needs no move: the mark they name changes, the other mark and the place
stay, and WR counts the writable granules (05_memory.md R184, R201). A tier-table entry holds its fields, each read back as it was
put, and a write of one entry leaves the others and the rest of memory (R173, R174). -/
def Obligations.TierMarks : Prop :=
  (∀ (s : State) (c : TierCmd) (g : Nat), c.sheet < 16 → s.inRun c.sheet g = true → entValid (s.entry g) = true →
    s.sheetState c.sheet ≠ 1 → s.entryBad g = false →
    (c.op = 3 → entDry (s.entry g) = false → ∃ t, s.tierOne c g = .done t ∧ entDry (t.entry g) = true ∧
      entPin (t.entry g) = entPin (s.entry g) ∧ SamePlace (t.entry g) (s.entry g) ∧
      t.word (Reg.WR c.sheet) = s.word (Reg.WR c.sheet) - 1) ∧
    (c.op = 4 → entMoving (s.entry g) = false → entDry (s.entry g) = true → entTier (s.entry g) ≠ 2 →
      s.writableRoom c.sheet = true → ∃ t, s.tierOne c g = .done t ∧ entDry (t.entry g) = false ∧
      entPin (t.entry g) = entPin (s.entry g) ∧ SamePlace (t.entry g) (s.entry g) ∧
      t.word (Reg.WR c.sheet) = s.word (Reg.WR c.sheet) + 1) ∧
    (c.op = 5 → entMoving (s.entry g) = false → entTier (s.entry g) = 0 → ∃ t, s.tierOne c g = .done t ∧
      entPin (t.entry g) = true ∧ entDry (t.entry g) = entDry (s.entry g) ∧ SamePlace (t.entry g) (s.entry g) ∧
      ∀ o, o ∉ [Reg.QW_PEND_LO, Reg.QW_PEND_HI] → t.word o = s.word o) ∧
    (c.op = 6 → entMoving (s.entry g) = false → ∃ t, s.tierOne c g = .done t ∧
      entPin (t.entry g) = false ∧ entDry (t.entry g) = entDry (s.entry g) ∧ SamePlace (t.entry g) (s.entry g) ∧
      ∀ o, o ∉ [Reg.QW_PEND_LO, Reg.QW_PEND_HI] → t.word o = s.word o) ∧
    (c.op = 2 → s.moves = [] → ∃ t, s.tierOne c g = .done t ∧ t.entry g = 0 ∧
      ∀ j, j ≠ g → t.entry j = s.entry j)) ∧
  (∀ (sheet tier dtier dloc loc : Nat) (dry pin moving : Bool), sheet < 16 → tier < 4 → dtier < 4 → dloc < 2 ^ 25 → loc < 2 ^ 25 →
    let e := mkEntry sheet dry pin moving tier dtier dloc loc
    e < 2 ^ 64 ∧ entValid e = true ∧ entSheet e = sheet ∧ entDry e = dry ∧ entPin e = pin ∧ entMoving e = moving ∧
    entTier e = tier ∧ bits e 53 52 = dtier ∧ bits e 49 25 = dloc ∧ entLoc e = loc) ∧
  (∀ (s : State) (g j e : Nat), (s.setEntry g e).entry g = e % 2 ^ 64 ∧ (j ≠ g → (s.setEntry g e).entry j = s.entry j) ∧
    (∀ a, (a < physCarve (s.chip.ttBase + 8 * g) ∨ physCarve (s.chip.ttBase + 8 * g) + 8 ≤ a) →
      Mem.read1 (s.setEntry g e).mem a = Mem.read1 s.mem a))

/-- MAP gives a granule the location that placement chose: the entry is writable and unpinned there, and the location reads zero
(05_memory.md R184, R196, R203). A granule that moves keeps its bytes and its marks: after the copy its entry names the new place,
and the place holds what the old one held (R189, R192, R195). A line of T1 or T2 and its check bytes stand at their place in the
devices, and no two lines of T1 share one (R207, R210 to R212). -/
def Obligations.GranulePlaces : Prop :=
  (∀ (s u : State) (c : TierCmd) (g l tier : Nat), c.op = 1 → c.sheet < 16 → s.inRun c.sheet g = true →
    entValid (s.entry g) = false → s.sheetState c.sheet ≠ 1 → s.writableRoom c.sheet = true → l < 2 ^ 25 →
    tier = (if s.claimed c.sheet 0 < s.quota c.sheet 0 then 0 else 1) →
    s.room c.sheet tier (if tier = 0 then s.saveDie c.sheet g else none) = (u, some l) →
    ∃ t, s.tierOne c g = .done t ∧ t.entry g = mkEntry c.sheet false false false tier 0 0 l ∧
      ∀ o, o < 65536 → Mem.read1 t.mem (locPhys tier l + o) = 0) ∧
  (∀ (s : State) (g tier loc : Nat), tier < 3 → loc < 2 ^ 25 → Sound s →
    s.deadT2 (locPhys (entTier (s.entry g)) (entLoc (s.entry g))) = false →
    (s.relocate g tier loc).2 = true ∧
    entTier ((s.relocate g tier loc).1.entry g) = tier ∧ entLoc ((s.relocate g tier loc).1.entry g) = loc ∧
    entDry ((s.relocate g tier loc).1.entry g) = entDry (s.entry g) ∧
    entPin ((s.relocate g tier loc).1.entry g) = entPin (s.entry g) ∧
    entMoving ((s.relocate g tier loc).1.entry g) = false ∧
    ∀ o, o < 65536 → Mem.read1 (s.relocate g tier loc).1.mem (locPhys tier loc + o) =
      Mem.read1 s.mem (locPhys (entTier (s.entry g)) (entLoc (s.entry g)) + o)) ∧
  (∀ (s : State) (port n line j : Nat), line < 1024 →
    (j < 64 → s.t1Byte (t1Place n line).dev ((t1Place n line).data + j) = s.storedByte (s.t1Phys n + 64 * line) j ∧
      s.t2Byte (t2Place port n line).dev ((t2Place port n line).data + j) =
        s.storedByte (physT2 port n + 64 * line) j) ∧
    (j < 4 → s.t1Byte (t1Place n line).dev ((t1Place n line).check + j) = s.storedByte (s.t1Phys n + 64 * line) (64 + j) ∧
      s.t2Byte (t2Place port n line).dev ((t2Place port n line).check + j) =
        s.storedByte (physT2 port n + 64 * line) (64 + j))) ∧
  (∀ n m i k : Nat, i < 1024 → k < 1024 → t1Place n i = t1Place m k → n = m ∧ i = k) ∧
  t1Place 0x5A7C0 100 = ⟨9, 0x160BAC0, 0x160BBEC⟩

/-- Moves, demotion, eviction, scrubbing and the T2 ports (R189 to R199, R213, R214, R426, R427, R747; 18 R714). A row with nothing
to do has no effect; a T2 mirror area that does not fit is refused. -/
def Obligations.MigratorRows : Prop :=
  (∀ (g : BitVec 26) (s u v : State) (m : Move), s.powered = true → (s.moves.find? fun x => x.g == g.toNat) = some m →
    s.retraining (entTier (s.entry g.toNat)) (entLoc (s.entry g.toNat)) = false → s.retraining m.dtier m.dloc = false →
    v = s.zeroWaking m.sheet → v.relocate g.toNat m.dtier m.dloc = (u, true) →
    exec (.moveFlip g) s = .next (State.tierSweep (State.moveDone { u with
      moves := u.moves.filter fun x => x.g != g.toNat
      freeing := Map.set u.freeing (entTier (v.entry g.toNat) * 2 ^ 25 + entLoc (v.entry g.toNat))
        (g.toNat, entTier (v.entry g.toNat)) } m))) ∧
  (∀ (g : BitVec 26) (s : State) (m : Move), s.powered = true → (s.moves.find? fun x => x.g == g.toNat) = some m →
    (s.retraining (entTier (s.entry g.toNat)) (entLoc (s.entry g.toNat)) = true ∨ s.retraining m.dtier m.dloc = true) →
    exec (.moveFlip g) s = .next s) ∧
  (∀ (g : BitVec 26) (s : State), s.powered = true → s.tierCmds = [] → RingsKept s →
    exec (.moveSourceFree g) s = .next { s with freeing := s.freeing.filter fun f => f.2.1 != g.toNat }) ∧
  (∀ (i : Fin 16) (s u : State), s.powered = true → 15 * s.quota i.val 1 < 16 * (s.word (Reg.U1 i.val)).toNat →
    s.demoteT1 i.val = (u, true) →
    exec (.t1Demotion i) s = .next (State.demoteLoop i.val ((s.word (Reg.U1 i.val)).toNat - 1) u)) ∧
  (∀ (s u : State) (i : Nat), s.powered = true → s.t1Free < s.rd Reg.EVICT_CTL 20 0 →
    State.evictLoop (2 * s.rd Reg.EVICT_CTL 20 0) (2 * s.rd Reg.EVICT_CTL 20 0) none s = (u, some i) →
    exec .eviction s = .next (u.postOnce 0x0404 [i, (u.sheet i).evicts.2] 0)) ∧
  (∀ (n fails : Nat) (line : Fin 1024) (j : Fin 68) (b : Byte) (s : State), s.powered = true → n < 40960 → s.upsets = [] → b ≠ 0 →
    s.rdb Reg.SCRUB_CTL 0 = true →
    ∃ t, exec (.patrolScrub .t0 n line ⟨[(j, b)], fails⟩) s = .next t ∧ t.upsets = [] ∧
      t.word Reg.CE_COUNT = BitVec.ofNat 32 (sat32 ((s.word Reg.CE_COUNT).toNat + 1))) ∧
  (∀ (n fails : Nat) (line : Fin 1024) (s : State), s.powered = true → n < 1474560 → s.failing = [] → 4 < fails →
    s.rdb Reg.SCRUB_CTL 0 = true →
    ∃ t, exec (.patrolScrub .t1 n line ⟨[], fails⟩) s = .next t ∧ t.failing = [s.t1Phys n / 64 + line.val] ∧
      t.word Reg.UE_COUNT = BitVec.ofNat 32 (sat32 ((s.word Reg.UE_COUNT).toNat + 1))) ∧
  (∀ (v : W32) (s : State), s.powered = true → s.mirrorT2Ok v.toNat = true →
    ∃ t, exec (.mirrorT2Write v) s = .next t ∧ t.word Reg.MIRROR_T2 = v ∧ Only [Reg.MIRROR_T2, Reg.CAP_T2] s t) ∧
  (∀ (n : Fin 2) (s : State), s.powered = true → ∃ t, exec (.cxlPortDown n) s = .next t ∧
    t.t2Up = s.t2Up.set n.val false ∧ (s.mirrorOn n.val = true → t.rd Reg.MIRR_CTL 29 28 = 3)) ∧
  (∀ (addr : BitVec 48) (data : List Byte) (s v : State), s.powered = true → s.inCarve addr.toNat data.length = true →
    s.hitsTables addr.toNat data.length = false →
    (s.eccEdges (physCarve addr.toNat) data.length addr.toNat 0 16 = (v, none) →
      ∃ t, exec (.quillCoreStore addr data) s = .next t ∧ t.answers = s.answers ++ [(0, [])] ∧
        Mem.read t.mem (physCarve addr.toNat) data.length = data ∧
        ∀ a, (a < physCarve addr.toNat ∨ physCarve addr.toNat + data.length ≤ a) → Mem.read1 t.mem a = Mem.read1 v.mem a) ∧
    (∀ x, s.eccEdges (physCarve addr.toNat) data.length addr.toNat 0 16 = (v, some x) →
      exec (.quillCoreStore addr data) s = .next (v.answer 2 []))) ∧
  (∀ (addr : BitVec 48) (data : List Byte) (s : State), s.powered = true → s.hitsTables addr.toNat data.length = true →
    exec (.quillCoreStore addr data) s = .next ((s.answer 2 []).post 0x0804 [addr.toNat])) ∧
  (∀ (g : BitVec 26) (s : State), s.powered = true → (s.moves.find? fun x => x.g == g.toNat) = none →
    exec (.moveFlip g) s = .next s) ∧
  (∀ (i : Fin 16) (s : State), s.powered = true → 16 * (s.word (Reg.U1 i.val)).toNat ≤ 15 * s.quota i.val 1 →
    exec (.t1Demotion i) s = .next s) ∧
  (∀ s : State, s.powered = true → s.rd Reg.EVICT_CTL 20 0 ≤ s.t1Free → exec .eviction s = .next s) ∧
  (∀ (v : W32) (s : State), s.powered = true → s.mirrorT2Ok v.toNat = false →
    exec (.mirrorT2Write v) s = .next (s.logWrite Reg.MIRROR_T2 v.toNat)) ∧
  (∀ (addr : BitVec 48) (data : List Byte) (s : State), s.powered = true → s.hitsTables addr.toNat data.length = false →
    s.inCarve addr.toNat data.length = false → exec (.quillCoreStore addr data) s = .next (s.answer 2 []))

/-- The DMA rows (06_dma_pages.md R219 to R250, R254, R258): QCFG enables a queue, an operation that runs moves its units, a queue's
next descriptor of the operation is taken, and one whose units and acknowledgements are complete ends. A line between two places
lands as it was read, and a line that cannot be read or whose place is dry ends the descriptor with the outcome of R257 (R228,
R230). A QCFG write that may not be made is logged. -/
def Obligations.DmaRows : Prop :=
  (∀ (qn : Fin 128) (v : W32) (s : State), s.powered = true → s.rdb (Reg.QCFG qn.val) 31 = false → v.getLsbD 31 = true →
    6 ≤ bits v.toNat 3 0 → bits v.toNat 3 0 ≤ 12 →
    (s.wrw (Reg.QCFG qn.val) (BitVec.ofNat 32 (bits v.toNat 27 21 * 2 ^ 21 + bits v.toNat 19 16 * 65536 + bits v.toNat 3 0))).qRingOk qn.val = true →
    ∃ t, exec (.queueEnable qn v) s = .next t ∧ t.rdb (Reg.QCFG qn.val) 31 = true ∧
      t.rd (Reg.QCFG qn.val) 27 21 = bits v.toNat 27 21 ∧ t.rd (Reg.QCFG qn.val) 3 0 = bits v.toNat 3 0 ∧
      Only [Reg.QCFG qn.val] s t) ∧
  (∀ row ∈ [((Instr.copy : QueueOp → Nat → Instr), 1), (.folio, 2), (.walk, 3), (.stream, 4), (fun op _ => .gloss op, 5)],
    ∀ (op : QueueOp) (n : Nat) (s u : State), s.powered = true →
      u = (s.pumpDma.dmaTake op.queue.val row.2).dmaStartNext op.queue.val row.2 →
      (∀ o, u.running op.queue.val row.2 op.k = some o →
        exec (row.1 op n) s = .next (State.moveUnits (if row.2 = 5 then 131072 else n) o u)) ∧
      (u.running op.queue.val row.2 op.k = none → exec (row.1 op n) s = .next u)) ∧
  (∀ row ∈ [((Instr.dmaCancel : Fin 128 → Instr), 6), (.dmaAbort, 7)],
    ∀ (qn : Fin 128) (s : State), s.powered = true →
      exec (row.1 qn) s = .next ((s.pumpDma.dmaTake qn.val row.2).dmaStartNext qn.val row.2)) ∧
  (∀ (qn op : Nat) (s : State) (d : Nat), qn < 128 → Sound s → s.rdb (Reg.QCFG qn) 31 = true → s.rdb (Reg.QCFG qn) 20 = false →
    (s.dma.filter fun o => o.qn == qn).length < 64 → s.qRingOk qn = true →
    (s.qQuill qn = true ∨ s.sheetState (s.qSheet qn) ≠ 1) →
    s.clean (s.qPhys qn (s.qBase qn + 64 * s.qEntries qn)) 8 = true →
    s.qLe qn (s.qBase qn + 64 * s.qEntries qn) 8 % 2 ^ 32 ≠ (s.word (Reg.QCONS qn)).toNat →
    d = s.qLe qn (s.qBase qn + 64 * ((s.word (Reg.QCONS qn)).toNat % s.qEntries qn)) 64 → dOp d = op →
    (s.dmaTake qn op).dma = s.dma ++ [DmaOp.taken qn (s.word (Reg.QCONS qn)).toNat d] ∧
    (s.dmaTake qn op).word (Reg.QCONS qn) = s.word (Reg.QCONS qn) + 1) ∧
  (∀ (qn : Fin 128) (s u v : State) (o : DmaOp) (x : Nat), s.powered = true → u = s.pumpDma →
    (u.dma.filter fun o => o.qn == qn.val && o.started && dOp o.desc == 4 && o.ending.isNone) = [o] → o.owed = 0 → o.wbuf = [] →
    o.published + bits (dAux1 o.desc) 63 48 ≤ o.units →
    u.writeReady o (o.published + bits (dAux1 o.desc) 63 48) = (v, x) →
    exec (.readyWrite qn) s = .next (if x = 0 then v.mapOp o.key fun y =>
        { y with published := o.published + bits (dAux1 o.desc) 63 48 }
      else v.dmaEnd o x (awAddr (dAux0 o.desc)))) ∧
  (∀ (s : State) (o : DmaOp) (n a : Nat), Sound s → a = awAddr (dAux0 o.desc) → s.inRun (s.qSheet o.qn) (a / 65536) = true →
    (s.readyCheck o = 0 → s.deadT2 (s.tierPhys a) = false →
      s.writeReady o n = (s.storeTier a (leBytes 8 ((bits (dAux1 o.desc) 47 0 + n) % 2 ^ 64)), 0)) ∧
    (s.readyCheck o ≠ 0 → s.writeReady o n = (s, s.readyCheck o))) ∧
  (∀ (qn : Fin 128) (s u : State) (o : DmaOp), s.powered = true → u = s.pumpDma → u.delivered qn.val = some o →
    u.opOf o.key = some o → (dOp o.desc = 1 ∨ dOp o.desc = 2) →
    exec (.descriptorComplete qn) s = .next ((u.mapOp o.key fun y => { y with lastDone := true }).dmaEnd o 0 0)) ∧
  (∀ (s : State) (o : DmaOp) (counts : Bool) (src w a : Nat) (bs : List Byte), awSpace w = 4 → s.inCarve a 64 = true →
    s.hitsTables a 64 = false → bs.length = 64 → (s.dmaWrite o counts src w a bs).code = 0 ∧
    Mem.read (s.dmaWrite o counts src w a bs).st.mem (physCarve a) 64 = bs) ∧
  (∀ (s : State) (o : DmaOp) (w a : Nat), awSpace w = 4 → s.inCarve a 64 = true → Sound s →
    (s.dmaRead o w a).code = 0 ∧ (s.dmaRead o w a).data = Mem.read s.mem (physCarve a) 64 ∧ (s.dmaRead o w a).st = s) ∧
  (∀ (s : State) (o : DmaOp) (w a : Nat), awSpace w = 2 → s.tierOk (s.qSheet o.qn) a 64 = false →
    (s.dmaRead o w a).code = 5 ∧ (s.dmaRead o w a).st = s) ∧
  (∀ (s : State) (o : DmaOp) (counts : Bool) (src w a : Nat) (bs : List Byte), awSpace w = 2 → Sound s →
    s.tierOk (s.qSheet o.qn) a 64 = true → entDry (s.entry (a / 65536)) = true →
    (s.dmaWrite o counts src w a bs).code = 4 ∧ (s.dmaWrite o counts src w a bs).st = s) ∧
  (∀ (s : State) (o : DmaOp) (counts : Bool) (src w a : Nat) (bs : List Byte), awSpace w = 2 →
    s.inRun (s.qSheet o.qn) (a / 65536) = true → s.entryBad (a / 65536) = true →
    (s.dmaWrite o counts src w a bs).code = 1 ∧ (s.dmaWrite o counts src w a bs).st = s.uncorr 4 (a / 65536) 0 (s.qSheet o.qn)) ∧
  (∀ (s : State) (o : DmaOp) (counts : Bool) (src w a : Nat) (bs : List Byte), awSpace w = 1 → a + 64 ≤ 0x180000 →
    dDmask o.desc = 0 → bs.length = 64 → (s.dmaWrite o counts src w a bs).code = 0 ∧
    Mem.read (s.dmaWrite o counts src w a bs).st.mem (physWell (awScribe w) a) 64 = bs) ∧
  (∀ (qn : Fin 128) (v : W32) (s u : State), s.powered = true → s.rdb (Reg.QCFG qn.val) 31 = false →
    u = s.wrw (Reg.QCFG qn.val) (BitVec.ofNat 32 (bits v.toNat 27 21 * 2 ^ 21 + bits v.toNat 19 16 * 65536 + bits v.toNat 3 0)) →
    (v.getLsbD 31 = false → exec (.queueEnable qn v) s = .next u) ∧
    (v.getLsbD 31 = true → (bits v.toNat 3 0 < 6 ∨ 12 < bits v.toNat 3 0 ∨ u.qRingOk qn.val = false) →
      exec (.queueEnable qn v) s = .next (u.logWrite (Reg.QCFG qn.val) v.toNat))) ∧
  (∀ (qn : Fin 128) (v : W32) (s u : State), s.powered = true → s.rdb (Reg.QCFG qn.val) 31 = true →
    u = (if bits v.toNat 27 21 = s.rd (Reg.QCFG qn.val) 27 21 ∧ bits v.toNat 19 16 = s.rd (Reg.QCFG qn.val) 19 16 ∧
      bits v.toNat 3 0 = s.rd (Reg.QCFG qn.val) 3 0 then s else s.logWrite (Reg.QCFG qn.val) v.toNat) →
    exec (.queueEnable qn v) s =
      .next (if v.getLsbD 31 then u else (u.wrb (Reg.QCFG qn.val) 31 false).wrb (Reg.QCFG qn.val) 20 false)) ∧
  (∀ (qn : Fin 128) (s u : State), s.powered = true → u = s.pumpDma →
    (u.delivered qn.val = none → exec (.descriptorComplete qn) s = .next u) ∧
    ((u.dma.filter fun o => o.qn == qn.val && o.started && dOp o.desc == 4 && o.ending.isNone) = [] →
      exec (.readyWrite qn) s = .next u))

/-- A completion record: its 64 bytes hold its fields, an operation that finds it IDLE starts, it reads RUNNING once its unit starts,
and its terminal state once the unit ends; a record already terminal is not written again (R251 to R254). -/
def Obligations.CompletionRecord : Prop :=
  (∀ (tag unit kind outcome st progress faddr tstart tend abrq : Nat),
    (recBytes tag unit kind outcome st progress faddr tstart tend abrq).length = 64) ∧
  (∀ (s : State) (a crec tag unit kind : Nat), (s.seen a 64 crec 16).recState a = 0 →
    s.recTake a crec tag unit kind = ((s.seen a 64 crec 16).recRun a tag unit kind, true)) ∧
  (∀ (s : State) (a tag unit kind : Nat), a % 64 = 0 → s.failing = [] → s.deadT2 a = false →
    (s.recRun a tag unit kind).recState a = 1 ∧
    (s.recRun a tag unit kind).recKind a = kind % 256 ∧
    Mem.le (s.recRun a tag unit kind).mem (a + 24) 8 = s.now) ∧
  (∀ (s : State) (a tag unit kind outcome progress faddr : Nat), a % 64 = 0 → Sound s → s.recState a < 2 →
    (s.recEnd a tag unit kind outcome progress faddr).recState a = (if outcome = 0 then 2 else 3) ∧
    Mem.le (s.recEnd a tag unit kind outcome progress faddr).mem (a + 6) 1 = outcome % 256 ∧
    Mem.le (s.recEnd a tag unit kind outcome progress faddr).mem (a + 8) 8 = progress % 2 ^ 64) ∧
  (∀ (s u : State) (a tag unit kind outcome progress faddr : Nat), u = s.seen (a / 64 * 64) 64 (a % 2 ^ 48) 16 → 2 ≤ u.recState a →
    s.recEnd a tag unit kind outcome progress faddr = u)

/-! ## Operations of other modules, and the module's own -/

/-- An operation that may be served is applied and answered at once (11_fabric_ops.md R446, R454, 12_fabric_links.md R498 to R501): a
request with one RDATA under its RTAG; a write-class operation with one ACK under its PSEQ, whose answer is kept. -/
def Obligations.PacketsServed : Prop :=
  (∀ row ∈ servedRows, ∀ (p : Packet) (s : State), s.powered = true → (row p).wellFormed = true → ForUs s p →
    MayServeNow s p → exec (row p) s = .next (s.serve { p with status := 0 })) ∧
  (∀ (p : Packet) (s u : State) (r : Reply), s.perform p = (u, r) →
    (isRequest p.opc.toNat = true → s.serve p = (u.countIn r).sendAny ((u.countIn r).replyTo p false r) ∧
      ((u.countIn r).replyTo p false r).rtag = p.rtag ∧ ((u.countIn r).replyTo p false r).opc = 0x10) ∧
    (isRequest p.opc.toNat = false →
      s.serve p = ((u.countIn r).setPeer p.src.toNat
        (((u.countIn r).peer p.src.toNat).answer p.pseq.toNat r.status r.imm r.gran)).sendAny ((u.countIn r).replyTo p true r) ∧
      ((u.countIn r).replyTo p true r).pseq = p.pseq ∧ ((u.countIn r).replyTo p true r).opc = 0x11 ∧
      ((u.countIn r).replyTo p true r).status = BitVec.ofNat 4 r.status))

/-- What the loads, stores and flags do once the window allows them: loads answer the word or the line, STORE8 writes its enabled bytes,
STORE64 its line, a flagged store or add its word (11_fabric_ops.md R446, R447, 12_fabric_links.md R494). Each atomic answers the
old word and stores the new one (R447). -/
def Obligations.MemoryOperations : Prop :=
  (∀ (p : Packet) (s u v : State) (b : List Byte), (Instr.load8 p).wellFormed = true → p.status = 0 →
    s.winCheck p.src.toNat p.win.toNat p.offset.toNat 8 1 false true = (u, 0) → u.winGet p.win.toNat p.offset.toNat 8 = (v, b) →
    s.perform p = (v, ⟨0, leNat b, []⟩)) ∧
  (∀ (p : Packet) (s u v : State) (b : List Byte), (Instr.load64 p).wellFormed = true → p.status = 0 →
    s.winCheck p.src.toNat p.win.toNat p.offset.toNat 64 1 false true = (u, 0) → u.winGet p.win.toNat p.offset.toNat 64 = (v, b) →
    s.perform p = (v, ⟨0, 0, [b]⟩)) ∧
  (∀ (p : Packet) (s u v : State) (b : List Byte), (Instr.store8 p).wellFormed = true → p.status = 0 →
    s.winCheck p.src.toNat p.win.toNat p.offset.toNat 8 2 true true = (u, 0) → u.winGet p.win.toNat p.offset.toNat 8 = (v, b) →
    ∃ m : List Byte, s.perform p = (v.winPut p.win.toNat p.offset.toNat m, ⟨0, 0, []⟩) ∧ m.length = b.length ∧
      ∀ i, i < b.length → m.getD i 0 = if p.be.toNat.testBit i then (leBytes 8 p.imm.toNat).getD i 0 else b.getD i 0) ∧
  (∀ (p : Packet) (s u : State), (Instr.store64 p).wellFormed = true → p.status = 0 →
    s.winCheck p.src.toNat p.win.toNat p.offset.toNat 64 2 true false = (u, 0) →
    s.perform p = (u.winPut p.win.toNat p.offset.toNat (p.gran.headD []), ⟨0, 0, []⟩)) ∧
  (∀ (p : Packet) (s u v : State) (b : List Byte), (Instr.flaggedStore p).wellFormed = true → p.status = 0 →
    s.winCheck p.src.toNat p.win.toNat p.offset.toNat 8 10 true true = (u, 0) → u.winGet p.win.toNat p.offset.toNat 8 = (v, b) →
    s.perform p = (v.winPut p.win.toNat p.offset.toNat (leBytes 8 p.imm.toNat), ⟨0, 0, []⟩)) ∧
  (∀ (p : Packet) (s u v : State) (b : List Byte), (Instr.flaggedAdd p).wellFormed = true → p.status = 0 →
    s.winCheck p.src.toNat p.win.toNat p.offset.toNat 8 12 true true = (u, 0) → u.winGet p.win.toNat p.offset.toNat 8 = (v, b) →
    s.perform p = (v.winPut p.win.toNat p.offset.toNat (leBytes 8 ((leNat b + p.imm.toNat) % 2 ^ 64)), ⟨0, 0, []⟩)) ∧
  (∀ row ∈ atomicRows, ∀ (p : Packet) (s u v : State) (b : List Byte), (row.1 p).wellFormed = true → p.status = 0 →
    s.winCheck p.src.toNat p.win.toNat p.offset.toNat 8 4 true true = (u, 0) →
    u.winGet p.win.toNat p.offset.toNat 8 = (v, b) →
    s.perform p = (v.winPut p.win.toNat p.offset.toNat
      (leBytes 8 (row.2 (leNat b) p.imm.toNat (leNat ((p.gran.headD []).take 8)))), ⟨0, leNat b, []⟩))

/-- The checks on an access through a window, in their order: NOWIN, PERM, ALIGN, RANGE, DRY; a carve-out window's bytes are
those of the carve-out (R439). A tier-table entry that cannot be read is an uncorrectable line (05_memory.md R215). -/
def Obligations.WindowChecks : Prop :=
  ∀ (s : State) (src win o n need : Nat) (write rd : Bool),
    (Map.get? s.windows win = none → s.winCheck src win o n need write rd = (s, 1)) ∧
    (∀ w u, Map.get? s.windows win = some w → u = (if w.kind = 0 then s.zeroWaking w.sheet else s) →
      ((src &&& w.pmask ≠ w.pmatch &&& w.pmask ∨ w.perm &&& need ≠ need) → s.winCheck src win o n need write rd = (u, 2)) ∧
      (src &&& w.pmask = w.pmatch &&& w.pmask → w.perm &&& need = need → o % n ≠ 0 →
        s.winCheck src win o n need write rd = (u, 3)) ∧
      (src &&& w.pmask = w.pmatch &&& w.pmask → w.perm &&& need = need → o % n = 0 →
        (w.len < o + n ∨ w.kind = 0 ∧ u.inRun w.sheet ((w.base + o) / 65536) = false) →
        s.winCheck src win o n need write rd = (u, 4)) ∧
      (src &&& w.pmask = w.pmatch &&& w.pmask → w.perm &&& need = need → o % n = 0 → o + n ≤ w.len → w.kind = 0 →
        u.inRun w.sheet ((w.base + o) / 65536) = true →
        (u.entryBad ((w.base + o) / 65536) = true →
          s.winCheck src win o n need write rd = (u.uncorr 4 ((w.base + o) / 65536) 0 w.sheet, 6)) ∧
        (∀ v, u.entryBad ((w.base + o) / 65536) = false → v = u.seenEntry ((w.base + o) / 65536) →
          (v.tierOk w.sheet (w.base + o) n = false → s.winCheck src win o n need write rd = (v, 4)) ∧
          (v.tierOk w.sheet (w.base + o) n = true → write = true → v.winDry w o n = true →
            s.winCheck src win o n need write rd = (v, 5)) ∧
          (v.tierOk w.sheet (w.base + o) n = true → (write = false ∨ v.winDry w o n = false) → rd = false →
            s.winCheck src win o n need write rd = (v, 0)))) ∧
      (src &&& w.pmask = w.pmatch &&& w.pmask → w.perm &&& need = need → o % n = 0 → o + n ≤ w.len → w.kind = 1 →
        Sound s → s.winCheck src win o n need write rd = (s, 0) ∧
        s.winGet win o n = (s, Mem.read s.mem (physCarve (w.base + o)) n)) ∧
      (src &&& w.pmask = w.pmatch &&& w.pmask → w.perm &&& need = need → o % n = 0 → o + n ≤ w.len → w.kind ≠ 0 →
        (rd = false → s.winCheck src win o n need write rd = (s, 0)) ∧
        (∀ v x, rd = true → s.winEcc w o n = (v, x) → s.winCheck src win o n need write rd = (v, if x.isSome then 6 else 0))))

/-- A packet the module does not take: for another position nothing happens; a damaged one counts in PAY_ERR and is recorded as an
uncorrectable payload, one of an unknown version counts in BADVER; a write-class one answered before is acknowledged again with the same answer (12_fabric_links.md R501, R503, R519). A
write-class operation whose DEP is not answered is held, not applied (11_fabric_ops.md R451, R499). -/
def Obligations.PacketsNotTaken : Prop :=
  (∀ row ∈ servedRows, ∀ (p : Packet) (s : State), s.powered = true → (row p).wellFormed = true → p.dst.toNat ≠ s.pos →
    exec (row p) s = .next s) ∧
  (∀ row ∈ servedRows, ∀ (p : Packet) (s : State), s.powered = true → (row p).wellFormed = true → p.dst.toNat = s.pos →
    p.badGranule = true → exec (row p) s = .next ((s.bumpSat Reg.PAY_ERR).uncorr 5 0 0 16)) ∧
  (∀ row ∈ servedRows, ∀ (p : Packet) (s : State), s.powered = true → (row p).wellFormed = true → p.dst.toNat = s.pos →
    p.badGranule = false → 1 < p.pver.toNat → exec (row p) s = .next (s.bumpSat Reg.BADVER)) ∧
  (∀ row ∈ servedRows, ∀ (p : Packet) (s : State) (a : Nat × Nat × List (List Byte)), s.powered = true → (row p).wellFormed = true → ForUs s p →
    s.heldFlags = [] → s.heldPkts = [] → s.closing = none → isRequest p.opc.toNat = false →
    (s.peer p.src.toNat).ahead p.pseq.toNat < 2048 →
    Map.get? (s.peer p.src.toNat).answered p.pseq.toNat = some a →
    exec (row p) s = .next ((s.bumpSat Reg.DUPS).sendAny ((s.bumpSat Reg.DUPS).replyTo { p with status := 0 } true ⟨a.1, a.2.1, a.2.2⟩))) ∧
  (∀ row ∈ servedRows, ∀ (p : Packet) (s : State) (d : W32), s.powered = true → (row p).wellFormed = true → ForUs s p →
    s.heldFlags = [] → s.heldPkts = [] → s.closing = none → isRequest p.opc.toNat = false →
    (s.peer p.src.toNat).ahead p.pseq.toNat < 2048 → Map.get? (s.peer p.src.toNat).answered p.pseq.toNat = none →
    p.dep = some d → (s.peer p.src.toNat).done d.toNat = false →
    exec (row p) s = .next (if isFlag p.opc.toNat then { s with heldFlags := [{ p with status := 0 }] }
      else { s with heldPkts := [{ p with status := 0 }] }))

/-- The answers to the module's own operations (11_fabric_ops.md R454, R469, R475, 12_fabric_links.md R499, R502): an ACK or an RDATA ends
the operation it names, one from a LOST position is counted, a REFUSE marks the operation for a resend, and a whole bulk reply ends
its transfer. Held flags and packets of a source are served once they may be, oldest first (11 R451, R453, 12 R499); refused and
unanswered operations are sent again (12 R499, R502); a gather is flushed (11 R462).
A time-out moves rack time up to its limit: the model's choice (log entry 7). -/
def Obligations.ReplyRows : Prop :=
  (∀ (p : Packet) (s : State) (o : OutOp), s.powered = true → (Instr.ack p).wellFormed = true → ForUs s p →
    s.isLost p.src.toNat = false →
    (s.outOps.find? fun x => x.write && x.pkt.dst == p.src && x.pkt.pseq == p.pseq) = some o →
    exec (.ack p) s = .next (State.pumpDma (State.mirrorSweep ((s.finish o p.status.toNat p.imm.toNat p.gran).releaseWaiting)))) ∧
  (∀ (p : Packet) (s : State) (o : OutOp), s.powered = true → (Instr.rdata p).wellFormed = true → ForUs s p →
    s.isLost p.src.toNat = false →
    (s.outOps.find? fun x => !x.write && x.path != 17 && x.pkt.dst == p.src && x.pkt.rtag == p.rtag) = some o →
    exec (.rdata p) s = .next ((s.finish o p.status.toNat p.imm.toNat p.gran).releaseWaiting)) ∧
  (∀ (p : Packet) (s : State) (o : OutOp), s.powered = true → (Instr.bulkComplete p).wellFormed = true → p.opc = 0x10 →
    ForUs s p → s.isLost p.src.toNat = false →
    (s.outOps.find? fun x => !x.write && x.path != 17 && x.pkt.dst == p.src && x.pkt.rtag == p.rtag) = some o →
    exec (.bulkComplete p) s = .next ((s.finish o p.status.toNat p.imm.toNat p.gran).releaseWaiting)) ∧
  (∀ (p : Packet) (s : State), s.powered = true → (Instr.refuse p).wellFormed = true → ForUs s p →
    exec (.refuse p) s = .next { s with outOps := s.outOps.map fun o =>
      if o.pkt.dst == p.src && (if o.write then o.pkt.pseq == p.pseq else p.pseq == 0 && o.path != 17 && o.pkt.rtag == p.rtag) then
        { o with refused := true } else o }) ∧
  (∀ (p : Packet) (s : State), s.powered = true → (Instr.ack p).wellFormed = true → ForUs s p →
    s.isLost p.src.toNat = true → exec (.ack p) s = .next (State.pumpDma (State.mirrorSweep (s.bumpSat Reg.LATE_REPLY)))) ∧
  (∀ (s : State) (o : OutOp) (b : BulkJob) (status imm : Nat) (gran : List (List Byte)),
    (s.bulks.find? fun b => o.issuers == [⟨3, bits b.req 383 336, 0, 0, 0, 0, 0⟩]) = some b →
    s.finish o status imm gran =
      State.bulkReply { s with outOps := s.outOps.filter fun x => !(x.pkt == o.pkt) } b status (imm % 65536) gran) ∧
  (∀ (s : State) (o : OutOp) (status imm : Nat) (gran : List (List Byte)), s.bulks = [] → o.issuers = [] →
    s.finish o status imm gran = { s with outOps := s.outOps.filter fun x => !(x.pkt == o.pkt) }) ∧
  (∀ (src : BitVec 16) (s : State) (p : Packet), s.powered = true → s.heldFlags = [p] → s.heldReady s.heldFlags src = some p →
    (State.serve { s with heldFlags := [] } p).heldFlags = [] →
    exec (.flagApply src) s = .next (State.serve { s with heldFlags := [] } p)) ∧
  (∀ (src : BitVec 16) (s : State) (p : Packet), s.powered = true → s.heldPkts = [p] → s.heldReady s.heldPkts src = some p →
    (State.serve { s with heldPkts := [] } p).heldPkts = [] →
    exec (.heldPacketRelease src) s = .next (State.serve { s with heldPkts := [] } p)) ∧
  (∀ (pos : BitVec 16) (s : State) (o : OutOp), s.powered = true → s.outOps = [o] → o.pkt.dst = pos → o.refused = true →
    exec (.refuseResend pos) s = .next (s.resend o false)) ∧
  (∀ (pos : BitVec 16) (s : State) (o : OutOp), s.powered = true → s.outOps = [o] → o.pkt.dst = pos → o.refused = false →
    s.time.rack < 2 ^ 96 → o.sentAt + s.e2eNs < 2 ^ 64 →
    exec (.e2eResend pos) s = .next ((s.waited o.sentAt s.e2eNs).resend o true)) ∧
  (∀ (pos : BitVec 16) (s : State) (g : Gather), s.powered = true → (s.gathers.find? fun g => g.dst == pos.toNat) = some g →
    exec (.gatherTimeout pos) s = .next ((s.waited g.since s.gatherNs).flushGather g))

/-- Windows and LOST positions (R434 to R438, R473, R477): OPEN makes a fitting table entry effective, CLOSE ends when no admitted
operation uses the window, a LOST position's operations complete, and CLEAR starts the pair afresh, with nothing held of it.
TLOST_TIMEOUT moves rack time up to its limit: the model's choice (log entry 7). OPEN and CLOSE are refused while one is in
progress, for a table entry that does not fit and for a window in the wrong state; a window that a held packet uses does not close.
-/
def Obligations.WindowAndReachRows : Prop :=
  (∀ (w : BitVec 12) (s u : State), s.powered = true → s.wBusy = false → Map.get? s.windows w.toNat = none →
    u = s.seenCarve (s.windowAt w.toNat) 32 → u.entryFits (u.windowEntry w.toNat) = true →
    ∃ t, exec (.windowOpen w) s = .next t ∧ Map.get? t.windows w.toNat = some (entWindow (u.windowEntry w.toNat)) ∧
      (∀ v, v ≠ w.toNat → Map.get? t.windows v = Map.get? s.windows v) ∧ t.rd Reg.WCMD_STAT 1 0 = 0 ∧ t.mem = u.mem) ∧
  (∀ (w : BitVec 12) (s : State) (x : WinEnt), s.powered = true → s.wBusy = false → Map.get? s.windows w.toNat = some x →
    ∃ t, exec (.windowClose w) s = .next t ∧ t.closing = some w.toNat ∧ t.wBusy = true ∧ t.rd Reg.WCMD_STAT 1 0 = 0 ∧
      t.windows = s.windows ∧ t.mem = s.mem) ∧
  (∀ (s : State) (w : Nat), s.powered = true → s.closing = some w → s.heldFlags = [] → s.heldPkts = [] →
    ∃ t, exec .closeComplete s = .next t ∧ t.closing = none ∧ Map.get? t.windows w = none ∧ t.wBusy = false ∧ t.mem = s.mem) ∧
  (∀ (pos : BitVec 16) (s : State), s.powered = true → s.isLost pos.toNat = false → s.outOps = [] → s.gathers = [] →
    ∃ t, exec (.reachMark pos) s = .next t ∧ t.isLost pos.toNat = true ∧
      (∀ p ∈ t.heldPkts, p.src ≠ pos) ∧ (∀ p ∈ t.heldFlags, p.src ≠ pos)) ∧
  (∀ (pos : BitVec 16) (s : State), s.powered = true → exec (.reachMark pos) s = .next (s.markLost pos.toNat)) ∧
  (∀ (pos : BitVec 16) (s : State), s.powered = true → (∀ o ∈ s.outOps, o.pkt.dst ≠ pos) →
    ∃ t, exec (.reachClear pos) s = .next t ∧ t.peer pos.toNat = Peer.zero ∧
      t = { s with peers := t.peers, heldFlags := t.heldFlags, heldPkts := t.heldPkts } ∧
      t.heldFlags = s.heldFlags.filter (fun p => p.src.toNat != pos.toNat) ∧
      t.heldPkts = s.heldPkts.filter (fun p => p.src.toNat != pos.toNat) ∧ ∀ q, q ≠ pos.toNat → t.peer q = s.peer q) ∧
  (∀ (pos : BitVec 16) (s : State), s.powered = true → exec (.reachClear pos) s = .next (s.clearLost pos.toNat)) ∧
  (∀ (pos : BitVec 16) (s : State) (o : OutOp), s.powered = true →
    (s.outOps.find? fun o => o.pkt.dst == pos && o.path != 17) = some o →
    exec (.tlostTimeout pos) s = .next ((s.waited o.sentAt s.tlostNs).markLost pos.toNat)) ∧
  (∀ (pos : BitVec 16) (s : State), s.powered = true → (∀ o ∈ s.outOps, o.pkt.dst = pos → o.path = 17) →
    exec (.tlostTimeout pos) s = .next s) ∧
  (∀ (w : BitVec 12) (s : State), s.powered = true →
    (s.wBusy = true → exec (.windowOpen w) s = .next (s.logWrite Reg.WCMD (2 ^ 28 + w.toNat)) ∧
      exec (.windowClose w) s = .next (s.logWrite Reg.WCMD (2 * 2 ^ 28 + w.toNat))) ∧
    (s.wBusy = false → ∀ x, Map.get? s.windows w.toNat = some x → exec (.windowOpen w) s = .next (s.wr Reg.WCMD_STAT 1 0 2)) ∧
    (s.wBusy = false → Map.get? s.windows w.toNat = none → exec (.windowClose w) s = .next (s.wr Reg.WCMD_STAT 1 0 2)) ∧
    (∀ u, s.wBusy = false → Map.get? s.windows w.toNat = none → u = s.seenCarve (s.windowAt w.toNat) 32 →
      u.entryFits (u.windowEntry w.toNat) = false → exec (.windowOpen w) s = .next (u.wr Reg.WCMD_STAT 1 0 1))) ∧
  (∀ s : State, s.powered = true → s.closing = none → exec .closeComplete s = .next s) ∧
  (∀ (s : State) (w : Nat) (p : Packet), s.powered = true → s.closing = some w → (p ∈ s.heldFlags ∨ p ∈ s.heldPkts) →
    p.status = 0 → (∃ l ∈ linesOf p, l.1 = w) → exec .closeComplete s = .next s)

/-- The Quill's own aperture accesses: allowed ones are issued with their class, width and number, a store of a line as eight of a word;
refused ones are answered with an error and logged (11_fabric_ops.md R442, R444, R445, R457). That the atomic with the codes 8 and 9
is a flag is the model's choice (log entry 59). The bulk engine takes its ring's next request, writes its record RUNNING and
starts the transfer, or acts on the one an ABORT names (R467 to R471). -/
def Obligations.OwnRequests : Prop :=
  (∀ (aper : BitVec 48) (line : Bool) (s u : State), s.powered = true → u = s.seenImport none aper.toNat →
    (importOk (u.importEntry none aper.toNat) (aper.toNat % 2 ^ 36) (if line then 64 else 8) 1 = true →
      exec (.quillLoad aper line) s = .next (u.issue
        (aperPacket u (if line then 0x02 else 0x01) (u.importEntry none aper.toNat) aper.toNat)
        ⟨2, 0, 0, 0, 0, if line then 64 else 8, 0⟩ aper.toNat (bits (u.importEntry none aper.toNat) 99 64)
        (bit (u.importEntry none aper.toNat) 62))) ∧
    (importOk (u.importEntry none aper.toNat) (aper.toNat % 2 ^ 36) (if line then 64 else 8) 1 = false →
      exec (.quillLoad aper line) s = .next ((u.answer 2 []).post 0x0901 [aper.toNat, if line then 0x02 else 0x01]))) ∧
  (∀ (aper : BitVec 48) (be : BitVec 8) (data : List Byte) (s : State), s.powered = true →
    (data.length = 8 → exec (.quillStore aper be data) s = .next (s.quillStore8 aper.toNat be data)) ∧
    (data.length = 64 → exec (.quillStore aper be data) s = .next ((List.range 8).foldl (fun v i =>
      v.quillStore8 (aper.toNat + 8 * i) 0xFF ((data.drop (8 * i)).take 8)) s))) ∧
  (∀ (a : Nat) (be : BitVec 8) (w : List Byte) (s u : State), u = s.seenImport none a →
    (importOk (u.importEntry none a) (a % 2 ^ 36) 8 2 = true →
      s.quillStore8 a be w = (u.bump Reg.QF_ISSUED).issue
        { aperPacket u 0x08 (u.importEntry none a) a with be := be, imm := BitVec.ofNat 64 (leNat w) }
        ⟨2, (u.word Reg.QF_ISSUED).toNat, 0, 0, 0, 0, 0⟩ a (bits (u.importEntry none a) 99 64)
        (bit (u.importEntry none a) 62)) ∧
    (importOk (u.importEntry none a) (a % 2 ^ 36) 8 2 = false →
      s.quillStore8 a be w = (u.answer 2 []).post 0x0901 [a, 0x08])) ∧
  (∀ (aper : BitVec 48) (op : BitVec 4) (a b : W64) (s u : State), s.powered = true → op ≠ 8 → op ≠ 9 →
    u = s.seenImport none aper.toNat →
    (importOk (u.importEntry none aper.toNat) (aper.toNat % 2 ^ 36) 8 4 = true →
      exec (.quillAtomic aper op a b) s = .next ((u.bump Reg.QF_ISSUED).issue
        { aperPacket u 0x0B (u.importEntry none aper.toNat) aper.toNat with
          atop := op, imm := a, gran := if op = 4 then [leBytes 8 b.toNat ++ List.replicate 56 0] else [] }
        ⟨2, (u.word Reg.QF_ISSUED).toNat, 0, 0, 0, 0, 0⟩ aper.toNat (bits (u.importEntry none aper.toNat) 99 64)
        (bit (u.importEntry none aper.toNat) 62))) ∧
    (importOk (u.importEntry none aper.toNat) (aper.toNat % 2 ^ 36) 8 4 = false →
      exec (.quillAtomic aper op a b) s = .next ((u.answer 2 []).post 0x0901 [aper.toNat, 0x0B]))) ∧
  (∀ (aper : BitVec 48) (add : Bool) (a b : W64) (s u : State), s.powered = true → u = s.seenImport none aper.toNat →
    (importOk (u.importEntry none aper.toNat) (aper.toNat % 2 ^ 36) 8 (if add then 12 else 10) = true →
      exec (.quillAtomic aper (if add then 9 else 8) a b) s = .next ((u.bump Reg.QF_ISSUED).issue
        { aperPacket u 0x0C (u.importEntry none aper.toNat) aper.toNat with atop := if add then 1 else 0, imm := a }
        ⟨2, (u.word Reg.QF_ISSUED).toNat, 0, 0, 0, 0, 0⟩ aper.toNat (bits (u.importEntry none aper.toNat) 99 64)
        (bit (u.importEntry none aper.toNat) 62))) ∧
    (importOk (u.importEntry none aper.toNat) (aper.toNat % 2 ^ 36) 8 (if add then 12 else 10) = false →
      exec (.quillAtomic aper (if add then 9 else 8) a b) s = .next ((u.answer 2 []).post 0x0901 [aper.toNat, 0x0C]))) ∧
  (∀ (s h u : State) (r : Nat), s.powered = true → s.bulkHead = ⟨h, some r⟩ → CanTake h Reg.BQ_CONS (bits r 383 336) →
    bulkBad r = false → u = takenAs h Reg.BQ_CONS (bits r 383 336) (bits r 159 128) 2 →
    (bits r 7 0 = 1 → exec .bulkRead s = .next (u.bulkStart r)) ∧ (bits r 7 0 = 2 → exec .bulkWrite s = .next (u.bulkStart r)) ∧
    (∀ v x, bits r 7 0 = 3 → u.bulkAbort r = (v, x) → exec .bulkAbort s = .next (match x with
      | none => v
      | some y => v.bulkRec r y 0 0)))

/-! ## Routing and serving -/

/-- Choosing and hashing (08_experts.md R307, R308, R310): at most KMAX experts are chosen, each once and with its own finite
score; the replica is one of the expert's. -/
def Obligations.ExpertChoice : Prop :=
  (∀ (mode w : Nat) (scores : List W32), (chooseExperts mode w scores).length ≤ rKmax w ∧
    ((chooseExperts mode w scores).map Prod.fst).Nodup ∧
    (∀ x ∈ chooseExperts mode w scores, scores[x.1]? = some x.2 ∧ finite32 x.2 = true) ∧
    (mode ≠ 0 → (chooseExperts mode w scores).length ≤ mode)) ∧
  (∀ slip pos nrep : Nat, 0 < nrep → replicaOf slip pos nrep < nrep)

/-- VSEL and VTIMEOUT commit the variant of a route whose selection is pending: SELECT gets the step and the index, and the route's
selection is written; a late VSEL is counted, one for no pending route is refused (R323, R325, R326, R336). For no route that is
held, VSEL answers NOMATCH and VTIMEOUT has no effect. -/
def Obligations.RulingRows : Prop :=
  (∀ (i : Fin 16) (r : Fin 256) (s u : State) (h : RulHome), s.powered = true → Map.get? s.rulHome (routeKey i.val r.val) = some h →
    u = s.seenRoute i.val h.side r.val →
    (∀ v : W32, bits v.toNat 19 16 = i.val → bits v.toNat 15 8 = r.val → h.step % 4096 = bits v.toNat 31 20 →
      (h.sel = 1 → ∃ t, exec (.vsel v) s = .next t ∧ t.rd Reg.VSEL_STAT 1 0 = 1 ∧
        Map.get? t.rulHome (routeKey i.val r.val) = some { h with sel := 2 } ∧
        t.mem = ((u.setHome i.val r.val { h with sel := 2 }).sysPut i.val (rCtl (u.routeEntry i.val h.side r.val))
          (leBytes 8 (h.step % 2 ^ 32 * 2 ^ 32 + bits v.toNat 4 0))).mem) ∧
      (h.sel = 2 → ∃ t, exec (.vsel v) s = .next t ∧ t.rd Reg.VSEL_STAT 1 0 = 2 ∧
        t.word (Reg.VLATE i.val) = BitVec.ofNat 32 (sat32 ((s.word (Reg.VLATE i.val)).toNat + 1)) ∧
        Only [Reg.VSEL_STAT, Reg.VLATE i.val] s t) ∧
      (h.sel = 0 → ∃ t, exec (.vsel v) s = .next t ∧ t.rd Reg.VSEL_STAT 1 0 = 3 ∧ Only [Reg.VSEL_STAT] s t)) ∧
    (h.sel = 1 → exec (.vtimeout i r) s =
      .next ((((u.setHome i.val r.val { h with sel := 2 }).sysPut i.val (rCtl (u.routeEntry i.val h.side r.val))
        (leBytes 8 (h.step % 2 ^ 32 * 2 ^ 32 + 32768 + rDefv (u.routeEntry i.val h.side r.val)))).bumpSat (Reg.VTIMEOUT i.val)).post
        0x0603 [i.val, r.val, h.step])) ∧
    (h.sel ≠ 1 → exec (.vtimeout i r) s = .next s)) ∧
  (∀ (v : W32) (s : State), s.powered = true →
    (Map.get? s.rulHome (routeKey (bits v.toNat 19 16) (bits v.toNat 15 8)) = none →
      exec (.vsel v) s = .next (s.wr Reg.VSEL_STAT 1 0 3)) ∧
    (∀ h, Map.get? s.rulHome (routeKey (bits v.toNat 19 16) (bits v.toNat 15 8)) = some h → h.step % 4096 ≠ bits v.toNat 31 20 →
      exec (.vsel v) s = .next (s.wr Reg.VSEL_STAT 1 0 3))) ∧
  (∀ (i : Fin 16) (r : Fin 256) (s : State), s.powered = true → Map.get? s.rulHome (routeKey i.val r.val) = none →
    exec (.vtimeout i r) s = .next s)

/-- A ring command of the Roll is done and its entry gets the result; RCQ_CONS goes on; a rejected one is counted (09_serving.md R350 to
R353); each makes its transition on a slip in the state it needs (R347). A write of a slip changes that slip alone, and 128 bytes of
memory alone (R341); a command with another GEN is stale and changes nothing, and one out of its state is refused (R353). -/
def Obligations.RollRows : Prop :=
  (∀ row ∈ rollRows, ∀ (s h : State) (e c : Nat), RollReady s h e → bits e 7 0 = row.2 → (h.rollDo e).res = some c →
    ∃ e' u, u = ((h.rollDo e).st.storeCarve (s.rcqBase + 64 * ((s.word Reg.RCQ_CONS).toNat % 256)) (leBytes 64 e')).bump
          Reg.RCQ_CONS ∧
      bits e' 23 16 = c % 256 ∧ bits e' 15 0 = bits e 15 0 ∧ bits e' 511 58 = bits e 511 58 ∧
      (row.2 = 0x01 ∧ c = 0 → bits e' 49 32 = (h.rollDo e).slip % 2 ^ 18 ∧ bits e' 57 50 = (h.rollDo e).gen % 256) ∧
      (¬ (row.2 = 0x01 ∧ c = 0) → bits e' 57 24 = bits e 57 24) ∧
      exec row.1 s = .next ((if c = 3 ∨ c = 4 ∨ c = 7 ∨ c = 8 then u.bumpSat Reg.CMD_REJ else u).rollTold
        (s.word Reg.RCQ_CONS).toNat e c (h.rollDo e).slip (h.rollDo e).gen)) ∧
  (∀ row ∈ rollRows, ∀ (s h : State) (e : Nat), RollReady s h e → bits e 7 0 = row.2 → (h.rollDo e).res = none →
    exec row.1 s = .next h) ∧
  (∀ (s : State) (cons e c slip gen : Nat), s.posts = [] → s.requests = [] → s.orders = [] →
    s.rollTold cons e c slip gen = s) ∧
  (∀ m ∈ rollMoves, ∀ (s : State) (e j i : Nat), RollOn s m.1 e j i → s.prefill j = m.2.1 → slState (s.slip i) = m.2.2.1 →
    s.rollDo e = ⟨(s.setSlip j i (putBits (s.slip i) 3 0 m.2.2.2)).sendSlip j i, some 0, 0, 0⟩) ∧
  (∀ (s : State) (e j i : Nat), RollOn s 0x08 e j i → slState (s.slip i) = 4 →
    s.rollDo e = if slInstep (s.slip i) then ⟨s.setSlip j i (putBits (s.slip i) 9 9 1), some 1, 0, 0⟩
      else ⟨(s.setSlip j i (putBits (s.slip i) 3 0 5)).sendSlip j i, some 0, 0, 0⟩) ∧
  (∀ (s : State) (e j i : Nat), RollOn s 0x06 e j i → s.prefill j = true → slState (s.slip i) = 3 →
    s.rollDo e = ⟨(s.endSlip j i 6 7).sendSlip j i, some 0, 0, 0⟩) ∧
  (∀ (s : State) (e j i op : Nat), op = 0x0A ∨ op = 0x0B → RollOn s op e j i → slInstep (s.slip i) = false →
    slState (s.slip i) ≠ 0 → slState (s.slip i) ≤ 5 →
    s.rollDo e = ⟨(s.endSlip j i (if op = 0x0B then 8 else 7) (bits e 127 64 % 16)).sendSlip j i, some 0, 0, 0⟩) ∧
  (∀ (s : State) (e j i : Nat), RollOn s 0x0C e j i ∨ RollOn s 0x11 e j i → terminal (slState (s.slip i)) = true →
    s.rollDo e = s.freeSlip j i) ∧
  (∀ (s : State) (e j i : Nat), RollOn s 0x10 e j i → s.inCarve (bits e 127 64 % 2 ^ 48) 32 = true →
    (s.rollDo e).res = some 0 ∧ s.rollDo e = s.mset j i (bits e 127 64 % 2 ^ 48)) ∧
  (∀ (s : State) (e j i a h : Nat), RollOn s 0x05 e j i → s.prefill j = false → slState (s.slip i) = 3 →
    a = bits e 127 64 % 2 ^ 48 → s.inCarve a 128 = true → h = s.carveLe a 128 → bits h 407 390 = i →
    bits h 415 408 = slGen (s.slip i) →
    (s.egRoom j 1 = false → s.rollDo e = ⟨s, none, 0, 0⟩) ∧
    (s.egRoom j 1 = true → (s.rollDo e).res = some 0 ∧ s.rollDo e = s.landed j i a)) ∧
  (∀ (s : State) (e j k : Nat), bits e 7 0 = 1 → bits e 511 192 = 0 → bits e 63 58 = 0 → bits e 31 24 = 0 → bits e 15 12 = 0 →
    bits e 11 8 = j → s.slotOn j = true → s.isLead j = true → s.inCarve (bits e 127 64 % 2 ^ 48) 128 = true →
    s.power.leaving = false → (s.slipsOf j).find? (fun i => slState (s.slip i) == 0) = some k →
    (s.rollDo e).res = some 0 ∧ (s.rollDo e).slip = k ∧ (s.rollDo e).gen = (slGen (s.slip k) + 1) % 256) ∧
  (∀ (s : State) (j i w : Nat), Sound s → i < 2 ^ 18 → (s.setSlip j i w).slip i = w % 2 ^ 1024 ∧
    (∀ k, k ≠ i → (s.setSlip j i w).slip k = s.slip k) ∧
    ∀ a, ¬ Within (physSlip i) 128 a → Mem.read1 (s.setSlip j i w).mem a = Mem.read1 s.mem a) ∧
  (∀ (s : State) (e op j i : Nat), rollOp op = true → op ≠ 1 → bits e 7 0 = op → bits e 511 192 = 0 → bits e 63 58 = 0 →
    bits e 31 24 = 0 → bits e 15 12 = 0 → bits e 11 8 = j → bits e 49 32 = i → s.slotOn j = true →
    (op ≤ 0x0C → s.isLead j = true) → (op = 0x11 → s.isLead j = false) → s.inRange j i = true → slGen (s.slip i) ≠ bits e 57 50 →
    s.rollDo e = ⟨s, some 4, 0, 0⟩) ∧
  (∀ m ∈ rollMoves, ∀ (s : State) (e j i : Nat), RollOn s m.1 e j i → s.prefill j = m.2.1 →
    (∀ n ∈ rollMoves, n.1 = m.1 → n.2.1 = m.2.1 → slState (s.slip i) ≠ n.2.2.1) → s.rollDo e = ⟨s, some 3, 0, 0⟩)

/-- The header action, the commit and the deadline sweep (09_serving.md R357 to R359, R362, R366, R373): an action that is not due changes
nothing; a due one makes the step active over min(selectable, MAXACT) slips; a commit with room in the egress ring ends it, one
without is counted once. What a commit decides for one slip: a cancelled slip ends as such and emits nothing; a verdict of another
step fails it; otherwise a decode step accepts at most TC − 1 drafts, and emits them and the model's own token at rising positions. -/
def Obligations.StepTableRows : Prop :=
  (∀ (j : Fin 16) (s u : State), s.powered = true → s.headerDue j.val = true → u = (s.seenJob j.val 0).seenSlips j.val →
    ∃ t, exec (.headerAction j) s = .next t ∧ t.rdb (Reg.ACTIVE j.val) 31 = true ∧
    t.rd (Reg.ACTIVE j.val) 12 0 = min (u.selectable j.val).length (jMaxact (u.jobRec j.val))) ∧
  (∀ (j : Fin 16) (s : State), s.powered = true → s.headerDue j.val = false → exec (.headerAction j) s = .next s) ∧
  (∀ (j : Fin 16) (s : State), s.powered = true → s.commitDue j.val = true →
    s.egRoom j.val (s.rd (Reg.ACTIVE j.val) 12 0) = true → ∃ t, exec (.stepCommit j) s = .next t ∧
    t.rdb (Reg.ACTIVE j.val) 31 = false ∧ j.val ∉ t.egStall) ∧
  (∀ (j : Fin 16) (s : State), s.powered = true → s.commitDue j.val = true →
    s.egRoom j.val (s.rd (Reg.ACTIVE j.val) 12 0) = false → j.val ∉ s.egStall → ∃ t, exec (.stepCommit j) s = .next t ∧
    t.egStall = s.egStall ++ [j.val] ∧ t.mem = s.mem ∧
    t.word (Reg.EGSTALL j.val) = BitVec.ofNat 32 (sat32 ((s.word (Reg.EGSTALL j.val)).toNat + 1)) ∧
    t = { s with csr := t.csr, egStall := t.egStall }) ∧
  (∀ (j : Fin 16) (s : State), s.powered = true → s.commitDue j.val = false → exec (.stepCommit j) s = .next s) ∧
  (∀ (j : Fin 16) (s : State), s.powered = true →
    (∀ pre i post v, s.slipsOf j.val = pre ++ i :: post → v = (pre ++ [i]).foldl State.seenSlip s →
      slDeadline (v.slip i) = 0 ∨ v.now < slDeadline (v.slip i) ∨ slInstep (v.slip i) = true) →
    exec (.deadlineSweep j) s = .next (if s.slotOn j.val && s.isLead j.val then (s.seenSlips j.val).sendEnds j.val else s)) ∧
  (∀ (j : Fin 16) (s u : State) (i : Nat), s.powered = true → s.slotOn j.val = true → s.isLead j.val = true →
    s.slipsOf j.val = [i] → u = s.seenSlip i → slState (u.slip i) ≠ 0 → slState (u.slip i) ≤ 5 → slInstep (u.slip i) = false →
    slDeadline (u.slip i) ≠ 0 → slDeadline (u.slip i) ≤ u.now →
    exec (.deadlineSweep j) s =
      .next (((u.endSlip j.val i (if slState (u.slip i) = 4 then 6 else 7) 4).sendSlip j.val i).sendEnds j.val)) ∧
  (∀ (j : Nat) (s : State), (∀ r ∈ s.requests, r.untold = none ∨ r.job ≠ j ∨ r.ended = true) → s.sendEnds j = s) ∧
  (∀ w d c : Nat, 1 ≤ (preFields false c w d).tc ∧ (preFields false c w d).tc ≤ 9 ∧
    (preFields false c w d).tok.length = (preFields false c w d).tc ∧
    (preFields true c w d).tc = min (slCmax w - slClen w) c) ∧
  (∀ (fail : Bool) (w e v step now : Nat),
    (slCxp w = true → ∀ pf, (outcome pf fail w e v step now).pstate = (if fail then 8 else 7) ∧
      (outcome pf fail w e v step now).emit = [] ∧ (outcome pf fail w e v step now).newc = teC e) ∧
    (slCxp w = false → bit e 38 = false → bits v 63 48 ≠ step % 65536 →
      (outcome false fail w e v step now).pstate = 8 ∧ (outcome false fail w e v step now).reason = 10 ∧
      (outcome false fail w e v step now).emit = []) ∧
    (slCxp w = false → bit e 38 = false → bits v 63 48 = step % 65536 →
      ∀ a, a = min (bits v 35 32) (teTc e - 1) → a < bits v 39 36 → teC e + 2 + a < slCmax w →
      (outcome false fail w e v step now).newc = teC e + 1 + a ∧
      (outcome false fail w e v step now).next = bits v 31 0 ∧
      (outcome false fail w e v step now).emit =
        (List.range a).map (fun k => (teC e + 1 + k, teTok e (k + 1))) ++ [(teC e + 1 + a, bits v 31 0)]) ∧
    (∀ pf, slCxp w = false → pf = true → bits v 63 48 = step % 65536 → teC e + teTc e = slCmax w →
      (outcome pf fail w e v step now).pstate = 3 ∧ (outcome pf fail w e v step now).newc = slCmax w))

/-- The client's messages (09_serving.md R366, R369, R374 to R376, R382 to R391): a SUBMIT that fails a check is refused with that
check's code; one that passes has its image built and ADMIT posted in the Roll's ring, and the result makes ACCEPT or REFUSE; CANCEL
posts a Roll CANCEL, whose result is the answer; DRAFT writes the draft line; TOKENS sends the next egress record and counts it
consumed. -/
def Obligations.EndpointRows : Prop :=
  (∀ (j : Fin 16) (m : List Byte) (plan : SubmitPlan) (adopt : Option (Fin 16)) (s : State), s.powered = true → submitOk m = false →
    exec (.submit j m plan adopt) s = .next { s with svc := s.svc ++ [refuseBytes (mRid m) 5 0] }) ∧
  (∀ (j : Fin 16) (m : List Byte) (plan : SubmitPlan) (adopt : Option (Fin 16)) (s : State), s.powered = true → submitOk m = true →
    (s.slotOn j.val && s.isLead j.val && !s.prefill j.val) = false →
    exec (.submit j m plan adopt) s = .next { s with svc := s.svc ++ [refuseBytes (mRid m) 1 (jLead (s.jobRec j.val))] }) ∧
  (∀ (j : Fin 16) (m : List Byte) (plan : SubmitPlan) (adopt : Option (Fin 16)) (s : State), s.powered = true → submitOk m = true → s.slotOn j.val = true →
    s.isLead j.val = true → s.prefill j.val = false →
    (1048567 < sbN m + sbMaxnew m → exec (.submit j m plan adopt) s = .next { s with svc := s.svc ++ [refuseBytes (mRid m) 3 0] }) ∧
    (sbN m + sbMaxnew m ≤ 1048567 → sbW m ≠ 0 → (sbW m % 16 ≠ 0 ∨ sbW m < 256 ∨ 32768 < sbW m) →
      exec (.submit j m plan adopt) s = .next { s with svc := s.svc ++ [refuseBytes (mRid m) 6 0] }) ∧
    (sbN m + sbMaxnew m ≤ 1048567 → sbW m = 0 → sbFlag m 0 = true → (mLe m 40 4 % 16 ≠ 0 ∨ sbN m - 1 < mLe m 40 4) →
      exec (.submit j m plan adopt) s = .next { s with svc := s.svc ++ [refuseBytes (mRid m) 7 0] }) ∧
    (sbN m + sbMaxnew m ≤ 1048567 → sbW m = 0 → sbFlag m 0 = false → s.glossStaged j.val m plan.dirs = false →
      exec (.submit j m plan adopt) s = .next { s with svc := s.svc ++ [refuseBytes (mRid m) 4 0] })) ∧
  (∀ (j : Fin 16) (m : List Byte) (plan : SubmitPlan) (adopt : Option (Fin 16)) (s u : State) (pf pr : Nat × Nat × Nat) (npg list w : Nat), s.powered = true →
    submitOk m = true → s.slotOn j.val = true → s.isLead j.val = true → s.prefill j.val = false → sbN m + sbMaxnew m ≤ 1048567 →
    sbW m = 0 → sbFlag m 0 = false → sbFlag m 2 = false → adopt = none → s.records = [] →
    u = (s.seenJob j.val (s.headNact j.val)).seenSlips j.val →
    u.slipOfRid j.val (mRid m) = none → pf = u.prefixOf j.val m → pr = (16 * pf.2.1, npg, list) →
    u.prefixRec j.val pf.2.2 = (npg, list) →
    w = u.submitImage j.val m plan.plist.toNat plan.rlist.toNat (u.requests.length % 2 ^ 24) →
    (pf.1 = 1 → exec (.submit j m plan adopt) s = .next ((u.sysPut (u.jSheet j.val) plan.plist.toNat
        ((List.range npg).flatMap fun k => leBytes 4 (u.sheetLe (u.jSheet j.val) (list + 4 * k) 4))).postAdmit j.val m plan
      (takePrefix w m pr.1 npg pf.2.2) ⟨mRid m, 0, 0, j.val, 0, 0, false, 1, none, none, none, 0⟩
      (if sbN m ≤ pr.1 + 16 then none
        else some ⟨j.val, 0, 0, sbN m, pr.1, (m.drop 56).take (4 * sbN m), none, slDeadline w⟩))) ∧
    (pf.1 ≠ 1 → exec (.submit j m plan adopt) s = .next ((u.sysPut (u.jSheet j.val) plan.plist.toNat []).postAdmit j.val m plan w
      ⟨mRid m, 0, 0, j.val, 0, 0, false, pf.1, none, none, none, 0⟩
      (some ⟨j.val, 0, 0, sbN m, 0, (m.drop 56).take (4 * sbN m), none, slDeadline w⟩)))) ∧
  (∀ (s v u : State) (p : RollPost), s.posts = [] → p.at_ = none → v = { s with posts := [p] } → v.rcqRoom = true →
    u = { (v.storeCarve (v.rcqBase + 64 * (v.rcqProd % 256)) (leBytes 64 p.entry)).carvePut
        (v.rcqBase + 64 * 256) (leBytes 8 ((v.rcqProd + 1) % 2 ^ 64)) with
      posts := [{ p with at_ := some (v.rcqProd % 2 ^ 32) }] } →
    (u.word Reg.RCQ_CONS).toNat = v.rcqProd % 2 ^ 32 → s.postCommand p = u.rollNext fun _ => true) ∧
  (∀ (s u : State) (p : RollPost) (r : Request) (order : Option PrefillOrder) (dropped c slip gen : Nat),
    p.wish = .enter r dropped order → u = { s with
      requests := s.requests ++ [{ r with slip := slip, gen := gen }]
      orders := s.orders ++ (order.map fun o => { o with slip := slip, gen := gen }).toList } →
    (c ≠ 0 → s.wishDone p c slip gen = { s with svc := s.svc ++ [refuseBytes p.rid 2 0] }) ∧
    (c = 0 → r.owed = none → s.wishDone p c slip gen = { u with
      svc := s.svc ++ [message 2 p.rid (leBytes 4 slip ++ leBytes 1 gen ++ leBytes 1 0 ++ leBytes 2 dropped ++
        leBytes 4 (16 * bits (u.slip slip) 124 113))] })) ∧
  (∀ (j : Fin 16) (m : List Byte) (s : State), s.powered = true → headOk m 6 16 = true → s.request j.val (mRid m) = none →
    exec (.clientCancel j m) s = .next { s with svc := s.svc ++ [message 7 (mRid m) (leBytes 1 3 ++ leBytes 7 0)] }) ∧
  (∀ (j : Fin 16) (m : List Byte) (s : State) (r : Request), s.powered = true → headOk m 6 16 = true →
    s.request j.val (mRid m) = some r → s.slotOn j.val = true → s.isLead j.val = true →
    exec (.clientCancel j m) s = .next (s.postCommand
      ⟨none, 0x0A + j.val * 2 ^ 8 + r.slip * 2 ^ 32 + r.gen * 2 ^ 50 + 5 * 2 ^ 64, j.val, mRid m, .cancel⟩)) ∧
  (∀ (s : State) (p : RollPost) (c slip gen : Nat), p.wish = .cancel → s.wishDone p c slip gen =
    { s with svc := s.svc ++ [message 7 p.rid
      (leBytes 1 (if c ≤ 1 then 0 else if c = 5 then 1 else if c = 6 then 2 else 3) ++ leBytes 7 0)] }) ∧
  (∀ (j : Fin 16) (m : List Byte) (s : State) (r : Request), s.powered = true → mLe m 20 1 ≤ 8 →
    headOk m 8 (24 + 4 * mLe m 20 1) = true → s.request j.val (mRid m) = some r → slState (s.slip r.slip) = 4 →
    exec (.draft j m) s = .next (s.sysPut (s.jSheet j.val) (jAddr (s.jobRec j.val) 4 + 64 * (r.slip - s.rd (Reg.SBASE j.val) 17 0))
      (leBytes 32 (mLe m 16 4 % 2 ^ 24 + mLe m 20 1 * 2 ^ 24) ++ fit 32 0 (m.drop 24)))) ∧
  (∀ (j : Fin 16) (s v u : State), s.powered = true → v = s.seenEgress j.val → v.slotOn j.val = true → v.isLead j.val = true →
    v.ringOk (v.egBase j.val) (v.egSize j.val) = true → v.egCons j.val ≠ v.egProd j.val → v.tokensDue j.val = true →
    u = v.deliver j.val (v.egRecord j.val (v.egCons j.val)) →
    exec (.tokens j) s = .next ((u.carvePut (v.egBase j.val + 64 * v.egSize j.val + 8)
      (leBytes 8 ((v.egCons j.val + 1) % 2 ^ 64))).sendEnds j.val)) ∧
  (∀ (j e : Nat) (s : State), (s.requests.find? fun r => r.job == j && recordOf r e && !r.ended) = none → s.deliver j e = s) ∧
  (∀ (j e : Nat) (s : State) (r : Request), (s.requests.find? fun r => r.job == j && recordOf r e && !r.ended) = some r →
    r.pub = none →
    (terminal (bits e 29 26) = false → bits e 37 34 ≠ 0 → s.deliver j e =
      { s.setRequest r { r with sent := r.sent + bits e 37 34, lastPos := bits e 87 64 + bits e 37 34 } with
        svc := s.svc ++ [message 4 r.rid (leBytes 4 (bits e 87 64) ++ leBytes 2 (bits e 37 34) ++
          leBytes 1 (if r.sent = 0 then r.pfx else 0) ++ leBytes 1 0 ++ leBytes 8 (bits e 191 128) ++
          leBytes (4 * bits e 37 34) (bits e 479 192))] }) ∧
    (terminal (bits e 29 26) = true → bits e 37 34 = 0 → s.deliver j e =
      { s.setRequest r { r with ended := true } with
        svc := s.svc ++ [message 5 r.rid (leBytes 1 (bits e 29 26) ++ leBytes 1 (bits e 33 30) ++ [Config.pubCode r.pubRes, 0] ++
          leBytes 4 r.sent ++ leBytes 4 r.lastPos ++ leBytes 4 0 ++ leBytes 8 s.now)] })) ∧
  (∀ (j : Fin 16) (s v : State), s.powered = true → v = s.seenEgress j.val → v.egCons j.val = v.egProd j.val →
    exec (.tokens j) s = .next v)

/-- Step mirrors, slip batches and resync (13_topology_failover.md R553, R555 to R557): a step's copies start, and DONE is added to
once they are acknowledged; a batch writes the records that changed, in its turn, and its number once they are acknowledged; resync
copies while the engine runs and the buddy is not LOST. That a new trigger takes the place of a step mirror that still runs is the
model's choice (log entry 173). -/
def Obligations.MirrorRows : Prop :=
  (∀ (j : Fin 16) (s : State), s.powered = true → s.mirrors = false → exec (.mirrorStepTrigger j) s = .next s ∧
    exec (.mirrorBatchTrigger j) s = .next s) ∧
  (∀ (j : Fin 16) (s u : State), s.powered = true → s.mirrors = true → s.slotOn j.val = true →
    u = (s.seenTrigger j.val).seenJob j.val 0 →
    (u.suspended = true → exec (.mirrorStepTrigger j) s =
      .next ((u.setMirr j.val { u.mirr j.val with stepOf := none, stepOwed := 0 }).addDone j.val)) ∧
    (∀ v, u.suspended = false → u.headNact j.val = 0 → v = u.seenJob j.val 0 → exec (.mirrorStepTrigger j) s =
      .next (v.setMirr j.val { v.mirr j.val with
        stepOf := some (v.triggerWord j.val), stepOwed := 0, stepRun := (v.mirr j.val).stepRun + 1 }))) ∧
  (∀ (j : Fin 16) (s : State) (v : Nat), s.powered = true → (s.mirr j.val).stepOf = some v →
    ((s.mirr j.val).stepOwed = 0 ∨ s.suspended = true → exec (.mirrorStepComplete j) s =
      .next ((s.setMirr j.val { s.mirr j.val with stepOf := none, stepOwed := 0 }).addDone j.val)) ∧
    ((s.mirr j.val).stepOwed ≠ 0 → s.suspended = false → exec (.mirrorStepComplete j) s = .next s)) ∧
  (∀ (j : Fin 16) (s u : State), s.powered = true → s.mirrors = true → s.suspended = false → s.slotOn j.val = true →
    s.isLead j.val = true → u = s.seenTrigger (16 + j.val) →
    exec (.mirrorBatchTrigger j) s = .next (u.batch j.val (u.triggerWord (16 + j.val)))) ∧
  (∀ (j v : Nat) (s : State), (s.mirr j).batchOf ≠ none → (s.mirr j).batchOwed ≠ 0 →
    s.batch j v = s.setMirr j { s.mirr j with batchQ := (s.mirr j).batchQ ++ [v] }) ∧
  (∀ (j v : Nat) (s : State), (s.mirr j).batchOf = none → (s.mirr j).batchQ = [] →
    s.batch j v = State.batchNext 2 j
      (((s.setMirr j { s.mirr j with batchQ := [v] }).setMirr j { s.mirr j with batchQ := [] }).batchStart j v)) ∧
  (∀ (j v i : Nat) (s u : State), s.suspended = false → (if v % 2 = 0 then (s.mirr j).dirty0 else (s.mirr j).dirty1) = [i] →
    u = (s.seenSlip i).seenCarve (s.addrOf Reg.EPT_LO Reg.EPT_HI 64 + 64 * i) 64 →
    s.batchStart j v = (u.setMirr j (if v % 2 = 0
        then { s.mirr j with dirty0 := [], batchOf := some v, batchOwed := (u.slipRecord 0 i).length }
        else { s.mirr j with dirty1 := [], batchOf := some v, batchOwed := (u.slipRecord 1 i).length })).mirrorAll
      ⟨4, 3, j, 2, 0, 0, 0⟩ (u.slipRecord (v % 2) i)) ∧
  (∀ (j v : Nat) (s u : State) (aper e : Nat), (s.mirr j).batchOf = some v → (s.mirr j).batchOwed = 0 → s.suspended = false →
    aper = s.rd Reg.MIRR_CTL 11 0 * 2 ^ 36 + 8 * j →
    u = (s.setMirr j { s.mirr j with batchOf := none, mseq := v }).seenImport none aper → e = u.importEntry none aper →
    importOk e (8 * j) 8 10 = true → s.batchSeq j =
      u.issue { aperPacket u 0x0C e aper with imm := BitVec.ofNat 64 v } ⟨4, 3, j, 3, 0, v, 0⟩ aper (bits e 99 64) (bit e 62)) ∧
  (∀ s : State, s.powered = true → (s.mirrors = false ∨ s.buddyLost = true) → ∃ t : State, exec .resync s = .next t.report ∧
    t.rdb Reg.MIRR_CTL 30 = true ∧ t.rd Reg.MIRR_CTL 29 28 = (if s.mirrors then 3 else 1) ∧ Only [Reg.MIRR_CTL] s t) ∧
  (∀ s u : State, s.powered = true → s.mirrors = true → s.buddyLost = false →
    u = (s.wrb Reg.MIRR_CTL 30 true).wr Reg.MIRR_CTL 29 28 1 →
    exec .resync s = .next ((List.range 16).foldl State.resyncSlot u).report) ∧
  (∀ s : State, s.powered = true → s.mirrors = true → s.rd Reg.MIRR_CTL 29 28 = 1 → s.resyncing = false → ∃ t : State,
    exec .resyncComplete s = .next t.report ∧ t.rd Reg.MIRR_CTL 29 28 = 2 ∧ t.rdb Reg.MIRR_CTL 30 = false ∧ Only [Reg.MIRR_CTL] s t) ∧
  (∀ s : State, s.powered = true → (s.mirrors = false ∨ s.rd Reg.MIRR_CTL 29 28 ≠ 1 ∨ s.resyncing = true) →
    exec .resyncComplete s = .next s)

/-! ## Packets and links -/

/-- Every packet of a known opcode, whatever its fields and payload, is read back from its bytes as it was, with a good header
and the length its header gives (12_fabric_links.md R490 to R492, R494). -/
def Obligations.PacketRoundTrip : Prop :=
  ∀ p : Packet, knownOpc p.opc.toNat = true → (∀ g ∈ p.gran, g.length = 64) → p.badGranule = false →
    parsePacket (packetBytes p) = p ∧ headerGood (packetBytes p) = true ∧
    (packetBytes p).length = 40 + 68 * p.gran.length ∧
    (p.gran = [] ∨ p.gran.length = payloadCount p → packetLen (packetBytes p) = (packetBytes p).length)

/-- A packet with a bad HCHK, a reserved opcode or a reserved virtual lane is discarded, counted in HDR_ERR and answered with
nothing (12_fabric_links.md R492). -/
def Obligations.BadHeaders : Prop :=
  ∀ (port : Nat) (b : List Byte) (s : State),
    (crc32c ((b.take 36).set 1 (b.getD 1 0 &&& 0x0F)) ≠ leNat ((b.drop 36).take 4) ∨ knownOpc (b.getD 0 0).toNat = false ∨
      4 < (b.getD 1 0).toNat % 8) →
    (s.rxBytes port b).word Reg.HDR_ERR = BitVec.ofNat 32 (sat32 ((s.word Reg.HDR_ERR).toNat + 1)) ∧
    Only [Reg.HDR_ERR] s (s.rxBytes port b) ∧ (s.rxBytes port b).tx = s.tx

/-- Flits (12_fabric_links.md R486, R487): one with a bad CRC is counted and asks for a replay; the next good one in sequence of a lane
with nothing to deliver is counted and sets the number expected; the packets a flit completes arrive in order. A replay, in which
every unacknowledged flit leaves again, a packet forwarded on the ring, a port that goes down, and the packets that then take other
paths (R487, R504, R512, R513).
PORT_DOWN_RESEND moves rack time up to 20 µs after the port went down: the model's choice (log entry 7). -/
def Obligations.PortRows : Prop :=
  (∀ (p : Fin 10) (f : List Byte) (corr unc : Nat) (s : State), s.powered = true → f.length = 256 →
    (s.portState p.val = 2 ∨ s.portState p.val = 3 ∨ s.portState p.val = 4) → crc32c (f.take 252) ≠ leNat (f.drop 252) →
    ∃ t, exec (.flitReceive p f corr unc) s = .next t ∧ (t.port p.val).nak = true ∧
      t.word (Reg.CRC_ERR p.val) = BitVec.ofNat 32 (sat32 ((s.word (Reg.CRC_ERR p.val)).toNat + 1)) ∧
      t.word (Reg.LFEC_CORR p.val) = BitVec.ofNat 32 (sat32 ((s.word (Reg.LFEC_CORR p.val)).toNat + corr)) ∧
      t.word (Reg.LFEC_UNC p.val) = BitVec.ofNat 32 (sat32 ((s.word (Reg.LFEC_UNC p.val)).toNat + unc)) ∧
      t = { s with csr := t.csr, ports := t.ports }) ∧
  (∀ (p : Fin 10) (f : List Byte) (corr unc : Nat) (s : State), s.powered = true → f.length = 256 →
    (s.portState p.val = 2 ∨ s.portState p.val = 3 ∨ s.portState p.val = 4) → crc32c (f.take 252) = leNat (f.drop 252) →
    bit (f.getD 4 0).toNat 3 = false → bit (f.getD 4 0).toNat 4 = false →
    leNat (f.take 2) = ((s.port p.val).rxSeq + 1) % 65536 →
    ((s.port p.val).stream.getD ((f.getD 4 0).toNat % 8) []) = [] → f.getD 8 0 = 0 →
    ∃ t, exec (.flitReceive p f corr unc) s = .next t ∧ (t.port p.val).rxSeq = leNat (f.take 2) ∧ (t.port p.val).nak = false ∧
      t.word (Reg.FLITS_RX p.val) = s.word (Reg.FLITS_RX p.val) + 1 ∧ t = { s with csr := t.csr, ports := t.ports }) ∧
  (∀ (p : Fin 10) (f : List Byte) (corr unc : Nat) (s : State), s.powered = true → f.length = 256 →
    (s.portState p.val = 2 ∨ s.portState p.val = 3 ∨ s.portState p.val = 4) → exec (.flitReceive p f corr unc) s =
      .next ((s.flitIn p.val f corr unc).2.foldl (fun u b => u.rxBytes p.val b) (s.flitIn p.val f corr unc).1)) ∧
  (∀ (p : Fin 10) (f : List Byte) (corr unc : Nat) (s : State), s.powered = true → f.length = 256 →
    (s.portState p.val = 0 ∨ s.portState p.val = 1 ∨ s.portState p.val = 5) → exec (.flitReceive p f corr unc) s = .next s) ∧
  (∀ (p : Fin 10) (s : State), s.powered = true →
    ((s.port p.val).unacked = [] → exec (.replayTimeout p) s = .next s) ∧
    ((s.port p.val).unacked ≠ [] → ∃ t, exec (.replayTimeout p) s = .next t ∧
      t.port p.val = { (s.port p.val).again p.val with
        replays := (s.port p.val).replays + 1
        laneCheck := (s.port p.val).laneCheck || decide (8 ≤ (s.port p.val).replays + 1) } ∧
      (t.port p.val).wire.length = (s.port p.val).wire.length + (s.port p.val).unacked.length ∧
      t.word (Reg.FLITS_TX p.val) =
        BitVec.ofNat 32 ((s.word (Reg.FLITS_TX p.val)).toNat + (s.port p.val).unacked.length) ∧
      t.word (Reg.REPLAYS p.val) = BitVec.ofNat 32 (sat32 ((s.word (Reg.REPLAYS p.val)).toNat + 1)) ∧
      t = { s with csr := t.csr, ports := t.ports })) ∧
  (∀ (p : Fin 10) (k : Packet) (s : State) (out : Nat), s.powered = true → out = (if p.val = 8 then 9 else 8) →
    (k.badGranule = true → exec (.forward p k) s = .next s.badPayload) ∧
    (k.badGranule = false → 8 ≤ p.val → k.dst.toNat ≠ s.pos → vlOf k.opc.toNat ≠ 4 → k.hops.toNat < 7 → s.ringCarries out = true →
      ∃ t, exec (.forward p k) s = .next t ∧ t.tx = s.tx ++ [(out, { k with hops := k.hops + 1 })] ∧
        t = { s with csr := t.csr, ports := t.ports, tx := t.tx }) ∧
    (k.badGranule = false → (p.val < 8 ∨ k.dst.toNat = s.pos ∨ vlOf k.opc.toNat = 4 ∨ 7 ≤ k.hops.toNat ∨ s.ringCarries out = false) →
      exec (.forward p k) s = .next s)) ∧
  (∀ (p : Fin 10) (s : State), s.powered = true → (∀ n, n < 256 → s.paths (idxPos n) = []) →
    ∃ t, exec (.portDown p) s = .next t ∧ t.portState p.val = 5 ∧ t.rd (Reg.PORT_STAT p.val) 15 12 = 0 ∧
      (t.port p.val).unacked = [] ∧ (t.port p.val).sendq = [] ∧ (t.port p.val).borrowed = none ∧ t.mem = s.mem) ∧
  (∀ (p : Fin 10) (s : State), s.powered = true → exec (.portDown p) s = .next (s.portGoesDown p.val)) ∧
  (∀ (p : Fin 10) (s : State) (t : Nat), s.powered = true → (s.port p.val).downAt = some t →
    exec (.portDownResend p) s = .next ((s.outOps.filter fun o => o.path == p.val && decide (o.sentAt ≤ t)).foldl
      (fun u o => u.resend o true) (s.waited t 20000))) ∧
  (∀ (p : Fin 10) (s : State), s.powered = true → (s.port p.val).downAt = none → exec (.portDownResend p) s = .next s)

/-- The widest lane set is made of good lanes (12_fabric_links.md R508). A failed lane or a lock proposes the widest good set, WIDTH
agrees to one, VERSION to a link version, BORROW lends a lane (R509 to R511, R517, R518). With no lane set left the port goes down;
a version with no common version holds it; a message for a port that is not in use has no effect. -/
def Obligations.LaneRows : Prop :=
  (∀ good : Nat, good < 256 → bestSet good &&& good = bestSet good ∧
    (bestSet good = 0 ↔ good &&& 3 ≠ 3 ∧ good &&& 12 ≠ 12 ∧ good &&& 48 ≠ 48 ∧ good &&& 192 ≠ 192) ∧
    (∀ m ∈ [0xFF, 0x0F, 0xF0, 0x03, 0x0C, 0x30, 0xC0], good &&& m = m → widthOf m ≤ widthOf (bestSet good))) ∧
  (∀ (p : Fin 10) (lane : Fin 8) (s u : State), s.powered = true → u = s.wrb (Reg.LANE_FAIL p.val) lane.val true →
    s.portState p.val ≠ 0 → s.portState p.val ≠ 5 → bestSet (u.goodLanes p.val) ≠ 0 →
    exec (.laneFail p lane) s = .next ((u.setPort p.val
      { u.port p.val with borrowed := none, proposed := bestSet (u.goodLanes p.val), laneCheck := false }).sendLink p.val 1 (bestSet (u.goodLanes p.val)))) ∧
  (∀ (p : Fin 10) (lane : Fin 8) (s : State), s.powered = true → ∃ t, exec (.laneFail p lane) s = .next t ∧
    ((s.portState p.val = 0 ∨ s.portState p.val = 5) → t.rdb (Reg.LANE_FAIL p.val) lane.val = true ∧
      t = { s with csr := t.csr, ports := t.ports })) ∧
  (∀ (p : Fin 10) (lanes : BitVec 8) (s : State), s.powered = true → bestSet lanes.toNat ≠ 0 →
    (s.portUp p.val = false ∨ ∀ n, n < 256 → s.paths (idxPos n) = []) →
    ∃ t, exec (.flitLock p lanes) s = .next t ∧ t.portState p.val = 2 ∧
      t.rd (Reg.PORT_STAT p.val) 23 16 = bestSet lanes.toNat ∧ t.rd (Reg.PORT_STAT p.val) 11 8 = 0 ∧
      t.rd (Reg.LANE_FAIL p.val) 7 0 = 255 - lanes.toNat ∧ (t.port p.val).rxSeq = 0 ∧
      (∃ x ∈ t.tx, x.1 = p.val ∧ x.2.opc = 0x41 ∧ x.2.atop = 0 ∧ x.2.imm.toNat = (s.word Reg.LINK_CAP).toNat) ∧ t.mem = s.mem) ∧
  (∀ (p : Fin 10) (imm : W64) (s : State) (v : Nat), s.powered = true →
    (s.portState p.val = 2 ∨ s.portState p.val = 3 ∨ s.portState p.val = 4) →
    v = min (bits imm.toNat 15 8) (s.rd Reg.LINK_CAP 15 8) → bits imm.toNat 7 0 ≤ v → s.rd Reg.LINK_CAP 7 0 ≤ v →
    ∃ t, exec (.version p imm) s = .next t ∧ t.rd (Reg.PORT_STAT p.val) 11 8 = v % 16 ∧
      (t.port p.val).farVer = some imm.toNat ∧ t = { s with csr := t.csr, ports := t.ports } ∧
      (∀ o, o ≠ Reg.PORT_STAT p.val → t.word o = s.word o)) ∧
  (∀ (p : Fin 10) (imm : W64) (s : State), s.powered = true → bit imm.toNat 8 = true →
    bits imm.toNat 7 0 = (s.port p.val).proposed → bits imm.toNat 7 0 ≠ 0 →
    ∃ t, exec (.width p imm) s = .next t ∧ t.rd (Reg.PORT_STAT p.val) 23 16 = bits imm.toNat 7 0 ∧
      (t.port p.val).proposed = 0 ∧
      t.word (Reg.WIDTH_CHG p.val) = (if s.rd (Reg.PORT_STAT p.val) 23 16 = bits imm.toNat 7 0 then s.word (Reg.WIDTH_CHG p.val)
        else BitVec.ofNat 32 (sat32 ((s.word (Reg.WIDTH_CHG p.val)).toNat + 1)))) ∧
  (∀ (p : Fin 10) (imm : W64) (s : State) (b : Nat), s.powered = true → bit imm.toNat 8 = false → bits imm.toNat 7 0 ≠ 0 →
    s.portState p.val ≠ 0 → s.portState p.val ≠ 5 → b = nextSet (s.goodLanes p.val) (bits imm.toNat 7 0) →
    (laneSets.contains (bits imm.toNat 7 0) = true → bits imm.toNat 7 0 &&& s.goodLanes p.val = bits imm.toNat 7 0 →
      exec (.width p imm) s = .next ((s.takeLanes p.val (bits imm.toNat 7 0)).sendLink p.val 1 (bits imm.toNat 7 0 + 256))) ∧
    ((laneSets.contains (bits imm.toNat 7 0) = false ∨ bits imm.toNat 7 0 &&& s.goodLanes p.val ≠ bits imm.toNat 7 0) →
      exec (.width p imm) s = .next (if b = 0 then s.portGoesDown p.val
        else (s.setPort p.val { s.port p.val with proposed := b }).sendLink p.val 1 b))) ∧
  (∀ good far : Nat, good < 256 → laneSets.contains far = true → nextSet good far &&& good = nextSet good far ∧
    ∀ m ∈ laneSets, good &&& m = m → widthOf m < widthOf far → widthOf m ≤ widthOf (nextSet good far)) ∧
  (∀ (p : Fin 10) (imm : W64) (s : State), s.powered = true → bit imm.toNat 8 = false → s.portUp p.val = true →
    s.rd (Reg.PORT_STAT p.val) 15 12 = 8 →
    ∃ t, exec (.borrow p imm) s = .next t ∧ (t.port p.val).borrowed = some (bits imm.toNat 2 0) ∧
      t.rd (Reg.PORT_STAT p.val) 15 12 = 7 ∧ t.rd (Reg.PORT_STAT p.val) 23 16 = 255 - 2 ^ bits imm.toNat 2 0 ∧
      t.word (Reg.BORROWS p.val) = s.word (Reg.BORROWS p.val) + 1 ∧ t = { s with csr := t.csr, ports := t.ports }) ∧
  (∀ (p : Fin 10) (imm : W64) (s : State), s.powered = true → bit imm.toNat 8 = true → s.portUp p.val = true →
    (s.port p.val).borrowed = some (bits imm.toNat 2 0) →
    ∃ t, exec (.borrow p imm) s = .next t ∧ (t.port p.val).borrowed = none ∧ t.rd (Reg.PORT_STAT p.val) 15 12 = 8 ∧
      t.rd (Reg.PORT_STAT p.val) 23 16 = 255 ∧ t = { s with csr := t.csr, ports := t.ports }) ∧
  (∀ (p : Fin 10) (lane : Fin 8) (s u : State), s.powered = true → u = s.wrb (Reg.LANE_FAIL p.val) lane.val true →
    s.portState p.val ≠ 0 → s.portState p.val ≠ 5 → bestSet (u.goodLanes p.val) = 0 →
    exec (.laneFail p lane) s = .next ((u.setPort p.val
      { u.port p.val with borrowed := none, proposed := 0, laneCheck := false }).portGoesDown p.val)) ∧
  (∀ (p : Fin 10) (lanes : BitVec 8) (s : State), s.powered = true → bestSet lanes.toNat = 0 →
    exec (.flitLock p lanes) s = .next ((s.wr (Reg.LANE_FAIL p.val) 7 0 (255 - lanes.toNat)).portGoesDown p.val)) ∧
  (∀ (p : Fin 10) (imm : W64) (s u v : State) (top : Nat), s.powered = true →
    top = min (bits imm.toNat 15 8) (s.rd Reg.LINK_CAP 15 8) →
    ((s.portState p.val = 0 ∨ s.portState p.val = 1 ∨ s.portState p.val = 5) → exec (.version p imm) s = .next s) ∧
    ((s.portState p.val = 2 ∨ s.portState p.val = 3 ∨ s.portState p.val = 4) →
      (top < bits imm.toNat 7 0 ∨ top < s.rd Reg.LINK_CAP 7 0) →
      u = s.setPort p.val { s.port p.val with farVer := some imm.toNat } →
      v = (u.wr (Reg.PORT_STAT p.val) 11 8 0).setPortStat p.val 4 0 (u.rd (Reg.PORT_STAT p.val) 23 16) →
      exec (.version p imm) s = .next (((State.lostSince u v).post 0x0903 [p.val, imm.toNat]).portChanged p.val))) ∧
  (∀ (p : Fin 10) (imm : W64) (s : State), s.powered = true →
    (bit imm.toNat 8 = false → (s.portUp p.val = false ∨ s.rd (Reg.PORT_STAT p.val) 15 12 ≠ 8) → exec (.borrow p imm) s = .next s) ∧
    (bit imm.toNat 8 = true → (s.port p.val).borrowed ≠ some (bits imm.toNat 2 0) → exec (.borrow p imm) s = .next s))

/-- What the fabric says of reach, identity and cables (R505, R506, R516; 13_topology_failover.md R527 to R533, R539 to R541; 12
R526; 18_module_interfaces.md R717). RINGMAP_TIMEOUT moves rack time up to 3 epochs after the last RINGMAP: the model's choice (log
entry 7). A RINGMAP at a plane port, or of the module itself, has no effect. -/
def Obligations.DiscoveryRows : Prop :=
  (∀ (p : Fin 10) (imm : W64) (s : State), s.powered = true →
    exec (.unreach p imm) s = .next (if 8 ≤ p.val then s else State.lostSince s (s.setPort p.val { s.port p.val with
      unreach := (imm.toNat % 65536) :: (s.port p.val).unreach.filter (· != imm.toNat % 65536) }))) ∧
  (∀ (p : Fin 10) (imm : W64) (s : State), s.powered = true → ∃ t, exec (.reachable p imm) s = .next t ∧
    (imm.toNat % 65536) ∉ (t.port p.val).unreach ∧ t = { s with ports := t.ports }) ∧
  (∀ (p : Fin 10) (imm : W64) (s u : State) (out : Nat), s.powered = true → 8 ≤ p.val → bits imm.toNat 15 0 ≠ s.pos →
    out = (if p.val = 8 then 9 else 8) →
    u = { s with ringMap := Map.set s.ringMap (bits imm.toNat 15 0) (bit imm.toNat 16, bit imm.toNat 17, s.epoch) } →
    exec (.ringmap p imm) s =
      .next (State.lostSince s (if u.carriesCtl out then u.sendLink out 5 (imm.toNat % 2 ^ 18) else u))) ∧
  (∀ (pos : BitVec 16) (s : State) (e : Bool × Bool × Nat), s.powered = true → Map.get? s.ringMap pos.toNat = some e →
    exec (.ringmapTimeout pos) s = .next (State.lostSince s
      { s.waited (100000 * e.2.2) 300000 with ringMap := Map.erase s.ringMap pos.toNat })) ∧
  (∀ (pos : BitVec 16) (s : State), s.powered = true → Map.get? s.ringMap pos.toNat = none →
    exec (.ringmapTimeout pos) s = .next s) ∧
  (∀ s : State, State.lostSince s s = s) ∧
  (∀ (p : Fin 10) (f : List Byte) (s : State) (code : Nat), s.powered = true → f.length = 64 → (f.getD 10 0).toNat ≤ 1 →
    s.portState p.val = 2 → code = (if s.matchCode p.val f = 5 ∧ s.swapOk p.val f = true then 2 else s.matchCode p.val f) →
    ∃ u, exec (.ident p f) s = .next (State.settlePort u p.val) ∧ u.rd (Reg.IDM p.val) 31 28 = code ∧
      u.rd (Reg.IDM p.val) 15 0 = leNat ((f.drop 8).take 2) ∧
      u.rd64 (Reg.FAR_SER_LO p.val) (Reg.FAR_SER_HI p.val) = leNat (f.take 8)) ∧
  (∀ (p : Fin 10) (s : State), s.start.matched = true → (∀ n, n < 256 → s.paths (idxPos n) = []) →
    (s.settlePort p.val).portState p.val =
      (if (s.rd (Reg.IDM p.val) 31 28 = 1 ∨ s.rd (Reg.IDM p.val) 31 28 = 2) ∧ s.mayCarry p.val = true then 3 else 4)) ∧
  (∀ (p : Fin 10) (s : State), s.powered = true → (s.portState p.val = 2 ∨ s.portState p.val = 3 ∨ s.portState p.val = 4) →
    ∃ t, exec (.identTimer p) s = .next t ∧
      t.tx = s.tx ++ [(p.val, { mkPacket 0x42 s.pos 0 with gran := [s.ownFrame p.val] })] ∧
      t = { s with csr := t.csr, ports := t.ports, tx := t.tx }) ∧
  (∀ (p : Fin 10) (s : State), s.powered = true → (s.portState p.val = 0 ∨ s.portState p.val = 1 ∨ s.portState p.val = 5) →
    exec (.identTimer p) s = .next s) ∧
  (∀ s : State, s.powered = true → exec .absentDeadline s = .next (State.report (State.checkMatched
    ((List.range 10).foldl State.absent { s with start := { s.start with deadline := true } })))) ∧
  (∀ (p : Nat) (s u : State), u = (s.wr (Reg.IDM p) 31 28 3).post 0x0904 [p, 3] → bit (s.planPort p) 31 = true →
    s.rd (Reg.IDM p) 31 28 = 0 → s.absent p = if u.portState p = 2 ∨ u.portState p = 3 then u.settlePort p else u) ∧
  (∀ s : State, s.powered = true → (∀ p, p < 10 → s.portState p ≠ 2 ∧ s.portState p ≠ 3) →
    ∃ t, exec .absentDeadline s = .next t ∧ t.start.deadline = true ∧
    ∀ p, p < 10 → bit (s.planPort p) 31 = true → s.rd (Reg.IDM p) 31 28 = 0 → t.rd (Reg.IDM p) 31 28 = 3) ∧
  (∀ (p : Fin 10) (gap silent : Bool) (cable : List Byte) (s : State), cable = [] ∨ cable.length = 192 → s.powered = true →
    ((s.portState p.val = 0 ∨ s.portState p.val = 5) →
      ∃ t, exec (.farEndDetect ⟨p, gap, silent, cable⟩) s = .next t ∧ t.portState p.val = 1 ∧
      ((p.val = s.ringPort false ∨ silent = true) → (t.port p.val).mates = (s.port p.val).mates) ∧
      (silent = true → t.rd (Reg.CBL_STAT p.val) 17 16 = 3) ∧
      (p.val ≠ s.ringPort false → gap = true → silent = false → (t.port p.val).mates = (s.port p.val).mates + 1)) ∧
    (s.portState p.val ≠ 0 → s.portState p.val ≠ 5 → exec (.farEndDetect ⟨p, gap, silent, cable⟩) s =
      .next (State.cableTry { s with mem := Mem.write s.mem (physCable p.val 0) cable } p.val gap silent))) ∧
  (∀ (p : Fin 10) (gap silent : Bool) (cable : List Byte) (s : State), cable ≠ [] → cable.length ≠ 192 →
    exec (.farEndDetect ⟨p, gap, silent, cable⟩) s = .fault .malformed) ∧
  (∀ (p : Fin 10) (ok : Bool) (s v : State), s.powered = true → s.portState p.val = 0 → v = s.cableRefresh p.val →
    (p.val = v.ringPort false → exec (.cableUsageWrite p ok) s = .next v) ∧
    (p.val ≠ v.ringPort false → ok = false → exec (.cableUsageWrite p ok) s =
      .next (v.post 0x0905 [p.val, v.rd (Reg.CBL_STAT p.val) 17 16, v.rd (Reg.CBL_STAT p.val) 9 0]))) ∧
  (∀ (p : Fin 10) (s v : State) (r : PortRt) (o : Nat) (b : List Byte), s.powered = true → s.portState p.val = 0 →
    v = s.cableRefresh p.val → p.val ≠ v.ringPort false → r = v.port p.val → o = (if v.usageAt p.val = some 64 then 128 else 64) →
    b = leBytes 4 (v.usageWord p.val 0 4 + 1) ++ leBytes 4 (v.usageWord p.val 4 4 + r.mates) ++
      leBytes 4 (v.usageWord p.val 8 4 + r.hours) ++ leBytes 8 (v.rd64 Reg.SERIAL_LO Reg.SERIAL_HI) ++ List.replicate 40 0 →
    exec (.cableUsageWrite p true) s = .next (State.cableRefresh
      (State.setPort { v with mem := Mem.write v.mem (physCable p.val o) (b ++ leBytes 4 (crc32c b)) } p.val
        { r with mates := 0, hours := 0 }) p.val)) ∧
  (∀ (p : Fin 10) (imm : W64) (s : State), s.powered = true → (p.val < 8 ∨ bits imm.toNat 15 0 = s.pos) →
    exec (.ringmap p imm) s = .next s)

/-! ## Time and power -/

/-- The time messages and timers (15_clocks_time.md R622 to R630, 12_fabric_links.md R520 to R522). That a REPLY's arrival stamp
moves rack time, and that the root's interval sets LOCK, are the model's choices (log entries 50 and 17). The root takes no REPLY.
-/
def Obligations.TimeRows : Prop :=
  (∀ s u : State, s.powered = true → s.role = 2 →
    u = (if s.rd Reg.START_STAT 3 0 = 5 then (s.wrb Reg.TIM_STAT 31 true).wr Reg.START_STAT 3 0 6 else s.wrb Reg.TIM_STAT 31 true) →
    exec .syncInterval s = .next (if s.rdb Reg.TIM_STAT 31 = false ∧ (s.rd Reg.TOPO_STAT 2 0 = 1 ∨ s.rd Reg.TOPO_STAT 2 0 = 2)
      then u.portsChanged else u)) ∧
  (∀ (s : State) (p : Nat), s.powered = true → s.role ≠ 2 → s.time.waiting = false → s.time.misses < 3 → s.syncPort = some p →
    ∃ t, exec .syncInterval s = .next t ∧ t.time = { s.time with waiting := true } ∧
      t.tx = s.tx ++ [(p, { mkPacket 0x40 s.pos (s.rd Reg.TIM_STAT 15 0) with
        gran := [s.syncGran], pver := BitVec.ofNat 4 (s.pver (s.rd Reg.TIM_STAT 15 0)) })] ∧ t.mem = s.mem) ∧
  (∀ s : State, s.powered = true → s.role ≠ 2 → s.time.waiting = true → s.time.misses = 2 → s.syncPort = none →
    ∃ t, exec .syncInterval s = .next t ∧ t.rdb Reg.TIM_STAT 30 = true ∧ t.rdb Reg.TIM_STAT 31 = false ∧ t.time.misses = 0 ∧
      t.rd Reg.TIM_STAT 15 0 = (if s.rd Reg.TIM_STAT 15 0 = s.rd Reg.MCFG 15 0 then s.rd Reg.MCFG 31 16 else s.rd Reg.MCFG 15 0) ∧
      t.word Reg.MSWITCH = BitVec.ofNat 32 (sat32 ((s.word Reg.MSWITCH).toNat + 1))) ∧
  (∀ (p : Fin 10) (src : BitVec 16) (g : List Byte) (s : State), s.powered = true → g.length = 64 →
    ∃ t r, exec (.sync p src g) s = .next t ∧ t.tx = s.tx ++ [(p.val, { mkPacket 0x40 s.pos src.toNat with
        atop := 1, gran := [r], pver := BitVec.ofNat 4 (s.pver src.toNat) })] ∧
      r.length = 64 ∧ r.take 8 = g.take 8 ∧ leNat ((r.drop 8).take 8) = s.now ∧ leNat ((r.drop 16).take 8) = s.now ∧
      (r.drop 24).take 2 = (g.drop 24).take 2 ∧ (r.drop 32).take 8 = (g.drop 32).take 8 ∧ t.mem = s.mem) ∧
  (∀ (p : Fin 10) (g : List Byte) (t4 : Stamp) (s v : State) (a : Nat) (d o : Int), s.powered = true → g.length = 64 →
    s.role ≠ 2 → s.arrives (t4.ns.toNat * 65536 + t4.frac.toNat) = (v, a) → (d, o) = exchange g a → (d ≤ 0 ∨ d ≤ 655360000) →
    (s.rdb Reg.TIM_STAT 28 = false →
      ∃ t, exec (.reply p g t4) s = .next t ∧ t.time.rack = ((v.time.rack : Int) + o * 65536).toNat ∧ t.time.rate = 0 ∧
        t.time.adj = 0 ∧ t.rdb Reg.TIM_STAT 28 = true ∧ t.word Reg.SYNCS = s.word Reg.SYNCS + 1 ∧ t.mem = s.mem) ∧
    (s.rdb Reg.TIM_STAT 28 = true → s.time.readyOnce = false →
      ∃ t, exec (.reply p g t4) s = .next t ∧ t.time.rack = v.time.rack ∧
        t.time.rate = signed64 (s.time.rate + (signed64 (o * 65536)).tdiv 8000000) ∧
        t.time.phase = (signed64 (o * 65536)).tdiv 250000 ∧
        t.time.adj = clampAdj (t.time.rate + t.time.phase) ∧ t.time.ticksLeft = 250000 ∧
        ((s.rdb Reg.TIM_STAT 30 = false ∨ leNat ((g.drop 48).take 2) = s.rd Reg.TIM_STAT 15 0) →
          t.time.waiting = false ∧ t.rdb Reg.TIM_STAT 30 = false) ∧
        ((s.rdb Reg.TIM_STAT 30 = true ∧ leNat ((g.drop 48).take 2) ≠ s.rd Reg.TIM_STAT 15 0) →
          t.time.waiting = s.time.waiting ∧ t.rdb Reg.TIM_STAT 30 = true) ∧ t.mem = s.mem)) ∧
  (∀ (p : Fin 10) (g : List Byte) (t4 : Stamp) (s v : State) (a : Nat) (d o : Int), s.powered = true → g.length = 64 →
    s.role ≠ 2 → s.arrives (t4.ns.toNat * 65536 + t4.frac.toNat) = (v, a) → (d, o) = exchange g a → 655360000 < d →
    ∃ t, exec (.reply p g t4) s = .next t ∧ Only [Reg.TFAULTS] v t ∧
      t.word Reg.TFAULTS = BitVec.ofNat 32 (sat32 ((s.word Reg.TFAULTS).toNat + 1))) ∧
  (∀ s : State, s.powered = true → ∃ t, exec .phaseEnd s = .next t ∧ t = { s with time := t.time } ∧
    t.time = { s.time with phase := 0, ticksLeft := 0, adj := clampAdj s.time.rate } ∧ t.time.adj ≤ 4294967 ∧ -4294967 ≤ t.time.adj) ∧
  (∀ s : State, s.powered = true → exec .refloss s = .next ((s.wrb Reg.TIM_STAT 29 true).post 0x0A03 [])) ∧
  (∀ s : State, s.powered = true → ∃ t, exec .refclkReturn s = .next t ∧ t.rdb Reg.TIM_STAT 29 = false ∧ Only [Reg.TIM_STAT] s t) ∧
  (∀ (p : Fin 10) (g : List Byte) (t4 : Stamp) (s v : State) (a : Nat), s.powered = true → g.length = 64 →
    s.arrives (t4.ns.toNat * 65536 + t4.frac.toNat) = (v, a) → v.role = 2 → exec (.reply p g t4) s = .next v)

/-- The epoch boundary (15 R631, R632; 12 R507; 14_power.md R586, R597): it begins the next epoch not yet acted on; what it does to
the requests for turns and to a quire's limits. -/
def Obligations.EpochRows : Prop :=
  (∀ (m : EpochMeas) (s : State), s.powered = true → ∃ t, exec (.epochBoundary m) s = .next t ∧
    t = s.beginEpoch (s.time.lastEpoch + 1) m ∧ t.time.lastEpoch = s.time.lastEpoch + 1 ∧
    t.time.rack = max s.time.rack (100000 * (s.time.lastEpoch + 1) * 2 ^ 32)) ∧
  (∀ s : State, (s.rdb Reg.RTCTL 31 = true → ∃ u, u.rdb Reg.RTCTL 31 = false ∧
      u.rdb Reg.RTCTL 30 = !(s.rdb Reg.RTCTL 30) ∧ Only [Reg.RTCTL] s u ∧ s.routeTableTurn = State.lostSince s u) ∧
    (s.rdb Reg.RTCTL 31 = false → s.routeTableTurn = s)) ∧
  (∀ (s : State) (q : Nat), (s.runs q = true → 8 * (s.rd Reg.THERM_CFG 31 24 : Int) ≤ s.temp q →
      (s.coolMax q ≠ 0 → ((s.throttleEpoch q).quire q).thr = (s.quire q).thr + 1) ∧
      (s.coolMax q = 0 → s.throttleEpoch q = s)) ∧
    (s.temp q < 8 * (s.rd Reg.THERM_CFG 31 24 : Int) - 40 → ((s.throttleEpoch q).quire q).thr = (s.quire q).thr - 1) ∧
    (8 * (s.rd Reg.THERM_CFG 31 24 : Int) - 40 ≤ s.temp q → s.temp q < 8 * (s.rd Reg.THERM_CFG 31 24 : Int) →
      s.throttleEpoch q = s)) ∧
  (∀ (s : State) (e q : Nat), ((s.droopEpoch e q).quire q).trips = 0 ∧
    ((s.droopEpoch e q).quire q).dlim = (s.quire q).dlim.filter (e < ·) ++
      (if s.rd Reg.DROOP_CFG 15 8 < (s.quire q).trips then [e + 10] else []))

/-- Quires: phases, points, droop and clamps (14_power.md R582 to R595, R613). A trip of a quire that the module does not have has
no effect. -/
def Obligations.QuirePowerRows : Prop :=
  (∀ (q : Fin 64) (ns obs fx : Nat) (s : State), s.powered = true →
    (s.runs q.val = false ∨ s.phaseNow q.val = (s.quire q.val).phase) → exec (.phaseBoundary q ns obs fx) s = .next s) ∧
  (∀ (q : Fin 64) (ns obs fx : Nat) (s u : State), s.powered = true → s.runs q.val = true →
    s.phaseNow q.val ≠ (s.quire q.val).phase → u = s.learn q.val ns obs →
    ∃ v : State, v = u.setQuire q.val { u.quire q.val with phase := s.phaseNow q.val } ∧
      exec (.phaseBoundary q ns obs fx) s = .next (State.budget { v with power := { v.power with fx16 := fx } })) ∧
  (∀ (q : Fin 64) (s : State), s.powered = true → (s.quire q.val).raise_ = none → exec (.pointRaiseSettled q) s = .next s) ∧
  (∀ (q : Fin 64) (s : State) (k : Nat), s.powered = true → (s.quire q.val).raise_ = some k → k < 10 →
    ∃ t, exec (.pointRaiseSettled q) s = .next t ∧ t.rd (Reg.QPT q.val) 23 16 = k ∧ (t.quire q.val).raise_ = none ∧
      Only [Reg.QPT q.val, Reg.CLOCK q.val] { s with quires := t.quires } t) ∧
  (∀ (q : Fin 64) (det : Fin 2) (s : State), s.powered = true → q.val < s.nq → ∃ t, exec (.droopTrip q det) s = .next t ∧
    (t.quire q.val) = { s.quire q.val with stretched := true, trips := (s.quire q.val).trips + 1 } ∧
    t.word (Reg.QDROOP q.val) = BitVec.ofNat 32 (sat32 ((s.word (Reg.QDROOP q.val)).toNat + 1)) ∧
    Only [Reg.QDROOP q.val] { s with quires := t.quires } t) ∧
  (∀ (q : Fin 64) (s : State), s.powered = true → ∃ t, exec (.droopRelease q) s = .next t ∧ t = { s with quires := t.quires } ∧
    (t.quire q.val).stretched = false ∧ ∀ n, n ≠ q.val → t.quire n = s.quire n) ∧
  (∀ (r : Fin 8) (s : State), s.powered = true →
    (r.val ∈ s.power.clamped → exec (.clamp r) s = .next s) ∧
    (r.val ∉ s.power.clamped → ∃ t, exec (.clamp r) s = .next t ∧ t.power.clamped = s.power.clamped ++ [r.val] ∧
      t.word (Reg.CLAMPS r.val) = BitVec.ofNat 32 (sat32 ((s.word (Reg.CLAMPS r.val)).toNat + 1)))) ∧
  (∀ (r : Fin 8) (s : State), s.powered = true → ∃ t, exec (.clampRelease r) s = .next t ∧ r.val ∉ t.power.clamped ∧ t.mem = s.mem) ∧
  (∀ s : State, s.powered = true → s.rdb Reg.PTCTL 29 = false → exec .phaseCopyComplete s = .next s) ∧
  (∀ (s : State) (a b : Nat), s.powered = true → s.rdb Reg.PTCTL 29 = true →
    a = s.phaseAt s.pside 0 0 → b = s.phaseAt (1 - s.pside) 0 0 → s.inCarve a 0x80000 = true → s.inCarve b 0x80000 = true →
    s.hitsTables b 0x80000 = false → Sound s →
    ∃ t, exec .phaseCopyComplete s = .next t ∧ t.rdb Reg.PTCTL 29 = false ∧
      (∀ o, o < 0x80000 → Mem.read1 t.mem (physCarve b + o) = Mem.read1 s.mem (physCarve a + o)) ∧
      ∀ x, ¬ Within (physCarve b) 0x80000 x → Mem.read1 t.mem x = Mem.read1 s.mem x) ∧
  (∀ (q : Fin 64) (det : Fin 2) (s : State), s.powered = true → s.nq ≤ q.val → exec (.droopTrip q det) s = .next s)

/-- The budget pass (R590): the points chosen need at most the pool left for them, unless point 0 itself needs more; no quire
gets more than its highest point. -/
def Obligations.BudgetPass : Prop :=
  ∀ (b k : Nat) (l : List (Nat × Nat × Nat)), (∀ x ∈ l, x.2.2 ≤ 9) → k ≤ 9 → poolAt l k ≤ b →
    ((passLoop b k l (poolAt l k) []).map Prod.fst = l.map Prod.fst) ∧
    (∀ x ∈ (passLoop b k l (poolAt l k) []).zip l, x.1.2 ≤ x.2.2.2 ∧ min k x.2.2.2 ≤ x.1.2 ∧ x.1.2 ≤ k + 1) ∧
    ((passLoop b k l (poolAt l k) []).zip l).foldl (fun a x => a + powerAt x.2.2.1 x.1.2) 0 ≤ b

/-- Samples, the input and leaving (14_power.md R578, R579, R610, R611; 13 R565, R566; 18_module_interfaces.md R698, R705, R719). -/
def Obligations.SupplyRows : Prop :=
  (∀ s : State, s.powered = true → exec .powerLoss s = .next { s with powered := false, ports := [] } ∧
    exec .overvoltage s = .next { s with powered := false, ports := [] }) ∧
  (∀ (quires groups : List (BitVec 16)) (s : State), s.powered = true → quires.length = 64 → groups.length = 16 →
    exec (.thermalSample quires groups) s = .next (s.thermal quires groups)) ∧
  (∀ (quires groups : List (BitVec 16)) (s : State) (g : Nat), s.powered = true → quires.length = 64 → groups.length = 16 → g < 16 →
    s.calib = [] → atLeast (groups.getD g 0).toNat (s.rd Reg.THERM_CFG 7 0) = true →
    ∃ t, exec (.thermalSample quires groups) s = .next t ∧ t.powered = false ∧ t.ports = [] ∧ t.power.alertLatched = true) ∧
  (∀ (r : Fin 8) (die : Fin 5) (mv us dev : Nat) (s : State), s.powered = true →
    dev = (mv - s.rd (Reg.RAILV r.val) 31 16) + (s.rd (Reg.RAILV r.val) 31 16 - mv) →
    ((us < 10 ∨ dev ≤ 50) → exec (.railSample r die mv us) s = .next s) ∧
    (10 ≤ us → 50 < dev → dev ≤ 100 →
      exec (.railSample r die mv us) s = .next ((s.post 0x0304 [r.val, die.val, mv]).wrb Reg.MON_EVT 2 true)) ∧
    (10 ≤ us → 100 < dev → ∃ t, exec (.railSample r die mv us) s = .next t ∧ t.powered = false ∧ t.ports = [] ∧
      t.rdb Reg.MON_EVT 2 = true ∧ t.power.alertLatched = true ∧ t.svc = s.svc ++ [leBytes 2 s.pos ++ leBytes 2 s.pos])) ∧
  (∀ s : State, s.powered = true → exec .latchOpen s = .next ((s.wrb Reg.SB_STAT 31 true).leaveModule 1) ∧
    exec .inputLoss s = .next ((s.wrb Reg.HOLDUP 30 true).leaveModule 4) ∧
    ∀ m, exec (.mateDetectOpen m) s =
      .next ((((s.wrb Reg.SB_STAT (mateBit m) false).wrb Reg.SB_STAT 28 true).mates (mateBit m) false).leaveModule 2)) ∧
  (∀ (s : State) (cause : Nat), s.mirrors = false → (s.leaveModule cause).power.leaving = true ∧
    (s.power.leaving = false → (s.leaveModule cause).rd Reg.TOPO_STAT 2 0 = 4) ∧
    (∀ o ∈ [Reg.SB_STAT, Reg.HOLDUP], (s.leaveModule cause).word o = s.word o)) ∧
  (∀ s : State, s.powered = true → ∃ t, exec .latchClose s = .next t ∧ t.rdb Reg.SB_STAT 31 = false ∧
    t.power.leaving = s.power.leaving ∧ t.mem = s.mem) ∧
  (∀ (m : MateContact) (s : State), s.powered = true → ∃ t, exec (.mateDetectClose m) s = .next t ∧
    t.rdb Reg.SB_STAT (mateBit m) = true ∧ mateBit m ∉ t.power.unmated ∧ Only [Reg.SB_STAT] { s with power := t.power } t) ∧
  (∀ (low : Bool) (s : State), s.powered = true → ∃ t, exec (.battLow low) s = .next t ∧ t.rdb Reg.SB_STAT 30 = low ∧
    Only [Reg.SB_STAT] s t) ∧
  (∀ (mv : Nat) (s : State), s.powered = true → ∃ t, exec (.inputVoltageChange mv) s = .next t ∧ t.power.inMV = mv ∧
    (mv < 40000 → t.rdb Reg.VIN_STAT 31 = true) ∧ (40300 < mv → t.rdb Reg.VIN_STAT 31 = false) ∧
    (52000 < mv → t.rdb Reg.VIN_STAT 30 = true) ∧ (mv < 51700 → t.rdb Reg.VIN_STAT 30 = false) ∧
    (40000 ≤ mv → mv ≤ 40300 → t.rdb Reg.VIN_STAT 31 = s.rdb Reg.VIN_STAT 31)) ∧
  (∀ s : State, s.powered = true → ∃ t, exec .ductusReloadDone s = .next t ∧ t.power.ductusReload = false ∧ t.mem = s.mem)

/-- The rule of R603: where no position needs more than it wants and the needs fit, all in 32 bits, the grants of the rack add up to exactly the
rack total, and every position gets at least its need. -/
def Obligations.GrantsAddUp : Prop :=
  ∀ (l : List (Nat × Nat)) (g : Nat), (∀ x ∈ l, x.2 ≤ x.1) → total (l.map Prod.snd) ≤ g → 0 < total (l.map Prod.fst) →
    total (l.map Prod.fst) < 2 ^ 32 → g < 2 ^ 32 → total (grantsOf l g) = g ∧ (grantsOf l g).length = l.length ∧
    ∀ i, (l.getD i (0, 0)).2 ≤ (grantsOf l g).getD i 0

/-- The records and the decision (14_power.md R598 to R603, R606, 17 R680): a record of the own tray is held, the tray lead's record
is built and sent, and at the deadline the rule is computed once or the vector is missed. Records of another epoch or tray have no
effect, and an evaluated epoch is not evaluated again. -/
def Obligations.BaselineRows : Prop :=
  (∀ (p : Fin 10) (g : List Byte) (hops : BitVec 4) (s : State), s.powered = true → g.length = 64 → s.exchanges = true →
    bNat g 4 2 / 256 = s.pos / 256 → s.heldEpoch (bEpoch g) = true → Map.get? s.base.intents (bNat g 4 2 / 16 % 8) = none →
    ∃ t, exec (.intent p g hops) s = .next t ∧ Map.get? t.base.intents (bNat g 4 2 / 16 % 8) = some g ∧
      t.base = { s.base with intents := t.base.intents } ∧ t.mem = s.mem) ∧
  (∀ (p : Fin 10) (g : List Byte) (hops : BitVec 4) (s : State), s.powered = true → g.length = 64 → s.exchanges = true →
    bNat g 4 1 < 8 → s.heldEpoch (bEpoch g) = true → Map.get? s.base.trays (bNat g 4 1) = none →
    ∃ t, exec (.tray p g hops) s = .next t ∧ Map.get? t.base.trays (bNat g 4 1) = some g ∧
      t.base = { s.base with trays := t.base.trays, seen := t.base.seen } ∧ t.mem = s.mem) ∧
  (∀ (p : Fin 10) (g o : List Byte) (hops : BitVec 4) (s : State), s.powered = true → g.length = 64 → s.exchanges = true →
    bNat g 4 1 < 8 → s.heldEpoch (bEpoch g) = true → Map.get? s.base.trays (bNat g 4 1) = some o → bEpoch o = bEpoch g → o ≠ g →
    ∃ t, exec (.tray p g hops) s = .next t ∧ bEpoch g ∈ t.base.conflict ∧ t.base.trays = s.base.trays) ∧
  (∀ (p : Fin 10) (g : List Byte) (hops : BitVec 4) (s : State), s.powered = true → g.length = 64 → s.exchanges = false →
    exec (.intent p g hops) s = .next s ∧ exec (.tray p g hops) s = .next s) ∧
  (∀ s : State, s.powered = true → s.exchanges = true →
    ((List.range 8).find? fun i => (s.intentOf i).any fun r => bit (bNat r 10 1) 1) = some s.slotNo →
    ∃ t, exec .trayLeadTimer s = .next t ∧ t.mem = s.mem ∧
      ((s.trayOf s.trayNo = none ∨ s.trayOf s.trayNo = some s.trayRec) → Map.get? t.base.trays s.trayNo = some s.trayRec ∧
        t.base.conflict = s.base.conflict) ∧
      ∀ o, s.trayOf s.trayNo = some o → o ≠ s.trayRec → s.curEpoch ∈ t.base.conflict) ∧
  (∀ s : State, s.powered = true →
    ((List.range 8).find? fun i => (s.intentOf i).any fun r => bit (bNat r 10 1) 1) ≠ some s.slotNo →
    exec .trayLeadTimer s = .next s) ∧
  (∀ s : State, s.powered = true → s.exchanges = true → s.base.done = false → s.complete = true →
    ∃ t d, exec .baselineDeadline s = .next t ∧ t.base.done = true ∧ t.base.decision = some d ∧ t.base.incomplete = false ∧
      d.grant = (grantsOf s.needs d.g).getD (posIdx s.pos % 64) 0 ∧ total (s.needs.map Prod.snd) ≤ d.g ∧
      t = { s with base := t.base }) ∧
  (∀ s : State, s.powered = true → s.exchanges = true → s.base.done = false → s.complete = false →
    ∃ t, exec .baselineDeadline s = .next t ∧ t.base.done = true ∧ t.base.decision = none ∧ t.base.incomplete = true ∧
      t.word Reg.BL_MISS = BitVec.ofNat 32 (sat32 ((s.word Reg.BL_MISS).toNat + 1))) ∧
  (∀ s : State, s.powered = true → s.base.done = true → exec .baselineDeadline s = .next s) ∧
  (∀ (p : Fin 10) (g : List Byte) (hops : BitVec 4) (s : State), s.powered = true → g.length = 64 →
    ((s.heldEpoch (bEpoch g) = false ∨ bNat g 4 2 / 256 ≠ s.pos / 256) → exec (.intent p g hops) s = .next s) ∧
    ((s.heldEpoch (bEpoch g) = false ∨ 8 ≤ bNat g 4 1) → exec (.tray p g hops) s = .next s))

/-- The exchange where each of its commands has its own effect (14_power.md R598, R601 to R603): an INTENT record of the own tray is
held and goes on along the ring, a TRAY record is held and goes on along the ring it came by or from the gateway, the tray lead
holds and sends its tray's record, and the deadline of a complete vector gives the decision of the rule. -/
def Obligations.BaselineExchange : Prop :=
  (∀ (p : Fin 10) (g : List Byte) (hops : BitVec 4) (s : State) (slot : Nat), s.powered = true → g.length = 64 → s.exchanges = true →
    bNat g 4 2 / 256 = s.pos / 256 → s.heldEpoch (bEpoch g) = true → slot = bNat g 4 2 / 16 % 8 →
    ((∀ o, Map.get? s.base.intents slot = some o → bEpoch o ≠ bEpoch g) → exec (.intent p g hops) s =
      .next (State.forwardRing { s with base := { s.base with intents := Map.set s.base.intents slot g } } p.val 0 hops.toNat g)) ∧
    (∀ o, Map.get? s.base.intents slot = some o → bEpoch o = bEpoch g → exec (.intent p g hops) s = .next s)) ∧
  (∀ (p : Fin 10) (g : List Byte) (hops : BitVec 4) (s u : State) (t : Nat), s.powered = true → g.length = 64 → s.exchanges = true →
    t = bNat g 4 1 → t < 8 → s.heldEpoch (bEpoch g) = true →
    (∀ o, Map.get? s.base.trays t = some o → bEpoch o ≠ bEpoch g) →
    u = { s with base := { s.base with trays := Map.set s.base.trays t g } } →
    (p.val = s.planePort 0 → hops.toNat < 7 → exec (.tray p g hops) s = .next (u.sendRing 1 (hops.toNat + 1) g)) ∧
    (p.val ≠ s.planePort 0 → t = s.trayNo → s.base.seen.contains g = false → exec (.tray p g hops) s =
      .next (State.forwardRing { u with base := { u.base with seen := u.base.seen ++ [g] } } p.val 1 hops.toNat g)) ∧
    (p.val ≠ s.planePort 0 → s.base.seen.contains g = true → exec (.tray p g hops) s = .next u) ∧
    ((p.val = s.planePort 0 ∧ 7 ≤ hops.toNat) ∨ (p.val ≠ s.planePort 0 ∧ t ≠ s.trayNo) → exec (.tray p g hops) s = .next u)) ∧
  (∀ (s : State) (atop hops : Nat) (g : List Byte), hops < 7 → s.portUp (s.ringPort true) = true →
    s.forwardRing (s.ringPort false) atop hops g = s.send (s.ringPort true) (s.powerPkt atop s.pos (hops + 1) g)) ∧
  (∀ s u : State, s.powered = true → s.exchanges = true →
    ((List.range 8).find? fun i => (s.intentOf i).any fun r => bit (bNat r 10 1) 1) = some s.slotNo →
    s.trayOf s.trayNo = none →
    u = { s with base := { s.base with trays := Map.set s.base.trays s.trayNo s.trayRec, seen := s.base.seen ++ [s.trayRec] } } →
    ∃ t, exec .trayLeadTimer s = .next t ∧ t = { u with csr := t.csr, ports := t.ports, tx := t.tx } ∧
      ((∀ p, s.portUp p = false) → t = u) ∧
      (s.portUp (s.ringPort false) = true → (s.ringPort false, s.powerPkt 1 s.pos 0 s.trayRec) ∈ t.tx) ∧
      (s.portUp (s.ringPort true) = true → (s.ringPort true, s.powerPkt 1 s.pos 0 s.trayRec) ∈ t.tx)) ∧
  (∀ (s : State) (r : Ruled), s.powered = true → s.exchanges = true → s.base.done = false → s.complete = true →
    r = rackTotal (total (s.needs.map Prod.fst)) (total (s.needs.map Prod.snd)) s.gprev s.capr
      (if s.rdb Reg.PWR_STAT 25 then 512 else 1024) (if s.rdb Reg.PWR_STAT 25 then 512 else 2048)
      (max 1 (min 10000 (s.rd Reg.BL_CFG 13 0))) (s.rdb Reg.BL_CFG 30) s.base.count →
    exec .baselineDeadline s = .next { s with base := { s.base with
      done := true, count := r.count, incomplete := false, ownMissing := false
      decision := some ⟨r.g, r.capr, (grantsOf s.needs r.g).getD (posIdx s.pos % 64) 0, r.fill, r.forced⟩ } })

/-! ## Calibration, firmware and owner -/

/-- Live calibration (16_startup_config.md R658 to R661): a request that may start is added, and shows TEST on a quire; one that may not
has no effect; the calibration that started first completes. Self-test (R662 to R666): a good request on a DRAINED sheet runs and
shows TEST, a waiting one starts when its sheet is DRAINED, an abort and a completion end it and the sheet is DRAINED again. -/
def Obligations.CalibrationRows : Prop :=
  (∀ (p : Fin 10) (lane : Fin 8) (s : State), s.powered = true → s.rdb Reg.CALCTL 31 = true → s.portUp p.val = true →
    (∀ c ∈ s.calib, c.kind = 0 → c.unit ≠ p.val) →
    (s.rdb (Reg.LANE_FAIL p.val) lane.val = true →
      ((∀ t, Map.get? (s.port p.val).retrained lane.val = some t → t + 1000000000 ≤ s.now) →
        ∃ u, exec (.laneRecalibration p lane) s = .next { u with calib := s.calib ++ [⟨0, p.val, lane.val⟩] } ∧
          u = s.setPort p.val { s.port p.val with retrained := Map.set (s.port p.val).retrained lane.val s.now }) ∧
      ((∃ t, Map.get? (s.port p.val).retrained lane.val = some t ∧ s.now < t + 1000000000) →
        exec (.laneRecalibration p lane) s = .next s)) ∧
    (s.rdb (Reg.LANE_FAIL p.val) lane.val = false → s.rd (Reg.PORT_STAT p.val) 15 12 = 8 → (s.port p.val).borrowed = none →
      ∃ t, exec (.laneRecalibration p lane) s = .next t ∧ t.calib = s.calib ++ [⟨0, p.val, lane.val⟩] ∧
        (t.port p.val).borrowed = some lane.val ∧ t.rd (Reg.PORT_STAT p.val) 15 12 = 7 ∧
        t.rd (Reg.PORT_STAT p.val) 23 16 = 255 - 2 ^ lane.val ∧ t.mem = s.mem)) ∧
  (∀ (q : Fin 64) (det : Fin 2) (s : State), s.powered = true → s.rdb Reg.CALCTL 30 = true → (∀ c ∈ s.calib, c.kind ≠ 1) →
    s.mayCalibrate q.val = true → (s.quire q.val).testFrom = none → ∃ t, exec (.droopCalibration q det) s = .next t ∧
      t.calib = s.calib ++ [⟨1, q.val, det.val⟩] ∧ t.quireState q.val = 7 ∧ t.mem = s.mem) ∧
  (∀ (q : Fin 64) (s : State), s.powered = true → s.rdb Reg.CALCTL 29 = true → (∀ c ∈ s.calib, c.kind ≠ 2) →
    s.mayCalibrate q.val = true → (s.quire q.val).testFrom = none → ∃ t, exec (.thermalCalibration false q) s = .next t ∧
      t.calib = s.calib ++ [⟨2, q.val, 0⟩] ∧ t.quireState q.val = 7 ∧ t.mem = s.mem) ∧
  (∀ (n : Fin 64) (s : State), s.powered = true → s.rdb Reg.CALCTL 29 = true → (∀ c ∈ s.calib, c.kind ≠ 3) → n.val < 16 →
    exec (.thermalCalibration true n) s = .next { s with calib := s.calib ++ [⟨3, n.val, 0⟩] }) ∧
  (∀ (ch : Fin 24) (s : State), s.powered = true → s.rdb Reg.CALCTL 28 = true → (∀ c ∈ s.calib, c.kind ≠ 4) →
    ch.val ∈ s.start.chans → exec (.channelRetrain ch) s = .next { s with calib := s.calib ++ [⟨4, ch.val, 0⟩] }) ∧
  (∀ (s : State), s.powered = true → s.rd Reg.CALCTL 31 28 = 0 → ∀ (p : Fin 10) (lane : Fin 8) (q : Fin 64) (det : Fin 2) (g : Bool)
    (ch : Fin 24), exec (.laneRecalibration p lane) s = .next s ∧ exec (.droopCalibration q det) s = .next s ∧
      exec (.thermalCalibration g q) s = .next s ∧ exec (.channelRetrain ch) s = .next s) ∧
  (∀ (ok : Bool) (s : State) (c : Calib) (rest : List Calib), s.powered = true → s.calib = c :: rest →
    exec (.calibrationComplete ok) s =
      .next (if ok then State.calibPass { s with calib := rest } c else State.calibFail { s with calib := rest } c)) ∧
  (∀ (s : State) (c : Calib) (rest : List Calib), s.powered = true → s.calib = c :: rest → c.kind = 3 →
    ∃ t, exec (.calibrationComplete true) s = .next t ∧ t.calib = rest ∧ t.word Reg.CAL_QUIRE = s.word Reg.CAL_QUIRE + 1 ∧
      Only [Reg.CAL_QUIRE] { s with calib := rest } t) ∧
  (∀ (ok : Bool) (s : State), s.powered = true → s.calib = [] → exec (.calibrationComplete ok) s = .next s) ∧
  (∀ (w : W32) (s : State) (r i k : Nat), s.powered = true → s.selftest = none → s.carveRecOk s.stRec = true → Sound s →
    r = physCarve s.stRec → s.recState r = 0 → k = bits w.toNat 27 24 → i = bits w.toNat 23 20 → bits w.toNat 18 0 = 0 →
    (stSheet k = true → s.sheetState i = 4 → ∃ t, exec (.selftestStart w) s = .next t ∧
      t.selftest = some ⟨k, i, r, true, s.now⟩ ∧ t.sheetState i = 5 ∧ t.rd Reg.STSTAT 1 0 = 0 ∧ t.recState r = 1 ∧ t.recKind r = 4) ∧
    ((k = 4 ∨ k = 5) → (∀ n, n < 16 → s.sheetState n = 0) → s.rdb Reg.MIRR_CTL 31 = false →
      ∃ t, exec (.selftestStart w) s = .next t ∧ t.selftest = some ⟨k, i, r, true, s.now⟩ ∧ t.recState r = 1 ∧ t.recKind r = 4) ∧
    (stSheet k = true → s.sheetState i = 2 → bit w.toNat 19 = false → ∃ t, exec (.selftestStart w) s = .next t ∧
      t.selftest = some ⟨k, i, r, false, 0⟩ ∧ t.mem = s.mem ∧ Only [Reg.STSTAT] { s with selftest := t.selftest } t) ∧
    ((k = 0 ∨ 5 < k) → ∃ t, exec (.selftestStart w) s = .next t ∧ t.selftest = none ∧ t.recState r = 3)) ∧
  (∀ (w : W32) (s : State), s.powered = true → s.selftest ≠ none → ∃ t, exec (.selftestStart w) s = .next t ∧
    t.rd Reg.STSTAT 1 0 = 1 ∧ Only [Reg.STSTAT] s t) ∧
  (∀ (s : State) (x : SelfTest), s.powered = true → s.selftest = some x → x.running = false → s.sheetState x.sheet = 4 → Sound s →
    s.recState x.rec_ = 0 → stSheet x.kind = true → x.sheet < 16 → ∃ t, exec .selftestDeferredStart s = .next t ∧
    t.selftest = some { x with running := true, start := s.now } ∧ t.sheetState x.sheet = 5) ∧
  (∀ s : State, s.powered = true → s.selftest = none → exec .selftestDeferredStart s = .next s) ∧
  (∀ (s : State) (x : SelfTest), s.powered = true → s.selftest = some x → x.running = true → x.rec_ = physCarve s.stRec →
    s.carveRecOk s.stRec = true → Sound s → s.recState x.rec_ = 1 →
    ∃ u, u = s.wr Reg.STSTAT 1 0 0 ∧ exec .selftestAbort s =
      .next (u.stEnd x 7 (Config.testProgress u.draws % (u.stUnits x + 1)) (Config.testFault u.draws).toNat u.now).draw) ∧
  (∀ (s : State) (x : SelfTest) (faults : List (BitVec 64)), s.powered = true → s.selftest = some x → x.running = true →
    stSheet x.kind = true → x.sheet < 16 → ∃ t, exec (.selftestComplete faults) s = .next t ∧ t.selftest = none ∧
    t.sheetState x.sheet = 4) ∧
  (∀ (s : State) (faults : List (BitVec 64)), s.powered = true → s.selftest = none → exec (.selftestComplete faults) s = .next s)

/-- The update commands (17_firmware_security.md R675 to R680, 16_startup_config.md R639): each takes its record and is refused by the first
condition that holds, or does its work. A slot header holds what was put there, and leaves the rest of the flash (R668, R679). -/
def Obligations.UpdateRows : Prop :=
  (∀ (s : State) (c : Instr), c ∈ [Instr.stage, .commitUpdate, .discard, .colophon] → s.powered = true → s.sec.upd ≠ none →
    ∃ t, exec c s = .next t ∧ t.rd Reg.UPD_STAT 1 0 = 1 ∧ Only [Reg.UPD_STAT] s t) ∧
  (∀ (s u : State) (r : Nat), UpdReady s u → r = physCarve s.updRec →
    (u.updRefusal ≠ 0 → exec .commitUpdate s = .next (u.updEnd r 0 u.updRefusal 0 0 0) ∧
      exec .colophon s = .next (u.updEnd r 0 u.updRefusal 0 0 0)) ∧
    (u.updRefusal = 0 → u.slotState (1 - u.activeSlot) ≠ 1 → exec .commitUpdate s = .next (u.updEnd r 0 11 0 0 0)) ∧
    (u.updRefusal = 0 → u.slotState (1 - u.activeSlot) = 1 → setOk (fun k => u.imageAt k (1 - u.activeSlot)) = true →
      ∃ v w, v = u.setSlot (1 - u.activeSlot) (u.slotSeq (1 - u.activeSlot)) 2 0 ∧
        w = { v with sec := { v.sec with copied := false } } ∧ exec .commitUpdate s = .next (w.updEnd r 0 0 0 0 0)) ∧
    (u.chip.lock = true → exec .discard s = .next (u.updEnd r 0 3 0 0 0)) ∧
    (u.chip.lock = false → u.slotState (1 - u.activeSlot) = 1 →
      ∃ v w, v = u.setSlot (1 - u.activeSlot) (u.slotSeq (1 - u.activeSlot)) 0 0 ∧
        w = { v with sec := { v.sec with copied := false } } ∧ exec .discard s = .next (w.updEnd r 0 0 0 0 0)) ∧
    (u.updRefusal = 0 → u.updLen ≤ 0x100000 → u.updBuf = true → ∃ t, exec .colophon s = .next t ∧
      t = { u.flashErase (0x100000 * (1 - u.rd Reg.CFG_STAT 2 2)) 0x100000 with sec := t.sec } ∧
      t.sec = { u.sec with upd := some ⟨5, 0, u.updSrc, u.updLen, 0x100000 * (1 - u.rd Reg.CFG_STAT 2 2), 0, 0, 0,
        sectorsOf u.updLen, 0, false, r⟩ }) ∧
    (∀ w v : State, ∀ h, w = (if u.updBuf then u.seen (physCarve u.updSrc) (min u.updLen 1536) u.updSrc 16 else u) →
      h = w.carveAt w.updSrc → v = w.seen (physCarve (w.updSrc + 1536)) (iBody h) (w.updSrc + 1536) 16 →
      (w.updRefusal ≠ 0 → ∃ k, exec .stage s = .next (w.updEnd r k w.updRefusal 0 0 0)) ∧
      (w.updRefusal = 0 → w.updBuf = false → exec .stage s = .next (w.updEnd r 0 4 0 0 0)) ∧
      (w.updRefusal = 0 → w.updBuf = true → w.stageHead h ≠ 0 → exec .stage s =
        .next (w.updEnd r (iKind h) (w.stageHead h) 0 0 0)) ∧
      (w.updRefusal = 0 → w.updBuf = true → w.stageHead h = 0 → bodyOk h = false → exec .stage s =
        .next (v.updEnd r (iKind h) 12 0 0 0)) ∧
      (w.updRefusal = 0 → w.updBuf = true → w.stageHead h = 0 → bodyOk h = true → exec .stage s = .next (v.stageBegin r h)))) ∧
  (∀ (s : State) (j : UpdJob), s.powered = true → s.sec.upd = some j → s.carveRecOk s.updRec = true →
    j.rec_ = physCarve s.updRec → Sound s → s.recState j.rec_ = 1 → exec .updateAbort s =
      .next ((s.wr Reg.UPD_STAT 1 0 0).updEnd j.rec_ j.kind 7 j.done j.next s.now)) ∧
  (∀ (s : State), s.powered = true → s.sec.upd = none →
    (∀ ok, exec (.sectorProgrammed ok) s = .next s ∧ exec (.updateComplete ok) s = .next s)) ∧
  (∀ (s : State) (j : UpdJob), s.powered = true → s.sec.upd = some j → j.done < j.total →
    exec (.sectorProgrammed false) s = .next (s.updEnd j.rec_ j.kind 13 j.done j.next 0) ∧
    (∀ ok, exec (.updateComplete ok) s = .next s)) ∧
  (∀ (s u : State) (j : UpdJob) (d : List Byte), s.powered = true → s.sec.upd = some j → j.done < j.total →
    s.sectorSource j = (u, .ok d) → (u.sectorPut j d).updHalt = 0 →
    ∃ t, exec (.sectorProgrammed true) s = .next t ∧ t.mem = (u.sectorPut j d).mem ∧
      t.sec.upd = some { j with done := j.done + 1 } ∧ t = { u with mem := t.mem, sec := t.sec }) ∧
  (∀ (s u : State) (j : UpdJob) (a : Nat), s.powered = true → s.sec.upd = some j → j.done < j.total →
    s.sectorSource j = (u, .error a) → exec (.sectorProgrammed true) s = .next (u.updEnd j.rec_ j.kind 13 j.done j.next 0)) ∧
  (∀ (s : State) (j : UpdJob), s.powered = true → s.sec.upd = some j → j.total ≤ j.done →
    exec (.updateComplete false) s = .next (s.updEnd j.rec_ j.kind 13 j.done j.dest 0)) ∧
  (∀ (s : State) (j : UpdJob), s.powered = true → s.sec.upd = some j → j.total ≤ j.done → j.cmd ≠ 5 → j.kind ≠ 6 →
    j.inplace = false → exec (.updateComplete true) s = .next (s.updEnd j.rec_ j.kind 0 j.done 0 0)) ∧
  (∀ (p : Fin 10) (s : State), s.powered = true → s.sec.linkPending = [] → exec (.portReload p) s = .next s) ∧
  (∀ (p : Fin 10) (s : State), s.powered = true → s.sec.linkPending = [p.val] → s.portState p.val = 0 → 7 ≤ s.upPlanes →
    s.ports = [] → Map.get? s.sec.pendIn 4 = none →
    ∃ t, exec (.portReload p) s = .next t ∧ t = { s with sec := { s.sec with linkPending := [] } }) ∧
  (∀ (s : State) (b seq st tries : Nat), b < 2 → seq < 2 ^ 32 → st < 256 → tries < 256 →
    (s.setSlot b seq st tries).slotState b = st ∧ (s.setSlot b seq st tries).slotSeq b = seq ∧
    (s.setSlot b seq st tries).slotTries b = tries ∧
    (s.setSlot b seq st tries).slotState (1 - b) = s.slotState (1 - b) ∧
    ∀ a, ¬ Within (physFlash (slotAt b)) 64 a → Mem.read1 (s.setSlot b seq st tries).mem a = Mem.read1 s.mem a)

/-- Owner commands (17 R685 to R688) and attestation (17 R691 to R693): the lock is set for an owned module; a token's command runs
and a new nonce is drawn whether it passes or fails; a report and the certificates are written to the buffer. A token with a wrong
key digest is refused, ENROLL fills the first free slot, TRANSFER names the new owner, and a buffer outside the carve-out or in the
tables fails the request. -/
def Obligations.OwnerRows : Prop :=
  (∀ s : State, s.powered = true → (s.chip.owner.isNone = true → exec .lockSet s = .next (s.ownerEnd 0 1)) ∧
    (s.chip.owner.isSome = true → ∃ t, exec .lockSet s = .next t ∧ t.chip.lock = true ∧ t.rdb Reg.SEC_STAT 31 = true ∧
      t.rd Reg.LOCK_CMD 1 0 = 0)) ∧
  (∀ row ∈ [(Instr.unlock, 1), (.transfer, 2), (.enroll, 3), (.revokekey, 4)], ∀ s : State, s.powered = true →
    ((s.tokenOk = false ∨ (s.token.headD 0).toNat ≠ row.2) → exec row.1 s = .next s) ∧
    (s.tokenOk = true → (s.token.headD 0).toNat = row.2 → ∀ u : State, u = s.seen (physCarve s.tokAddr) 3136 s.tokAddr 16 →
      ∃ t, exec row.1 s = .next t ∧ u.draws < t.draws ∧
        t.rd Reg.LOCK_CMD 1 0 = (u.ownerEffect u.token).2 ∧ t.chip = (u.ownerEffect u.token).1.chip ∧
        (∀ i, i < 4 → t.word (Reg.NONCE i) = BitVec.ofNat 32 ((Config.nonce u.draws).toNat / 2 ^ (32 * i))))) ∧
  (∀ (s : State) (t : List Byte), (t.headD 0).toNat = 1 → leNat ((t.drop 1302).take 2) = 0 → s.tokenSigned t = true →
    s.ownerEffect t = ({ s with chip := { s.chip with lock := false } }, 0)) ∧
  (∀ (s : State) (t : List Byte), (t.headD 0).toNat = 4 → leNat ((t.drop 1302).take 2) = 0 → s.tokenSigned t = true →
    s.chip.lock = false → leNat ((t.drop 4).take 16) < 4 →
    s.ownerEffect t = ({ s with chip := { s.chip with
      keyRevoked := s.chip.keyRevoked.set (leNat ((t.drop 4).take 16)) true } }, 0)) ∧
  (∀ s : State, s.chip.lock = true → ∀ t : List Byte, (t.headD 0).toNat ≠ 1 → s.ownerEffect t = (s, 1)) ∧
  (∀ s : State, s.powered = true → s.inCarve s.attBuf 9600 = true → s.hitsTables s.attBuf 9600 = false →
    ∃ t, exec .chain s = .next t ∧ t.rd Reg.ATT_STAT 1 0 = 2 ∧
      Mem.read t.mem (physCarve s.attBuf) 9600 = s.chain ∧ (s.chain.drop 6400).take 8 = leBytes 4 0x54524543 ++ [1, 2, 0, 0] ∧
      (s.chain.drop 6408).take 8 = leBytes 8 (s.rd64 Reg.SERIAL_LO Reg.SERIAL_HI) ∧
      ∀ a, ¬ Within (physCarve s.attBuf) 9600 a → Mem.read1 t.mem a = Mem.read1 s.mem a) ∧
  (∀ s u : State, s.powered = true → s.inCarve s.attBuf 1746 = true → s.hitsTables s.attBuf 1746 = false →
    u = s.seen (physCarve (s.attBuf + 32)) 32 (s.attBuf + 32) 16 →
    ∃ t, exec .report s = .next t ∧ t.rd Reg.ATT_STAT 1 0 = 2 ∧ t.draws = u.draws + 1 ∧
      t.mem = (u.storeCarve u.attBuf (u.attBody ++ leBytes 2 (0x3A :: (Config.signature (digest32 u.attBody) u.draws).take 1279).length ++
        0x3A :: (Config.signature (digest32 u.attBody) u.draws).take 1279)).mem) ∧
  (∀ s : State, s.powered = true → (s.inCarve s.attBuf 1746 = false ∨ s.hitsTables s.attBuf 1746 = true) →
    ∃ t, exec .report s = .next t ∧ t.rd Reg.ATT_STAT 1 0 = 3 ∧ Only [Reg.ATT_STAT] s t) ∧
  (∀ (s : State) (t : List Byte), s.chip.lock = false → s.tokenSigned t = true → (t.headD 0).toNat = 3 →
    leNat ((t.drop 1302).take 2) = 1793 →
    ((digest32 (tokKey t)).take 16 ≠ (t.drop 4).take 16 → s.ownerEffect t = (s, 2)) ∧
    (∀ i, (digest32 (tokKey t)).take 16 = (t.drop 4).take 16 → i < 4 → s.chip.ownerDigest.getD i none = none →
      (∀ j, j < i → s.chip.ownerDigest.getD j none ≠ none) → s.ownerEffect t =
        (State.flashWrite { s with chip := { s.chip with
          ownerDigest := s.chip.ownerDigest.set i (some (digest32 (tokKey t))) } } (ownerKeyAt i) (tokKey t), 0))) ∧
  (∀ (s : State) (t : List Byte) (i : Nat), s.chip.lock = false → s.tokenSigned t = true → (t.headD 0).toNat = 2 →
    leNat ((t.drop 1302).take 2) = 0 → s.chip.owner = some i →
    s.ownerEffect t = s.transfer (leNat ((t.drop 4).take 16))) ∧
  (∀ s : State, s.powered = true → (s.inCarve s.attBuf 9600 = false ∨ s.hitsTables s.attBuf 9600 = true) →
    exec .chain s = .next (s.wr Reg.ATT_STAT 1 0 3))
end

