-- ==== Sys2Proof/Laws/Ecc.lean ====
section
/-! SUPPORT. Reads and writes through the code where no error is held against any line. -/

namespace Sys2Proof.Machine

theorem State.deadT2_low (s : State) {a : Nat} (h : a < 2 ^ 42) : s.deadT2 a = false := by
  rw [State.deadT2, decide_eq_false (Nat.not_le.mpr h)]; rfl

theorem State.deadT2_high (s : State) {a : Nat} (h : 2 ^ 44 ≤ a) : s.deadT2 a = false := by
  rw [State.deadT2, decide_eq_false (Nat.not_lt.mpr h), Bool.and_false]; rfl

theorem State.deadT2_carve (s : State) (a : Nat) : s.deadT2 (physCarve a) = false := s.deadT2_high (by unfold physCarve; omega)

variable {s : State} (h : Sound s) {a : Nat} (hd : s.deadT2 a = false)
include h hd

theorem State.ecc_sound (n base scribe sheet : Nat) : s.ecc a n base scribe sheet = (s, none) := by
  simp [State.ecc, hd, h.1, h.2.1]

theorem State.seen_sound (n base sheet : Nat) : s.seen a n base sheet = s := by
  rw [State.seen, State.ecc_sound h hd]

theorem State.clean_sound (n : Nat) : s.clean a n = true := by
  rw [State.clean, State.ecc_sound h hd]; rfl

theorem State.unitLe_sound (n : Nat) : s.unitLe a n = Mem.le s.mem a n := by
  rw [State.unitLe, if_pos (State.clean_sound h hd n)]

theorem State.readPhys_sound (n base scribe sheet : Nat) :
    s.readPhys a n base scribe sheet = (s, .ok (Mem.read s.mem a n)) := by
  rw [State.readPhys, State.ecc_sound h hd]

omit hd in
theorem State.seen_carve (a n base sheet : Nat) : s.seen (physCarve a) n base sheet = s :=
  State.seen_sound h (s.deadT2_carve a) n base sheet

omit hd in
theorem State.carveLe_sound (a n : Nat) : s.carveLe a n = if s.inCarve a n then Mem.le s.mem (physCarve a) n else 0 := by
  rw [State.carveLe, State.unitLe_sound h (s.deadT2_carve a)]

omit hd in
theorem State.carveAt_sound (base a n : Nat) : s.carveAt base a n = Mem.read s.mem (physCarve (base + a)) n := by
  rw [State.carveAt, if_pos (State.clean_sound h (s.deadT2_carve _) n)]

omit hd in
theorem State.eccEdges_sound {a : Nat} (hl : ∀ k, a / 64 ≤ k → s.deadT2 (64 * k) = false) (n base scribe sheet : Nat) :
    s.eccEdges a n base scribe sheet = (s, none) := by
  have he : ∀ k, a / 64 ≤ k → ∀ n b, s.ecc (64 * k) n b scribe sheet = (s, none) := fun k hk n b =>
    State.ecc_sound h (hl k hk) n b scribe sheet
  simp only [State.eccEdges]
  split
  · rfl
  · simp only [he _ (le_refl _), ite_self, Option.isSome_none, Bool.false_or]
    split
    · rfl
    · rw [he _ (Nat.div_le_div_right (by omega)), ite_self]

omit hd in
theorem State.carvePut_sound (a : Nat) (bs : List Byte) : s.carvePut a bs = s.storeCarve a bs := by
  rw [State.carvePut, State.storeCarve, State.unitPut, State.eccEdges_sound h fun k hk => s.deadT2_high ?_]
  have := Nat.div_mul_le_self (physCarve a) 64
  unfold physCarve at *
  omega

end Sys2Proof.Machine
end

