-- ==== Sys2Proof/Laws/State.lean ====
section
/-! SUPPORT. One lemma per field for each named update of State: a register write touches control space alone. -/

namespace Sys2Proof.Machine

@[simp] theorem State.wrw_pending (s : State) (o : Nat) (w : W32) : (s.wrw o w).pending = s.pending := rfl
@[simp] theorem State.wrw_draws (s : State) (o : Nat) (w : W32) : (s.wrw o w).draws = s.draws := rfl
@[simp] theorem State.wrw_powered (s : State) (o : Nat) (w : W32) : (s.wrw o w).powered = s.powered := rfl
@[simp] theorem State.wrw_chip (s : State) (o : Nat) (w : W32) : (s.wrw o w).chip = s.chip := rfl
@[simp] theorem State.wrw_straps (s : State) (o : Nat) (w : W32) : (s.wrw o w).straps = s.straps := rfl
@[simp] theorem State.wrw_feed (s : State) (o : Nat) (w : W32) : (s.wrw o w).feed = s.feed := rfl
@[simp] theorem State.wrw_latched (s : State) (o : Nat) (w : W32) : (s.wrw o w).latched = s.latched := rfl
@[simp] theorem State.wrw_mem (s : State) (o : Nat) (w : W32) : (s.wrw o w).mem = s.mem := rfl
@[simp] theorem State.wrw_upsets (s : State) (o : Nat) (w : W32) : (s.wrw o w).upsets = s.upsets := rfl
@[simp] theorem State.wrw_t2Gran (s : State) (o : Nat) (w : W32) : (s.wrw o w).t2Gran = s.t2Gran := rfl
@[simp] theorem State.wrw_t2Up (s : State) (o : Nat) (w : W32) : (s.wrw o w).t2Up = s.t2Up := rfl
@[simp] theorem State.wrw_gates (s : State) (o : Nat) (w : W32) : (s.wrw o w).gates = s.gates := rfl
@[simp] theorem State.wrw_heldEvents (s : State) (o : Nat) (w : W32) : (s.wrw o w).heldEvents = s.heldEvents := rfl
@[simp] theorem State.wrw_dropCount (s : State) (o : Nat) (w : W32) : (s.wrw o w).dropCount = s.dropCount := rfl
@[simp] theorem State.wrw_dropSev (s : State) (o : Nat) (w : W32) : (s.wrw o w).dropSev = s.dropSev := rfl
@[simp] theorem State.wrw_quires (s : State) (o : Nat) (w : W32) : (s.wrw o w).quires = s.quires := rfl
@[simp] theorem State.wrw_scribes (s : State) (o : Nat) (w : W32) : (s.wrw o w).scribes = s.scribes := rfl
@[simp] theorem State.wrw_ctxs (s : State) (o : Nat) (w : W32) : (s.wrw o w).ctxs = s.ctxs := rfl
@[simp] theorem State.wrw_sheets (s : State) (o : Nat) (w : W32) : (s.wrw o w).sheets = s.sheets := rfl
@[simp] theorem State.wrw_tierCmds (s : State) (o : Nat) (w : W32) : (s.wrw o w).tierCmds = s.tierCmds := rfl
@[simp] theorem State.wrw_moves (s : State) (o : Nat) (w : W32) : (s.wrw o w).moves = s.moves := rfl
@[simp] theorem State.wrw_freeing (s : State) (o : Nat) (w : W32) : (s.wrw o w).freeing = s.freeing := rfl
@[simp] theorem State.wrw_hands (s : State) (o : Nat) (w : W32) : (s.wrw o w).hands = s.hands := rfl
@[simp] theorem State.wrw_dma (s : State) (o : Nat) (w : W32) : (s.wrw o w).dma = s.dma := rfl
@[simp] theorem State.wrw_ringBad (s : State) (o : Nat) (w : W32) : (s.wrw o w).ringBad = s.ringBad := rfl
@[simp] theorem State.wrw_rulSrc (s : State) (o : Nat) (w : W32) : (s.wrw o w).rulSrc = s.rulSrc := rfl
@[simp] theorem State.wrw_rulHome (s : State) (o : Nat) (w : W32) : (s.wrw o w).rulHome = s.rulHome := rfl
@[simp] theorem State.wrw_blotWin (s : State) (o : Nat) (w : W32) : (s.wrw o w).blotWin = s.blotWin := rfl
@[simp] theorem State.wrw_windows (s : State) (o : Nat) (w : W32) : (s.wrw o w).windows = s.windows := rfl
@[simp] theorem State.wrw_closing (s : State) (o : Nat) (w : W32) : (s.wrw o w).closing = s.closing := rfl
@[simp] theorem State.wrw_peers (s : State) (o : Nat) (w : W32) : (s.wrw o w).peers = s.peers := rfl
@[simp] theorem State.wrw_outOps (s : State) (o : Nat) (w : W32) : (s.wrw o w).outOps = s.outOps := rfl
@[simp] theorem State.wrw_rtagNext (s : State) (o : Nat) (w : W32) : (s.wrw o w).rtagNext = s.rtagNext := rfl
@[simp] theorem State.wrw_heldFlags (s : State) (o : Nat) (w : W32) : (s.wrw o w).heldFlags = s.heldFlags := rfl
@[simp] theorem State.wrw_heldPkts (s : State) (o : Nat) (w : W32) : (s.wrw o w).heldPkts = s.heldPkts := rfl
@[simp] theorem State.wrw_gathers (s : State) (o : Nat) (w : W32) : (s.wrw o w).gathers = s.gathers := rfl
@[simp] theorem State.wrw_bulks (s : State) (o : Nat) (w : W32) : (s.wrw o w).bulks = s.bulks := rfl
@[simp] theorem State.wrw_quillDone (s : State) (o : Nat) (w : W32) : (s.wrw o w).quillDone = s.quillDone := rfl
@[simp] theorem State.wrw_ports (s : State) (o : Nat) (w : W32) : (s.wrw o w).ports = s.ports := rfl
@[simp] theorem State.wrw_ringMap (s : State) (o : Nat) (w : W32) : (s.wrw o w).ringMap = s.ringMap := rfl
@[simp] theorem State.wrw_tx (s : State) (o : Nat) (w : W32) : (s.wrw o w).tx = s.tx := rfl
@[simp] theorem State.wrw_svc (s : State) (o : Nat) (w : W32) : (s.wrw o w).svc = s.svc := rfl
@[simp] theorem State.wrw_answers (s : State) (o : Nat) (w : W32) : (s.wrw o w).answers = s.answers := rfl
@[simp] theorem State.wrw_arrived (s : State) (o : Nat) (w : W32) : (s.wrw o w).arrived = s.arrived := rfl
@[simp] theorem State.wrw_time (s : State) (o : Nat) (w : W32) : (s.wrw o w).time = s.time := rfl
@[simp] theorem State.wrw_base (s : State) (o : Nat) (w : W32) : (s.wrw o w).base = s.base := rfl
@[simp] theorem State.wrw_power (s : State) (o : Nat) (w : W32) : (s.wrw o w).power = s.power := rfl
@[simp] theorem State.wrw_start (s : State) (o : Nat) (w : W32) : (s.wrw o w).start = s.start := rfl
@[simp] theorem State.wrw_sec (s : State) (o : Nat) (w : W32) : (s.wrw o w).sec = s.sec := rfl
@[simp] theorem State.wrw_selftest (s : State) (o : Nat) (w : W32) : (s.wrw o w).selftest = s.selftest := rfl
@[simp] theorem State.wrw_calib (s : State) (o : Nat) (w : W32) : (s.wrw o w).calib = s.calib := rfl
@[simp] theorem State.wrw_calFails (s : State) (o : Nat) (w : W32) : (s.wrw o w).calFails = s.calFails := rfl
@[simp] theorem State.wrw_mirror (s : State) (o : Nat) (w : W32) : (s.wrw o w).mirror = s.mirror := rfl
@[simp] theorem State.wrw_requests (s : State) (o : Nat) (w : W32) : (s.wrw o w).requests = s.requests := rfl
@[simp] theorem State.wrw_pendFail (s : State) (o : Nat) (w : W32) : (s.wrw o w).pendFail = s.pendFail := rfl
@[simp] theorem State.wrw_egStall (s : State) (o : Nat) (w : W32) : (s.wrw o w).egStall = s.egStall := rfl
@[simp] theorem State.wrw_strapPins (s : State) (o : Nat) (w : W32) : (s.wrw o w).strapPins = s.strapPins := rfl
@[simp] theorem State.wrw_failing (s : State) (o : Nat) (w : W32) : (s.wrw o w).failing = s.failing := rfl
@[simp] theorem State.wrw_badEntries (s : State) (o : Nat) (w : W32) : (s.wrw o w).badEntries = s.badEntries := rfl
@[simp] theorem State.wrw_posts (s : State) (o : Nat) (w : W32) : (s.wrw o w).posts = s.posts := rfl
@[simp] theorem State.wrw_orders (s : State) (o : Nat) (w : W32) : (s.wrw o w).orders = s.orders := rfl
@[simp] theorem State.wrw_records (s : State) (o : Nat) (w : W32) : (s.wrw o w).records = s.records := rfl

@[simp] theorem State.wr_pending (s : State) (o hi lo v : Nat) : (s.wr o hi lo v).pending = s.pending := rfl
@[simp] theorem State.wr_draws (s : State) (o hi lo v : Nat) : (s.wr o hi lo v).draws = s.draws := rfl
@[simp] theorem State.wr_powered (s : State) (o hi lo v : Nat) : (s.wr o hi lo v).powered = s.powered := rfl
@[simp] theorem State.wr_chip (s : State) (o hi lo v : Nat) : (s.wr o hi lo v).chip = s.chip := rfl
@[simp] theorem State.wr_straps (s : State) (o hi lo v : Nat) : (s.wr o hi lo v).straps = s.straps := rfl
@[simp] theorem State.wr_feed (s : State) (o hi lo v : Nat) : (s.wr o hi lo v).feed = s.feed := rfl
@[simp] theorem State.wr_latched (s : State) (o hi lo v : Nat) : (s.wr o hi lo v).latched = s.latched := rfl
@[simp] theorem State.wr_mem (s : State) (o hi lo v : Nat) : (s.wr o hi lo v).mem = s.mem := rfl
@[simp] theorem State.wr_upsets (s : State) (o hi lo v : Nat) : (s.wr o hi lo v).upsets = s.upsets := rfl
@[simp] theorem State.wr_t2Gran (s : State) (o hi lo v : Nat) : (s.wr o hi lo v).t2Gran = s.t2Gran := rfl
@[simp] theorem State.wr_t2Up (s : State) (o hi lo v : Nat) : (s.wr o hi lo v).t2Up = s.t2Up := rfl
@[simp] theorem State.wr_gates (s : State) (o hi lo v : Nat) : (s.wr o hi lo v).gates = s.gates := rfl
@[simp] theorem State.wr_heldEvents (s : State) (o hi lo v : Nat) : (s.wr o hi lo v).heldEvents = s.heldEvents := rfl
@[simp] theorem State.wr_dropCount (s : State) (o hi lo v : Nat) : (s.wr o hi lo v).dropCount = s.dropCount := rfl
@[simp] theorem State.wr_dropSev (s : State) (o hi lo v : Nat) : (s.wr o hi lo v).dropSev = s.dropSev := rfl
@[simp] theorem State.wr_quires (s : State) (o hi lo v : Nat) : (s.wr o hi lo v).quires = s.quires := rfl
@[simp] theorem State.wr_scribes (s : State) (o hi lo v : Nat) : (s.wr o hi lo v).scribes = s.scribes := rfl
@[simp] theorem State.wr_ctxs (s : State) (o hi lo v : Nat) : (s.wr o hi lo v).ctxs = s.ctxs := rfl
@[simp] theorem State.wr_sheets (s : State) (o hi lo v : Nat) : (s.wr o hi lo v).sheets = s.sheets := rfl
@[simp] theorem State.wr_tierCmds (s : State) (o hi lo v : Nat) : (s.wr o hi lo v).tierCmds = s.tierCmds := rfl
@[simp] theorem State.wr_moves (s : State) (o hi lo v : Nat) : (s.wr o hi lo v).moves = s.moves := rfl
@[simp] theorem State.wr_freeing (s : State) (o hi lo v : Nat) : (s.wr o hi lo v).freeing = s.freeing := rfl
@[simp] theorem State.wr_hands (s : State) (o hi lo v : Nat) : (s.wr o hi lo v).hands = s.hands := rfl
@[simp] theorem State.wr_dma (s : State) (o hi lo v : Nat) : (s.wr o hi lo v).dma = s.dma := rfl
@[simp] theorem State.wr_ringBad (s : State) (o hi lo v : Nat) : (s.wr o hi lo v).ringBad = s.ringBad := rfl
@[simp] theorem State.wr_rulSrc (s : State) (o hi lo v : Nat) : (s.wr o hi lo v).rulSrc = s.rulSrc := rfl
@[simp] theorem State.wr_rulHome (s : State) (o hi lo v : Nat) : (s.wr o hi lo v).rulHome = s.rulHome := rfl
@[simp] theorem State.wr_blotWin (s : State) (o hi lo v : Nat) : (s.wr o hi lo v).blotWin = s.blotWin := rfl
@[simp] theorem State.wr_windows (s : State) (o hi lo v : Nat) : (s.wr o hi lo v).windows = s.windows := rfl
@[simp] theorem State.wr_closing (s : State) (o hi lo v : Nat) : (s.wr o hi lo v).closing = s.closing := rfl
@[simp] theorem State.wr_peers (s : State) (o hi lo v : Nat) : (s.wr o hi lo v).peers = s.peers := rfl
@[simp] theorem State.wr_outOps (s : State) (o hi lo v : Nat) : (s.wr o hi lo v).outOps = s.outOps := rfl
@[simp] theorem State.wr_rtagNext (s : State) (o hi lo v : Nat) : (s.wr o hi lo v).rtagNext = s.rtagNext := rfl
@[simp] theorem State.wr_heldFlags (s : State) (o hi lo v : Nat) : (s.wr o hi lo v).heldFlags = s.heldFlags := rfl
@[simp] theorem State.wr_heldPkts (s : State) (o hi lo v : Nat) : (s.wr o hi lo v).heldPkts = s.heldPkts := rfl
@[simp] theorem State.wr_gathers (s : State) (o hi lo v : Nat) : (s.wr o hi lo v).gathers = s.gathers := rfl
@[simp] theorem State.wr_bulks (s : State) (o hi lo v : Nat) : (s.wr o hi lo v).bulks = s.bulks := rfl
@[simp] theorem State.wr_quillDone (s : State) (o hi lo v : Nat) : (s.wr o hi lo v).quillDone = s.quillDone := rfl
@[simp] theorem State.wr_ports (s : State) (o hi lo v : Nat) : (s.wr o hi lo v).ports = s.ports := rfl
@[simp] theorem State.wr_ringMap (s : State) (o hi lo v : Nat) : (s.wr o hi lo v).ringMap = s.ringMap := rfl
@[simp] theorem State.wr_tx (s : State) (o hi lo v : Nat) : (s.wr o hi lo v).tx = s.tx := rfl
@[simp] theorem State.wr_svc (s : State) (o hi lo v : Nat) : (s.wr o hi lo v).svc = s.svc := rfl
@[simp] theorem State.wr_answers (s : State) (o hi lo v : Nat) : (s.wr o hi lo v).answers = s.answers := rfl
@[simp] theorem State.wr_arrived (s : State) (o hi lo v : Nat) : (s.wr o hi lo v).arrived = s.arrived := rfl
@[simp] theorem State.wr_time (s : State) (o hi lo v : Nat) : (s.wr o hi lo v).time = s.time := rfl
@[simp] theorem State.wr_base (s : State) (o hi lo v : Nat) : (s.wr o hi lo v).base = s.base := rfl
@[simp] theorem State.wr_power (s : State) (o hi lo v : Nat) : (s.wr o hi lo v).power = s.power := rfl
@[simp] theorem State.wr_start (s : State) (o hi lo v : Nat) : (s.wr o hi lo v).start = s.start := rfl
@[simp] theorem State.wr_sec (s : State) (o hi lo v : Nat) : (s.wr o hi lo v).sec = s.sec := rfl
@[simp] theorem State.wr_selftest (s : State) (o hi lo v : Nat) : (s.wr o hi lo v).selftest = s.selftest := rfl
@[simp] theorem State.wr_calib (s : State) (o hi lo v : Nat) : (s.wr o hi lo v).calib = s.calib := rfl
@[simp] theorem State.wr_calFails (s : State) (o hi lo v : Nat) : (s.wr o hi lo v).calFails = s.calFails := rfl
@[simp] theorem State.wr_mirror (s : State) (o hi lo v : Nat) : (s.wr o hi lo v).mirror = s.mirror := rfl
@[simp] theorem State.wr_requests (s : State) (o hi lo v : Nat) : (s.wr o hi lo v).requests = s.requests := rfl
@[simp] theorem State.wr_pendFail (s : State) (o hi lo v : Nat) : (s.wr o hi lo v).pendFail = s.pendFail := rfl
@[simp] theorem State.wr_egStall (s : State) (o hi lo v : Nat) : (s.wr o hi lo v).egStall = s.egStall := rfl
@[simp] theorem State.wr_strapPins (s : State) (o hi lo v : Nat) : (s.wr o hi lo v).strapPins = s.strapPins := rfl
@[simp] theorem State.wr_failing (s : State) (o hi lo v : Nat) : (s.wr o hi lo v).failing = s.failing := rfl
@[simp] theorem State.wr_badEntries (s : State) (o hi lo v : Nat) : (s.wr o hi lo v).badEntries = s.badEntries := rfl
@[simp] theorem State.wr_posts (s : State) (o hi lo v : Nat) : (s.wr o hi lo v).posts = s.posts := rfl
@[simp] theorem State.wr_orders (s : State) (o hi lo v : Nat) : (s.wr o hi lo v).orders = s.orders := rfl
@[simp] theorem State.wr_records (s : State) (o hi lo v : Nat) : (s.wr o hi lo v).records = s.records := rfl

@[simp] theorem State.wrb_pending (s : State) (o i : Nat) (b : Bool) : (s.wrb o i b).pending = s.pending := rfl
@[simp] theorem State.wrb_draws (s : State) (o i : Nat) (b : Bool) : (s.wrb o i b).draws = s.draws := rfl
@[simp] theorem State.wrb_powered (s : State) (o i : Nat) (b : Bool) : (s.wrb o i b).powered = s.powered := rfl
@[simp] theorem State.wrb_chip (s : State) (o i : Nat) (b : Bool) : (s.wrb o i b).chip = s.chip := rfl
@[simp] theorem State.wrb_straps (s : State) (o i : Nat) (b : Bool) : (s.wrb o i b).straps = s.straps := rfl
@[simp] theorem State.wrb_feed (s : State) (o i : Nat) (b : Bool) : (s.wrb o i b).feed = s.feed := rfl
@[simp] theorem State.wrb_latched (s : State) (o i : Nat) (b : Bool) : (s.wrb o i b).latched = s.latched := rfl
@[simp] theorem State.wrb_mem (s : State) (o i : Nat) (b : Bool) : (s.wrb o i b).mem = s.mem := rfl
@[simp] theorem State.wrb_upsets (s : State) (o i : Nat) (b : Bool) : (s.wrb o i b).upsets = s.upsets := rfl
@[simp] theorem State.wrb_t2Gran (s : State) (o i : Nat) (b : Bool) : (s.wrb o i b).t2Gran = s.t2Gran := rfl
@[simp] theorem State.wrb_t2Up (s : State) (o i : Nat) (b : Bool) : (s.wrb o i b).t2Up = s.t2Up := rfl
@[simp] theorem State.wrb_gates (s : State) (o i : Nat) (b : Bool) : (s.wrb o i b).gates = s.gates := rfl
@[simp] theorem State.wrb_heldEvents (s : State) (o i : Nat) (b : Bool) : (s.wrb o i b).heldEvents = s.heldEvents := rfl
@[simp] theorem State.wrb_dropCount (s : State) (o i : Nat) (b : Bool) : (s.wrb o i b).dropCount = s.dropCount := rfl
@[simp] theorem State.wrb_dropSev (s : State) (o i : Nat) (b : Bool) : (s.wrb o i b).dropSev = s.dropSev := rfl
@[simp] theorem State.wrb_quires (s : State) (o i : Nat) (b : Bool) : (s.wrb o i b).quires = s.quires := rfl
@[simp] theorem State.wrb_scribes (s : State) (o i : Nat) (b : Bool) : (s.wrb o i b).scribes = s.scribes := rfl
@[simp] theorem State.wrb_ctxs (s : State) (o i : Nat) (b : Bool) : (s.wrb o i b).ctxs = s.ctxs := rfl
@[simp] theorem State.wrb_sheets (s : State) (o i : Nat) (b : Bool) : (s.wrb o i b).sheets = s.sheets := rfl
@[simp] theorem State.wrb_tierCmds (s : State) (o i : Nat) (b : Bool) : (s.wrb o i b).tierCmds = s.tierCmds := rfl
@[simp] theorem State.wrb_moves (s : State) (o i : Nat) (b : Bool) : (s.wrb o i b).moves = s.moves := rfl
@[simp] theorem State.wrb_freeing (s : State) (o i : Nat) (b : Bool) : (s.wrb o i b).freeing = s.freeing := rfl
@[simp] theorem State.wrb_hands (s : State) (o i : Nat) (b : Bool) : (s.wrb o i b).hands = s.hands := rfl
@[simp] theorem State.wrb_dma (s : State) (o i : Nat) (b : Bool) : (s.wrb o i b).dma = s.dma := rfl
@[simp] theorem State.wrb_ringBad (s : State) (o i : Nat) (b : Bool) : (s.wrb o i b).ringBad = s.ringBad := rfl
@[simp] theorem State.wrb_rulSrc (s : State) (o i : Nat) (b : Bool) : (s.wrb o i b).rulSrc = s.rulSrc := rfl
@[simp] theorem State.wrb_rulHome (s : State) (o i : Nat) (b : Bool) : (s.wrb o i b).rulHome = s.rulHome := rfl
@[simp] theorem State.wrb_blotWin (s : State) (o i : Nat) (b : Bool) : (s.wrb o i b).blotWin = s.blotWin := rfl
@[simp] theorem State.wrb_windows (s : State) (o i : Nat) (b : Bool) : (s.wrb o i b).windows = s.windows := rfl
@[simp] theorem State.wrb_closing (s : State) (o i : Nat) (b : Bool) : (s.wrb o i b).closing = s.closing := rfl
@[simp] theorem State.wrb_peers (s : State) (o i : Nat) (b : Bool) : (s.wrb o i b).peers = s.peers := rfl
@[simp] theorem State.wrb_outOps (s : State) (o i : Nat) (b : Bool) : (s.wrb o i b).outOps = s.outOps := rfl
@[simp] theorem State.wrb_rtagNext (s : State) (o i : Nat) (b : Bool) : (s.wrb o i b).rtagNext = s.rtagNext := rfl
@[simp] theorem State.wrb_heldFlags (s : State) (o i : Nat) (b : Bool) : (s.wrb o i b).heldFlags = s.heldFlags := rfl
@[simp] theorem State.wrb_heldPkts (s : State) (o i : Nat) (b : Bool) : (s.wrb o i b).heldPkts = s.heldPkts := rfl
@[simp] theorem State.wrb_gathers (s : State) (o i : Nat) (b : Bool) : (s.wrb o i b).gathers = s.gathers := rfl
@[simp] theorem State.wrb_bulks (s : State) (o i : Nat) (b : Bool) : (s.wrb o i b).bulks = s.bulks := rfl
@[simp] theorem State.wrb_quillDone (s : State) (o i : Nat) (b : Bool) : (s.wrb o i b).quillDone = s.quillDone := rfl
@[simp] theorem State.wrb_ports (s : State) (o i : Nat) (b : Bool) : (s.wrb o i b).ports = s.ports := rfl
@[simp] theorem State.wrb_ringMap (s : State) (o i : Nat) (b : Bool) : (s.wrb o i b).ringMap = s.ringMap := rfl
@[simp] theorem State.wrb_tx (s : State) (o i : Nat) (b : Bool) : (s.wrb o i b).tx = s.tx := rfl
@[simp] theorem State.wrb_svc (s : State) (o i : Nat) (b : Bool) : (s.wrb o i b).svc = s.svc := rfl
@[simp] theorem State.wrb_answers (s : State) (o i : Nat) (b : Bool) : (s.wrb o i b).answers = s.answers := rfl
@[simp] theorem State.wrb_arrived (s : State) (o i : Nat) (b : Bool) : (s.wrb o i b).arrived = s.arrived := rfl
@[simp] theorem State.wrb_time (s : State) (o i : Nat) (b : Bool) : (s.wrb o i b).time = s.time := rfl
@[simp] theorem State.wrb_base (s : State) (o i : Nat) (b : Bool) : (s.wrb o i b).base = s.base := rfl
@[simp] theorem State.wrb_power (s : State) (o i : Nat) (b : Bool) : (s.wrb o i b).power = s.power := rfl
@[simp] theorem State.wrb_start (s : State) (o i : Nat) (b : Bool) : (s.wrb o i b).start = s.start := rfl
@[simp] theorem State.wrb_sec (s : State) (o i : Nat) (b : Bool) : (s.wrb o i b).sec = s.sec := rfl
@[simp] theorem State.wrb_selftest (s : State) (o i : Nat) (b : Bool) : (s.wrb o i b).selftest = s.selftest := rfl
@[simp] theorem State.wrb_calib (s : State) (o i : Nat) (b : Bool) : (s.wrb o i b).calib = s.calib := rfl
@[simp] theorem State.wrb_calFails (s : State) (o i : Nat) (b : Bool) : (s.wrb o i b).calFails = s.calFails := rfl
@[simp] theorem State.wrb_mirror (s : State) (o i : Nat) (b : Bool) : (s.wrb o i b).mirror = s.mirror := rfl
@[simp] theorem State.wrb_requests (s : State) (o i : Nat) (b : Bool) : (s.wrb o i b).requests = s.requests := rfl
@[simp] theorem State.wrb_pendFail (s : State) (o i : Nat) (b : Bool) : (s.wrb o i b).pendFail = s.pendFail := rfl
@[simp] theorem State.wrb_egStall (s : State) (o i : Nat) (b : Bool) : (s.wrb o i b).egStall = s.egStall := rfl
@[simp] theorem State.wrb_strapPins (s : State) (o i : Nat) (b : Bool) : (s.wrb o i b).strapPins = s.strapPins := rfl
@[simp] theorem State.wrb_failing (s : State) (o i : Nat) (b : Bool) : (s.wrb o i b).failing = s.failing := rfl
@[simp] theorem State.wrb_badEntries (s : State) (o i : Nat) (b : Bool) : (s.wrb o i b).badEntries = s.badEntries := rfl
@[simp] theorem State.wrb_posts (s : State) (o i : Nat) (b : Bool) : (s.wrb o i b).posts = s.posts := rfl
@[simp] theorem State.wrb_orders (s : State) (o i : Nat) (b : Bool) : (s.wrb o i b).orders = s.orders := rfl
@[simp] theorem State.wrb_records (s : State) (o i : Nat) (b : Bool) : (s.wrb o i b).records = s.records := rfl

@[simp] theorem State.bump_pending (s : State) (o n : Nat) : (s.bump o n).pending = s.pending := rfl
@[simp] theorem State.bump_draws (s : State) (o n : Nat) : (s.bump o n).draws = s.draws := rfl
@[simp] theorem State.bump_powered (s : State) (o n : Nat) : (s.bump o n).powered = s.powered := rfl
@[simp] theorem State.bump_chip (s : State) (o n : Nat) : (s.bump o n).chip = s.chip := rfl
@[simp] theorem State.bump_straps (s : State) (o n : Nat) : (s.bump o n).straps = s.straps := rfl
@[simp] theorem State.bump_feed (s : State) (o n : Nat) : (s.bump o n).feed = s.feed := rfl
@[simp] theorem State.bump_latched (s : State) (o n : Nat) : (s.bump o n).latched = s.latched := rfl
@[simp] theorem State.bump_mem (s : State) (o n : Nat) : (s.bump o n).mem = s.mem := rfl
@[simp] theorem State.bump_upsets (s : State) (o n : Nat) : (s.bump o n).upsets = s.upsets := rfl
@[simp] theorem State.bump_t2Gran (s : State) (o n : Nat) : (s.bump o n).t2Gran = s.t2Gran := rfl
@[simp] theorem State.bump_t2Up (s : State) (o n : Nat) : (s.bump o n).t2Up = s.t2Up := rfl
@[simp] theorem State.bump_gates (s : State) (o n : Nat) : (s.bump o n).gates = s.gates := rfl
@[simp] theorem State.bump_heldEvents (s : State) (o n : Nat) : (s.bump o n).heldEvents = s.heldEvents := rfl
@[simp] theorem State.bump_dropCount (s : State) (o n : Nat) : (s.bump o n).dropCount = s.dropCount := rfl
@[simp] theorem State.bump_dropSev (s : State) (o n : Nat) : (s.bump o n).dropSev = s.dropSev := rfl
@[simp] theorem State.bump_quires (s : State) (o n : Nat) : (s.bump o n).quires = s.quires := rfl
@[simp] theorem State.bump_scribes (s : State) (o n : Nat) : (s.bump o n).scribes = s.scribes := rfl
@[simp] theorem State.bump_ctxs (s : State) (o n : Nat) : (s.bump o n).ctxs = s.ctxs := rfl
@[simp] theorem State.bump_sheets (s : State) (o n : Nat) : (s.bump o n).sheets = s.sheets := rfl
@[simp] theorem State.bump_tierCmds (s : State) (o n : Nat) : (s.bump o n).tierCmds = s.tierCmds := rfl
@[simp] theorem State.bump_moves (s : State) (o n : Nat) : (s.bump o n).moves = s.moves := rfl
@[simp] theorem State.bump_freeing (s : State) (o n : Nat) : (s.bump o n).freeing = s.freeing := rfl
@[simp] theorem State.bump_hands (s : State) (o n : Nat) : (s.bump o n).hands = s.hands := rfl
@[simp] theorem State.bump_dma (s : State) (o n : Nat) : (s.bump o n).dma = s.dma := rfl
@[simp] theorem State.bump_ringBad (s : State) (o n : Nat) : (s.bump o n).ringBad = s.ringBad := rfl
@[simp] theorem State.bump_rulSrc (s : State) (o n : Nat) : (s.bump o n).rulSrc = s.rulSrc := rfl
@[simp] theorem State.bump_rulHome (s : State) (o n : Nat) : (s.bump o n).rulHome = s.rulHome := rfl
@[simp] theorem State.bump_blotWin (s : State) (o n : Nat) : (s.bump o n).blotWin = s.blotWin := rfl
@[simp] theorem State.bump_windows (s : State) (o n : Nat) : (s.bump o n).windows = s.windows := rfl
@[simp] theorem State.bump_closing (s : State) (o n : Nat) : (s.bump o n).closing = s.closing := rfl
@[simp] theorem State.bump_peers (s : State) (o n : Nat) : (s.bump o n).peers = s.peers := rfl
@[simp] theorem State.bump_outOps (s : State) (o n : Nat) : (s.bump o n).outOps = s.outOps := rfl
@[simp] theorem State.bump_rtagNext (s : State) (o n : Nat) : (s.bump o n).rtagNext = s.rtagNext := rfl
@[simp] theorem State.bump_heldFlags (s : State) (o n : Nat) : (s.bump o n).heldFlags = s.heldFlags := rfl
@[simp] theorem State.bump_heldPkts (s : State) (o n : Nat) : (s.bump o n).heldPkts = s.heldPkts := rfl
@[simp] theorem State.bump_gathers (s : State) (o n : Nat) : (s.bump o n).gathers = s.gathers := rfl
@[simp] theorem State.bump_bulks (s : State) (o n : Nat) : (s.bump o n).bulks = s.bulks := rfl
@[simp] theorem State.bump_quillDone (s : State) (o n : Nat) : (s.bump o n).quillDone = s.quillDone := rfl
@[simp] theorem State.bump_ports (s : State) (o n : Nat) : (s.bump o n).ports = s.ports := rfl
@[simp] theorem State.bump_ringMap (s : State) (o n : Nat) : (s.bump o n).ringMap = s.ringMap := rfl
@[simp] theorem State.bump_tx (s : State) (o n : Nat) : (s.bump o n).tx = s.tx := rfl
@[simp] theorem State.bump_svc (s : State) (o n : Nat) : (s.bump o n).svc = s.svc := rfl
@[simp] theorem State.bump_answers (s : State) (o n : Nat) : (s.bump o n).answers = s.answers := rfl
@[simp] theorem State.bump_arrived (s : State) (o n : Nat) : (s.bump o n).arrived = s.arrived := rfl
@[simp] theorem State.bump_time (s : State) (o n : Nat) : (s.bump o n).time = s.time := rfl
@[simp] theorem State.bump_base (s : State) (o n : Nat) : (s.bump o n).base = s.base := rfl
@[simp] theorem State.bump_power (s : State) (o n : Nat) : (s.bump o n).power = s.power := rfl
@[simp] theorem State.bump_start (s : State) (o n : Nat) : (s.bump o n).start = s.start := rfl
@[simp] theorem State.bump_sec (s : State) (o n : Nat) : (s.bump o n).sec = s.sec := rfl
@[simp] theorem State.bump_selftest (s : State) (o n : Nat) : (s.bump o n).selftest = s.selftest := rfl
@[simp] theorem State.bump_calib (s : State) (o n : Nat) : (s.bump o n).calib = s.calib := rfl
@[simp] theorem State.bump_calFails (s : State) (o n : Nat) : (s.bump o n).calFails = s.calFails := rfl
@[simp] theorem State.bump_mirror (s : State) (o n : Nat) : (s.bump o n).mirror = s.mirror := rfl
@[simp] theorem State.bump_requests (s : State) (o n : Nat) : (s.bump o n).requests = s.requests := rfl
@[simp] theorem State.bump_pendFail (s : State) (o n : Nat) : (s.bump o n).pendFail = s.pendFail := rfl
@[simp] theorem State.bump_egStall (s : State) (o n : Nat) : (s.bump o n).egStall = s.egStall := rfl
@[simp] theorem State.bump_strapPins (s : State) (o n : Nat) : (s.bump o n).strapPins = s.strapPins := rfl
@[simp] theorem State.bump_failing (s : State) (o n : Nat) : (s.bump o n).failing = s.failing := rfl
@[simp] theorem State.bump_badEntries (s : State) (o n : Nat) : (s.bump o n).badEntries = s.badEntries := rfl
@[simp] theorem State.bump_posts (s : State) (o n : Nat) : (s.bump o n).posts = s.posts := rfl
@[simp] theorem State.bump_orders (s : State) (o n : Nat) : (s.bump o n).orders = s.orders := rfl
@[simp] theorem State.bump_records (s : State) (o n : Nat) : (s.bump o n).records = s.records := rfl

@[simp] theorem State.bumpSat_pending (s : State) (o n : Nat) : (s.bumpSat o n).pending = s.pending := rfl
@[simp] theorem State.bumpSat_draws (s : State) (o n : Nat) : (s.bumpSat o n).draws = s.draws := rfl
@[simp] theorem State.bumpSat_powered (s : State) (o n : Nat) : (s.bumpSat o n).powered = s.powered := rfl
@[simp] theorem State.bumpSat_chip (s : State) (o n : Nat) : (s.bumpSat o n).chip = s.chip := rfl
@[simp] theorem State.bumpSat_straps (s : State) (o n : Nat) : (s.bumpSat o n).straps = s.straps := rfl
@[simp] theorem State.bumpSat_feed (s : State) (o n : Nat) : (s.bumpSat o n).feed = s.feed := rfl
@[simp] theorem State.bumpSat_latched (s : State) (o n : Nat) : (s.bumpSat o n).latched = s.latched := rfl
@[simp] theorem State.bumpSat_mem (s : State) (o n : Nat) : (s.bumpSat o n).mem = s.mem := rfl
@[simp] theorem State.bumpSat_upsets (s : State) (o n : Nat) : (s.bumpSat o n).upsets = s.upsets := rfl
@[simp] theorem State.bumpSat_t2Gran (s : State) (o n : Nat) : (s.bumpSat o n).t2Gran = s.t2Gran := rfl
@[simp] theorem State.bumpSat_t2Up (s : State) (o n : Nat) : (s.bumpSat o n).t2Up = s.t2Up := rfl
@[simp] theorem State.bumpSat_gates (s : State) (o n : Nat) : (s.bumpSat o n).gates = s.gates := rfl
@[simp] theorem State.bumpSat_heldEvents (s : State) (o n : Nat) : (s.bumpSat o n).heldEvents = s.heldEvents := rfl
@[simp] theorem State.bumpSat_dropCount (s : State) (o n : Nat) : (s.bumpSat o n).dropCount = s.dropCount := rfl
@[simp] theorem State.bumpSat_dropSev (s : State) (o n : Nat) : (s.bumpSat o n).dropSev = s.dropSev := rfl
@[simp] theorem State.bumpSat_quires (s : State) (o n : Nat) : (s.bumpSat o n).quires = s.quires := rfl
@[simp] theorem State.bumpSat_scribes (s : State) (o n : Nat) : (s.bumpSat o n).scribes = s.scribes := rfl
@[simp] theorem State.bumpSat_ctxs (s : State) (o n : Nat) : (s.bumpSat o n).ctxs = s.ctxs := rfl
@[simp] theorem State.bumpSat_sheets (s : State) (o n : Nat) : (s.bumpSat o n).sheets = s.sheets := rfl
@[simp] theorem State.bumpSat_tierCmds (s : State) (o n : Nat) : (s.bumpSat o n).tierCmds = s.tierCmds := rfl
@[simp] theorem State.bumpSat_moves (s : State) (o n : Nat) : (s.bumpSat o n).moves = s.moves := rfl
@[simp] theorem State.bumpSat_freeing (s : State) (o n : Nat) : (s.bumpSat o n).freeing = s.freeing := rfl
@[simp] theorem State.bumpSat_hands (s : State) (o n : Nat) : (s.bumpSat o n).hands = s.hands := rfl
@[simp] theorem State.bumpSat_dma (s : State) (o n : Nat) : (s.bumpSat o n).dma = s.dma := rfl
@[simp] theorem State.bumpSat_ringBad (s : State) (o n : Nat) : (s.bumpSat o n).ringBad = s.ringBad := rfl
@[simp] theorem State.bumpSat_rulSrc (s : State) (o n : Nat) : (s.bumpSat o n).rulSrc = s.rulSrc := rfl
@[simp] theorem State.bumpSat_rulHome (s : State) (o n : Nat) : (s.bumpSat o n).rulHome = s.rulHome := rfl
@[simp] theorem State.bumpSat_blotWin (s : State) (o n : Nat) : (s.bumpSat o n).blotWin = s.blotWin := rfl
@[simp] theorem State.bumpSat_windows (s : State) (o n : Nat) : (s.bumpSat o n).windows = s.windows := rfl
@[simp] theorem State.bumpSat_closing (s : State) (o n : Nat) : (s.bumpSat o n).closing = s.closing := rfl
@[simp] theorem State.bumpSat_peers (s : State) (o n : Nat) : (s.bumpSat o n).peers = s.peers := rfl
@[simp] theorem State.bumpSat_outOps (s : State) (o n : Nat) : (s.bumpSat o n).outOps = s.outOps := rfl
@[simp] theorem State.bumpSat_rtagNext (s : State) (o n : Nat) : (s.bumpSat o n).rtagNext = s.rtagNext := rfl
@[simp] theorem State.bumpSat_heldFlags (s : State) (o n : Nat) : (s.bumpSat o n).heldFlags = s.heldFlags := rfl
@[simp] theorem State.bumpSat_heldPkts (s : State) (o n : Nat) : (s.bumpSat o n).heldPkts = s.heldPkts := rfl
@[simp] theorem State.bumpSat_gathers (s : State) (o n : Nat) : (s.bumpSat o n).gathers = s.gathers := rfl
@[simp] theorem State.bumpSat_bulks (s : State) (o n : Nat) : (s.bumpSat o n).bulks = s.bulks := rfl
@[simp] theorem State.bumpSat_quillDone (s : State) (o n : Nat) : (s.bumpSat o n).quillDone = s.quillDone := rfl
@[simp] theorem State.bumpSat_ports (s : State) (o n : Nat) : (s.bumpSat o n).ports = s.ports := rfl
@[simp] theorem State.bumpSat_ringMap (s : State) (o n : Nat) : (s.bumpSat o n).ringMap = s.ringMap := rfl
@[simp] theorem State.bumpSat_tx (s : State) (o n : Nat) : (s.bumpSat o n).tx = s.tx := rfl
@[simp] theorem State.bumpSat_svc (s : State) (o n : Nat) : (s.bumpSat o n).svc = s.svc := rfl
@[simp] theorem State.bumpSat_answers (s : State) (o n : Nat) : (s.bumpSat o n).answers = s.answers := rfl
@[simp] theorem State.bumpSat_arrived (s : State) (o n : Nat) : (s.bumpSat o n).arrived = s.arrived := rfl
@[simp] theorem State.bumpSat_time (s : State) (o n : Nat) : (s.bumpSat o n).time = s.time := rfl
@[simp] theorem State.bumpSat_base (s : State) (o n : Nat) : (s.bumpSat o n).base = s.base := rfl
@[simp] theorem State.bumpSat_power (s : State) (o n : Nat) : (s.bumpSat o n).power = s.power := rfl
@[simp] theorem State.bumpSat_start (s : State) (o n : Nat) : (s.bumpSat o n).start = s.start := rfl
@[simp] theorem State.bumpSat_sec (s : State) (o n : Nat) : (s.bumpSat o n).sec = s.sec := rfl
@[simp] theorem State.bumpSat_selftest (s : State) (o n : Nat) : (s.bumpSat o n).selftest = s.selftest := rfl
@[simp] theorem State.bumpSat_calib (s : State) (o n : Nat) : (s.bumpSat o n).calib = s.calib := rfl
@[simp] theorem State.bumpSat_calFails (s : State) (o n : Nat) : (s.bumpSat o n).calFails = s.calFails := rfl
@[simp] theorem State.bumpSat_mirror (s : State) (o n : Nat) : (s.bumpSat o n).mirror = s.mirror := rfl
@[simp] theorem State.bumpSat_requests (s : State) (o n : Nat) : (s.bumpSat o n).requests = s.requests := rfl
@[simp] theorem State.bumpSat_pendFail (s : State) (o n : Nat) : (s.bumpSat o n).pendFail = s.pendFail := rfl
@[simp] theorem State.bumpSat_egStall (s : State) (o n : Nat) : (s.bumpSat o n).egStall = s.egStall := rfl
@[simp] theorem State.bumpSat_strapPins (s : State) (o n : Nat) : (s.bumpSat o n).strapPins = s.strapPins := rfl
@[simp] theorem State.bumpSat_failing (s : State) (o n : Nat) : (s.bumpSat o n).failing = s.failing := rfl
@[simp] theorem State.bumpSat_badEntries (s : State) (o n : Nat) : (s.bumpSat o n).badEntries = s.badEntries := rfl
@[simp] theorem State.bumpSat_posts (s : State) (o n : Nat) : (s.bumpSat o n).posts = s.posts := rfl
@[simp] theorem State.bumpSat_orders (s : State) (o n : Nat) : (s.bumpSat o n).orders = s.orders := rfl
@[simp] theorem State.bumpSat_records (s : State) (o n : Nat) : (s.bumpSat o n).records = s.records := rfl

@[simp] theorem State.wr64_pending (s : State) (lo hi v : Nat) : (s.wr64 lo hi v).pending = s.pending := rfl
@[simp] theorem State.wr64_draws (s : State) (lo hi v : Nat) : (s.wr64 lo hi v).draws = s.draws := rfl
@[simp] theorem State.wr64_powered (s : State) (lo hi v : Nat) : (s.wr64 lo hi v).powered = s.powered := rfl
@[simp] theorem State.wr64_chip (s : State) (lo hi v : Nat) : (s.wr64 lo hi v).chip = s.chip := rfl
@[simp] theorem State.wr64_straps (s : State) (lo hi v : Nat) : (s.wr64 lo hi v).straps = s.straps := rfl
@[simp] theorem State.wr64_feed (s : State) (lo hi v : Nat) : (s.wr64 lo hi v).feed = s.feed := rfl
@[simp] theorem State.wr64_latched (s : State) (lo hi v : Nat) : (s.wr64 lo hi v).latched = s.latched := rfl
@[simp] theorem State.wr64_mem (s : State) (lo hi v : Nat) : (s.wr64 lo hi v).mem = s.mem := rfl
@[simp] theorem State.wr64_upsets (s : State) (lo hi v : Nat) : (s.wr64 lo hi v).upsets = s.upsets := rfl
@[simp] theorem State.wr64_t2Gran (s : State) (lo hi v : Nat) : (s.wr64 lo hi v).t2Gran = s.t2Gran := rfl
@[simp] theorem State.wr64_t2Up (s : State) (lo hi v : Nat) : (s.wr64 lo hi v).t2Up = s.t2Up := rfl
@[simp] theorem State.wr64_gates (s : State) (lo hi v : Nat) : (s.wr64 lo hi v).gates = s.gates := rfl
@[simp] theorem State.wr64_heldEvents (s : State) (lo hi v : Nat) : (s.wr64 lo hi v).heldEvents = s.heldEvents := rfl
@[simp] theorem State.wr64_dropCount (s : State) (lo hi v : Nat) : (s.wr64 lo hi v).dropCount = s.dropCount := rfl
@[simp] theorem State.wr64_dropSev (s : State) (lo hi v : Nat) : (s.wr64 lo hi v).dropSev = s.dropSev := rfl
@[simp] theorem State.wr64_quires (s : State) (lo hi v : Nat) : (s.wr64 lo hi v).quires = s.quires := rfl
@[simp] theorem State.wr64_scribes (s : State) (lo hi v : Nat) : (s.wr64 lo hi v).scribes = s.scribes := rfl
@[simp] theorem State.wr64_ctxs (s : State) (lo hi v : Nat) : (s.wr64 lo hi v).ctxs = s.ctxs := rfl
@[simp] theorem State.wr64_sheets (s : State) (lo hi v : Nat) : (s.wr64 lo hi v).sheets = s.sheets := rfl
@[simp] theorem State.wr64_tierCmds (s : State) (lo hi v : Nat) : (s.wr64 lo hi v).tierCmds = s.tierCmds := rfl
@[simp] theorem State.wr64_moves (s : State) (lo hi v : Nat) : (s.wr64 lo hi v).moves = s.moves := rfl
@[simp] theorem State.wr64_freeing (s : State) (lo hi v : Nat) : (s.wr64 lo hi v).freeing = s.freeing := rfl
@[simp] theorem State.wr64_hands (s : State) (lo hi v : Nat) : (s.wr64 lo hi v).hands = s.hands := rfl
@[simp] theorem State.wr64_dma (s : State) (lo hi v : Nat) : (s.wr64 lo hi v).dma = s.dma := rfl
@[simp] theorem State.wr64_ringBad (s : State) (lo hi v : Nat) : (s.wr64 lo hi v).ringBad = s.ringBad := rfl
@[simp] theorem State.wr64_rulSrc (s : State) (lo hi v : Nat) : (s.wr64 lo hi v).rulSrc = s.rulSrc := rfl
@[simp] theorem State.wr64_rulHome (s : State) (lo hi v : Nat) : (s.wr64 lo hi v).rulHome = s.rulHome := rfl
@[simp] theorem State.wr64_blotWin (s : State) (lo hi v : Nat) : (s.wr64 lo hi v).blotWin = s.blotWin := rfl
@[simp] theorem State.wr64_windows (s : State) (lo hi v : Nat) : (s.wr64 lo hi v).windows = s.windows := rfl
@[simp] theorem State.wr64_closing (s : State) (lo hi v : Nat) : (s.wr64 lo hi v).closing = s.closing := rfl
@[simp] theorem State.wr64_peers (s : State) (lo hi v : Nat) : (s.wr64 lo hi v).peers = s.peers := rfl
@[simp] theorem State.wr64_outOps (s : State) (lo hi v : Nat) : (s.wr64 lo hi v).outOps = s.outOps := rfl
@[simp] theorem State.wr64_rtagNext (s : State) (lo hi v : Nat) : (s.wr64 lo hi v).rtagNext = s.rtagNext := rfl
@[simp] theorem State.wr64_heldFlags (s : State) (lo hi v : Nat) : (s.wr64 lo hi v).heldFlags = s.heldFlags := rfl
@[simp] theorem State.wr64_heldPkts (s : State) (lo hi v : Nat) : (s.wr64 lo hi v).heldPkts = s.heldPkts := rfl
@[simp] theorem State.wr64_gathers (s : State) (lo hi v : Nat) : (s.wr64 lo hi v).gathers = s.gathers := rfl
@[simp] theorem State.wr64_bulks (s : State) (lo hi v : Nat) : (s.wr64 lo hi v).bulks = s.bulks := rfl
@[simp] theorem State.wr64_quillDone (s : State) (lo hi v : Nat) : (s.wr64 lo hi v).quillDone = s.quillDone := rfl
@[simp] theorem State.wr64_ports (s : State) (lo hi v : Nat) : (s.wr64 lo hi v).ports = s.ports := rfl
@[simp] theorem State.wr64_ringMap (s : State) (lo hi v : Nat) : (s.wr64 lo hi v).ringMap = s.ringMap := rfl
@[simp] theorem State.wr64_tx (s : State) (lo hi v : Nat) : (s.wr64 lo hi v).tx = s.tx := rfl
@[simp] theorem State.wr64_svc (s : State) (lo hi v : Nat) : (s.wr64 lo hi v).svc = s.svc := rfl
@[simp] theorem State.wr64_answers (s : State) (lo hi v : Nat) : (s.wr64 lo hi v).answers = s.answers := rfl
@[simp] theorem State.wr64_arrived (s : State) (lo hi v : Nat) : (s.wr64 lo hi v).arrived = s.arrived := rfl
@[simp] theorem State.wr64_time (s : State) (lo hi v : Nat) : (s.wr64 lo hi v).time = s.time := rfl
@[simp] theorem State.wr64_base (s : State) (lo hi v : Nat) : (s.wr64 lo hi v).base = s.base := rfl
@[simp] theorem State.wr64_power (s : State) (lo hi v : Nat) : (s.wr64 lo hi v).power = s.power := rfl
@[simp] theorem State.wr64_start (s : State) (lo hi v : Nat) : (s.wr64 lo hi v).start = s.start := rfl
@[simp] theorem State.wr64_sec (s : State) (lo hi v : Nat) : (s.wr64 lo hi v).sec = s.sec := rfl
@[simp] theorem State.wr64_selftest (s : State) (lo hi v : Nat) : (s.wr64 lo hi v).selftest = s.selftest := rfl
@[simp] theorem State.wr64_calib (s : State) (lo hi v : Nat) : (s.wr64 lo hi v).calib = s.calib := rfl
@[simp] theorem State.wr64_calFails (s : State) (lo hi v : Nat) : (s.wr64 lo hi v).calFails = s.calFails := rfl
@[simp] theorem State.wr64_mirror (s : State) (lo hi v : Nat) : (s.wr64 lo hi v).mirror = s.mirror := rfl
@[simp] theorem State.wr64_requests (s : State) (lo hi v : Nat) : (s.wr64 lo hi v).requests = s.requests := rfl
@[simp] theorem State.wr64_pendFail (s : State) (lo hi v : Nat) : (s.wr64 lo hi v).pendFail = s.pendFail := rfl
@[simp] theorem State.wr64_egStall (s : State) (lo hi v : Nat) : (s.wr64 lo hi v).egStall = s.egStall := rfl
@[simp] theorem State.wr64_strapPins (s : State) (lo hi v : Nat) : (s.wr64 lo hi v).strapPins = s.strapPins := rfl
@[simp] theorem State.wr64_failing (s : State) (lo hi v : Nat) : (s.wr64 lo hi v).failing = s.failing := rfl
@[simp] theorem State.wr64_badEntries (s : State) (lo hi v : Nat) : (s.wr64 lo hi v).badEntries = s.badEntries := rfl
@[simp] theorem State.wr64_posts (s : State) (lo hi v : Nat) : (s.wr64 lo hi v).posts = s.posts := rfl
@[simp] theorem State.wr64_orders (s : State) (lo hi v : Nat) : (s.wr64 lo hi v).orders = s.orders := rfl
@[simp] theorem State.wr64_records (s : State) (lo hi v : Nat) : (s.wr64 lo hi v).records = s.records := rfl

@[simp] theorem State.draw_pending (s : State) : s.draw.pending = s.pending := rfl
@[simp] theorem State.draw_powered (s : State) : s.draw.powered = s.powered := rfl
@[simp] theorem State.draw_chip (s : State) : s.draw.chip = s.chip := rfl
@[simp] theorem State.draw_straps (s : State) : s.draw.straps = s.straps := rfl
@[simp] theorem State.draw_feed (s : State) : s.draw.feed = s.feed := rfl
@[simp] theorem State.draw_csr (s : State) : s.draw.csr = s.csr := rfl
@[simp] theorem State.draw_latched (s : State) : s.draw.latched = s.latched := rfl
@[simp] theorem State.draw_mem (s : State) : s.draw.mem = s.mem := rfl
@[simp] theorem State.draw_upsets (s : State) : s.draw.upsets = s.upsets := rfl
@[simp] theorem State.draw_t2Gran (s : State) : s.draw.t2Gran = s.t2Gran := rfl
@[simp] theorem State.draw_t2Up (s : State) : s.draw.t2Up = s.t2Up := rfl
@[simp] theorem State.draw_gates (s : State) : s.draw.gates = s.gates := rfl
@[simp] theorem State.draw_heldEvents (s : State) : s.draw.heldEvents = s.heldEvents := rfl
@[simp] theorem State.draw_dropCount (s : State) : s.draw.dropCount = s.dropCount := rfl
@[simp] theorem State.draw_dropSev (s : State) : s.draw.dropSev = s.dropSev := rfl
@[simp] theorem State.draw_quires (s : State) : s.draw.quires = s.quires := rfl
@[simp] theorem State.draw_scribes (s : State) : s.draw.scribes = s.scribes := rfl
@[simp] theorem State.draw_ctxs (s : State) : s.draw.ctxs = s.ctxs := rfl
@[simp] theorem State.draw_sheets (s : State) : s.draw.sheets = s.sheets := rfl
@[simp] theorem State.draw_tierCmds (s : State) : s.draw.tierCmds = s.tierCmds := rfl
@[simp] theorem State.draw_moves (s : State) : s.draw.moves = s.moves := rfl
@[simp] theorem State.draw_freeing (s : State) : s.draw.freeing = s.freeing := rfl
@[simp] theorem State.draw_hands (s : State) : s.draw.hands = s.hands := rfl
@[simp] theorem State.draw_dma (s : State) : s.draw.dma = s.dma := rfl
@[simp] theorem State.draw_ringBad (s : State) : s.draw.ringBad = s.ringBad := rfl
@[simp] theorem State.draw_rulSrc (s : State) : s.draw.rulSrc = s.rulSrc := rfl
@[simp] theorem State.draw_rulHome (s : State) : s.draw.rulHome = s.rulHome := rfl
@[simp] theorem State.draw_blotWin (s : State) : s.draw.blotWin = s.blotWin := rfl
@[simp] theorem State.draw_windows (s : State) : s.draw.windows = s.windows := rfl
@[simp] theorem State.draw_closing (s : State) : s.draw.closing = s.closing := rfl
@[simp] theorem State.draw_peers (s : State) : s.draw.peers = s.peers := rfl
@[simp] theorem State.draw_outOps (s : State) : s.draw.outOps = s.outOps := rfl
@[simp] theorem State.draw_rtagNext (s : State) : s.draw.rtagNext = s.rtagNext := rfl
@[simp] theorem State.draw_heldFlags (s : State) : s.draw.heldFlags = s.heldFlags := rfl
@[simp] theorem State.draw_heldPkts (s : State) : s.draw.heldPkts = s.heldPkts := rfl
@[simp] theorem State.draw_gathers (s : State) : s.draw.gathers = s.gathers := rfl
@[simp] theorem State.draw_bulks (s : State) : s.draw.bulks = s.bulks := rfl
@[simp] theorem State.draw_quillDone (s : State) : s.draw.quillDone = s.quillDone := rfl
@[simp] theorem State.draw_ports (s : State) : s.draw.ports = s.ports := rfl
@[simp] theorem State.draw_ringMap (s : State) : s.draw.ringMap = s.ringMap := rfl
@[simp] theorem State.draw_tx (s : State) : s.draw.tx = s.tx := rfl
@[simp] theorem State.draw_svc (s : State) : s.draw.svc = s.svc := rfl
@[simp] theorem State.draw_answers (s : State) : s.draw.answers = s.answers := rfl
@[simp] theorem State.draw_arrived (s : State) : s.draw.arrived = s.arrived := rfl
@[simp] theorem State.draw_time (s : State) : s.draw.time = s.time := rfl
@[simp] theorem State.draw_base (s : State) : s.draw.base = s.base := rfl
@[simp] theorem State.draw_power (s : State) : s.draw.power = s.power := rfl
@[simp] theorem State.draw_start (s : State) : s.draw.start = s.start := rfl
@[simp] theorem State.draw_sec (s : State) : s.draw.sec = s.sec := rfl
@[simp] theorem State.draw_selftest (s : State) : s.draw.selftest = s.selftest := rfl
@[simp] theorem State.draw_calib (s : State) : s.draw.calib = s.calib := rfl
@[simp] theorem State.draw_calFails (s : State) : s.draw.calFails = s.calFails := rfl
@[simp] theorem State.draw_mirror (s : State) : s.draw.mirror = s.mirror := rfl
@[simp] theorem State.draw_requests (s : State) : s.draw.requests = s.requests := rfl
@[simp] theorem State.draw_pendFail (s : State) : s.draw.pendFail = s.pendFail := rfl
@[simp] theorem State.draw_egStall (s : State) : s.draw.egStall = s.egStall := rfl
@[simp] theorem State.draw_strapPins (s : State) : s.draw.strapPins = s.strapPins := rfl
@[simp] theorem State.draw_failing (s : State) : s.draw.failing = s.failing := rfl
@[simp] theorem State.draw_badEntries (s : State) : s.draw.badEntries = s.badEntries := rfl
@[simp] theorem State.draw_posts (s : State) : s.draw.posts = s.posts := rfl
@[simp] theorem State.draw_orders (s : State) : s.draw.orders = s.orders := rfl
@[simp] theorem State.draw_records (s : State) : s.draw.records = s.records := rfl
@[simp] theorem State.draw_draws (s : State) : s.draw.draws = s.draws + 1 := rfl

@[simp] theorem State.answer_pending (s : State) (st : Nat) (bs : List Byte) : (s.answer st bs).pending = s.pending := rfl
@[simp] theorem State.answer_draws (s : State) (st : Nat) (bs : List Byte) : (s.answer st bs).draws = s.draws := rfl
@[simp] theorem State.answer_powered (s : State) (st : Nat) (bs : List Byte) : (s.answer st bs).powered = s.powered := rfl
@[simp] theorem State.answer_chip (s : State) (st : Nat) (bs : List Byte) : (s.answer st bs).chip = s.chip := rfl
@[simp] theorem State.answer_straps (s : State) (st : Nat) (bs : List Byte) : (s.answer st bs).straps = s.straps := rfl
@[simp] theorem State.answer_feed (s : State) (st : Nat) (bs : List Byte) : (s.answer st bs).feed = s.feed := rfl
@[simp] theorem State.answer_csr (s : State) (st : Nat) (bs : List Byte) : (s.answer st bs).csr = s.csr := rfl
@[simp] theorem State.answer_latched (s : State) (st : Nat) (bs : List Byte) : (s.answer st bs).latched = s.latched := rfl
@[simp] theorem State.answer_mem (s : State) (st : Nat) (bs : List Byte) : (s.answer st bs).mem = s.mem := rfl
@[simp] theorem State.answer_upsets (s : State) (st : Nat) (bs : List Byte) : (s.answer st bs).upsets = s.upsets := rfl
@[simp] theorem State.answer_t2Gran (s : State) (st : Nat) (bs : List Byte) : (s.answer st bs).t2Gran = s.t2Gran := rfl
@[simp] theorem State.answer_t2Up (s : State) (st : Nat) (bs : List Byte) : (s.answer st bs).t2Up = s.t2Up := rfl
@[simp] theorem State.answer_gates (s : State) (st : Nat) (bs : List Byte) : (s.answer st bs).gates = s.gates := rfl
@[simp] theorem State.answer_heldEvents (s : State) (st : Nat) (bs : List Byte) : (s.answer st bs).heldEvents = s.heldEvents := rfl
@[simp] theorem State.answer_dropCount (s : State) (st : Nat) (bs : List Byte) : (s.answer st bs).dropCount = s.dropCount := rfl
@[simp] theorem State.answer_dropSev (s : State) (st : Nat) (bs : List Byte) : (s.answer st bs).dropSev = s.dropSev := rfl
@[simp] theorem State.answer_quires (s : State) (st : Nat) (bs : List Byte) : (s.answer st bs).quires = s.quires := rfl
@[simp] theorem State.answer_scribes (s : State) (st : Nat) (bs : List Byte) : (s.answer st bs).scribes = s.scribes := rfl
@[simp] theorem State.answer_ctxs (s : State) (st : Nat) (bs : List Byte) : (s.answer st bs).ctxs = s.ctxs := rfl
@[simp] theorem State.answer_sheets (s : State) (st : Nat) (bs : List Byte) : (s.answer st bs).sheets = s.sheets := rfl
@[simp] theorem State.answer_tierCmds (s : State) (st : Nat) (bs : List Byte) : (s.answer st bs).tierCmds = s.tierCmds := rfl
@[simp] theorem State.answer_moves (s : State) (st : Nat) (bs : List Byte) : (s.answer st bs).moves = s.moves := rfl
@[simp] theorem State.answer_freeing (s : State) (st : Nat) (bs : List Byte) : (s.answer st bs).freeing = s.freeing := rfl
@[simp] theorem State.answer_hands (s : State) (st : Nat) (bs : List Byte) : (s.answer st bs).hands = s.hands := rfl
@[simp] theorem State.answer_dma (s : State) (st : Nat) (bs : List Byte) : (s.answer st bs).dma = s.dma := rfl
@[simp] theorem State.answer_ringBad (s : State) (st : Nat) (bs : List Byte) : (s.answer st bs).ringBad = s.ringBad := rfl
@[simp] theorem State.answer_rulSrc (s : State) (st : Nat) (bs : List Byte) : (s.answer st bs).rulSrc = s.rulSrc := rfl
@[simp] theorem State.answer_rulHome (s : State) (st : Nat) (bs : List Byte) : (s.answer st bs).rulHome = s.rulHome := rfl
@[simp] theorem State.answer_blotWin (s : State) (st : Nat) (bs : List Byte) : (s.answer st bs).blotWin = s.blotWin := rfl
@[simp] theorem State.answer_windows (s : State) (st : Nat) (bs : List Byte) : (s.answer st bs).windows = s.windows := rfl
@[simp] theorem State.answer_closing (s : State) (st : Nat) (bs : List Byte) : (s.answer st bs).closing = s.closing := rfl
@[simp] theorem State.answer_peers (s : State) (st : Nat) (bs : List Byte) : (s.answer st bs).peers = s.peers := rfl
@[simp] theorem State.answer_outOps (s : State) (st : Nat) (bs : List Byte) : (s.answer st bs).outOps = s.outOps := rfl
@[simp] theorem State.answer_rtagNext (s : State) (st : Nat) (bs : List Byte) : (s.answer st bs).rtagNext = s.rtagNext := rfl
@[simp] theorem State.answer_heldFlags (s : State) (st : Nat) (bs : List Byte) : (s.answer st bs).heldFlags = s.heldFlags := rfl
@[simp] theorem State.answer_heldPkts (s : State) (st : Nat) (bs : List Byte) : (s.answer st bs).heldPkts = s.heldPkts := rfl
@[simp] theorem State.answer_gathers (s : State) (st : Nat) (bs : List Byte) : (s.answer st bs).gathers = s.gathers := rfl
@[simp] theorem State.answer_bulks (s : State) (st : Nat) (bs : List Byte) : (s.answer st bs).bulks = s.bulks := rfl
@[simp] theorem State.answer_quillDone (s : State) (st : Nat) (bs : List Byte) : (s.answer st bs).quillDone = s.quillDone := rfl
@[simp] theorem State.answer_ports (s : State) (st : Nat) (bs : List Byte) : (s.answer st bs).ports = s.ports := rfl
@[simp] theorem State.answer_ringMap (s : State) (st : Nat) (bs : List Byte) : (s.answer st bs).ringMap = s.ringMap := rfl
@[simp] theorem State.answer_tx (s : State) (st : Nat) (bs : List Byte) : (s.answer st bs).tx = s.tx := rfl
@[simp] theorem State.answer_svc (s : State) (st : Nat) (bs : List Byte) : (s.answer st bs).svc = s.svc := rfl
@[simp] theorem State.answer_arrived (s : State) (st : Nat) (bs : List Byte) : (s.answer st bs).arrived = s.arrived := rfl
@[simp] theorem State.answer_time (s : State) (st : Nat) (bs : List Byte) : (s.answer st bs).time = s.time := rfl
@[simp] theorem State.answer_base (s : State) (st : Nat) (bs : List Byte) : (s.answer st bs).base = s.base := rfl
@[simp] theorem State.answer_power (s : State) (st : Nat) (bs : List Byte) : (s.answer st bs).power = s.power := rfl
@[simp] theorem State.answer_start (s : State) (st : Nat) (bs : List Byte) : (s.answer st bs).start = s.start := rfl
@[simp] theorem State.answer_sec (s : State) (st : Nat) (bs : List Byte) : (s.answer st bs).sec = s.sec := rfl
@[simp] theorem State.answer_selftest (s : State) (st : Nat) (bs : List Byte) : (s.answer st bs).selftest = s.selftest := rfl
@[simp] theorem State.answer_calib (s : State) (st : Nat) (bs : List Byte) : (s.answer st bs).calib = s.calib := rfl
@[simp] theorem State.answer_calFails (s : State) (st : Nat) (bs : List Byte) : (s.answer st bs).calFails = s.calFails := rfl
@[simp] theorem State.answer_mirror (s : State) (st : Nat) (bs : List Byte) : (s.answer st bs).mirror = s.mirror := rfl
@[simp] theorem State.answer_requests (s : State) (st : Nat) (bs : List Byte) : (s.answer st bs).requests = s.requests := rfl
@[simp] theorem State.answer_pendFail (s : State) (st : Nat) (bs : List Byte) : (s.answer st bs).pendFail = s.pendFail := rfl
@[simp] theorem State.answer_egStall (s : State) (st : Nat) (bs : List Byte) : (s.answer st bs).egStall = s.egStall := rfl
@[simp] theorem State.answer_strapPins (s : State) (st : Nat) (bs : List Byte) : (s.answer st bs).strapPins = s.strapPins := rfl
@[simp] theorem State.answer_failing (s : State) (st : Nat) (bs : List Byte) : (s.answer st bs).failing = s.failing := rfl
@[simp] theorem State.answer_badEntries (s : State) (st : Nat) (bs : List Byte) : (s.answer st bs).badEntries = s.badEntries := rfl
@[simp] theorem State.answer_posts (s : State) (st : Nat) (bs : List Byte) : (s.answer st bs).posts = s.posts := rfl
@[simp] theorem State.answer_orders (s : State) (st : Nat) (bs : List Byte) : (s.answer st bs).orders = s.orders := rfl
@[simp] theorem State.answer_records (s : State) (st : Nat) (bs : List Byte) : (s.answer st bs).records = s.records := rfl
@[simp] theorem State.answer_answers (s : State) (st : Nat) (bs : List Byte) :
    (s.answer st bs).answers = s.answers ++ [(st, bs)] := rfl

@[simp] theorem State.zero_pending (s : State) (a n : Nat) : (s.zero a n).pending = s.pending := rfl
@[simp] theorem State.zero_draws (s : State) (a n : Nat) : (s.zero a n).draws = s.draws := rfl
@[simp] theorem State.zero_powered (s : State) (a n : Nat) : (s.zero a n).powered = s.powered := rfl
@[simp] theorem State.zero_chip (s : State) (a n : Nat) : (s.zero a n).chip = s.chip := rfl
@[simp] theorem State.zero_straps (s : State) (a n : Nat) : (s.zero a n).straps = s.straps := rfl
@[simp] theorem State.zero_feed (s : State) (a n : Nat) : (s.zero a n).feed = s.feed := rfl
@[simp] theorem State.zero_csr (s : State) (a n : Nat) : (s.zero a n).csr = s.csr := rfl
@[simp] theorem State.zero_latched (s : State) (a n : Nat) : (s.zero a n).latched = s.latched := rfl
@[simp] theorem State.zero_t2Gran (s : State) (a n : Nat) : (s.zero a n).t2Gran = s.t2Gran := rfl
@[simp] theorem State.zero_t2Up (s : State) (a n : Nat) : (s.zero a n).t2Up = s.t2Up := rfl
@[simp] theorem State.zero_gates (s : State) (a n : Nat) : (s.zero a n).gates = s.gates := rfl
@[simp] theorem State.zero_heldEvents (s : State) (a n : Nat) : (s.zero a n).heldEvents = s.heldEvents := rfl
@[simp] theorem State.zero_dropCount (s : State) (a n : Nat) : (s.zero a n).dropCount = s.dropCount := rfl
@[simp] theorem State.zero_dropSev (s : State) (a n : Nat) : (s.zero a n).dropSev = s.dropSev := rfl
@[simp] theorem State.zero_quires (s : State) (a n : Nat) : (s.zero a n).quires = s.quires := rfl
@[simp] theorem State.zero_scribes (s : State) (a n : Nat) : (s.zero a n).scribes = s.scribes := rfl
@[simp] theorem State.zero_ctxs (s : State) (a n : Nat) : (s.zero a n).ctxs = s.ctxs := rfl
@[simp] theorem State.zero_sheets (s : State) (a n : Nat) : (s.zero a n).sheets = s.sheets := rfl
@[simp] theorem State.zero_tierCmds (s : State) (a n : Nat) : (s.zero a n).tierCmds = s.tierCmds := rfl
@[simp] theorem State.zero_moves (s : State) (a n : Nat) : (s.zero a n).moves = s.moves := rfl
@[simp] theorem State.zero_freeing (s : State) (a n : Nat) : (s.zero a n).freeing = s.freeing := rfl
@[simp] theorem State.zero_hands (s : State) (a n : Nat) : (s.zero a n).hands = s.hands := rfl
@[simp] theorem State.zero_dma (s : State) (a n : Nat) : (s.zero a n).dma = s.dma := rfl
@[simp] theorem State.zero_ringBad (s : State) (a n : Nat) : (s.zero a n).ringBad = s.ringBad := rfl
@[simp] theorem State.zero_rulSrc (s : State) (a n : Nat) : (s.zero a n).rulSrc = s.rulSrc := rfl
@[simp] theorem State.zero_rulHome (s : State) (a n : Nat) : (s.zero a n).rulHome = s.rulHome := rfl
@[simp] theorem State.zero_blotWin (s : State) (a n : Nat) : (s.zero a n).blotWin = s.blotWin := rfl
@[simp] theorem State.zero_windows (s : State) (a n : Nat) : (s.zero a n).windows = s.windows := rfl
@[simp] theorem State.zero_closing (s : State) (a n : Nat) : (s.zero a n).closing = s.closing := rfl
@[simp] theorem State.zero_peers (s : State) (a n : Nat) : (s.zero a n).peers = s.peers := rfl
@[simp] theorem State.zero_outOps (s : State) (a n : Nat) : (s.zero a n).outOps = s.outOps := rfl
@[simp] theorem State.zero_rtagNext (s : State) (a n : Nat) : (s.zero a n).rtagNext = s.rtagNext := rfl
@[simp] theorem State.zero_heldFlags (s : State) (a n : Nat) : (s.zero a n).heldFlags = s.heldFlags := rfl
@[simp] theorem State.zero_heldPkts (s : State) (a n : Nat) : (s.zero a n).heldPkts = s.heldPkts := rfl
@[simp] theorem State.zero_gathers (s : State) (a n : Nat) : (s.zero a n).gathers = s.gathers := rfl
@[simp] theorem State.zero_bulks (s : State) (a n : Nat) : (s.zero a n).bulks = s.bulks := rfl
@[simp] theorem State.zero_quillDone (s : State) (a n : Nat) : (s.zero a n).quillDone = s.quillDone := rfl
@[simp] theorem State.zero_ports (s : State) (a n : Nat) : (s.zero a n).ports = s.ports := rfl
@[simp] theorem State.zero_ringMap (s : State) (a n : Nat) : (s.zero a n).ringMap = s.ringMap := rfl
@[simp] theorem State.zero_tx (s : State) (a n : Nat) : (s.zero a n).tx = s.tx := rfl
@[simp] theorem State.zero_svc (s : State) (a n : Nat) : (s.zero a n).svc = s.svc := rfl
@[simp] theorem State.zero_answers (s : State) (a n : Nat) : (s.zero a n).answers = s.answers := rfl
@[simp] theorem State.zero_arrived (s : State) (a n : Nat) : (s.zero a n).arrived = s.arrived := rfl
@[simp] theorem State.zero_time (s : State) (a n : Nat) : (s.zero a n).time = s.time := rfl
@[simp] theorem State.zero_base (s : State) (a n : Nat) : (s.zero a n).base = s.base := rfl
@[simp] theorem State.zero_power (s : State) (a n : Nat) : (s.zero a n).power = s.power := rfl
@[simp] theorem State.zero_start (s : State) (a n : Nat) : (s.zero a n).start = s.start := rfl
@[simp] theorem State.zero_sec (s : State) (a n : Nat) : (s.zero a n).sec = s.sec := rfl
@[simp] theorem State.zero_selftest (s : State) (a n : Nat) : (s.zero a n).selftest = s.selftest := rfl
@[simp] theorem State.zero_calib (s : State) (a n : Nat) : (s.zero a n).calib = s.calib := rfl
@[simp] theorem State.zero_calFails (s : State) (a n : Nat) : (s.zero a n).calFails = s.calFails := rfl
@[simp] theorem State.zero_mirror (s : State) (a n : Nat) : (s.zero a n).mirror = s.mirror := rfl
@[simp] theorem State.zero_requests (s : State) (a n : Nat) : (s.zero a n).requests = s.requests := rfl
@[simp] theorem State.zero_pendFail (s : State) (a n : Nat) : (s.zero a n).pendFail = s.pendFail := rfl
@[simp] theorem State.zero_egStall (s : State) (a n : Nat) : (s.zero a n).egStall = s.egStall := rfl
@[simp] theorem State.zero_strapPins (s : State) (a n : Nat) : (s.zero a n).strapPins = s.strapPins := rfl
@[simp] theorem State.zero_failing (s : State) (a n : Nat) : (s.zero a n).failing = s.failing := rfl
@[simp] theorem State.zero_badEntries (s : State) (a n : Nat) : (s.zero a n).badEntries = s.badEntries := rfl
@[simp] theorem State.zero_posts (s : State) (a n : Nat) : (s.zero a n).posts = s.posts := rfl
@[simp] theorem State.zero_orders (s : State) (a n : Nat) : (s.zero a n).orders = s.orders := rfl
@[simp] theorem State.zero_records (s : State) (a n : Nat) : (s.zero a n).records = s.records := rfl

@[simp] theorem State.setEntry_pending (s : State) (g e : Nat) : (s.setEntry g e).pending = s.pending := rfl
@[simp] theorem State.setEntry_draws (s : State) (g e : Nat) : (s.setEntry g e).draws = s.draws := rfl
@[simp] theorem State.setEntry_powered (s : State) (g e : Nat) : (s.setEntry g e).powered = s.powered := rfl
@[simp] theorem State.setEntry_chip (s : State) (g e : Nat) : (s.setEntry g e).chip = s.chip := rfl
@[simp] theorem State.setEntry_straps (s : State) (g e : Nat) : (s.setEntry g e).straps = s.straps := rfl
@[simp] theorem State.setEntry_feed (s : State) (g e : Nat) : (s.setEntry g e).feed = s.feed := rfl
@[simp] theorem State.setEntry_csr (s : State) (g e : Nat) : (s.setEntry g e).csr = s.csr := rfl
@[simp] theorem State.setEntry_latched (s : State) (g e : Nat) : (s.setEntry g e).latched = s.latched := rfl
@[simp] theorem State.setEntry_upsets (s : State) (g e : Nat) : (s.setEntry g e).upsets = s.upsets := rfl
@[simp] theorem State.setEntry_t2Gran (s : State) (g e : Nat) : (s.setEntry g e).t2Gran = s.t2Gran := rfl
@[simp] theorem State.setEntry_t2Up (s : State) (g e : Nat) : (s.setEntry g e).t2Up = s.t2Up := rfl
@[simp] theorem State.setEntry_gates (s : State) (g e : Nat) : (s.setEntry g e).gates = s.gates := rfl
@[simp] theorem State.setEntry_heldEvents (s : State) (g e : Nat) : (s.setEntry g e).heldEvents = s.heldEvents := rfl
@[simp] theorem State.setEntry_dropCount (s : State) (g e : Nat) : (s.setEntry g e).dropCount = s.dropCount := rfl
@[simp] theorem State.setEntry_dropSev (s : State) (g e : Nat) : (s.setEntry g e).dropSev = s.dropSev := rfl
@[simp] theorem State.setEntry_quires (s : State) (g e : Nat) : (s.setEntry g e).quires = s.quires := rfl
@[simp] theorem State.setEntry_scribes (s : State) (g e : Nat) : (s.setEntry g e).scribes = s.scribes := rfl
@[simp] theorem State.setEntry_ctxs (s : State) (g e : Nat) : (s.setEntry g e).ctxs = s.ctxs := rfl
@[simp] theorem State.setEntry_sheets (s : State) (g e : Nat) : (s.setEntry g e).sheets = s.sheets := rfl
@[simp] theorem State.setEntry_tierCmds (s : State) (g e : Nat) : (s.setEntry g e).tierCmds = s.tierCmds := rfl
@[simp] theorem State.setEntry_moves (s : State) (g e : Nat) : (s.setEntry g e).moves = s.moves := rfl
@[simp] theorem State.setEntry_freeing (s : State) (g e : Nat) : (s.setEntry g e).freeing = s.freeing := rfl
@[simp] theorem State.setEntry_hands (s : State) (g e : Nat) : (s.setEntry g e).hands = s.hands := rfl
@[simp] theorem State.setEntry_dma (s : State) (g e : Nat) : (s.setEntry g e).dma = s.dma := rfl
@[simp] theorem State.setEntry_ringBad (s : State) (g e : Nat) : (s.setEntry g e).ringBad = s.ringBad := rfl
@[simp] theorem State.setEntry_rulSrc (s : State) (g e : Nat) : (s.setEntry g e).rulSrc = s.rulSrc := rfl
@[simp] theorem State.setEntry_rulHome (s : State) (g e : Nat) : (s.setEntry g e).rulHome = s.rulHome := rfl
@[simp] theorem State.setEntry_blotWin (s : State) (g e : Nat) : (s.setEntry g e).blotWin = s.blotWin := rfl
@[simp] theorem State.setEntry_windows (s : State) (g e : Nat) : (s.setEntry g e).windows = s.windows := rfl
@[simp] theorem State.setEntry_closing (s : State) (g e : Nat) : (s.setEntry g e).closing = s.closing := rfl
@[simp] theorem State.setEntry_peers (s : State) (g e : Nat) : (s.setEntry g e).peers = s.peers := rfl
@[simp] theorem State.setEntry_outOps (s : State) (g e : Nat) : (s.setEntry g e).outOps = s.outOps := rfl
@[simp] theorem State.setEntry_rtagNext (s : State) (g e : Nat) : (s.setEntry g e).rtagNext = s.rtagNext := rfl
@[simp] theorem State.setEntry_heldFlags (s : State) (g e : Nat) : (s.setEntry g e).heldFlags = s.heldFlags := rfl
@[simp] theorem State.setEntry_heldPkts (s : State) (g e : Nat) : (s.setEntry g e).heldPkts = s.heldPkts := rfl
@[simp] theorem State.setEntry_gathers (s : State) (g e : Nat) : (s.setEntry g e).gathers = s.gathers := rfl
@[simp] theorem State.setEntry_bulks (s : State) (g e : Nat) : (s.setEntry g e).bulks = s.bulks := rfl
@[simp] theorem State.setEntry_quillDone (s : State) (g e : Nat) : (s.setEntry g e).quillDone = s.quillDone := rfl
@[simp] theorem State.setEntry_ports (s : State) (g e : Nat) : (s.setEntry g e).ports = s.ports := rfl
@[simp] theorem State.setEntry_ringMap (s : State) (g e : Nat) : (s.setEntry g e).ringMap = s.ringMap := rfl
@[simp] theorem State.setEntry_tx (s : State) (g e : Nat) : (s.setEntry g e).tx = s.tx := rfl
@[simp] theorem State.setEntry_svc (s : State) (g e : Nat) : (s.setEntry g e).svc = s.svc := rfl
@[simp] theorem State.setEntry_answers (s : State) (g e : Nat) : (s.setEntry g e).answers = s.answers := rfl
@[simp] theorem State.setEntry_arrived (s : State) (g e : Nat) : (s.setEntry g e).arrived = s.arrived := rfl
@[simp] theorem State.setEntry_time (s : State) (g e : Nat) : (s.setEntry g e).time = s.time := rfl
@[simp] theorem State.setEntry_base (s : State) (g e : Nat) : (s.setEntry g e).base = s.base := rfl
@[simp] theorem State.setEntry_power (s : State) (g e : Nat) : (s.setEntry g e).power = s.power := rfl
@[simp] theorem State.setEntry_start (s : State) (g e : Nat) : (s.setEntry g e).start = s.start := rfl
@[simp] theorem State.setEntry_sec (s : State) (g e : Nat) : (s.setEntry g e).sec = s.sec := rfl
@[simp] theorem State.setEntry_selftest (s : State) (g e : Nat) : (s.setEntry g e).selftest = s.selftest := rfl
@[simp] theorem State.setEntry_calib (s : State) (g e : Nat) : (s.setEntry g e).calib = s.calib := rfl
@[simp] theorem State.setEntry_calFails (s : State) (g e : Nat) : (s.setEntry g e).calFails = s.calFails := rfl
@[simp] theorem State.setEntry_mirror (s : State) (g e : Nat) : (s.setEntry g e).mirror = s.mirror := rfl
@[simp] theorem State.setEntry_requests (s : State) (g e : Nat) : (s.setEntry g e).requests = s.requests := rfl
@[simp] theorem State.setEntry_pendFail (s : State) (g e : Nat) : (s.setEntry g e).pendFail = s.pendFail := rfl
@[simp] theorem State.setEntry_egStall (s : State) (g e : Nat) : (s.setEntry g e).egStall = s.egStall := rfl
@[simp] theorem State.setEntry_strapPins (s : State) (g e : Nat) : (s.setEntry g e).strapPins = s.strapPins := rfl
@[simp] theorem State.setEntry_failing (s : State) (g e : Nat) : (s.setEntry g e).failing = s.failing := rfl
@[simp] theorem State.setEntry_badEntries (s : State) (g e : Nat) : (s.setEntry g e).badEntries = s.badEntries := rfl
@[simp] theorem State.setEntry_posts (s : State) (g e : Nat) : (s.setEntry g e).posts = s.posts := rfl
@[simp] theorem State.setEntry_orders (s : State) (g e : Nat) : (s.setEntry g e).orders = s.orders := rfl
@[simp] theorem State.setEntry_records (s : State) (g e : Nat) : (s.setEntry g e).records = s.records := rfl

@[simp] theorem State.setTouch_pending (s : State) (g : Nat) : (s.setTouch g).pending = s.pending := rfl
@[simp] theorem State.setTouch_draws (s : State) (g : Nat) : (s.setTouch g).draws = s.draws := rfl
@[simp] theorem State.setTouch_powered (s : State) (g : Nat) : (s.setTouch g).powered = s.powered := rfl
@[simp] theorem State.setTouch_chip (s : State) (g : Nat) : (s.setTouch g).chip = s.chip := rfl
@[simp] theorem State.setTouch_straps (s : State) (g : Nat) : (s.setTouch g).straps = s.straps := rfl
@[simp] theorem State.setTouch_feed (s : State) (g : Nat) : (s.setTouch g).feed = s.feed := rfl
@[simp] theorem State.setTouch_csr (s : State) (g : Nat) : (s.setTouch g).csr = s.csr := rfl
@[simp] theorem State.setTouch_latched (s : State) (g : Nat) : (s.setTouch g).latched = s.latched := rfl
@[simp] theorem State.setTouch_upsets (s : State) (g : Nat) : (s.setTouch g).upsets = s.upsets := rfl
@[simp] theorem State.setTouch_t2Gran (s : State) (g : Nat) : (s.setTouch g).t2Gran = s.t2Gran := rfl
@[simp] theorem State.setTouch_t2Up (s : State) (g : Nat) : (s.setTouch g).t2Up = s.t2Up := rfl
@[simp] theorem State.setTouch_gates (s : State) (g : Nat) : (s.setTouch g).gates = s.gates := rfl
@[simp] theorem State.setTouch_heldEvents (s : State) (g : Nat) : (s.setTouch g).heldEvents = s.heldEvents := rfl
@[simp] theorem State.setTouch_dropCount (s : State) (g : Nat) : (s.setTouch g).dropCount = s.dropCount := rfl
@[simp] theorem State.setTouch_dropSev (s : State) (g : Nat) : (s.setTouch g).dropSev = s.dropSev := rfl
@[simp] theorem State.setTouch_quires (s : State) (g : Nat) : (s.setTouch g).quires = s.quires := rfl
@[simp] theorem State.setTouch_scribes (s : State) (g : Nat) : (s.setTouch g).scribes = s.scribes := rfl
@[simp] theorem State.setTouch_ctxs (s : State) (g : Nat) : (s.setTouch g).ctxs = s.ctxs := rfl
@[simp] theorem State.setTouch_sheets (s : State) (g : Nat) : (s.setTouch g).sheets = s.sheets := rfl
@[simp] theorem State.setTouch_tierCmds (s : State) (g : Nat) : (s.setTouch g).tierCmds = s.tierCmds := rfl
@[simp] theorem State.setTouch_moves (s : State) (g : Nat) : (s.setTouch g).moves = s.moves := rfl
@[simp] theorem State.setTouch_freeing (s : State) (g : Nat) : (s.setTouch g).freeing = s.freeing := rfl
@[simp] theorem State.setTouch_hands (s : State) (g : Nat) : (s.setTouch g).hands = s.hands := rfl
@[simp] theorem State.setTouch_dma (s : State) (g : Nat) : (s.setTouch g).dma = s.dma := rfl
@[simp] theorem State.setTouch_ringBad (s : State) (g : Nat) : (s.setTouch g).ringBad = s.ringBad := rfl
@[simp] theorem State.setTouch_rulSrc (s : State) (g : Nat) : (s.setTouch g).rulSrc = s.rulSrc := rfl
@[simp] theorem State.setTouch_rulHome (s : State) (g : Nat) : (s.setTouch g).rulHome = s.rulHome := rfl
@[simp] theorem State.setTouch_blotWin (s : State) (g : Nat) : (s.setTouch g).blotWin = s.blotWin := rfl
@[simp] theorem State.setTouch_windows (s : State) (g : Nat) : (s.setTouch g).windows = s.windows := rfl
@[simp] theorem State.setTouch_closing (s : State) (g : Nat) : (s.setTouch g).closing = s.closing := rfl
@[simp] theorem State.setTouch_peers (s : State) (g : Nat) : (s.setTouch g).peers = s.peers := rfl
@[simp] theorem State.setTouch_outOps (s : State) (g : Nat) : (s.setTouch g).outOps = s.outOps := rfl
@[simp] theorem State.setTouch_rtagNext (s : State) (g : Nat) : (s.setTouch g).rtagNext = s.rtagNext := rfl
@[simp] theorem State.setTouch_heldFlags (s : State) (g : Nat) : (s.setTouch g).heldFlags = s.heldFlags := rfl
@[simp] theorem State.setTouch_heldPkts (s : State) (g : Nat) : (s.setTouch g).heldPkts = s.heldPkts := rfl
@[simp] theorem State.setTouch_gathers (s : State) (g : Nat) : (s.setTouch g).gathers = s.gathers := rfl
@[simp] theorem State.setTouch_bulks (s : State) (g : Nat) : (s.setTouch g).bulks = s.bulks := rfl
@[simp] theorem State.setTouch_quillDone (s : State) (g : Nat) : (s.setTouch g).quillDone = s.quillDone := rfl
@[simp] theorem State.setTouch_ports (s : State) (g : Nat) : (s.setTouch g).ports = s.ports := rfl
@[simp] theorem State.setTouch_ringMap (s : State) (g : Nat) : (s.setTouch g).ringMap = s.ringMap := rfl
@[simp] theorem State.setTouch_tx (s : State) (g : Nat) : (s.setTouch g).tx = s.tx := rfl
@[simp] theorem State.setTouch_svc (s : State) (g : Nat) : (s.setTouch g).svc = s.svc := rfl
@[simp] theorem State.setTouch_answers (s : State) (g : Nat) : (s.setTouch g).answers = s.answers := rfl
@[simp] theorem State.setTouch_arrived (s : State) (g : Nat) : (s.setTouch g).arrived = s.arrived := rfl
@[simp] theorem State.setTouch_time (s : State) (g : Nat) : (s.setTouch g).time = s.time := rfl
@[simp] theorem State.setTouch_base (s : State) (g : Nat) : (s.setTouch g).base = s.base := rfl
@[simp] theorem State.setTouch_power (s : State) (g : Nat) : (s.setTouch g).power = s.power := rfl
@[simp] theorem State.setTouch_start (s : State) (g : Nat) : (s.setTouch g).start = s.start := rfl
@[simp] theorem State.setTouch_sec (s : State) (g : Nat) : (s.setTouch g).sec = s.sec := rfl
@[simp] theorem State.setTouch_selftest (s : State) (g : Nat) : (s.setTouch g).selftest = s.selftest := rfl
@[simp] theorem State.setTouch_calib (s : State) (g : Nat) : (s.setTouch g).calib = s.calib := rfl
@[simp] theorem State.setTouch_calFails (s : State) (g : Nat) : (s.setTouch g).calFails = s.calFails := rfl
@[simp] theorem State.setTouch_mirror (s : State) (g : Nat) : (s.setTouch g).mirror = s.mirror := rfl
@[simp] theorem State.setTouch_requests (s : State) (g : Nat) : (s.setTouch g).requests = s.requests := rfl
@[simp] theorem State.setTouch_pendFail (s : State) (g : Nat) : (s.setTouch g).pendFail = s.pendFail := rfl
@[simp] theorem State.setTouch_egStall (s : State) (g : Nat) : (s.setTouch g).egStall = s.egStall := rfl
@[simp] theorem State.setTouch_strapPins (s : State) (g : Nat) : (s.setTouch g).strapPins = s.strapPins := rfl
@[simp] theorem State.setTouch_failing (s : State) (g : Nat) : (s.setTouch g).failing = s.failing := rfl
@[simp] theorem State.setTouch_badEntries (s : State) (g : Nat) : (s.setTouch g).badEntries = s.badEntries := rfl
@[simp] theorem State.setTouch_posts (s : State) (g : Nat) : (s.setTouch g).posts = s.posts := rfl
@[simp] theorem State.setTouch_orders (s : State) (g : Nat) : (s.setTouch g).orders = s.orders := rfl
@[simp] theorem State.setTouch_records (s : State) (g : Nat) : (s.setTouch g).records = s.records := rfl

@[simp] theorem State.clearTouch_pending (s : State) (g : Nat) : (s.clearTouch g).pending = s.pending := rfl
@[simp] theorem State.clearTouch_draws (s : State) (g : Nat) : (s.clearTouch g).draws = s.draws := rfl
@[simp] theorem State.clearTouch_powered (s : State) (g : Nat) : (s.clearTouch g).powered = s.powered := rfl
@[simp] theorem State.clearTouch_chip (s : State) (g : Nat) : (s.clearTouch g).chip = s.chip := rfl
@[simp] theorem State.clearTouch_straps (s : State) (g : Nat) : (s.clearTouch g).straps = s.straps := rfl
@[simp] theorem State.clearTouch_feed (s : State) (g : Nat) : (s.clearTouch g).feed = s.feed := rfl
@[simp] theorem State.clearTouch_csr (s : State) (g : Nat) : (s.clearTouch g).csr = s.csr := rfl
@[simp] theorem State.clearTouch_latched (s : State) (g : Nat) : (s.clearTouch g).latched = s.latched := rfl
@[simp] theorem State.clearTouch_upsets (s : State) (g : Nat) : (s.clearTouch g).upsets = s.upsets := rfl
@[simp] theorem State.clearTouch_t2Gran (s : State) (g : Nat) : (s.clearTouch g).t2Gran = s.t2Gran := rfl
@[simp] theorem State.clearTouch_t2Up (s : State) (g : Nat) : (s.clearTouch g).t2Up = s.t2Up := rfl
@[simp] theorem State.clearTouch_gates (s : State) (g : Nat) : (s.clearTouch g).gates = s.gates := rfl
@[simp] theorem State.clearTouch_heldEvents (s : State) (g : Nat) : (s.clearTouch g).heldEvents = s.heldEvents := rfl
@[simp] theorem State.clearTouch_dropCount (s : State) (g : Nat) : (s.clearTouch g).dropCount = s.dropCount := rfl
@[simp] theorem State.clearTouch_dropSev (s : State) (g : Nat) : (s.clearTouch g).dropSev = s.dropSev := rfl
@[simp] theorem State.clearTouch_quires (s : State) (g : Nat) : (s.clearTouch g).quires = s.quires := rfl
@[simp] theorem State.clearTouch_scribes (s : State) (g : Nat) : (s.clearTouch g).scribes = s.scribes := rfl
@[simp] theorem State.clearTouch_ctxs (s : State) (g : Nat) : (s.clearTouch g).ctxs = s.ctxs := rfl
@[simp] theorem State.clearTouch_sheets (s : State) (g : Nat) : (s.clearTouch g).sheets = s.sheets := rfl
@[simp] theorem State.clearTouch_tierCmds (s : State) (g : Nat) : (s.clearTouch g).tierCmds = s.tierCmds := rfl
@[simp] theorem State.clearTouch_moves (s : State) (g : Nat) : (s.clearTouch g).moves = s.moves := rfl
@[simp] theorem State.clearTouch_freeing (s : State) (g : Nat) : (s.clearTouch g).freeing = s.freeing := rfl
@[simp] theorem State.clearTouch_hands (s : State) (g : Nat) : (s.clearTouch g).hands = s.hands := rfl
@[simp] theorem State.clearTouch_dma (s : State) (g : Nat) : (s.clearTouch g).dma = s.dma := rfl
@[simp] theorem State.clearTouch_ringBad (s : State) (g : Nat) : (s.clearTouch g).ringBad = s.ringBad := rfl
@[simp] theorem State.clearTouch_rulSrc (s : State) (g : Nat) : (s.clearTouch g).rulSrc = s.rulSrc := rfl
@[simp] theorem State.clearTouch_rulHome (s : State) (g : Nat) : (s.clearTouch g).rulHome = s.rulHome := rfl
@[simp] theorem State.clearTouch_blotWin (s : State) (g : Nat) : (s.clearTouch g).blotWin = s.blotWin := rfl
@[simp] theorem State.clearTouch_windows (s : State) (g : Nat) : (s.clearTouch g).windows = s.windows := rfl
@[simp] theorem State.clearTouch_closing (s : State) (g : Nat) : (s.clearTouch g).closing = s.closing := rfl
@[simp] theorem State.clearTouch_peers (s : State) (g : Nat) : (s.clearTouch g).peers = s.peers := rfl
@[simp] theorem State.clearTouch_outOps (s : State) (g : Nat) : (s.clearTouch g).outOps = s.outOps := rfl
@[simp] theorem State.clearTouch_rtagNext (s : State) (g : Nat) : (s.clearTouch g).rtagNext = s.rtagNext := rfl
@[simp] theorem State.clearTouch_heldFlags (s : State) (g : Nat) : (s.clearTouch g).heldFlags = s.heldFlags := rfl
@[simp] theorem State.clearTouch_heldPkts (s : State) (g : Nat) : (s.clearTouch g).heldPkts = s.heldPkts := rfl
@[simp] theorem State.clearTouch_gathers (s : State) (g : Nat) : (s.clearTouch g).gathers = s.gathers := rfl
@[simp] theorem State.clearTouch_bulks (s : State) (g : Nat) : (s.clearTouch g).bulks = s.bulks := rfl
@[simp] theorem State.clearTouch_quillDone (s : State) (g : Nat) : (s.clearTouch g).quillDone = s.quillDone := rfl
@[simp] theorem State.clearTouch_ports (s : State) (g : Nat) : (s.clearTouch g).ports = s.ports := rfl
@[simp] theorem State.clearTouch_ringMap (s : State) (g : Nat) : (s.clearTouch g).ringMap = s.ringMap := rfl
@[simp] theorem State.clearTouch_tx (s : State) (g : Nat) : (s.clearTouch g).tx = s.tx := rfl
@[simp] theorem State.clearTouch_svc (s : State) (g : Nat) : (s.clearTouch g).svc = s.svc := rfl
@[simp] theorem State.clearTouch_answers (s : State) (g : Nat) : (s.clearTouch g).answers = s.answers := rfl
@[simp] theorem State.clearTouch_arrived (s : State) (g : Nat) : (s.clearTouch g).arrived = s.arrived := rfl
@[simp] theorem State.clearTouch_time (s : State) (g : Nat) : (s.clearTouch g).time = s.time := rfl
@[simp] theorem State.clearTouch_base (s : State) (g : Nat) : (s.clearTouch g).base = s.base := rfl
@[simp] theorem State.clearTouch_power (s : State) (g : Nat) : (s.clearTouch g).power = s.power := rfl
@[simp] theorem State.clearTouch_start (s : State) (g : Nat) : (s.clearTouch g).start = s.start := rfl
@[simp] theorem State.clearTouch_sec (s : State) (g : Nat) : (s.clearTouch g).sec = s.sec := rfl
@[simp] theorem State.clearTouch_selftest (s : State) (g : Nat) : (s.clearTouch g).selftest = s.selftest := rfl
@[simp] theorem State.clearTouch_calib (s : State) (g : Nat) : (s.clearTouch g).calib = s.calib := rfl
@[simp] theorem State.clearTouch_calFails (s : State) (g : Nat) : (s.clearTouch g).calFails = s.calFails := rfl
@[simp] theorem State.clearTouch_mirror (s : State) (g : Nat) : (s.clearTouch g).mirror = s.mirror := rfl
@[simp] theorem State.clearTouch_requests (s : State) (g : Nat) : (s.clearTouch g).requests = s.requests := rfl
@[simp] theorem State.clearTouch_pendFail (s : State) (g : Nat) : (s.clearTouch g).pendFail = s.pendFail := rfl
@[simp] theorem State.clearTouch_egStall (s : State) (g : Nat) : (s.clearTouch g).egStall = s.egStall := rfl
@[simp] theorem State.clearTouch_strapPins (s : State) (g : Nat) : (s.clearTouch g).strapPins = s.strapPins := rfl
@[simp] theorem State.clearTouch_failing (s : State) (g : Nat) : (s.clearTouch g).failing = s.failing := rfl
@[simp] theorem State.clearTouch_badEntries (s : State) (g : Nat) : (s.clearTouch g).badEntries = s.badEntries := rfl
@[simp] theorem State.clearTouch_posts (s : State) (g : Nat) : (s.clearTouch g).posts = s.posts := rfl
@[simp] theorem State.clearTouch_orders (s : State) (g : Nat) : (s.clearTouch g).orders = s.orders := rfl
@[simp] theorem State.clearTouch_records (s : State) (g : Nat) : (s.clearTouch g).records = s.records := rfl

@[simp] theorem State.flashWrite_pending (s : State) (x : Nat) (bs : List Byte) : (s.flashWrite x bs).pending = s.pending := rfl
@[simp] theorem State.flashWrite_draws (s : State) (x : Nat) (bs : List Byte) : (s.flashWrite x bs).draws = s.draws := rfl
@[simp] theorem State.flashWrite_powered (s : State) (x : Nat) (bs : List Byte) : (s.flashWrite x bs).powered = s.powered := rfl
@[simp] theorem State.flashWrite_chip (s : State) (x : Nat) (bs : List Byte) : (s.flashWrite x bs).chip = s.chip := rfl
@[simp] theorem State.flashWrite_straps (s : State) (x : Nat) (bs : List Byte) : (s.flashWrite x bs).straps = s.straps := rfl
@[simp] theorem State.flashWrite_feed (s : State) (x : Nat) (bs : List Byte) : (s.flashWrite x bs).feed = s.feed := rfl
@[simp] theorem State.flashWrite_csr (s : State) (x : Nat) (bs : List Byte) : (s.flashWrite x bs).csr = s.csr := rfl
@[simp] theorem State.flashWrite_latched (s : State) (x : Nat) (bs : List Byte) : (s.flashWrite x bs).latched = s.latched := rfl
@[simp] theorem State.flashWrite_upsets (s : State) (x : Nat) (bs : List Byte) : (s.flashWrite x bs).upsets = s.upsets := rfl
@[simp] theorem State.flashWrite_t2Gran (s : State) (x : Nat) (bs : List Byte) : (s.flashWrite x bs).t2Gran = s.t2Gran := rfl
@[simp] theorem State.flashWrite_t2Up (s : State) (x : Nat) (bs : List Byte) : (s.flashWrite x bs).t2Up = s.t2Up := rfl
@[simp] theorem State.flashWrite_gates (s : State) (x : Nat) (bs : List Byte) : (s.flashWrite x bs).gates = s.gates := rfl
@[simp] theorem State.flashWrite_heldEvents (s : State) (x : Nat) (bs : List Byte) : (s.flashWrite x bs).heldEvents = s.heldEvents := rfl
@[simp] theorem State.flashWrite_dropCount (s : State) (x : Nat) (bs : List Byte) : (s.flashWrite x bs).dropCount = s.dropCount := rfl
@[simp] theorem State.flashWrite_dropSev (s : State) (x : Nat) (bs : List Byte) : (s.flashWrite x bs).dropSev = s.dropSev := rfl
@[simp] theorem State.flashWrite_quires (s : State) (x : Nat) (bs : List Byte) : (s.flashWrite x bs).quires = s.quires := rfl
@[simp] theorem State.flashWrite_scribes (s : State) (x : Nat) (bs : List Byte) : (s.flashWrite x bs).scribes = s.scribes := rfl
@[simp] theorem State.flashWrite_ctxs (s : State) (x : Nat) (bs : List Byte) : (s.flashWrite x bs).ctxs = s.ctxs := rfl
@[simp] theorem State.flashWrite_sheets (s : State) (x : Nat) (bs : List Byte) : (s.flashWrite x bs).sheets = s.sheets := rfl
@[simp] theorem State.flashWrite_tierCmds (s : State) (x : Nat) (bs : List Byte) : (s.flashWrite x bs).tierCmds = s.tierCmds := rfl
@[simp] theorem State.flashWrite_moves (s : State) (x : Nat) (bs : List Byte) : (s.flashWrite x bs).moves = s.moves := rfl
@[simp] theorem State.flashWrite_freeing (s : State) (x : Nat) (bs : List Byte) : (s.flashWrite x bs).freeing = s.freeing := rfl
@[simp] theorem State.flashWrite_hands (s : State) (x : Nat) (bs : List Byte) : (s.flashWrite x bs).hands = s.hands := rfl
@[simp] theorem State.flashWrite_dma (s : State) (x : Nat) (bs : List Byte) : (s.flashWrite x bs).dma = s.dma := rfl
@[simp] theorem State.flashWrite_ringBad (s : State) (x : Nat) (bs : List Byte) : (s.flashWrite x bs).ringBad = s.ringBad := rfl
@[simp] theorem State.flashWrite_rulSrc (s : State) (x : Nat) (bs : List Byte) : (s.flashWrite x bs).rulSrc = s.rulSrc := rfl
@[simp] theorem State.flashWrite_rulHome (s : State) (x : Nat) (bs : List Byte) : (s.flashWrite x bs).rulHome = s.rulHome := rfl
@[simp] theorem State.flashWrite_blotWin (s : State) (x : Nat) (bs : List Byte) : (s.flashWrite x bs).blotWin = s.blotWin := rfl
@[simp] theorem State.flashWrite_windows (s : State) (x : Nat) (bs : List Byte) : (s.flashWrite x bs).windows = s.windows := rfl
@[simp] theorem State.flashWrite_closing (s : State) (x : Nat) (bs : List Byte) : (s.flashWrite x bs).closing = s.closing := rfl
@[simp] theorem State.flashWrite_peers (s : State) (x : Nat) (bs : List Byte) : (s.flashWrite x bs).peers = s.peers := rfl
@[simp] theorem State.flashWrite_outOps (s : State) (x : Nat) (bs : List Byte) : (s.flashWrite x bs).outOps = s.outOps := rfl
@[simp] theorem State.flashWrite_rtagNext (s : State) (x : Nat) (bs : List Byte) : (s.flashWrite x bs).rtagNext = s.rtagNext := rfl
@[simp] theorem State.flashWrite_heldFlags (s : State) (x : Nat) (bs : List Byte) : (s.flashWrite x bs).heldFlags = s.heldFlags := rfl
@[simp] theorem State.flashWrite_heldPkts (s : State) (x : Nat) (bs : List Byte) : (s.flashWrite x bs).heldPkts = s.heldPkts := rfl
@[simp] theorem State.flashWrite_gathers (s : State) (x : Nat) (bs : List Byte) : (s.flashWrite x bs).gathers = s.gathers := rfl
@[simp] theorem State.flashWrite_bulks (s : State) (x : Nat) (bs : List Byte) : (s.flashWrite x bs).bulks = s.bulks := rfl
@[simp] theorem State.flashWrite_quillDone (s : State) (x : Nat) (bs : List Byte) : (s.flashWrite x bs).quillDone = s.quillDone := rfl
@[simp] theorem State.flashWrite_ports (s : State) (x : Nat) (bs : List Byte) : (s.flashWrite x bs).ports = s.ports := rfl
@[simp] theorem State.flashWrite_ringMap (s : State) (x : Nat) (bs : List Byte) : (s.flashWrite x bs).ringMap = s.ringMap := rfl
@[simp] theorem State.flashWrite_tx (s : State) (x : Nat) (bs : List Byte) : (s.flashWrite x bs).tx = s.tx := rfl
@[simp] theorem State.flashWrite_svc (s : State) (x : Nat) (bs : List Byte) : (s.flashWrite x bs).svc = s.svc := rfl
@[simp] theorem State.flashWrite_answers (s : State) (x : Nat) (bs : List Byte) : (s.flashWrite x bs).answers = s.answers := rfl
@[simp] theorem State.flashWrite_arrived (s : State) (x : Nat) (bs : List Byte) : (s.flashWrite x bs).arrived = s.arrived := rfl
@[simp] theorem State.flashWrite_time (s : State) (x : Nat) (bs : List Byte) : (s.flashWrite x bs).time = s.time := rfl
@[simp] theorem State.flashWrite_base (s : State) (x : Nat) (bs : List Byte) : (s.flashWrite x bs).base = s.base := rfl
@[simp] theorem State.flashWrite_power (s : State) (x : Nat) (bs : List Byte) : (s.flashWrite x bs).power = s.power := rfl
@[simp] theorem State.flashWrite_start (s : State) (x : Nat) (bs : List Byte) : (s.flashWrite x bs).start = s.start := rfl
@[simp] theorem State.flashWrite_sec (s : State) (x : Nat) (bs : List Byte) : (s.flashWrite x bs).sec = s.sec := rfl
@[simp] theorem State.flashWrite_selftest (s : State) (x : Nat) (bs : List Byte) : (s.flashWrite x bs).selftest = s.selftest := rfl
@[simp] theorem State.flashWrite_calib (s : State) (x : Nat) (bs : List Byte) : (s.flashWrite x bs).calib = s.calib := rfl
@[simp] theorem State.flashWrite_calFails (s : State) (x : Nat) (bs : List Byte) : (s.flashWrite x bs).calFails = s.calFails := rfl
@[simp] theorem State.flashWrite_mirror (s : State) (x : Nat) (bs : List Byte) : (s.flashWrite x bs).mirror = s.mirror := rfl
@[simp] theorem State.flashWrite_requests (s : State) (x : Nat) (bs : List Byte) : (s.flashWrite x bs).requests = s.requests := rfl
@[simp] theorem State.flashWrite_pendFail (s : State) (x : Nat) (bs : List Byte) : (s.flashWrite x bs).pendFail = s.pendFail := rfl
@[simp] theorem State.flashWrite_egStall (s : State) (x : Nat) (bs : List Byte) : (s.flashWrite x bs).egStall = s.egStall := rfl
@[simp] theorem State.flashWrite_strapPins (s : State) (x : Nat) (bs : List Byte) : (s.flashWrite x bs).strapPins = s.strapPins := rfl
@[simp] theorem State.flashWrite_failing (s : State) (x : Nat) (bs : List Byte) : (s.flashWrite x bs).failing = s.failing := rfl
@[simp] theorem State.flashWrite_badEntries (s : State) (x : Nat) (bs : List Byte) : (s.flashWrite x bs).badEntries = s.badEntries := rfl
@[simp] theorem State.flashWrite_posts (s : State) (x : Nat) (bs : List Byte) : (s.flashWrite x bs).posts = s.posts := rfl
@[simp] theorem State.flashWrite_orders (s : State) (x : Nat) (bs : List Byte) : (s.flashWrite x bs).orders = s.orders := rfl
@[simp] theorem State.flashWrite_records (s : State) (x : Nat) (bs : List Byte) : (s.flashWrite x bs).records = s.records := rfl

@[simp] theorem State.flashErase_pending (s : State) (x n : Nat) : (s.flashErase x n).pending = s.pending := rfl
@[simp] theorem State.flashErase_draws (s : State) (x n : Nat) : (s.flashErase x n).draws = s.draws := rfl
@[simp] theorem State.flashErase_powered (s : State) (x n : Nat) : (s.flashErase x n).powered = s.powered := rfl
@[simp] theorem State.flashErase_chip (s : State) (x n : Nat) : (s.flashErase x n).chip = s.chip := rfl
@[simp] theorem State.flashErase_straps (s : State) (x n : Nat) : (s.flashErase x n).straps = s.straps := rfl
@[simp] theorem State.flashErase_feed (s : State) (x n : Nat) : (s.flashErase x n).feed = s.feed := rfl
@[simp] theorem State.flashErase_csr (s : State) (x n : Nat) : (s.flashErase x n).csr = s.csr := rfl
@[simp] theorem State.flashErase_latched (s : State) (x n : Nat) : (s.flashErase x n).latched = s.latched := rfl
@[simp] theorem State.flashErase_upsets (s : State) (x n : Nat) : (s.flashErase x n).upsets = s.upsets := rfl
@[simp] theorem State.flashErase_t2Gran (s : State) (x n : Nat) : (s.flashErase x n).t2Gran = s.t2Gran := rfl
@[simp] theorem State.flashErase_t2Up (s : State) (x n : Nat) : (s.flashErase x n).t2Up = s.t2Up := rfl
@[simp] theorem State.flashErase_gates (s : State) (x n : Nat) : (s.flashErase x n).gates = s.gates := rfl
@[simp] theorem State.flashErase_heldEvents (s : State) (x n : Nat) : (s.flashErase x n).heldEvents = s.heldEvents := rfl
@[simp] theorem State.flashErase_dropCount (s : State) (x n : Nat) : (s.flashErase x n).dropCount = s.dropCount := rfl
@[simp] theorem State.flashErase_dropSev (s : State) (x n : Nat) : (s.flashErase x n).dropSev = s.dropSev := rfl
@[simp] theorem State.flashErase_quires (s : State) (x n : Nat) : (s.flashErase x n).quires = s.quires := rfl
@[simp] theorem State.flashErase_scribes (s : State) (x n : Nat) : (s.flashErase x n).scribes = s.scribes := rfl
@[simp] theorem State.flashErase_ctxs (s : State) (x n : Nat) : (s.flashErase x n).ctxs = s.ctxs := rfl
@[simp] theorem State.flashErase_sheets (s : State) (x n : Nat) : (s.flashErase x n).sheets = s.sheets := rfl
@[simp] theorem State.flashErase_tierCmds (s : State) (x n : Nat) : (s.flashErase x n).tierCmds = s.tierCmds := rfl
@[simp] theorem State.flashErase_moves (s : State) (x n : Nat) : (s.flashErase x n).moves = s.moves := rfl
@[simp] theorem State.flashErase_freeing (s : State) (x n : Nat) : (s.flashErase x n).freeing = s.freeing := rfl
@[simp] theorem State.flashErase_hands (s : State) (x n : Nat) : (s.flashErase x n).hands = s.hands := rfl
@[simp] theorem State.flashErase_dma (s : State) (x n : Nat) : (s.flashErase x n).dma = s.dma := rfl
@[simp] theorem State.flashErase_ringBad (s : State) (x n : Nat) : (s.flashErase x n).ringBad = s.ringBad := rfl
@[simp] theorem State.flashErase_rulSrc (s : State) (x n : Nat) : (s.flashErase x n).rulSrc = s.rulSrc := rfl
@[simp] theorem State.flashErase_rulHome (s : State) (x n : Nat) : (s.flashErase x n).rulHome = s.rulHome := rfl
@[simp] theorem State.flashErase_blotWin (s : State) (x n : Nat) : (s.flashErase x n).blotWin = s.blotWin := rfl
@[simp] theorem State.flashErase_windows (s : State) (x n : Nat) : (s.flashErase x n).windows = s.windows := rfl
@[simp] theorem State.flashErase_closing (s : State) (x n : Nat) : (s.flashErase x n).closing = s.closing := rfl
@[simp] theorem State.flashErase_peers (s : State) (x n : Nat) : (s.flashErase x n).peers = s.peers := rfl
@[simp] theorem State.flashErase_outOps (s : State) (x n : Nat) : (s.flashErase x n).outOps = s.outOps := rfl
@[simp] theorem State.flashErase_rtagNext (s : State) (x n : Nat) : (s.flashErase x n).rtagNext = s.rtagNext := rfl
@[simp] theorem State.flashErase_heldFlags (s : State) (x n : Nat) : (s.flashErase x n).heldFlags = s.heldFlags := rfl
@[simp] theorem State.flashErase_heldPkts (s : State) (x n : Nat) : (s.flashErase x n).heldPkts = s.heldPkts := rfl
@[simp] theorem State.flashErase_gathers (s : State) (x n : Nat) : (s.flashErase x n).gathers = s.gathers := rfl
@[simp] theorem State.flashErase_bulks (s : State) (x n : Nat) : (s.flashErase x n).bulks = s.bulks := rfl
@[simp] theorem State.flashErase_quillDone (s : State) (x n : Nat) : (s.flashErase x n).quillDone = s.quillDone := rfl
@[simp] theorem State.flashErase_ports (s : State) (x n : Nat) : (s.flashErase x n).ports = s.ports := rfl
@[simp] theorem State.flashErase_ringMap (s : State) (x n : Nat) : (s.flashErase x n).ringMap = s.ringMap := rfl
@[simp] theorem State.flashErase_tx (s : State) (x n : Nat) : (s.flashErase x n).tx = s.tx := rfl
@[simp] theorem State.flashErase_svc (s : State) (x n : Nat) : (s.flashErase x n).svc = s.svc := rfl
@[simp] theorem State.flashErase_answers (s : State) (x n : Nat) : (s.flashErase x n).answers = s.answers := rfl
@[simp] theorem State.flashErase_arrived (s : State) (x n : Nat) : (s.flashErase x n).arrived = s.arrived := rfl
@[simp] theorem State.flashErase_time (s : State) (x n : Nat) : (s.flashErase x n).time = s.time := rfl
@[simp] theorem State.flashErase_base (s : State) (x n : Nat) : (s.flashErase x n).base = s.base := rfl
@[simp] theorem State.flashErase_power (s : State) (x n : Nat) : (s.flashErase x n).power = s.power := rfl
@[simp] theorem State.flashErase_start (s : State) (x n : Nat) : (s.flashErase x n).start = s.start := rfl
@[simp] theorem State.flashErase_sec (s : State) (x n : Nat) : (s.flashErase x n).sec = s.sec := rfl
@[simp] theorem State.flashErase_selftest (s : State) (x n : Nat) : (s.flashErase x n).selftest = s.selftest := rfl
@[simp] theorem State.flashErase_calib (s : State) (x n : Nat) : (s.flashErase x n).calib = s.calib := rfl
@[simp] theorem State.flashErase_calFails (s : State) (x n : Nat) : (s.flashErase x n).calFails = s.calFails := rfl
@[simp] theorem State.flashErase_mirror (s : State) (x n : Nat) : (s.flashErase x n).mirror = s.mirror := rfl
@[simp] theorem State.flashErase_requests (s : State) (x n : Nat) : (s.flashErase x n).requests = s.requests := rfl
@[simp] theorem State.flashErase_pendFail (s : State) (x n : Nat) : (s.flashErase x n).pendFail = s.pendFail := rfl
@[simp] theorem State.flashErase_egStall (s : State) (x n : Nat) : (s.flashErase x n).egStall = s.egStall := rfl
@[simp] theorem State.flashErase_strapPins (s : State) (x n : Nat) : (s.flashErase x n).strapPins = s.strapPins := rfl
@[simp] theorem State.flashErase_failing (s : State) (x n : Nat) : (s.flashErase x n).failing = s.failing := rfl
@[simp] theorem State.flashErase_badEntries (s : State) (x n : Nat) : (s.flashErase x n).badEntries = s.badEntries := rfl
@[simp] theorem State.flashErase_posts (s : State) (x n : Nat) : (s.flashErase x n).posts = s.posts := rfl
@[simp] theorem State.flashErase_orders (s : State) (x n : Nat) : (s.flashErase x n).orders = s.orders := rfl
@[simp] theorem State.flashErase_records (s : State) (x n : Nat) : (s.flashErase x n).records = s.records := rfl

end Sys2Proof.Machine
end

