-- ==== Sys2Proof/Laws/Registers.lean ====
section
/-! SUPPORT. Reading a map or a register after it was written. -/

namespace Sys2Proof.Machine

@[simp] theorem Map.get?_nil {α : Type} (k : Nat) : Map.get? ([] : Map α) k = none := rfl

theorem Map.get?_set {α : Type} (m : Map α) (k j : Nat) (v : α) :
    Map.get? (Map.set m k v) j = if j = k then some v else Map.get? m j := by
  induction m with
  | nil =>
    simp only [Map.set, Map.get?]
    by_cases h : k = j
    · rw [if_pos h, if_pos h.symm]
    · rw [if_neg h, if_neg (Ne.symm h)]
  | cons e t ih =>
    obtain ⟨a, w⟩ := e
    simp only [Map.set]
    split
    · simp only [Map.get?]
      by_cases h : k = j
      · rw [if_pos h, if_pos h.symm]
      · rw [if_neg h, if_neg (Ne.symm h)]
    · split
      · rename_i h; subst h
        simp only [Map.get?]
        by_cases h : k = j
        · rw [if_pos h, if_pos h.symm]
        · rw [if_neg h, if_neg (Ne.symm h), if_neg h]
      · rename_i h
        simp only [Map.get?, ih]
        by_cases h1 : a = j
        · rw [if_pos h1, if_pos h1, if_neg (by omega)]
        · rw [if_neg h1, if_neg h1]

@[simp] theorem Map.get?_set_same {α : Type} (m : Map α) (k : Nat) (v : α) : Map.get? (Map.set m k v) k = some v := by
  simp [Map.get?_set]

theorem Map.get?_set_ne {α : Type} (m : Map α) {k j : Nat} (v : α) (h : j ≠ k) :
    Map.get? (Map.set m k v) j = Map.get? m j := by simp [Map.get?_set, h]

@[simp] theorem Map.getD_set_same {α : Type} (m : Map α) (k : Nat) (v d : α) : Map.getD (Map.set m k v) k d = v := by
  simp [Map.getD]

theorem Map.getD_set_ne {α : Type} (m : Map α) {k j : Nat} (v d : α) (h : j ≠ k) :
    Map.getD (Map.set m k v) j d = Map.getD m j d := by simp [Map.getD, Map.get?_set_ne m v h]

theorem Map.get?_erase {α : Type} (m : Map α) (k j : Nat) :
    Map.get? (Map.erase m k) j = if j = k then none else Map.get? m j := by
  induction m with
  | nil => simp [Map.erase]
  | cons e t ih =>
    obtain ⟨a, w⟩ := e
    simp only [Map.erase, List.filter_cons] at ih ⊢
    by_cases h : a = k
    · simp only [h, bne_self_eq_false, Bool.false_eq_true, if_false, ih, Map.get?]
      by_cases h2 : j = k
      · simp [h2]
      · rw [if_neg h2, if_neg h2, if_neg (Ne.symm h2)]
    · simp only [bne_iff_ne, ne_eq, h, not_false_eq_true, if_true, Map.get?, ih]
      by_cases h2 : a = j
      · simp [h2]; intro h3; exact absurd (h2.trans h3) h
      · simp [h2]

/-! ## Words -/

@[simp] theorem State.word_wrw (s : State) (o : Nat) (w : W32) : (s.wrw o w).word o = w := by
  simp [State.word, State.wrw]

theorem State.word_wrw_ne (s : State) {o p : Nat} (w : W32) (h : p ≠ o) : (s.wrw o w).word p = s.word p := by
  simp [State.word, State.wrw, Map.getD_set_ne _ _ _ h]

theorem State.word_wr_ne (s : State) {o p : Nat} (hi lo v : Nat) (h : p ≠ o) : (s.wr o hi lo v).word p = s.word p :=
  s.word_wrw_ne _ h

theorem State.word_wrb_ne (s : State) {o p : Nat} (i : Nat) (b : Bool) (h : p ≠ o) : (s.wrb o i b).word p = s.word p :=
  s.word_wrw_ne _ h

theorem State.word_bump_ne (s : State) {o p : Nat} (n : Nat) (h : p ≠ o) : (s.bump o n).word p = s.word p :=
  s.word_wrw_ne _ h

theorem State.word_bumpSat_ne (s : State) {o p : Nat} (n : Nat) (h : p ≠ o) : (s.bumpSat o n).word p = s.word p :=
  s.word_wrw_ne _ h

@[simp] theorem State.word_bump (s : State) (o n : Nat) :
    (s.bump o n).word o = BitVec.ofNat 32 ((s.word o).toNat + n) := by simp [State.bump]

@[simp] theorem State.word_bumpSat (s : State) (o n : Nat) :
    (s.bumpSat o n).word o = BitVec.ofNat 32 (sat32 ((s.word o).toNat + n)) := by simp [State.bumpSat]

/-- A change of a field other than `csr` leaves every register. -/
theorem State.word_eq_of_csr {s t : State} (h : s.csr = t.csr) (o : Nat) : s.word o = t.word o := by
  simp [State.word, h]

/-! ## Bit fields -/

theorem bits_lt (w hi lo : Nat) : bits w hi lo < 2 ^ (hi + 1 - lo) := Nat.mod_lt _ (by positivity)

/-- A digit in base A below B, with a remainder below A, lies below B * A. -/
theorem digits_lt {a b A B : Nat} (ha : a < A) (hb : b < B) : b * A + a < B * A :=
  calc b * A + a < b * A + A := Nat.add_lt_add_left ha _
    _ = (b + 1) * A := by ring
    _ ≤ B * A := Nat.mul_le_mul_right _ hb

/-- The number that `setBits` stores. -/
theorem setBits_toNat (w : W32) {hi lo : Nat} (v : Nat) (h1 : lo ≤ hi) (h2 : hi < 32) :
    (setBits w hi lo v).toNat =
      w.toNat / 2 ^ (hi + 1) * 2 ^ (hi + 1) + v % 2 ^ (hi + 1 - lo) * 2 ^ lo + w.toNat % 2 ^ lo := by
  have hw := w.isLt
  have e : 2 ^ (hi + 1) = 2 ^ (hi + 1 - lo) * 2 ^ lo := by rw [← pow_add]; congr 1; omega
  have ha : w.toNat % 2 ^ lo < 2 ^ lo := Nat.mod_lt _ (by positivity)
  have hb : v % 2 ^ (hi + 1 - lo) < 2 ^ (hi + 1 - lo) := Nat.mod_lt _ (by positivity)
  have hc : v % 2 ^ (hi + 1 - lo) * 2 ^ lo + w.toNat % 2 ^ lo < 2 ^ (hi + 1) := by
    rw [e]; exact digits_lt ha hb
  have hd : w.toNat / 2 ^ (hi + 1) < 2 ^ (31 - hi) := by
    apply Nat.div_lt_of_lt_mul
    rw [← pow_add]; convert hw using 2; omega
  have he : (2 : Nat) ^ 32 = 2 ^ (31 - hi) * 2 ^ (hi + 1) := by rw [← pow_add]; congr 1; omega
  simp only [setBits, BitVec.toNat_ofNat]
  apply Nat.mod_eq_of_lt
  rw [he, Nat.add_assoc]
  exact digits_lt hc hd

theorem bits_setBits (w : W32) {hi lo : Nat} (v : Nat) (h1 : lo ≤ hi) (h2 : hi < 32) :
    bits (setBits w hi lo v).toNat hi lo = v % 2 ^ (hi + 1 - lo) := by
  rw [setBits_toNat w v h1 h2, bits]
  have e : 2 ^ (hi + 1) = 2 ^ (hi + 1 - lo) * 2 ^ lo := by rw [← pow_add]; congr 1; omega
  have ha : w.toNat % 2 ^ lo < 2 ^ lo := Nat.mod_lt _ (by positivity)
  have hb : v % 2 ^ (hi + 1 - lo) < 2 ^ (hi + 1 - lo) := Nat.mod_lt _ (by positivity)
  generalize hx : v % 2 ^ (hi + 1 - lo) = x at *
  generalize w.toNat / 2 ^ (hi + 1) = y
  have : (y * 2 ^ (hi + 1) + x * 2 ^ lo + w.toNat % 2 ^ lo) / 2 ^ lo = y * 2 ^ (hi + 1 - lo) + x := by
    rw [e, show y * (2 ^ (hi + 1 - lo) * 2 ^ lo) + x * 2 ^ lo + w.toNat % 2 ^ lo =
      w.toNat % 2 ^ lo + 2 ^ lo * (y * 2 ^ (hi + 1 - lo) + x) by ring]
    rw [Nat.add_mul_div_left _ _ (by positivity), Nat.div_eq_of_lt ha, Nat.zero_add]
  rw [this, Nat.mul_add_mod_self_right, Nat.mod_eq_of_lt hb]

@[simp] theorem setBits_toNat_mod (w : W32) {hi lo : Nat} (v : Nat) (h1 : lo ≤ hi) (h2 : hi < 32) :
    (setBits w hi lo v).toNat % 2 ^ lo = w.toNat % 2 ^ lo := by
  rw [setBits_toNat w v h1 h2]
  have e : 2 ^ (hi + 1) = 2 ^ (hi + 1 - lo) * 2 ^ lo := by rw [← pow_add]; congr 1; omega
  rw [e, ← Nat.mul_assoc, ← Nat.add_mul, Nat.mul_add_mod_self_right, Nat.mod_mod]

@[simp] theorem setBits_toNat_div (w : W32) {hi lo : Nat} (v : Nat) (h1 : lo ≤ hi) (h2 : hi < 32) :
    (setBits w hi lo v).toNat / 2 ^ (hi + 1) = w.toNat / 2 ^ (hi + 1) := by
  rw [setBits_toNat w v h1 h2]
  have e : 2 ^ (hi + 1) = 2 ^ (hi + 1 - lo) * 2 ^ lo := by rw [← pow_add]; congr 1; omega
  have ha : w.toNat % 2 ^ lo < 2 ^ lo := Nat.mod_lt _ (by positivity)
  have hb : v % 2 ^ (hi + 1 - lo) < 2 ^ (hi + 1 - lo) := Nat.mod_lt _ (by positivity)
  have hc : v % 2 ^ (hi + 1 - lo) * 2 ^ lo + w.toNat % 2 ^ lo < 2 ^ (hi + 1) := by
    rw [e]; exact digits_lt ha hb
  rw [Nat.add_assoc, Nat.mul_comm, Nat.mul_add_div (by positivity), Nat.div_eq_of_lt hc, Nat.add_zero]

/-- A field above the one written. -/
theorem bits_setBits_above (w : W32) {hi lo hi' lo' : Nat} (v : Nat) (h1 : lo ≤ hi) (h2 : hi < 32) (h : hi < lo') :
    bits (setBits w hi lo v).toNat hi' lo' = bits w.toNat hi' lo' := by
  have e : 2 ^ lo' = 2 ^ (hi + 1) * 2 ^ (lo' - (hi + 1)) := by rw [← pow_add]; congr 1; omega
  simp only [bits]
  rw [e, ← Nat.div_div_eq_div_mul, ← Nat.div_div_eq_div_mul, setBits_toNat_div w v h1 h2]

/-- A field below the one written. -/
theorem bits_setBits_below (w : W32) {hi lo hi' lo' : Nat} (v : Nat) (h1 : lo ≤ hi) (h2 : hi < 32) (h3 : lo' ≤ hi')
    (h : hi' < lo) : bits (setBits w hi lo v).toNat hi' lo' = bits w.toNat hi' lo' := by
  have key : ∀ x : Nat, bits x hi' lo' = bits (x % 2 ^ lo) hi' lo' := by
    intro x
    simp only [bits]
    have e : 2 ^ lo = 2 ^ lo' * 2 ^ (lo - lo') := by rw [← pow_add]; congr 1; omega
    rw [e, Nat.mod_mul_right_div_self]
    rw [Nat.mod_mod_of_dvd]
    exact pow_dvd_pow 2 (by omega)
  rw [key, setBits_toNat_mod w v h1 h2, ← key]

theorem State.rd_wr (s : State) (o : Nat) {hi lo : Nat} (v : Nat) (h1 : lo ≤ hi) (h2 : hi < 32) :
    (s.wr o hi lo v).rd o hi lo = v % 2 ^ (hi + 1 - lo) := by
  simp [State.rd, State.wr, bits_setBits _ v h1 h2]

theorem State.rd_wr_above (s : State) (o : Nat) {hi lo hi' lo' : Nat} (v : Nat) (h1 : lo ≤ hi) (h2 : hi < 32)
    (h : hi < lo') : (s.wr o hi lo v).rd o hi' lo' = s.rd o hi' lo' := by
  simp [State.rd, State.wr, bits_setBits_above _ v h1 h2 h]

theorem State.rd_wr_below (s : State) (o : Nat) {hi lo hi' lo' : Nat} (v : Nat) (h1 : lo ≤ hi) (h2 : hi < 32)
    (h3 : lo' ≤ hi') (h : hi' < lo) : (s.wr o hi lo v).rd o hi' lo' = s.rd o hi' lo' := by
  simp [State.rd, State.wr, bits_setBits_below _ v h1 h2 h3 h]

theorem State.rd_wr_ne (s : State) {o p : Nat} (hi lo v a b : Nat) (h : p ≠ o) :
    (s.wr o hi lo v).rd p a b = s.rd p a b := by simp [State.rd, State.word_wr_ne _ _ _ _ h]

theorem State.rd_wrw_ne (s : State) {o p : Nat} (w : W32) (a b : Nat) (h : p ≠ o) :
    (s.wrw o w).rd p a b = s.rd p a b := by simp [State.rd, State.word_wrw_ne _ _ h]

theorem State.rdb_wrb (s : State) (o : Nat) {i : Nat} (b : Bool) (h : i < 32) : (s.wrb o i b).rdb o i = b := by
  simp only [State.rdb, State.wrb, State.rd_wr s o _ (le_refl i) h]
  cases b <;> simp

theorem State.rdb_wrb_ne (s : State) {o p : Nat} (i j : Nat) (b : Bool) (h : p ≠ o) :
    (s.wrb o i b).rdb p j = s.rdb p j := by simp [State.rdb, State.wrb, State.rd_wr_ne _ _ _ _ _ _ h]

theorem State.rdb_wrb_bit (s : State) (o : Nat) {i j : Nat} (b : Bool) (hi : i < 32) (h : j ≠ i) :
    (s.wrb o i b).rdb o j = s.rdb o j := by
  simp only [State.rdb, State.wrb]
  rcases Nat.lt_or_gt_of_ne h with h | h
  · rw [State.rd_wr_below s o _ (le_refl i) hi (le_refl j) h]
  · rw [State.rd_wr_above s o _ (le_refl i) hi h]

end Sys2Proof.Machine
end

