-- ==== Sys2Proof/Laws/Memory.lean ====
section
/-! SUPPORT. Memory: what a byte reads as after a write, a clear or a copy, and that each keeps the canonical form. -/

namespace Sys2Proof.Machine

/-! ## The canonical form as a statement about pairs -/

/-- The canonical form: addresses strictly rising, no zero listed. -/
def Mem.Canon (m : List Host.Cell) : Prop := m.Pairwise (fun x y => x.1 < y.1) ∧ ∀ c ∈ m, c.2 ≠ 0

theorem Mem.wfFrom_iff (m : List Host.Cell) (lim : Option Nat) :
    Mem.wfFrom lim m = true ↔ (∀ l ∈ lim, ∀ c ∈ m, l < c.1) ∧ Mem.Canon m := by
  induction m generalizing lim with
  | nil => simp [Mem.wfFrom, Mem.Canon]
  | cons e t ih =>
    obtain ⟨a, b⟩ := e
    simp only [Mem.wfFrom, Bool.and_eq_true, ih, Mem.Canon, List.pairwise_cons, List.mem_cons, forall_eq_or_imp,
      bne_iff_ne, ne_eq, Option.mem_def, Option.some.injEq, forall_eq']
    constructor
    · rintro ⟨⟨h1, h2⟩, h3, h4, h5⟩
      refine ⟨fun l hl => ?_, ⟨h3, h4⟩, h2, h5⟩
      subst hl
      have h1' : l < a := by simpa using h1
      exact ⟨h1', fun c hc => lt_trans h1' (h3 c hc)⟩
    · rintro ⟨h1, ⟨h3, h4⟩, h2, h5⟩
      refine ⟨⟨?_, h2⟩, h3, h4, h5⟩
      cases lim with
      | none => rfl
      | some l => simpa using (h1 l rfl).1

theorem Memory.wf_iff (m : List Host.Cell) : Memory.wf m = true ↔ Mem.Canon m := by
  simp [Memory.wf, Mem.wfFrom_iff]

/-! ## Pieces -/

theorem Mem.canon_filter {m : List Host.Cell} (h : Mem.Canon m) (p : Host.Cell → Bool) : Mem.Canon (m.filter p) :=
  ⟨h.1.filter p, fun c hc => h.2 c (List.mem_of_mem_filter hc)⟩

theorem Mem.mem_cells {a : Nat} {bs : List Byte} {c : Host.Cell} (h : c ∈ Mem.cells a bs) :
    a ≤ c.1 ∧ c.1 < a + bs.length ∧ c.2 ≠ 0 := by
  induction bs generalizing a with
  | nil => simp [Mem.cells] at h
  | cons b t ih =>
    simp only [Mem.cells] at h
    split at h
    · have := ih h; simp only [List.length_cons]; exact ⟨by omega, by omega, this.2.2⟩
    · rename_i hb
      rcases List.mem_cons.mp h with rfl | h
      · exact ⟨le_refl _, by simp, hb⟩
      · have := ih h; simp only [List.length_cons]; exact ⟨by omega, by omega, this.2.2⟩

theorem Mem.canon_cells (a : Nat) (bs : List Byte) : Mem.Canon (Mem.cells a bs) := by
  refine ⟨?_, fun c hc => (Mem.mem_cells hc).2.2⟩
  induction bs generalizing a with
  | nil => simp [Mem.cells]
  | cons b t ih =>
    simp only [Mem.cells]
    split
    · exact ih _
    · exact List.pairwise_cons.mpr ⟨fun c hc => by have := (Mem.mem_cells hc).1; simp; omega, ih _⟩

/-- Three runs in address order make a canonical memory. -/
theorem Mem.canon_three {x y z : List Host.Cell} {lo hi : Nat} (hx : Mem.Canon x) (hy : Mem.Canon y) (hz : Mem.Canon z)
    (h1 : ∀ c ∈ x, c.1 < lo) (h2 : ∀ c ∈ y, lo ≤ c.1 ∧ c.1 < hi) (h3 : ∀ c ∈ z, lo ≤ c.1 ∧ hi ≤ c.1) : Mem.Canon (x ++ y ++ z) := by
  refine ⟨?_, ?_⟩
  · rw [List.pairwise_append, List.pairwise_append]
    refine ⟨⟨hx.1, hy.1, fun a ha b hb => lt_of_lt_of_le (h1 a ha) (h2 b hb).1⟩, hz.1, ?_⟩
    intro a ha b hb
    rcases List.mem_append.mp ha with ha | ha
    · exact lt_of_lt_of_le (h1 a ha) (h3 b hb).1
    · exact lt_of_lt_of_le (h2 a ha).2 (h3 b hb).2
  · intro c hc
    rcases List.mem_append.mp hc with hc | hc
    · rcases List.mem_append.mp hc with hc | hc
      · exact hx.2 c hc
      · exact hy.2 c hc
    · exact hz.2 c hc

theorem Mem.mem_below {m : List Host.Cell} {lo : Nat} {c : Host.Cell} (h : c ∈ Mem.below m lo) : c.1 < lo := by
  simpa using (List.mem_filter.mp h).2

theorem Mem.mem_above {m : List Host.Cell} {hi : Nat} {c : Host.Cell} (h : c ∈ Mem.above m hi) : hi ≤ c.1 := by
  simpa using (List.mem_filter.mp h).2

/-- A write keeps the canonical form. -/
theorem Mem.canon_write {m : List Host.Cell} (h : Mem.Canon m) (a : Nat) (bs : List Byte) : Mem.Canon (Mem.write m a bs) :=
  Mem.canon_three (Mem.canon_filter h _) (Mem.canon_cells a bs) (Mem.canon_filter h _) (fun _ hc => Mem.mem_below hc)
    (fun _ hc => ⟨(Mem.mem_cells hc).1, (Mem.mem_cells hc).2.1⟩)
    (fun _ hc => ⟨le_trans (Nat.le_add_right _ _) (Mem.mem_above hc), Mem.mem_above hc⟩)

/-- A clear keeps the canonical form. -/
theorem Mem.canon_clear {m : List Host.Cell} (h : Mem.Canon m) (lo n : Nat) : Mem.Canon (Mem.clear m lo n) := by
  have := Mem.canon_three (lo := lo) (hi := lo + n) (Mem.canon_filter h (fun c => decide (c.1 < lo)))
    (⟨List.Pairwise.nil, by simp⟩ : Mem.Canon []) (Mem.canon_filter h (fun c => decide (lo + n ≤ c.1)))
    (fun _ hc => Mem.mem_below hc) (by simp)
    (fun _ hc => ⟨le_trans (Nat.le_add_right _ _) (Mem.mem_above hc), Mem.mem_above hc⟩)
  simpa [Mem.clear, Mem.below, Mem.above] using this

theorem Mem.mem_shifted {m : List Host.Cell} {src n dst : Nat} {c : Host.Cell} (h : c ∈ Mem.shifted m src n dst) :
    dst ≤ c.1 ∧ c.1 < dst + n := by
  simp only [Mem.shifted, List.mem_map, List.mem_filter, Bool.and_eq_true, decide_eq_true_eq] at h
  obtain ⟨x, ⟨_, h1, h2⟩, rfl⟩ := h
  exact ⟨by simp, by simp; omega⟩

theorem Mem.canon_shifted {m : List Host.Cell} (h : Mem.Canon m) (src n dst : Nat) :
    Mem.Canon (Mem.shifted m src n dst) := by
  refine ⟨?_, ?_⟩
  · have hp : (m.filter fun c => decide (src ≤ c.1) && decide (c.1 < src + n)).Pairwise (fun x y => x.1 < y.1) := h.1.filter _
    rw [Mem.shifted, List.pairwise_map]
    refine List.Pairwise.imp_of_mem ?_ hp
    intro a b ha hb hab
    have h1 := (List.mem_filter.mp ha).2
    have h2 := (List.mem_filter.mp hb).2
    simp only [Bool.and_eq_true, decide_eq_true_eq] at h1 h2
    show a.1 - src + dst < b.1 - src + dst
    omega
  · intro c hc
    simp only [Mem.shifted, List.mem_map, List.mem_filter] at hc
    obtain ⟨x, ⟨hx, _⟩, rfl⟩ := hc
    exact h.2 x hx

/-- A copy keeps the canonical form. -/
theorem Mem.canon_copy {m : List Host.Cell} (h : Mem.Canon m) (src n dst : Nat) : Mem.Canon (Mem.copy m src n dst) :=
  Mem.canon_three (Mem.canon_filter h _) (Mem.canon_shifted h src n dst) (Mem.canon_filter h _)
    (fun _ hc => Mem.mem_below hc) (fun _ hc => Mem.mem_shifted hc)
    (fun _ hc => ⟨le_trans (Nat.le_add_right _ _) (Mem.mem_above hc), Mem.mem_above hc⟩)

theorem Memory.wf_nil : Memory.wf [] = true := rfl

theorem Memory.wf_write {m : List Host.Cell} (h : Memory.wf m = true) (a : Nat) (bs : List Byte) :
    Memory.wf (Mem.write m a bs) = true := (Memory.wf_iff _).mpr (Mem.canon_write ((Memory.wf_iff _).mp h) a bs)

theorem Memory.wf_clear {m : List Host.Cell} (h : Memory.wf m = true) (lo n : Nat) :
    Memory.wf (Mem.clear m lo n) = true := (Memory.wf_iff _).mpr (Mem.canon_clear ((Memory.wf_iff _).mp h) lo n)

theorem Memory.wf_copy {m : List Host.Cell} (h : Memory.wf m = true) (src n dst : Nat) :
    Memory.wf (Mem.copy m src n dst) = true := (Memory.wf_iff _).mpr (Mem.canon_copy ((Memory.wf_iff _).mp h) src n dst)

theorem Memory.wf_above {m : List Host.Cell} (h : Memory.wf m = true) (lo : Nat) : Memory.wf (Mem.above m lo) = true :=
  (Memory.wf_iff _).mpr (Mem.canon_filter ((Memory.wf_iff _).mp h) _)

theorem Memory.wf_below {m : List Host.Cell} (h : Memory.wf m = true) (lo : Nat) : Memory.wf (Mem.below m lo) = true :=
  (Memory.wf_iff _).mpr (Mem.canon_filter ((Memory.wf_iff _).mp h) _)

/-! ## Reading one byte -/

theorem Mem.read1_append (x y : List Host.Cell) (a : Nat) :
    Mem.read1 (x ++ y) a = if ∃ c ∈ x, c.1 = a then Mem.read1 x a else Mem.read1 y a := by
  induction x with
  | nil => simp
  | cons e t ih =>
    obtain ⟨k, v⟩ := e
    simp only [List.cons_append, Mem.read1, List.exists_mem_cons_iff]
    by_cases h : k = a
    · simp [h]
    · simp only [h, if_false, false_or, ih]

theorem Mem.read1_filter {m : List Host.Cell} (p : Host.Cell → Bool) (a : Nat) (h : ∀ c ∈ m, c.1 = a → p c = true) :
    Mem.read1 (m.filter p) a = Mem.read1 m a := by
  induction m with
  | nil => rfl
  | cons e t ih =>
    obtain ⟨k, v⟩ := e
    have ht : ∀ c ∈ t, c.1 = a → p c = true := fun c hc => h c (List.mem_cons_of_mem _ hc)
    simp only [List.filter_cons]
    by_cases hk : k = a
    · have := h (k, v) (List.mem_cons_self ..) hk
      rw [if_pos this]; simp [Mem.read1, hk]
    · split
      · simp [Mem.read1, hk, ih ht]
      · simp [Mem.read1, hk, ih ht]

theorem Mem.read1_absent {m : List Host.Cell} {a : Nat} (h : ∀ c ∈ m, c.1 ≠ a) : Mem.read1 m a = 0 := by
  induction m with
  | nil => rfl
  | cons e t ih =>
    obtain ⟨k, v⟩ := e
    have hk : k ≠ a := h (k, v) (List.mem_cons_self ..)
    simp [Mem.read1, hk, ih fun c hc => h c (List.mem_cons_of_mem _ hc)]

theorem Mem.read1_cells (a : Nat) (bs : List Byte) (i : Nat) (h : i < bs.length) :
    Mem.read1 (Mem.cells a bs) (a + i) = bs[i] := by
  induction bs generalizing a i with
  | nil => simp at h
  | cons b t ih =>
    simp only [Mem.cells]
    cases i with
    | zero =>
      split
      · rename_i hb
        rw [Mem.read1_absent]
        · simp [hb]
        · intro c hc; have := (Mem.mem_cells hc).1; omega
      · simp [Mem.read1]
    | succ n =>
      have e : a + (n + 1) = a + 1 + n := by omega
      have hn : n < t.length := by simpa using h
      split
      · rw [e, ih (a + 1) n hn]; simp
      · simp only [Mem.read1]; rw [if_neg (by omega), e, ih (a + 1) n hn]; simp

/-- A byte outside a written range reads as before. -/
theorem Mem.read1_write_out (m : List Host.Cell) (a : Nat) (bs : List Byte) (x : Nat) (h : x < a ∨ a + bs.length ≤ x) :
    Mem.read1 (Mem.write m a bs) x = Mem.read1 m x := by
  have hc : ¬∃ c ∈ Mem.cells a bs, c.1 = x := by
    rintro ⟨c, hc, rfl⟩; have := Mem.mem_cells hc; omega
  rw [Mem.write, List.append_assoc, Mem.read1_append]
  rcases h with h | h
  · by_cases hb : ∃ c ∈ Mem.below m a, c.1 = x
    · rw [if_pos hb]; exact Mem.read1_filter _ _ (fun c _ hx => by simp [hx, h])
    · rw [if_neg hb, Mem.read1_append, if_neg hc, Mem.read1_absent]
      · refine (Mem.read1_absent ?_).symm
        intro c hm hx; exact hb ⟨c, List.mem_filter.mpr ⟨hm, by simp [hx, h]⟩, hx⟩
      · intro c hm hx; have := Mem.mem_above hm; omega
  · have hb : ¬∃ c ∈ Mem.below m a, c.1 = x := by
      rintro ⟨c, hm, rfl⟩; have := Mem.mem_below hm; omega
    rw [if_neg hb, Mem.read1_append, if_neg hc]
    exact Mem.read1_filter _ _ (fun c _ hx => by simp [hx, h])

/-- A byte of a written range reads as written. -/
theorem Mem.read1_write_in (m : List Host.Cell) (a : Nat) (bs : List Byte) (i : Nat) (h : i < bs.length) :
    Mem.read1 (Mem.write m a bs) (a + i) = bs[i] := by
  have hb : ¬∃ c ∈ Mem.below m a, c.1 = a + i := by
    rintro ⟨c, hm, hx⟩; have := Mem.mem_below hm; omega
  rw [Mem.write, List.append_assoc, Mem.read1_append, if_neg hb, Mem.read1_append]
  by_cases hc : ∃ c ∈ Mem.cells a bs, c.1 = a + i
  · rw [if_pos hc, Mem.read1_cells a bs i h]
  · rw [if_neg hc]
    have h0 : Mem.read1 (Mem.cells a bs) (a + i) = 0 := Mem.read1_absent fun c hm hx => hc ⟨c, hm, hx⟩
    rw [Mem.read1_cells a bs i h] at h0
    rw [h0]
    refine Mem.read1_absent ?_
    intro c hm hx; have := Mem.mem_above hm; omega

theorem Mem.read1_clear_out (m : List Host.Cell) (lo n x : Nat) (h : x < lo ∨ lo + n ≤ x) :
    Mem.read1 (Mem.clear m lo n) x = Mem.read1 m x := by
  rw [Mem.clear, Mem.read1_append]
  rcases h with h | h
  · by_cases hb : ∃ c ∈ Mem.below m lo, c.1 = x
    · rw [if_pos hb]; exact Mem.read1_filter _ _ (fun c _ hx => by simp [hx, h])
    · rw [if_neg hb, Mem.read1_absent]
      · refine (Mem.read1_absent ?_).symm
        intro c hm hx; exact hb ⟨c, List.mem_filter.mpr ⟨hm, by simp [hx, h]⟩, hx⟩
      · intro c hm hx; have := Mem.mem_above hm; omega
  · have hb : ¬∃ c ∈ Mem.below m lo, c.1 = x := by
      rintro ⟨c, hm, rfl⟩; have := Mem.mem_below hm; omega
    rw [if_neg hb]
    exact Mem.read1_filter _ _ (fun c _ hx => by simp [hx, h])

theorem Mem.read1_clear_in (m : List Host.Cell) (lo n x : Nat) (h1 : lo ≤ x) (h2 : x < lo + n) :
    Mem.read1 (Mem.clear m lo n) x = 0 := by
  refine Mem.read1_absent ?_
  intro c hm hx
  rcases List.mem_append.mp hm with hm | hm
  · have := Mem.mem_below hm; omega
  · have := Mem.mem_above hm; omega

/-- A range read back after it was written. -/
theorem Mem.read_write (m : List Host.Cell) (a : Nat) (bs : List Byte) : Mem.read (Mem.write m a bs) a bs.length = bs := by
  apply List.ext_getElem
  · simp [Mem.read]
  · intro i h1 h2; simp [Mem.read, Mem.read1_write_in m a bs i h2]

/-- A range apart from a written one reads as before. -/
theorem Mem.read_write_out (m : List Host.Cell) (a : Nat) (bs : List Byte) (x n : Nat)
    (h : x + n ≤ a ∨ a + bs.length ≤ x) : Mem.read (Mem.write m a bs) x n = Mem.read m x n := by
  apply List.map_congr_left
  intro i hi
  rw [List.mem_range] at hi
  exact Mem.read1_write_out m a bs (x + i) (by omega)

/-! ## Numbers in bytes -/

@[simp] theorem leBytes_length (n v : Nat) : (leBytes n v).length = n := by
  induction n generalizing v with
  | zero => rfl
  | succ n ih => simp [leBytes, ih]

theorem leNat_leBytes (n v : Nat) : leNat (leBytes n v) = v % 256 ^ n := by
  induction n generalizing v with
  | zero => simp [leBytes, leNat, Nat.mod_one]
  | succ n ih =>
    simp only [leBytes, leNat, ih, BitVec.toNat_ofNat]
    rw [show (2 : Nat) ^ 8 = 256 by norm_num, Nat.pow_succ', Nat.mod_mul]

theorem Mem.le_write (m : List Host.Cell) (a n v : Nat) : Mem.le (Mem.write m a (leBytes n v)) a n = v % 256 ^ n := by
  have h := Mem.read_write m a (leBytes n v)
  rw [leBytes_length] at h
  rw [Mem.le, h, leNat_leBytes]

/-- An entry of the tier table reads as it was written. -/
theorem State.entry_setEntry (s : State) (g e : Nat) : (s.setEntry g e).entry g = e % 2 ^ 64 := by
  have h := Mem.le_write s.mem (physCarve (s.chip.ttBase + 8 * g)) 8 e
  rw [show (256 : Nat) ^ 8 = 2 ^ 64 by norm_num] at h
  exact h

/-- Every other entry reads as before. -/
theorem State.entry_setEntry_ne (s : State) {g j : Nat} (e : Nat) (h : j ≠ g) : (s.setEntry g e).entry j = s.entry j := by
  simp only [State.entry, State.setEntry, Mem.le]
  rw [Mem.read_write_out]
  simp only [leBytes_length, physCarve]
  omega

/-! ## State operations keep the form -/

theorem State.wf_reset : Memory.wf State.reset.mem = true := rfl

end Sys2Proof.Machine
end

