-- ==== Sys2Proof/Laws/Log.lean ====
section
/-! SUPPORT. The event log: taking an event changes at most the log's own registers, fields and memory. -/

namespace Sys2Proof.Machine

theorem LogOnly.refl (s : State) : LogOnly s s := ⟨rfl, fun _ _ => rfl, fun _ _ => rfl⟩

theorem inLog_congr {s t : State} (h : ∀ o, o ∉ logRegs → t.word o = s.word o) (a : Nat) : inLog t a ↔ inLog s a := by
  have h1 : t.word Reg.ELOG_BASE_LO = s.word Reg.ELOG_BASE_LO := h _ (by decide)
  have h2 : t.word Reg.ELOG_BASE_HI = s.word Reg.ELOG_BASE_HI := h _ (by decide)
  have h3 : t.word Reg.ELOG_CFG = s.word Reg.ELOG_CFG := h _ (by decide)
  simp only [inLog, State.addrOf, State.rd, h1, h2, h3]

theorem LogOnly.trans {s t u : State} (h1 : LogOnly s t) (h2 : LogOnly t u) : LogOnly s u := by
  refine ⟨?_, fun o ho => (h2.regs o ho).trans (h1.regs o ho), fun a ha => ?_⟩
  · have := h1.rest; have := h2.rest
    rw [h2.rest, h1.rest]
  · rw [h2.mem a (fun h => ha ((inLog_congr h1.regs a).mp h)), h1.mem a ha]

theorem LogOnly.wrw {s t : State} (h : LogOnly s t) (o : Nat) (w : W32) (ho : o ∈ logRegs) : LogOnly s (t.wrw o w) := by
  refine ⟨?_, fun p hp => ?_, fun a ha => h.mem a ha⟩
  · rw [h.rest]; rfl
  · rw [State.word_wrw_ne _ _ (by rintro rfl; exact hp ho)]; exact h.regs p hp

/-- A change of fields that taking events may change, with memory changed in the log's places alone. -/
theorem LogOnly.upd {s t : State} (h : LogOnly s t) (g : Map EventGate) (he : List EventRec) (dc ds : Nat) :
    LogOnly s { t with gates := g, heldEvents := he, dropCount := dc, dropSev := ds } := by
  refine ⟨?_, fun p hp => h.regs p hp, fun a ha => h.mem a ha⟩
  rw [h.rest]

theorem LogOnly.memUpd {s t : State} (h : LogOnly s t) (m : List Host.Cell) (u : Map (Map Byte))
    (hm : ∀ a, ¬ inLog s a → Mem.read1 m a = Mem.read1 t.mem a) : LogOnly s { t with mem := m, upsets := u } := by
  refine ⟨?_, fun p hp => h.regs p hp, fun a ha => (hm a ha).trans (h.mem a ha)⟩
  rw [h.rest]

theorem LogOnly.foldl {α : Type} {s : State} {f : State → α → State} (hf : ∀ t x, LogOnly s t → LogOnly s (f t x)) (l : List α)
    {t : State} (h : LogOnly s t) : LogOnly s (l.foldl f t) := by
  induction l generalizing t with
  | nil => exact h
  | cons x l ih => exact ih (hf _ _ h)

theorem LogOnly.notify {s t : State} (h : LogOnly s t) (a n : Nat) : LogOnly s (t.notify a n) := by
  unfold State.notify
  refine LogOnly.foldl ?_ _ h
  intro t x ht
  dsimp only
  repeat' split
  all_goals first | exact ht | exact ht.wrw _ _ (by decide)

theorem LogOnly.store {s t : State} (h : LogOnly s t) (a : Nat) (bs : List Byte)
    (hm : ∀ x, a ≤ x → x < a + bs.length → inLog s x) : LogOnly s (t.store a bs) := by
  unfold State.store
  split
  · exact h
  · refine LogOnly.notify (h.memUpd _ _ fun x hx => ?_) _ _
    apply Mem.read1_write_out
    by_contra hc
    exact hx (hm x (by omega) (by omega))

theorem LogOnly.storeCarve {s t : State} (h : LogOnly s t) (a : Nat) (bs : List Byte)
    (hm : ∀ x, physCarve a ≤ x → x < physCarve a + bs.length → inLog s x) : LogOnly s (t.storeCarve a bs) := by
  unfold State.storeCarve
  split
  · exact h
  · exact h.store _ _ hm

theorem EventRec.bytes_length (r : EventRec) : r.bytes.length = 64 := by
  simp [EventRec.bytes, List.length_flatMap]

theorem LogOnly.ringPut {s t : State} (h : LogOnly s t) (r : EventRec) : LogOnly s (t.ringPut r) := by
  have e : ∀ x, inLog t x ↔ inLog s x := inLog_congr h.regs
  unfold State.ringPut
  simp only [State.bump]
  have hp : 0 < 2 ^ t.rd Reg.ELOG_CFG 3 0 := by positivity
  refine LogOnly.storeCarve (LogOnly.wrw (LogOnly.storeCarve h _ _ ?_) _ _ (by decide)) _ _ ?_
  · intro x h1 h2
    rw [← e]; left
    rw [EventRec.bytes_length] at h2
    have := Nat.mod_lt (t.word Reg.EPROD).toNat hp
    simp only [physCarve] at *
    constructor <;> omega
  · intro x h1 h2
    rw [← e]; left
    simp only [leBytes_length, physCarve] at *
    constructor <;> omega

theorem LogOnly.wr {s t : State} (h : LogOnly s t) (o a b v : Nat) (ho : o ∈ logRegs) : LogOnly s (t.wr o a b v) := h.wrw _ _ ho
theorem LogOnly.wrb {s t : State} (h : LogOnly s t) (o i : Nat) (b : Bool) (ho : o ∈ logRegs) : LogOnly s (t.wrb o i b) := h.wrw _ _ ho
theorem LogOnly.number {s t : State} (h : LogOnly s t) : LogOnly s t.number := h.wrw _ _ (by decide)
theorem LogOnly.dropEvent {s t : State} (h : LogOnly s t) (n : Nat) : LogOnly s (t.dropEvent n) := by
  have := (h.wrw Reg.ELOST (BitVec.ofNat 32 (sat32 ((t.word Reg.ELOST).toNat + 1))) (by decide)).wrb Reg.ESTAT 31 true (by decide)
  exact this.upd _ _ _ _

theorem LogOnly.hold {s t : State} (h : LogOnly s t) (r : EventRec) : LogOnly s (t.hold r) := by
  unfold State.hold
  repeat' split
  · exact LogOnly.number (h.upd t.gates _ t.dropCount t.dropSev)
  · exact LogOnly.dropEvent (LogOnly.number (h.upd t.gates _ t.dropCount t.dropSev)) _
  · exact h.dropEvent _
  · exact h.dropEvent _

theorem LogOnly.flushSome {s t : State} (h : LogOnly s t) (n : Nat) : LogOnly s (State.flushSome n t) := by
  induction n generalizing t with
  | zero => exact h
  | succ n ih =>
    unfold State.flushSome
    repeat' split
    · exact h
    · exact ih (LogOnly.ringPut (h.upd t.gates _ t.dropCount t.dropSev) _)
    · exact h

theorem LogOnly.flushHeld {s t : State} (h : LogOnly s t) : LogOnly s t.flushHeld := by
  unfold State.flushHeld
  dsimp only
  split
  · exact ((((h.flushSome 64).ringPut _).number).upd _ _ 0 0).wr _ _ _ _ (by decide)
  · exact h.flushSome 64

theorem LogOnly.flash {s t : State} (h : LogOnly s t) (a : Nat) (bs : List Byte) : LogOnly s (t.flashWrite a bs) := by
  have := h.memUpd (Mem.write t.mem (physFlash a) (bs.map fun b => ~~~ b)) t.upsets ?_
  · exact this
  · intro x hx
    apply Mem.read1_write_out
    by_contra hc
    exact hx (Or.inr (by simp only [physFlash] at *; omega))

theorem LogOnly.erase {s t : State} (h : LogOnly s t) (a n : Nat) : LogOnly s (t.flashErase a n) := by
  have := h.memUpd (Mem.clear t.mem (physFlash a) n) t.upsets ?_
  · exact this
  · intro x hx
    apply Mem.read1_clear_out
    by_contra hc
    exact hx (Or.inr (by simp only [physFlash] at *; omega))

theorem LogOnly.flogPut {s t : State} (h : LogOnly s t) (r : EventRec) : LogOnly s (t.flogPut r) := by
  unfold State.flogPut
  dsimp only
  repeat' split
  all_goals first
    | exact LogOnly.erase (LogOnly.wrw (h.flash _ _) Reg.FLOG_HEAD _ (by decide)) _ _
    | exact LogOnly.wrw (h.flash _ _) Reg.FLOG_HEAD _ (by decide)

theorem LogOnly.take {s t : State} (h : LogOnly s t) (c n : Nat) (a : List Nat) : LogOnly s (t.take c n a) := by
  unfold State.take
  dsimp only
  split <;> split
  · exact ((h.flushHeld.ringPut _).number.wr _ _ _ _ (by decide)).flogPut _
  · exact (h.flushHeld.hold _).wr _ _ _ _ (by decide) |>.flogPut _
  · exact (h.flushHeld.ringPut _).number.wr _ _ _ _ (by decide)
  · exact (h.flushHeld.hold _).wr _ _ _ _ (by decide)

/-- Posting an event changes at most what taking events changes. -/
theorem LogOnly.post {s t : State} (h : LogOnly s t) (c : Nat) (a : List Nat) : LogOnly s (t.post c a) := by
  unfold State.post
  dsimp only
  split
  · exact h.take _ _ _
  · exact (h.upd _ t.heldEvents t.dropCount t.dropSev).take _ _ _

theorem LogOnly.postOnce {s t : State} (h : LogOnly s t) (c : Nat) (a : List Nat) (k : Nat) : LogOnly s (t.postOnce c a k) := by
  unfold State.postOnce
  dsimp only
  repeat' split
  · exact (h.upd _ t.heldEvents t.dropCount t.dropSev).take _ _ _
  · exact h.upd _ t.heldEvents t.dropCount t.dropSev
  · exact (h.upd _ t.heldEvents t.dropCount t.dropSev).take _ _ _

theorem State.post_logOnly (s : State) (c : Nat) (a : List Nat) : LogOnly s (s.post c a) := (LogOnly.refl s).post c a
end Sys2Proof.Machine
end

