-- ==== Sys2Proof/Tests/Slice0.lean ====
section
/-! SUPPORT. Tests: small states that meet the hypotheses of the statements, ill-formed commands that are refused, and single
steps with results worked out from the rules. -/

set_option Elab.async false

namespace Sys2Proof.Tests

open Sys2Proof.Machine

/-! ## Builders -/

/-- The module with no register listed, so that every register reads its numeric reset value: a small state. -/
def bare : State := { State.reset with csr := [] }

/-- A state with some registers set. -/
def regs (l : List (Nat × Nat)) (s : State := bare) : State :=
  l.foldl (fun s x => s.wrw x.1 (BitVec.ofNat 32 x.2)) s

/-- Bytes stored at a physical address. -/
def put (a : Nat) (bs : List Byte) (s : State) : State := { s with mem := Mem.write s.mem a bs }

/-- A little-endian number stored at a carve-out address. -/
def carve (a n v : Nat) (s : State) : State := put (physCarve a) (leBytes n v) s

/-- An answer whose state meets a condition. -/
def nextIs (o : Host.Outcome State Fault Refusal) (p : State → Bool) : Bool :=
  match o with
  | .next t => p t
  | _ => false

/-- An answer that stops. -/
def stops (o : Host.Outcome State Fault Refusal) : Bool :=
  match o with
  | .fault .malformed => true
  | _ => false

/-! ## The step, the queue, power and start-up -/

/-- A state with one command waiting. -/
def waiting (c : Instr) (s : State := State.reset) : State := { s with pending := [c] }

theorem witness_EmptyQueueTicks : State.reset.pending = [] ∧ State.reset.powered = true ∧
    { State.reset with powered := false }.powered = false := by decide +kernel

theorem witness_WellFormedCompletes : Instr.cspend.wellFormed = true ∧ (Instr.ident 0 []).wellFormed = false ∧
    ({ State.reset with powered := false }.powered = false ∧ Instr.moduleReset.wellFormed = true) := by decide +kernel

theorem witness_StrapsLatched : State.reset.powered = true ∧ (0x1FFF : BitVec 13) ≠ State.reset.straps ∧
    nextIs (exec (.powerGood 0x0123 true) State.reset) (fun t => t.straps == 0x0123 && t.feed) = true ∧
    nextIs (exec .cspend State.reset) (fun t => t.straps == 0 && !t.feed) = true := by decide +kernel

theorem witness_StepKeepsInv : Machine.Inv (put (physCarve 64) [1, 0, 2] State.reset) ∧
    nextIs (step (waiting .chain (put (physCarve 64) [1, 0, 2] State.reset))) (fun t => Memory.wf t.mem) = true := by
  unfold Machine.Inv; decide +kernel

theorem witness_QueueRunsToEnd : (∀ c ∈ ({ State.reset with pending := [.cspend, .ptpend] } : State).pending, c.wellFormed = true) ∧
    nextIs (exec .cspend (waiting .ptpend)) (fun t => t.pending == [.ptpend]) = true := by decide +kernel

theorem witness_ResetRows : State.reset.powered = true ∧
    nextIs (exec .moduleReset { State.reset with straps := 5, power := { PowerRt.zero with leaving := true } })
      (fun t => t.straps == 5 && t.power.leaving && t.rd Reg.GSTAT 29 28 == 1) = true ∧
    nextIs (exec (.powerGood 5 true) { State.reset with powered := false })
      (fun t => t.powered && t.straps == 5 && t.feed && t.rdb Reg.PWR_STAT 25) = true := by decide +kernel

/-- Memory trained and everything mayServe asks for, before READY. -/
def almostReady : State :=
  { regs ([(Reg.START_STAT, 6), (Reg.CFG_STAT, 1), (Reg.TIM_STAT, 2 ^ 31), (Reg.PWR_STAT, 2 ^ 27), (Reg.PLANE_MAP, 0x76543210)] ++
      (List.range 8).map fun p => (Reg.PORT_STAT p, 3)) with
    start := { StartRt.zero with images := true, cxlDone := true, matched := true, chans := List.range 24,
                                 plan := List.replicate 64 1 } }

theorem witness_StartRows :
    (let s := regs [(Reg.START_STAT, 2)]
     s.powered = true ∧ (s.word Reg.START_STAT).toNat % 256 = 2 ∧
      nextIs (exec (.imagesLoaded true) s) (fun t => t.start.images && t.mem == s.mem && t.rd Reg.START_STAT 3 0 == 3) = true) ∧
    (let s := regs [(Reg.START_STAT, 3)]
     (s.word Reg.START_STAT).toNat % 256 = 3 ∧ (0 :: s.start.chans.filter (· != 0)).length ≠ 24) ∧
    (let s := { regs [(Reg.START_STAT, 3)] with start := { StartRt.zero with chans := List.range 23 } }
     (23 :: s.start.chans.filter (· != 23)).length = 24 ∧
      nextIs (exec (.channelTrainingDone 23 true) s) (fun t => t.rd Reg.START_STAT 3 0 == 4) = true) ∧
    (let s := { regs [(Reg.START_STAT, 3)] with start := { StartRt.zero with chanTries := [(7, 2)] } }
     2 ≤ Map.getD s.start.chanTries 7 0 ∧
      nextIs (exec (.channelTrainingDone 7 false) s) (fun t => t.rd Reg.START_STAT 7 4 == 3) = true) ∧
    (let s := regs [(Reg.START_STAT, 4)]
     3 ≤ (s.word Reg.START_STAT).toNat % 256 ∧ (s.word Reg.START_STAT).toNat % 256 < 7 ∧ s.start.cxlDone = false ∧
      nextIs (exec (.cxlEnumerationDone (2 ^ 41) 5 16 64 0 0) s)
        (fun t => t.t2Up == [true, false] && t.t2Gran == [15728640, 0]) = true ∧
      nextIs (exec (.cxlEnumerationDone 0 (2 ^ 20) 0 0 8 8) s)
        (fun t => t.t2Up == [false, true] && t.t2Gran == [0, 15]) = true) ∧
    (almostReady.powered = true ∧ almostReady.mayServe = true ∧ almostReady.rd Reg.START_STAT 3 0 ≠ 7 ∧
      almostReady.power.leaving = false ∧
      nextIs (exec .svcReady almostReady) (fun t => t.time.readyOnce && t.rd Reg.START_STAT 3 0 == 7) = true) ∧
    ((∀ j, j < 16 → State.reset.rdb (Reg.JCFG j) 31 = false) ∧
      nextIs (exec .quillReset State.reset) (fun t => t.rd Reg.GSTAT 29 28 == 2) = true) ∧
    (let s := { State.reset with sec := { SecRt.zero with pendIn := [(1, ⟨0, 7, 0, 0, 0, []⟩)] } }
     Map.get? s.sec.pendIn 1 = some ⟨0, 7, 0, 0, 0, []⟩ ∧
      nextIs (exec .quillResetComplete s) (fun t => t.word (Reg.RUN_VER 1) == 7) = true) := by decide +kernel

theorem witness_StartRows_other :
    ((regs [(Reg.START_STAT, 2)]).word Reg.START_STAT).toNat % 256 = 2 ∧
    nextIs (exec (.imagesLoaded false) (regs [(Reg.START_STAT, 2)])) (fun t => t.rd Reg.START_STAT 7 4 == 2) = true ∧
    (bare.word Reg.START_STAT).toNat % 256 ≠ 2 ∧ (bare.word Reg.START_STAT).toNat % 256 ≠ 3 ∧
    Map.getD bare.start.chanTries 7 0 < 2 ∧
    nextIs (exec (.channelTrainingDone 7 false) (regs [(Reg.START_STAT, 3)])) (fun t => t.start.chanTries == [(7, 1)]) = true ∧
    (bare.word Reg.START_STAT).toNat % 256 < 3 ∧ bare.mayServe = false ∧
    (regs [(Reg.START_STAT, 7)]).rd Reg.START_STAT 3 0 = 7 ∧ (regs [(Reg.JCFG 4, 2 ^ 31)]).rdb (Reg.JCFG 4) 31 = true ∧
    Map.get? bare.sec.pendIn 1 = none := by decide +kernel

theorem witness_TurnRequests : State.reset.powered = true ∧ State.reset.rd (Reg.RCFG 5) 5 4 ≠ 3 ∧
    (regs [(Reg.RCFG 5, 0x30)]).rd (Reg.RCFG 5) 5 4 = 3 ∧
    nextIs (exec (.mpend 5) (regs [(Reg.RCFG 5, 0x30)])) (fun t => !(t.rdb (Reg.RCFG 5) 28)) = true ∧
    nextIs (exec (.mpend 5) State.reset) (fun t => t.rdb (Reg.RCFG 5) 28 && t.rd (Reg.RCFG 5) 27 0 == 25) = true := by
  decide +kernel

/-! ## Control space and the event log -/

/-- A good event ring of 256 records at 0x40000000 of the carve-out. -/
def ring : State := regs [(Reg.ELOG_BASE_LO, 0x40000000), (Reg.ELOG_CFG, 2 ^ 31 + 8)]

theorem witness_RegisterAccess :
    (let s := State.reset
     inSpace 0x20080 = true ∧ (regAt Reg.GSTAT).isSome = true ∧ Map.get? s.latched Reg.GSTAT = none ∧ Reg.GSTAT ≠ Reg.RT_LO ∧
      (regAt Reg.COLO_SEQ_LO).isSome = true ∧ inSpace Reg.COLO_SEQ_LO = true ∧ Map.get? s.latched Reg.COLO_SEQ_LO = none ∧
      Map.get? s.latched Reg.QF_ISSUED = none ∧ s.gathers = []) ∧
    (let s := regs [(Reg.UNATTR_LO, 7), (Reg.UNATTR_HI, 9)]
     hiOf Reg.UNATTR_LO = some Reg.UNATTR_HI ∧ inSpace Reg.UNATTR_LO = true ∧ (regAt Reg.UNATTR_LO).isSome = true ∧
      nextIs (exec (.counterLoRead (BitVec.ofNat 20 Reg.UNATTR_LO)) s)
        (fun t => t.answers == [(0, [7, 0, 0, 0])] && Map.get? t.latched Reg.UNATTR_HI == some 9) = true) ∧
    (let v : W32 := BitVec.ofNat 32 (2 ^ 30 + Reg.IDENT)
     bits v.toNat 31 30 = 1 ∧ v.getLsbD 29 = false ∧ bits v.toNat 19 0 = Reg.IDENT ∧ inSpace Reg.IDENT = true ∧
      (regAt Reg.IDENT).isSome = true ∧ copyAt (Reg.NONCE 0) 4 4 Reg.IDENT = none ∧
      nextIs (exec (.proxyAccess 3 v) State.reset) (fun t => t.word (Reg.PXY_DATA 3) == 0x4C560000) = true) ∧
    ((0x30000 / 0x10000 = 3 ∧ (regAt Reg.DROOP_CFG).isSome = true ∧ Reg.DROOP_CFG / 0x10000 = 3) ∧
      nextIs (exec (.registerWrite (BitVec.ofNat 20 Reg.DROOP_CFG) 0xFFFFFFFF) State.reset)
        (fun t => t.word Reg.DROOP_CFG != State.reset.word Reg.DROOP_CFG) = true) := by decide +kernel

theorem witness_RegisterAccess_other :
    (inSpace 0x2FFFC = true ∧ (regAt 0x2FFFC).isNone = true) ∧
    (let s := { bare with latched := [(Reg.UNATTR_HI, 9)] }
     inSpace Reg.UNATTR_HI = true ∧ (regAt Reg.UNATTR_HI).isSome = true ∧ Map.get? s.latched Reg.UNATTR_HI = some 9 ∧
      nextIs (exec (.readToClear (BitVec.ofNat 20 Reg.UNATTR_HI)) s)
        (fun t => t.answers == [(0, [9, 0, 0, 0])] && t.latched == []) = true) ∧
    (∀ x ∈ [(0, 3), (0xC0000000, 3), (0x400F0000, 2), (0x60040000, 1), (0x40000000 + Reg.NONCE 0, 0)],
      nextIs (exec (.proxyAccess 2 (BitVec.ofNat 32 x.1)) bare) (fun t => t.rd (Reg.PXY_STAT 2) 1 0 == x.2) = true) ∧
    (let s := regs [(Reg.ACC_MGMT, 2 ^ 3), (Reg.PXY_DATA 2, 0)]
     s.mayWrite 1 Reg.DROOP_CFG = true ∧ inSpace Reg.DROOP_CFG = true ∧
      nextIs (exec (.proxyAccess 2 (BitVec.ofNat 32 (0x60000000 + Reg.DROOP_CFG))) s)
        (fun t => t.rd (Reg.PXY_STAT 2) 1 0 == 0) = true) ∧
    (copyAt (Reg.NONCE 0) 4 4 (Reg.NONCE 0)).isSome = true := by decide +kernel

theorem witness_AccessCodes : fieldsApart [⟨7, 0, .rw, 0⟩, ⟨8, 8, .w1c, 0⟩] := by
  simp [fieldsApart]

theorem witness_RefusedAccess : State.reset.powered = true ∧ inSpace (0xFFFFFFFF : BitVec 32).toNat = false ∧ inSpace 0 = true ∧
    nextIs (exec (.csaccess 0 2 true) State.reset) (fun t => t.answers == [(2, [])]) = true := by decide +kernel

theorem witness_EventLog :
    (let s := regs [(Reg.ELOG_BASE_LO, 0x40000000)]
     s.rdb Reg.ELOG_CFG 31 = false ∧ (0x80000008 : W32).getLsbD 31 = true ∧ 8 ≤ bits (0x80000008 : W32).toNat 3 0 ∧
      s.inCarve (s.addrOf Reg.ELOG_BASE_LO Reg.ELOG_BASE_HI 64) (64 * 2 ^ 8 + 64) = true ∧
      s.hitsTables (s.addrOf Reg.ELOG_BASE_LO Reg.ELOG_BASE_HI 64) (64 * 2 ^ 8 + 64) = false ∧
      nextIs (exec (.elogEnable 0x80000008) s) (fun t => t.word Reg.ELOG_CFG == 0x80000008) = true) ∧
    (let s := regs [(Reg.EPROD, 5)] ring
     ((s.word Reg.EPROD).toNat + 2 ^ 32 - (5 : W32).toNat) % 2 ^ 32 ≤ 2 ^ s.rd Reg.ELOG_CFG 3 0 ∧
      nextIs (exec (.econsWrite 5) s) (fun t => t.word Reg.ECONS == 5) = true) ∧
    (State.reset.rdb Reg.ELOG_CFG 31 = false) ∧
    (let s := { ring with heldEvents := [⟨0, 0, 4, 1, false, 0, 1, []⟩] }
     s.elogRoom = true ∧ s.dropCount = 0 ∧
      nextIs (exec .heldRecordFlush s) (fun t => t.heldEvents == [] && t.word Reg.EPROD == 1 &&
        Mem.le t.mem (physCarve 0x40000000 + 12) 2 == 4) = true) ∧
    (ring.elogRoom = true ∧ ring.heldEvents = [] ∧ ring.dropCount = 0 ∧ ring.gates = [] ∧
      ring.hitsTables (ring.addrOf Reg.ELOG_BASE_LO Reg.ELOG_BASE_HI 64) (64 * 2 ^ ring.rd Reg.ELOG_CFG 3 0 + 64) = false ∧ sevOf 4 [1, 2] < 4 ∧ (4 : Nat) ≠ 1) ∧
    ((State.reset.heldEvents.length < 64) ∧
      64 ≤ ({ State.reset with heldEvents := List.replicate 64 ⟨0, 0, 4, 1, false, 0, 1, []⟩ } : State).heldEvents.length) := by
  decide +kernel

/-- A record of a severity. -/
def heldRec (sev : Nat) : EventRec := ⟨0, 0, 4, sev, false, 0, 1, []⟩

theorem witness_EventLog_other :
    (bare.rdb Reg.ELOG_CFG 31 = false ∧ (8 : W32).getLsbD 31 = false ∧ (0x80000007 : W32).getLsbD 31 = true ∧
      bits (0x80000007 : W32).toNat 3 0 < 8 ∧
      nextIs (exec (.elogEnable 0x80000007) bare) (fun t => !(t.rdb Reg.ELOG_CFG 31) && t.rd Reg.ELOG_CFG 3 0 == 7 &&
        t.heldEvents.map EventRec.code == [3]) = true) ∧
    (ring.rdb Reg.ELOG_CFG 31 = true ∧
      nextIs (exec (.elogEnable 9) ring) (fun t => !(t.rdb Reg.ELOG_CFG 31) && t.rd Reg.ELOG_CFG 3 0 == 8) = true) ∧
    2 ^ ring.rd Reg.ELOG_CFG 3 0 < ((ring.word Reg.EPROD).toNat + 2 ^ 32 - (1 : W32).toNat) % 2 ^ 32 ∧
    (let s := { bare with heldEvents := [heldRec 1] }
     s.heldEvents ≠ [] ∧ s.elogRoom = false) ∧
    (let s := { bare with heldEvents := heldRec 4 :: heldRec 2 :: List.replicate 62 (heldRec 4) }
     64 ≤ s.heldEvents.length ∧ takeNonFatal s.heldEvents = some (heldRec 2, List.replicate 63 (heldRec 4))) ∧
    (let s := { bare with heldEvents := List.replicate 64 (heldRec 4) }
     64 ≤ s.heldEvents.length ∧ takeNonFatal s.heldEvents = none ∧ (s.hold (heldRec 4)).dropSev = 4) := by decide +kernel

/-! ## Strokes -/

/-- A word built from fields: each value at its bit. -/
def fields (l : List (Nat × Nat)) : Nat := l.foldl (fun a x => a + x.2 * 2 ^ x.1) 0

/-- Sheet 0 runs context 0 on quires 0 to 3; its granules 0 to 3 rest in T0 pinned, the SCB is granule 2, and the script at
address 0 holds one descriptor. -/
def floor (d : Nat) : State :=
  put (physT0 0) (leBytes 64 d) (put (physCarve 0) ((List.range 4).flatMap fun g => leBytes 8 (mkEntry 0 false true false 0 0 0 g))
    { regs ([(Reg.SCTL 0, 2), (Reg.TLIMIT 0, 64), (Reg.SCB_LO 0, 0x20000), (Reg.CCFG 0 0, 2 ^ 31), (Reg.CSTAT 0 0, 2)] ++
        (List.range 4).map fun q => (Reg.QUIRE_STAT q, 3)) with
      sheets := [(0, { SheetRt.zero with qmask := 15, slices := 1, cur := some 0 })] })

/-- The run of scribe k of quire q, and the state after its fetch. -/
def runOf (s : State) (q k : Nat) : Run :=
  let e := State.seek 0 k scriptFuel (s.scribe (8 * q + k)).pc s
  ⟨0, 0, q, k, e.pc, e.d⟩

/-- The state after the fetch. -/
def fetched (s : State) (q k : Nat) : State := (State.seek 0 k scriptFuel (s.scribe (8 * q + k)).pc s).st

/-- What `StandsAt` asks, as a check. -/
def stands (s : State) (q k op : Nat) (sub : Nat → Bool) : Bool :=
  let e := State.seek 0 k scriptFuel (s.scribe (8 * q + k)).pc s
  s.runsOn q == some (0, 0) && e.cause == 0 && opDefined (kOp e.d) (kSub e.d) && kOp e.d == op && sub (kSub e.d) &&
  fetchCause k e.d == 0

/-- The check gives `StandsAt`. -/
theorem stands_at {s : State} {q k op : Nat} {sub : Nat → Bool} (h : stands s q k op sub = true) :
    StandsAt s q k op sub (runOf s q k) (fetched s q k) := by
  simp only [stands, Bool.and_eq_true, beq_iff_eq] at h
  obtain ⟨⟨⟨⟨⟨h1, h2⟩, h3⟩, h4⟩, h5⟩, h6⟩ := h
  exact ⟨0, 0, h1, h2, rfl, rfl, h3, h4, h5, h6⟩

/-- The check, and no predicate that skips the stroke, give `MayRun`. -/
theorem may_run {s : State} {q k op : Nat} {sub : Nat → Bool} (h : stands s q k op sub = true)
    (h' : (fetched s q k).skipped q (runOf s q k).d = false) : MayRun s q k op sub (runOf s q k) (fetched s q k) :=
  ⟨stands_at h, h'⟩

/-- Did a check give no fault? -/
def okUnit : Except Nat Unit → Bool
  | .ok () => true
  | .error _ => false

/-- A check that gave no fault is its state and that answer. -/
theorem ok_eta {x : State × Except Nat Unit} (h : okUnit x.2 = true) : x = (x.1, .ok ()) := by
  obtain ⟨s, _ | ⟨⟨⟩⟩⟩ := x
  · cases h
  · rfl

/-- The place at which a check failed. -/
def errAt : Except Nat Unit → Option Nat
  | .ok () => none
  | .error a => some a

/-- A check that failed is its state and that place. -/
theorem err_eta {x : State × Except Nat Unit} {a : Nat} (h : errAt x.2 = some a) : x = (x.1, .error a) := by
  obtain ⟨s, b | ⟨⟨⟩⟩⟩ := x
  · cases h; rfl
  · cases h

/-- A check with no failing place is its state and none. -/
theorem none_eta {α : Type} {x : State × Option α} (h : x.2 = none) : x = (x.1, none) := by
  obtain ⟨s, _ | _⟩ := x
  · rfl
  · cases h

/-- The state that a read left. -/
def gotState {α : Type} : Got α → State
  | .ok s _ => s
  | .wait s => s
  | .bad s _ _ => s

/-- The value that a read gave. -/
def gotVal {α : Type} (d : α) : Got α → α
  | .ok _ v => v
  | _ => d

/-- Did a read give a value? -/
def gotOk {α : Type} : Got α → Bool
  | .ok _ _ => true
  | _ => false

/-- A read that gave a value is its state and value. -/
theorem got_eta {α : Type} (v : α) {g : Got α} (h : gotOk g = true) : g = .ok (gotState g) (gotVal v g) := by
  cases g <;> simp_all [gotOk, gotState, gotVal]

/-- A well address in an operand word. -/
def well (a : Nat) : Nat := 2 ^ 60 + a
/-- A tiered address in an operand word. -/
def tier (a : Nat) : Nat := 2 ^ 61 + a

/-- A folio header: format, rows, columns. -/
def header (fmt rows cols : Nat) : List Byte :=
  ([fmt, 0, rows, cols] ++ List.replicate 11 0 ++ [1]).map (BitVec.ofNat 8)

/-- A VEC of folios in the well: one tile, one row, one column; the recipe of slot 0 is FP32. -/
def vecFloor (sub : Nat) : State :=
  put (physWell 0 0x1000) (header 7 1 1) (put (physWell 0 0x2000) (header 7 1 1) (put (physT0 2 + 16) [0]
    (floor (fields [(0, 4), (8, sub), (16, 1), (64, well 0x1000), (128, if sub < 6 then well 0x2000 else 0), (256, well 0x4000), (320, 1),
      (327, 1), (334, 1)]))))


/-- As above, with three folios and, for ROWMUL and ROWDIV, a column as the second operand. -/
def vecThree (sub : Nat) : State :=
  put (physWell 0 0x1000) (header 7 1 1) (put (physWell 0 0x2000) (header 7 1 1) (put (physWell 0 0x3000) (header 7 1 1) (floor
    (fields [(0, 4), (8, sub), (16, 1), (64, well 0x1000), (128, well 0x2000), (192, if sub < 12 then well 0x3000 else 0),
      (256, well 0x4000), (320, 1), (327, 1), (334, 1)]))))

/-- No rows. -/
def noRows : Rows := ⟨false, 0, [], []⟩

theorem witness_ComputeStrokes :
    (∃ r u, MayRun (floor (fields [(16, 255)])) 3 7 0x00 (fun _ => true) r u) ∧
    (∃ r u, StandsAt (floor (fields [(16, 255), (24, 0x80)])) 3 7 0x00 (fun _ => true) r u ∧ u.skipped 3 r.d = true) ∧
    (let s := regs [(Reg.IMPT_LO 0, 0x30000)] (put (physT0 3) (leBytes 16 (fields [(0, 0x10), (58, 15), (63, 1), (64, 0x1000)]))
        (floor (fields [(0, 8), (16, 1), (64, 3 * 2 ^ 60), (256, well 0x2000)])))
     stands s 0 0 0x08 (fun _ => true) = true ∧ (fetched s 0 0).skipped 0 (runOf s 0 0).d = false ∧
      (match moveStroke (runOf s 0 0) (fetched s 0 0) with | .wait v => v.outOps.length == 1 | _ => false) = true) ∧
    (let s := floor (fields [(0, 8), (16, 1), (64, tier 0x50000), (256, well 0x2000)])
     stands s 0 0 0x08 (fun _ => true) = true ∧
      (match moveStroke (runOf s 0 0) (fetched s 0 0) with | .bad _ c a => c == 0x0B && a == 0x50000 | _ => false) = true ∧
      nextIs (exec (.move 0 0 0) s) (fun t => t.ctxState 0 0 == 5 && t.word (Reg.FAULTS 0) == 1) = true) ∧
    (let s := floor (fields [(0, 8), (16, 1), (24, 0xC0), (64, tier 0x50000), (256, well 0x2000)])
     stands s 0 0 0x08 (fun _ => true) = true ∧ (fetched s 0 0).skipped 0 (runOf s 0 0).d = false) ∧
    (let s := floor (fields [(0, 8), (16, 1), (24, 0x80), (64, tier 0x50000), (256, well 0x2000)])
     stands s 0 0 0x08 (fun _ => true) = true ∧ (fetched s 0 0).skipped 0 (runOf s 0 0).d = true ∧
      nextIs (exec (.move 0 0 0) s) (fun t => (t.scribe 0).pc == 64 && t.ctxState 0 0 == 2) = true) ∧
    (let s := floor (fields [(0, 8), (16, 1), (64, tier 0x10000), (256, well 0x2000)])
     gotOk (moveStroke (runOf s 0 0) (fetched s 0 0)) = true) := by
  refine ⟨⟨_, _, may_run (by decide +kernel) (by decide +kernel)⟩, ⟨_, _, stands_at (by decide +kernel), by decide +kernel⟩, ?_⟩
  decide +kernel

theorem witness_ComputeStrokes_other :
    (∃ r u v x, MayRun (floor (fields [(0, 5), (16, 1), (64, well 0x1000), (256, well 0x4000), (320, 1), (327, 1), (334, 1), (344, 16), (359, 1), (41, 1)])) 0 0 0x05
      (· == 0) r u ∧ u.readRows r = .ok v x ∧ x.m = 0) ∧
    (0x05 ∉ [0x08, 0x09, 0x0A]) ∧ bare.runsOn 0 = none ∧
    (let s := (floor 0).setScribe 0 { ScribeRt.zero with pc := 0x50000 }
     s.runsOn 0 = some (0, 0) ∧ (State.seek 0 0 scriptFuel (s.scribe 0).pc s).cause ≠ 0 ∧
      nextIs (exec (.cmp 0 0) s) (fun t => t.ctxState 0 0 == 5) = true) ∧
    (let s := floor (fields [(0, 0x0B), (16, 255)])
     let e := State.seek 0 0 scriptFuel (s.scribe 0).pc s
     e.cause = 0 ∧ opDefined (kOp e.d) (kSub e.d) = false ∧ nextIs (exec (.nop 0 0 0) s) (fun t => t.ctxState 0 0 == 5) = true) ∧
    (let s := floor (fields [(16, 255)])
     let e := State.seek 0 0 scriptFuel (s.scribe 0).pc s
     e.cause = 0 ∧ opDefined (kOp e.d) (kSub e.d) = true ∧ kOp e.d ≠ 0x08 ∧ nextIs (exec (.move 0 0 0) s) (fun t => t == s) = true) ∧
    (let s := floor (fields [(0, 8), (16, 1), (64, tier 0x10000), (256, well 0x2004)])
     let e := State.seek 0 0 scriptFuel (s.scribe 0).pc s
     e.cause = 0 ∧ opDefined (kOp e.d) (kSub e.d) = true ∧ kOp e.d = 0x08 ∧ fetchCause 0 e.d ≠ 0) ∧
    (∀ row ∈ [((fun q k _ => .waitGe q k : StrokeCmd), 0x10, 0), (fun q k _ => .flagAdd q k, 0x11, 1), (.ret, 0x19, 0)],
      nextIs (exec (row.1 0 0 0) (floor (fields [(0, row.2.1), (8, row.2.2), (16, 1), (24, 0x80),
        (if row.2.1 = 0x10 then 64 else 256, if row.2.1 = 0x19 then 0 else tier 0x10000)])))
        (fun t => (t.scribe 0).pc == 64 && t.ctxState 0 0 == 2) = true) := by
  refine ⟨⟨_, _, _, _, may_run (by decide +kernel) (by decide +kernel), got_eta noRows (by decide +kernel), by decide +kernel⟩, ?_⟩
  decide +kernel

theorem witness_VecValues : ∃ r u u1 u2 u3 u4 x rc fa fb,
    MayRun (vecFloor 0) 0 0 0x04 (· == 0) r u ∧ u.readRows r = .ok u1 x ∧ x.m ≠ 0 ∧ u1.useRecipe r none = .ok u2 rc ∧
    State.readFolios r (oSpace (kSrc0 r.d)) (kStride0 r.d) (kNp r.d) (oAddr r.k (kSrc0 r.d)) [] u2 = .ok u3 fa ∧
    State.readFolios r (oSpace (kSrc1 r.d)) (kStride1 r.d) (kNp r.d) (oAddr r.k (kSrc1 r.d)) [] u3 = .ok u4 fb :=
  ⟨_, _, _, _, _, _, _, _, _, _, may_run (by decide +kernel) (by decide +kernel), got_eta noRows (by decide +kernel),
    by decide +kernel, got_eta (mkRecipe 0 0) (by decide +kernel), got_eta [] (by decide +kernel), got_eta [] (by decide +kernel)⟩

theorem witness_VecValues_three : ∃ r u u1 u2 u3 u4 u6 x rc fa fb fc,
    MayRun (vecThree 3) 0 0 0x04 (· == 3) r u ∧ u.readRows r = .ok u1 x ∧ x.m ≠ 0 ∧ u1.useRecipe r none = .ok u2 rc ∧
    State.readFolios r (oSpace (kSrc0 r.d)) (kStride0 r.d) (kNp r.d) (oAddr r.k (kSrc0 r.d)) [] u2 = .ok u3 fa ∧
    State.readFolios r (oSpace (kSrc1 r.d)) (kStride1 r.d) (kNp r.d) (oAddr r.k (kSrc1 r.d)) [] u3 = .ok u4 fb ∧
    State.readPacked r (oSpace (kSrc2 r.d)) (kNp r.d) (oAddr r.k (kSrc2 r.d)) [] u4 = .ok u6 fc :=
  ⟨_, _, _, _, _, _, _, _, _, _, _, _, may_run (by decide +kernel) (by decide +kernel), got_eta noRows (by decide +kernel),
    by decide +kernel, got_eta (mkRecipe 0 0) (by decide +kernel), got_eta [] (by decide +kernel), got_eta [] (by decide +kernel),
    got_eta [] (by decide +kernel)⟩

theorem witness_VecValues_column : ∃ r u u1 u2 u3 u5 x rc fa cb,
    MayRun (vecThree 12) 0 0 0x04 (· == 12) r u ∧ u.readRows r = .ok u1 x ∧ x.m ≠ 0 ∧ u1.useRecipe r none = .ok u2 rc ∧
    State.readFolios r (oSpace (kSrc0 r.d)) (kStride0 r.d) (kNp r.d) (oAddr r.k (kSrc0 r.d)) [] u2 = .ok u3 fa ∧
    u3.readColumn r (oSpace (kSrc1 r.d)) (oAddr r.k (kSrc1 r.d)) = .ok u5 cb :=
  ⟨_, _, _, _, _, _, _, _, _, _, may_run (by decide +kernel) (by decide +kernel), got_eta noRows (by decide +kernel),
    by decide +kernel, got_eta (mkRecipe 0 0) (by decide +kernel), got_eta [] (by decide +kernel), got_eta [] (by decide +kernel)⟩

/-- RED of one folio in the well, and a MOVE of one line. -/
def redFloor (sub : Nat) : State :=
  put (physWell 0 0x1000) (header 7 1 1) (floor (fields [(0, 5), (8, sub), (16, 1), (64, well 0x1000), (256, well 0x4000), (320, 1),
    (327, 1), (334, 1)]))

theorem witness_RedValues :
    (∃ r u u1 u2 x fa, MayRun (redFloor 3) 0 0 0x05 (· == 3) r u ∧ u.readRows r = .ok u1 x ∧ x.m ≠ 0 ∧
      State.readFolios r (oSpace (kSrc0 r.d)) (kStride0 r.d) (kNp r.d) (oAddr r.k (kSrc0 r.d)) [] u1 = .ok u2 fa) ∧
    ∃ r u v b, MayRun (floor (fields [(0, 8), (16, 1), (64, tier 0x10000), (256, well 0x2000)])) 0 0 0x08 (fun _ => true) r u ∧
      u.readOp r (oSpace (kSrc0 r.d)) (oAddr r.k (kSrc0 r.d)) (64 * (kImm2 r.d % 16384 + 1)) = .ok v b :=
  ⟨⟨_, _, _, _, _, _, may_run (by decide +kernel) (by decide +kernel), got_eta noRows (by decide +kernel), by decide +kernel,
    got_eta [] (by decide +kernel)⟩, _, _, _, _, may_run (by decide +kernel) (by decide +kernel), got_eta [] (by decide +kernel)⟩

theorem witness_BoundaryEffects : ((floor 0).sheet 0).cur = some 0 ∧ ((floor 0).scribe 9).stallFrom = none ∧
    (floor 0).quireUnder 1 ≠ 4 ∧ (regs [(Reg.QUIRE_STAT 1, 4)] (floor 0)).quireUnder 1 = 4 ∧
    ((((floor 0).passed (runOf (floor 0) 1 1) 128 true).scribe 9).pc = 128 ∧
      ((floor 0).passed (runOf (floor 0) 1 1) 128 true).word (Reg.STROKES 1) = 1) := by decide +kernel

/-- A wait for the word at 0x10000, which holds 5. -/
def waitFloor (sub ref : Nat) : State :=
  put (physT0 1) [5] (floor (fields [(0, 0x10), (8, sub), (16, 255), (64, tier 0x10000), (192, ref)]))

theorem witness_WaitRows :
    (∃ r u v b, MayRun (waitFloor 0 5) 0 0 0x10 (· == 0) r u ∧ u.watchable r (kSrc0 r.d) = true ∧
      u.readOp r 2 (oAddr r.k (kSrc0 r.d)) 8 = .ok v b ∧ kSrc2 r.d ≤ leNat b) ∧
    (∃ r u v b, MayRun (waitFloor 0 6) 0 0 0x10 (· == 0) r u ∧ u.watchable r (kSrc0 r.d) = true ∧
      u.readOp r 2 (oAddr r.k (kSrc0 r.d)) 8 = .ok v b ∧ ¬kSrc2 r.d ≤ leNat b) ∧
    nextIs (exec (.waitGe 0 0) (waitFloor 0 5)) (fun t => (t.scribe 0).pc == 64) = true ∧
    nextIs (exec (.waitGe 0 0) (waitFloor 0 6)) (fun t => (t.scribe 0).watch == some 0x10000) = true ∧
    nextIs (exec (.waitEq 0 0) (waitFloor 1 5)) (fun t => (t.scribe 0).pc == 64) = true ∧
    nextIs (exec (.waitNe 0 0) (waitFloor 2 5)) (fun t => (t.scribe 0).watch == some 0x10000) = true ∧
    nextIs (exec (.step 0 0) ((waitFloor 3 0).setScribe 0 { ScribeRt.zero with last := 4 }))
      (fun t => (t.scribe 0).last == 5 && (t.quire 0).lastStep == 5 && (t.scribe 0).pc == 64) = true :=
  ⟨⟨_, _, _, _, may_run (by decide +kernel) (by decide +kernel), by decide +kernel, got_eta [] (by decide +kernel), by decide +kernel⟩,
   ⟨_, _, _, _, may_run (by decide +kernel) (by decide +kernel), by decide +kernel, got_eta [] (by decide +kernel), by decide +kernel⟩,
   by decide +kernel⟩

theorem witness_WaitRows_other :
    (∃ r u, MayRun (floor (fields [(0, 0x10), (16, 255), (64, well 0x1000)])) 0 0 0x10 (· == 0) r u ∧ oSpace (kSrc0 r.d) ≠ 2) ∧
    (∃ r u, MayRun (floor (fields [(0, 0x10), (16, 255), (64, tier 0x50000)])) 0 0 0x10 (· == 0) r u ∧ oSpace (kSrc0 r.d) = 2 ∧
      u.pinCause r.i (oAddr r.k (kSrc0 r.d)) 8 ≠ 0) ∧
    (let s := { waitFloor 0 5 with failing := [physT0 1 / 64] }
     ∃ r u, MayRun s 0 0 0x10 (· == 0) r u ∧ u.watchable r (kSrc0 r.d) = true ∧
      (match u.readOp r 2 (oAddr r.k (kSrc0 r.d)) 8 with | .bad _ _ _ => true | _ => false) = true) :=
  ⟨⟨_, _, may_run (by decide +kernel) (by decide +kernel), by decide +kernel⟩,
   ⟨_, _, may_run (by decide +kernel) (by decide +kernel), by decide +kernel, by decide +kernel⟩,
   ⟨_, _, may_run (by decide +kernel) (by decide +kernel), by decide +kernel, by decide +kernel⟩⟩

/-- The first STEP wait of a script gives its recipe side to a scribe outside its mask (02_formats.md R71). -/
theorem witness_WaitRows_side :
    let s := { floor (fields [(0, 0x10), (8, 3), (16, 1), (64, tier 0x10000)]) with
      ctxs := [(0, { CtxRt.zero with stepSide := 1 })] }
    let r := runOf s 0 0
    r.pc = (s.quire r.q).entry ∧ kSub r.d = 3 ∧ bit (kSmask r.d) 5 = false ∧ (s.ctx r.i r.c).stepSide = 1 ∧
      ((s.takeStep r 5).scribe 5).side = 1 ∧ (s.scribe 5).side = 0 := by decide +kernel

/-- A floor whose scribe 0 alone is in the mask, on a FLAG to the word at 0x10000, which holds 5. -/
def flagFloor (sub imm2 : Nat) : State :=
  put (physT0 1) [5] (floor (fields [(0, 0x11), (8, sub), (16, 1), (192, 9), (256, tier 0x10000), (480, imm2)]))

/-- A floor on a VARIANT: the selection word at 0x10000 names the step in its upper half and the variant 2, whose table entry
at 0x10100 is valid and names 0x40. -/
def variantFloor (step : Nat) : State :=
  put (physT0 1) (leBytes 8 (fields [(0, 2), (32, step)])) (put (physT0 1 + 0x110) (leBytes 8 (fields [(0, 0x40), (63, 1)]))
    (floor (fields [(0, 0x18), (16, 255), (64, tier 0x10000), (128, tier 0x10100)])))

/-- All eight scribes of quire 0 stand at the barrier at address 0. -/
def allWait (s : State) : State :=
  (List.range 8).foldl (fun s k => s.setScribe k { ScribeRt.zero with atBarrier := true }) s

theorem witness_BarrierRows :
    (∃ r u, MayRun (flagFloor 1 0) 0 0 0x11 (· == 1) r u ∧
      (u.setScribe r.scribe { u.scribe r.scribe with pc := r.pc, atBarrier := true }).allAt r = true) ∧
    (∃ r u, MayRun (variantFloor 0) 0 0 0x18 (fun _ => true) r u ∧
      (u.setScribe r.scribe { u.scribe r.scribe with pc := r.pc, atBarrier := true }).allAt r = false) ∧
    (let r := runOf (flagFloor 1 0) 0 0
     let s := fetched (flagFloor 1 0) 0 0
     oSpace (kDst r.d) ≠ 3 ∧ kImm2 r.d % 2 = 0 ∧ ∃ v b w, s.readOp r (oSpace (kDst r.d)) (oAddr r.k (kDst r.d)) 8 = .ok v b ∧
      v.outBad r (Out.whole (oSpace (kDst r.d)) (oAddr r.k (kDst r.d)) (leBytes 8 14)) = (w, none)) ∧
    (let s := flagFloor 0 1
     let r := runOf s 0 0
     kImm2 r.d % 2 = 1 ∧ s.gathers = [] ∧ s.fenceOpen r = true) ∧
    nextIs (exec (.flagAdd 0 0) (flagFloor 1 0)) (fun t => Mem.le t.mem (physT0 1) 8 == 14 && (t.scribe 0).pc == 64) = true ∧
    nextIs (exec (.flagStore 0 0) (flagFloor 0 1)) (fun t => Mem.le t.mem (physT0 1) 8 == 9) = true ∧
    nextIs (exec (.flagStore 0 0) ((flagFloor 0 1).setQuire 0 { QuireRt.zero with issued := 1 }))
      (fun t => Mem.le t.mem (physT0 1) 8 == 5 && (t.scribe 0).atBarrier) = true :=
  ⟨⟨_, _, may_run (by decide +kernel) (by decide +kernel), by decide +kernel⟩,
   ⟨_, _, may_run (by decide +kernel) (by decide +kernel), by decide +kernel⟩,
   ⟨by decide +kernel, by decide +kernel, _, _, _, got_eta [] (by decide +kernel), none_eta (by decide +kernel)⟩,
   by decide +kernel⟩

theorem witness_BarrierRows_variant :
    (let s := variantFloor 0
     let r := runOf s 0 0
     (s.scribe r.scribe).ret = 0 ∧ s.watchable r (kSrc0 r.d) = true ∧
      (∃ v b w tb, s.readOp r 2 (oAddr r.k (kSrc0 r.d)) 8 = .ok v b ∧ bits (leNat b) 63 32 = (v.quire r.q).lastStep.toNat % 2 ^ 32 ∧
        v.readOp r (oSpace (kSrc1 r.d)) (oAddr r.k (kSrc1 r.d) + 8 * bits (leNat b) 4 0) 8 = .ok w tb ∧ bit (leNat tb) 63 = true)) ∧
    (let s := variantFloor 1
     let r := runOf s 0 0
     ∃ v b, s.readOp r 2 (oAddr r.k (kSrc0 r.d)) 8 = .ok v b ∧ bits (leNat b) 63 32 ≠ (v.quire r.q).lastStep.toNat % 2 ^ 32) ∧
    nextIs (exec (.variant 0 3) (allWait (variantFloor 0)))
      (fun t => (t.scribe 5).pc == 0x40 && (t.scribe 5).ret == 64 && (t.quire 0).variantAt == 0) = true ∧
    nextIs (exec (.variant 0 3) (allWait (variantFloor 1))) (fun t => (t.scribe 5).watch == some 0x10000) = true :=
  ⟨⟨by decide +kernel, by decide +kernel, _, _, _, _, got_eta [] (by decide +kernel), by decide +kernel, got_eta [] (by decide +kernel),
    by decide +kernel⟩, ⟨_, _, got_eta [] (by decide +kernel), by decide +kernel⟩, by decide +kernel⟩

/-- Did a read fail? -/
def gotBad {α : Type} : Got α → Bool
  | .bad _ _ _ => true
  | _ => false

theorem witness_BarrierRows_other :
    (let s := regs [(Reg.IMPT_LO 0, 0x30000)] (put (physT0 3) (leBytes 16 (fields [(0, 0x10), (58, 15), (63, 1), (64, 0x1000)]))
        (floor (fields [(0, 0x11), (16, 1), (192, 9), (256, 3 * 2 ^ 60)])))
     let r := runOf s 0 0
     let a := oAddr r.k (kDst r.d)
     let u := State.seenImport (fetched s 0 0) (some r.i) a
     oSpace (kDst r.d) = 3 ∧ importOk (u.importEntry (some r.i) a) (a % 2 ^ 36) 8 (needPerm 0x0C (kSub r.d)) = true ∧ a < 2 ^ 48 ∧
      nextIs (exec (.flagStore 0 0) s) (fun t => t.outOps.map (fun o => (o.pkt.opc, o.pkt.imm)) == [(0x0C, 9)] &&
        (t.scribe 0).pc == 64) = true) ∧
    (let s := floor (fields [(0, 0x11), (16, 1), (192, 9), (256, 3 * 2 ^ 60)])
     let r := runOf s 0 0
     importOk ((State.seenImport (fetched s 0 0) (some r.i) 0).importEntry (some r.i) 0) 0 8 (needPerm 0x0C (kSub r.d)) = false) ∧
    (let s := { flagFloor 1 0 with failing := [physT0 1 / 64] }
     gotBad ((fetched s 0 0).readOp (runOf s 0 0) 2 0x10000 8) = true) ∧
    (let s := put (physCarve 8) (leBytes 8 (mkEntry 0 true true false 0 0 0 1)) (flagFloor 1 0)
     gotOk ((fetched s 0 0).readOp (runOf s 0 0) 2 0x10000 8) = true ∧
      ((gotState ((fetched s 0 0).readOp (runOf s 0 0) 2 0x10000 8)).outBad (runOf s 0 0)
        (Out.whole 2 0x10000 (leBytes 8 14))).2.isSome = true) ∧
    (let s := put (physT0 1 + 0x117) [0] (variantFloor 0)
     ((variantFloor 0).setScribe 0 { ScribeRt.zero with ret := 64 } |>.scribe 0).ret ≠ 0 ∧ oSpace (well 0) ≠ 2 ∧
      nextIs (exec (.variant 0 3) (allWait s)) (fun t => t.ctxState 0 0 == 5) = true) := by decide +kernel

/-- A floor on a LIVEANY whose row block at line 16 holds one valid row. -/
def liveFloor : State :=
  put (physWell 0 1024) [1] (put (physWell 0 (1024 + 64)) (leBytes 8 (2 ^ 63)) (floor
    (fields [(0, 0x12), (16, 1), (344, 16), (359, 1), (480, 0x300)])))

theorem witness_BranchRows :
    (∃ r u w b, MayRun liveFloor 0 0 0x12 (· == 0) r u ∧
      (u.setScribe r.scribe { u.scribe r.scribe with pc := r.pc, atBarrier := true }).allAt r = true ∧
      (u.setScribe r.scribe { u.scribe r.scribe with pc := r.pc, atBarrier := true }).readOp { r with k := lowScribe r.d } 1
        (64 * kRowblk r.d) 576 = .ok w b ∧
      ∃ v, w.sampleMask r.i r.c ((((List.range (min 64 (leNat (b.take 4)))).map fun m => leNat ((b.drop (64 + 8 * m)).take 8)).filter
        eValid).map eAct) = (v, .ok ())) ∧
    (∃ r u w b, MayRun (put (physT0 1) [5] (floor (fields [(0, 0x12), (8, 1), (16, 1), (64, tier 0x10000), (192, 5)]))) 0 0 0x12
        (· == 1) r u ∧
      (u.setScribe r.scribe { u.scribe r.scribe with pc := r.pc, atBarrier := true }).readOp { r with k := lowScribe r.d }
        (oSpace (kSrc0 r.d)) (oAddr (lowScribe r.d) (kSrc0 r.d)) 8 = .ok w b) ∧
    (∃ r u, MayRun ((floor (fields [(0, 0x19), (16, 255)])).setScribe 0 { ScribeRt.zero with ret := 64 }) 0 0 0x19
      (fun _ => true) r u ∧ (u.scribe r.scribe).ret ≠ 0) ∧
    (∃ r u, MayRun (floor (fields [(0, 0x1F), (16, 255)])) 0 0 0x1F (fun _ => true) r u ∧ (u.scribe r.scribe).ret = 0) ∧
    nextIs (exec (.liveany 0 0) liveFloor) (fun t => (t.quire 0).preds == 8 && (t.scribe 0).pc == 64) = true ∧
    nextIs (exec (.ret 0 0 0) ((floor (fields [(0, 0x19), (16, 255)])).setScribe 0 { ScribeRt.zero with ret := 192 }))
      (fun t => (t.scribe 0).pc == 192 && (t.scribe 0).ret == 0) = true ∧
    nextIs (exec (.end_ 0 0 0) (floor (fields [(0, 0x1F), (16, 255)]))) (fun t => (t.scribe 0).pc == 0) = true ∧
    nextIs (exec (.ret 0 0 0) (floor (fields [(0, 0x19), (16, 255)]))) (fun t => t.ctxState 0 0 == 5) = true :=
  ⟨⟨_, _, _, _, may_run (by decide +kernel) (by decide +kernel), by decide +kernel, got_eta [] (by decide +kernel), _,
    ok_eta (by decide +kernel)⟩,
   ⟨_, _, _, _, may_run (by decide +kernel) (by decide +kernel), got_eta [] (by decide +kernel)⟩,
   ⟨_, _, may_run (by decide +kernel) (by decide +kernel), by decide +kernel⟩,
   ⟨_, _, may_run (by decide +kernel) (by decide +kernel), by decide +kernel⟩, by decide +kernel⟩

theorem witness_BranchRows_other :
    (let s := floor (fields [(0, 0x12), (8, 1), (16, 3), (64, tier 0x10000), (192, 5)])
     ∃ r u, MayRun s 0 0 0x12 (· == 1) r u ∧
      (u.setScribe r.scribe { u.scribe r.scribe with pc := r.pc, atBarrier := true }).allAt r = false) ∧
    (let s := { floor (fields [(0, 0x12), (8, 1), (16, 1), (64, tier 0x10000), (192, 5)]) with failing := [physT0 1 / 64] }
     ∃ r u, MayRun s 0 0 0x12 (· == 1) r u ∧
      (u.setScribe r.scribe { u.scribe r.scribe with pc := r.pc, atBarrier := true }).allAt r = true ∧
      gotBad ((u.setScribe r.scribe { u.scribe r.scribe with pc := r.pc, atBarrier := true }).readOp { r with k := lowScribe r.d }
        (oSpace (kSrc0 r.d)) (oAddr (lowScribe r.d) (kSrc0 r.d)) 8) = true) ∧
    (let s := { regs [(Reg.CCFG 0 0, 2 ^ 31 + 2 ^ 9), (Reg.JREC_LO 0, 0x10000)] liveFloor with failing := [physT0 1 / 64] }
     nextIs (exec (.liveany 0 0) s) (fun t => t.ctxState 0 0 == 5) = true) :=
  ⟨⟨_, _, may_run (by decide +kernel) (by decide +kernel), by decide +kernel⟩,
   ⟨_, _, may_run (by decide +kernel) (by decide +kernel), by decide +kernel, by decide +kernel⟩, by decide +kernel⟩

/-- A RED whose row block at line 16 of the well holds one valid row in entry 0, in a context under a job's live mask. -/
def maskFloor : State :=
  regs [(Reg.CCFG 0 0, 2 ^ 31 + 2 ^ 9), (Reg.JREC_LO 0, 0x10000)]
    (put (physWell 0 1088) (leBytes 8 (2 ^ 63)) (floor (fields [(0, 5), (16, 255), (64, well 0x1000), (256, well 0x4000), (320, 1),
      (327, 1), (334, 1), (344, 16), (359, 1)])))

/-- The state and the bytes that its row block gives. -/
def maskSeen : State := gotState ((fetched maskFloor 0 0).rowBlock (runOf maskFloor 0 0))

/-- Its bytes. -/
def maskBlock : List Byte := gotVal [] ((fetched maskFloor 0 0).rowBlock (runOf maskFloor 0 0))

/-- Its slips. -/
def maskActs : List Nat := (((List.range 64).map fun m => leNat ((maskBlock.drop (64 + 8 * m)).take 8)).filter eValid).map eAct

theorem witness_SequencerEvents :
    (let s := floor (fields [(0, 1), (16, 255)])
     let e := State.seek 0 0 scriptFuel (s.scribe 0).pc s
     s.runsOn 0 = some (0, 0) ∧ e.cause = 0 ∧ isWait e.d = false ∧ (s.scribe 0).watch = none ∧ (s.scribe 0).atBarrier = false ∧
      e.st.live 0 0 = true ∧
      nextIs (exec (.strokeOverrun 0 0) s) (fun t => t.word (Reg.OVERRUN 0) == 1 && t.ctxState 0 0 == 5) = true) ∧
    (let s := maskFloor
     let e := State.seek 0 0 scriptFuel (s.scribe 0).pc s
     s.runsOn 0 = some (0, 0) ∧ e.cause = 0 ∧ kRbv e.d = true ∧ hasRows (kOp e.d) = true ∧ fetchCause 0 e.d = 0 ∧
      s.skipped 0 e.d = false ∧ gotOk (e.st.rowBlock (runOf s 0 0)) = true ∧ maskBlock.length = 576 ∧
      maskSeen.kept (runOf s 0 0) 1 (64 * kRowblk e.d) 576 = some maskBlock ∧
      nextIs (exec (.liveMaskSample 0 0) s) (fun t => (t.scribe 0).dropped == [0]) = true) ∧
    (∀ n, n < 512 → (State.reset.scribe n).watch = none) ∧ (∀ n, n < 64 → (State.reset.quire n).stepAt = none) := by
  refine ⟨?_, ?_, fun _ _ => rfl, fun _ _ => rfl⟩ <;> decide +kernel

theorem witness_SequencerEvents_other : bare.runsOn 0 = none ∧
    (let s := waitFloor 0 5
     let e := State.seek 0 0 scriptFuel (s.scribe 0).pc s
     s.runsOn 0 = some (0, 0) ∧ isWait e.d = true ∧ kRbv e.d = false) := by decide +kernel

/-- The mask's sample reads its words, or stops at an uncorrectable one. -/
theorem witness_SequencerEvents_mask : (∃ u b, (fetched maskFloor 0 0).rowBlock (runOf maskFloor 0 0) = .ok u b) ∧
    (∃ v, maskSeen.sampleMask 0 0 maskActs = (v, .ok ())) ∧
    ∃ v, ({ maskSeen with failing := [physT0 1 / 64] } : State).sampleMask 0 0 maskActs =
      (v, .error 0x10018) :=
  ⟨⟨_, _, got_eta [] (by decide +kernel)⟩, ⟨_, ok_eta (by decide +kernel)⟩, _, err_eta (by decide +kernel)⟩

/-- Quire 0's STEP wait is on the word at 0x10000, which holds 5; its last step is 4, or 9. -/
theorem witness_SequencerEvents_step : ∀ last ∈ [4, 5, 9],
    let s := (waitFloor 3 0).setQuire 0 { QuireRt.zero with stepAt := some 0x10000, lastStep := BitVec.ofNat 64 last }
    s.runsOn 0 = some (0, 0) ∧ (s.quire 0).stepAt = some 0x10000 ∧ s.tierLe 0x10000 8 = 5 ∧
      ((s.stepEvent 0 0x10020).heldEvents.map EventRec.code = if last = 9 then [0x0403] else []) := by decide +kernel

/-- Scribe 0 of quire 0 watches the word at 0x10000, which holds 5. -/
def watchFloor (ref : Nat) : State := (waitFloor 0 ref).setScribe 0 { ScribeRt.zero with watch := some 0x10000 }

theorem watchFloor_others (ref n x : Nat) (hn : n ≠ 0) (hx : ((watchFloor ref).scribe n).watch = some x) : x / 64 ≠ 0x10000 / 64 := by
  have h1 : (watchFloor ref).scribe n = (waitFloor 0 ref).scribe n := Map.getD_set_ne _ _ _ hn
  have h2 : (waitFloor 0 ref).scribes = [] := rfl
  rw [h1, State.scribe, h2] at hx
  cases hx

theorem witness_SequencerEvents_wake : ∀ ref ∈ [5, 6],
    let s := watchFloor ref
    let e := State.seek 0 0 scriptFuel (s.scribe 0).pc s
    (s.scribe 0).watch = some 0x10000 ∧ s.runsOn 0 = some (0, 0) ∧ e.cause = 0 ∧ kOp e.d = 0x10 ∧ kSub e.d = 0 ∧
      oAddr 0 (kSrc0 e.d) = 0x10000 ∧ e.st.watchable (runOf s 0 0) (kSrc0 e.d) = true ∧
      gotOk (e.st.readOp (runOf s 0 0) 2 0x10000 8) = true ∧
      ((s.wakeScribe 0 0).scribe 0).pc = (if ref = 5 then 64 else 0) := by decide +kernel

/-! ## Sheets and contexts -/

/-- Sheet 2 in a state, with quires 0 to 3 and slice 0 named in its registers and applied. -/
def sheetIn (st : Nat) : State :=
  { regs [(Reg.SCTL 2, st), (Reg.QMASK_LO 2, 15), (Reg.SLICES_LO 2, 1), (Reg.TLIMIT 2, 64)] with
    sheets := [(2, { SheetRt.zero with qmask := 15, slices := 1 })] }

theorem witness_SheetRows :
    (let s := { sheetIn 0 with sheets := [] }
     s.powered = true ∧ s.sheetState 2 = 0 ∧ s.shapeBad 2 (s.qmaskReg 2) (s.slicesReg 2) = false ∧
      nextIs (exec (.assign 2) s) (fun t => t.sheetState 2 == 1 && (t.sheet 2).qmask == 15 && t.quireState 3 == 1) = true) ∧
    (let s := sheetIn 4
     s.sheetState 2 = 4 ∧ s.shapeBad 2 (s.qmaskReg 2) (s.slicesReg 2) = false ∧ s.sec.scribeOld = [] ∧
      (let s := { s with sec := { SecRt.zero with scribeOld := [1] } }
       s.sec.scribeOld ≠ [] ∧ 2 ∉ s.sec.scribeOld ∧ ∀ c, c < 8 → s.ctxState 2 c = 0) ∧
      nextIs (exec (.reshape 2) s) (fun t => t.sheetState 2 == 1 && (t.sheet 2).wakeTo == 4) = true ∧
      nextIs (exec (.reopen 2) s) (fun t => t.sheetState 2 == 2) = true ∧
      nextIs (exec (.sheetRelease 2) s) (fun t => t.sheetState 2 == 0 && t.word (Reg.QMASK_LO 2) == 0 && (t.sheet 2).qmask == 0) =
        true ∧
      nextIs (exec (.drain 2) s) (fun t => t.rd (Reg.SCMD_STAT 2) 1 0 == 1 && t.sheetState 2 == 4) = true) ∧
    (∀ z : Bool, let s := { put (physWell 0 5) [7] (sheetIn 1) with
        sheets := [(2, { SheetRt.zero with qmask := 15, slices := 1, wakeTo := 4, zeroed := z })] }
     s.sheetState 2 = 1 ∧ (s.sheet 2).wakeTo = 4 ∧ (∀ c, c < 8 → s.ctxState 2 c = 0) ∧ s.tierCmds = [] ∧ 0 ∈ s.quiresOf 2 ∧
      (∀ qn, qn < 128 → s.rdb (Reg.QCFG qn) 31 = false) ∧
      nextIs (exec (.sheetWakeComplete 2) s) (fun t => t.sheetState 2 == 4 && (t.mem == []) == !z && t.quireState 0 == 2) = true) ∧
    (let s := sheetIn 2
     s.sheetState 2 = 2 ∧ (∀ c, c < 8 → s.ctxState 2 c = 0) ∧ (s.sheet 2).cur = none ∧ s.dma = [] ∧
      nextIs (exec (.drain 2) s) (fun t => t.sheetState 2 == 3) = true ∧
      nextIs (exec (.teardown 2) s) (fun t => t.sheetState 2 == 4) = true) ∧
    (let s := sheetIn 3
     s.sheetState 2 = 3 ∧ (∀ c, c < 8 → s.ctxState 2 c = 0 ∨ s.ctxState 2 c = 5) ∧ s.dma = [] ∧
      nextIs (exec (.sheetDrained 2) s) (fun t => t.sheetState 2 == 4) = true) := by decide +kernel

theorem witness_SheetRows_other :
    (∀ st ∈ [0, 4], let s := regs [(Reg.QMASK_LO 2, 7)] (sheetIn st)
     s.sheetState 2 = st ∧ s.shapeBad 2 (s.qmaskReg 2) (s.slicesReg 2) = true ∧
      nextIs (exec (if st = 0 then .assign 2 else .reshape 2) s) (fun t => t.rd (Reg.SCMD_STAT 2) 1 0 == 2) = true) ∧
    (sheetIn 4).sheetState 2 ≠ 1 ∧ (sheetIn 4).sheetState 2 ≠ 3 ∧
    ({ regs [(Reg.CSTAT 2 3, 1)] (sheetIn 3) with dma := [] } : State).drained 2 = false := by decide +kernel

/-- Context 0 of the floor OFF, with bindings for its four quires at entry 0. -/
def ready : State :=
  (List.range 4).foldl (fun s q => put (physT0 2 + 0x4000 + 8 * q) (leBytes 8 (2 ^ 63)) s)
    { regs [(Reg.CSTAT 0 0, 0xFF00), (Reg.CCFG 0 0, 0)] (floor 0) with
      sheets := [(0, { SheetRt.zero with qmask := 15, slices := 1 })] }

theorem witness_ContextRows :
    (ready.ctxState 0 0 = 0 ∧ ready.sheetState 0 = 2 ∧ ready.scbOk 0 = true ∧ ready.bindingsOk 0 0 = true ∧
      ready.saveAreasOk 0 0 = true ∧ (ready.sheet 0).saving = none ∧ (ready.sheet 0).restoring = none ∧ (ready.sheet 0).cur = none ∧
      (∀ d, d < 8 → d ≠ 0 → ready.ctxState 0 d ≠ 1) ∧
      nextIs (exec (.contextStart 0 0) ready) (fun t => t.ctxState 0 0 == 4 && t.gen 0 0 == 0 && (t.sheet 0).restoring == some 0) =
        true) ∧
    (let s := { ready with sheets := [(0, { SheetRt.zero with qmask := 15, slices := 1, saving := some 1 })] }
     ((s.sheet 0).saving.isSome = true ∨ (s.sheet 0).restoring.isSome = true) ∧ s.bindingsOk 0 0 = true ∧
      nextIs (exec (.contextStart 0 0) s) (fun t => t.ctxState 0 0 == 1 && t.rdb (Reg.CCFG 0 0) 31) = true) ∧
    ((floor 0).live 0 0 = true ∧
      nextIs (exec (.contextStop 0 0) (floor 0)) (fun t => t.ctxState 0 0 == 0 && !(t.rdb (Reg.CCFG 0 0) 31)) = true) ∧
    ((regs [(Reg.CSTAT 15 7, 5)]).ctxState 15 7 = 5 ∧
      nextIs (exec (.contextReset 15 7) (regs [(Reg.CSTAT 15 7, 5)])) (fun t => t.ctxState 15 7 == 0) = true) ∧
    ((floor 0).live 0 1 = false ∧ ((floor 0).ctxFault 0 0 0x0E 3 64 0).ctxState 0 0 = 5 ∧
      ((floor 0).ctxFault 0 0 0x0E 3 64 0).gen 0 0 = 1) := by decide +kernel

theorem witness_ContextRows_other : (floor 0).ctxState 0 0 ≠ 0 ∧ bare.sheetState 5 ≠ 2 ∧ bare.live 5 1 = false ∧ bare.ctxState 5 1 ≠ 5 ∧
    (ready.scbOk 0 = true ∧ (regs [(Reg.SCB_LO 0, 0x50000)] ready).scbOk 0 = false) ∧
    nextIs (exec (.contextReset 5 1) bare) (fun t => t.heldEvents.map EventRec.code == [3]) = true := by decide +kernel

/-- Context 0 resident with a save area, context 1 READY. -/
def twoContexts : State :=
    (put (physT0 2 + 0x3000) (leBytes 8 0x80000) (regs [(Reg.TLIMIT 0, 256), (Reg.CSTAT 0 1, 1)] (floor 0)))

theorem witness_SwitchRows :
    (let s := twoContexts
     (s.sheet 0).cur = some 0 ∧ s.bestReady 0 = some 1 ∧ s.prio 0 0 ≤ s.prio 0 1 ∧ s.savable 0 0 = true ∧
      nextIs (exec (.quantumExpiry 0) s) (fun t => t.ctxState 0 0 == 4 && (t.sheet 0).saving == some 0 && t.quireState 2 == 5) = true) ∧
    (let s := { floor 0 with scribes := (List.range 32).map fun n => (n, { ScribeRt.zero with watch := some 0x10000 }) }
     s.allWatching 0 = true ∧ (regs [(Reg.CSTAT 0 1, 1)] s).bestReady 0 = some 1) ∧
    (let s := { floor 0 with sheets := [(0, { SheetRt.zero with qmask := 15, slices := 1, restoring := some 0 })] }
     (s.sheet 0).restoring = some 0 ∧ (s.ctx 0 0).begun = false ∧
      nextIs (exec (.restoreComplete 0) s) (fun t => t.ctxState 0 0 == 2 && (t.sheet 0).cur == some 0 && (t.ctx 0 0).begun) = true) ∧
    ((∀ i, i < 16 → ∀ c, c < 8 → bare.ctxState i c ≠ 3) ∧ (∀ i, i < 16 → bare.sheetState i = 0) ∧
      ∀ i, i < 16 → (bare.sheet i).saving = none) := by decide +kernel

theorem witness_SwitchRows_other : (bare.sheet 0).cur = none ∧ (bare.sheet 0).saving = none ∧ (bare.sheet 0).restoring = none ∧
    (let s := regs [(Reg.CCFG 0 0, 2 ^ 31 + 1)] twoContexts
     (s.sheet 0).cur = some 0 ∧ s.bestReady 0 = some 1 ∧ s.prio 0 1 < s.prio 0 0 ∧ s.allWatching 0 = false) ∧
    (let s := put (physT0 2 + 0x3000) (leBytes 8 0) twoContexts
     s.bestReady 0 = some 1 ∧ (s.savable 0 0 = false ∨ (s.enabled 0).length ≠ 1)) ∧
    (let s := put (physT0 2 + 0x302A) [1] { floor 0 with
        sheets := [(0, { SheetRt.zero with qmask := 15, slices := 1, restoring := some 0 })],
        ctxs := [(0, { CtxRt.zero with begun := true })] }
     (s.sheet 0).restoring = some 0 ∧ (s.ctx 0 0).begun = true ∧ bit (s.recW 0 0 0x28) 16 = true ∧ s.saveReadable 0 0 = false ∧
      nextIs (exec (.restoreComplete 0) s) (fun t => t.ctxState 0 0 == 5) = true) := by decide +kernel

/-- Context 0 being restored on one quire from the save area of granules 8 to 40, which another context of the same area saved. -/
def restoring : State :=
  put (physCarve (8 * 8)) ((List.range 33).flatMap fun g => leBytes 8 (mkEntry 0 false true false 0 0 0 (8 + g)))
    { put (physT0 2 + 0x302A) [1] twoContexts with
      sheets := [(0, { SheetRt.zero with qmask := 1, slices := 1, restoring := some 0 })]
      ctxs := [(0, { CtxRt.zero with begun := true })] }

theorem witness_SwitchRows_restore : restoring.saveReadable 0 0 = true ∧ (restoring.restoreReads 0 0).2 = none ∧
    (({ restoring with failing := [physT0 8 / 64] } : State).restoreReads 0 0).2.isSome = true := by decide +kernel

/-- Context 0 being saved on one quire into granules 8 to 40, mapped and pinned. -/
def saving : State :=
  put (physCarve (8 * 8)) ((List.range 33).flatMap fun g => leBytes 8 (mkEntry 0 false true false 0 0 0 (8 + g)))
    { twoContexts with sheets := [(0, { SheetRt.zero with qmask := 1, slices := 1, saving := some 0 })] }

theorem witness_SwitchRows_save : saving.powered = true ∧ (saving.sheet 0).saving = some 0 ∧ saving.saveAreaOk 0 0 = true ∧
    (∃ v, saving.saveReads 0 = (v, none)) ∧
    (let s := { twoContexts with sheets := [(0, { SheetRt.zero with qmask := 1, slices := 1, saving := some 0 })] }
     (s.sheet 0).saving = some 0 ∧ s.saveAreaOk 0 0 = false) :=
  ⟨rfl, by decide +kernel, by decide +kernel, ⟨_, Prod.ext rfl (by decide +kernel)⟩, by decide +kernel⟩

/-! ## The memory tiers, DMA and completion records -/

/-- The migrator's ring at 0x40000000 holds one entry of an operation on granule 1 of sheet 0, with its record at 0x41000000. -/
def tierRing (op : Nat) (more : List (Nat × Nat)) (s : State) : State :=
  carve 0x40002000 8 1 (carve 0x40000000 32 (fields ([(0, op), (80, 1), (208, 0x41000000)] ++ more))
    (regs [(Reg.MCQ_BASE_LO, 0x40000000)] s))

/-- What `TierReady` asks of the ring's head, as a check. -/
def tierReady (s : State) (op : Nat) : Bool :=
  let h := tierHead s
  match h.entry with
  | none => false
  | some e => s.powered && (h.st.bump Reg.MCQ_CONS).carveRecOk (bits e 255 208) &&
      ((h.st.bump Reg.MCQ_CONS).seen (physCarve (bits e 255 208)) 64 (bits e 255 208) 16).recState (physCarve (bits e 255 208)) == 0 &&
      !(tierBad e) && bits e 7 0 == op

/-- The check gives `TierReady`. -/
theorem tier_ready {s : State} {op : Nat} (h : tierReady s op = true) : ∃ h e, TierReady s h e ∧ bits e 7 0 = op := by
  unfold tierReady at h
  match hr : tierHead s, h with
  | ⟨_, none⟩, h => cases h
  | ⟨st, some e⟩, h =>
    simp only [Bool.and_eq_true, Bool.not_eq_true', beq_iff_eq] at h
    obtain ⟨⟨⟨⟨h1, h2⟩, h3⟩, h4⟩, h5⟩ := h
    exact ⟨st, e, ⟨h1, hr, ⟨h2, h3⟩, h4⟩, h5⟩

theorem witness_TierRows :
    (∀ row ∈ tierRows, ∃ h e, TierReady (tierRing row.2 [] (floor 0)) h e ∧ bits e 7 0 = row.2) ∧
    (∃ h e, TierReady (tierRing 8 [(80, 0), (128, 0x41000000)] (floor 0)) h e ∧ bits e 7 0 = 8) ∧
    bare.powered = true ∧ (tierHead bare).entry = none ∧
    nextIs (exec .dry (tierRing 3 [] (floor 0))) (fun t => entDry (t.entry 1) && t.recState (physCarve 0x41000000) == 2 &&
      t.recKind (physCarve 0x41000000) == 3 && t.word Reg.MCQ_CONS == 1) = true ∧
    nextIs (exec .unmap (tierRing 2 [] (floor 0))) (fun t => t.entry 1 == 0 && t.entry 2 == State.entry (floor 0) 2) = true ∧
    nextIs (exec .unpin (tierRing 6 [] (floor 0))) (fun t => !(entPin (t.entry 1)) && entValid (t.entry 1)) = true ∧
    nextIs (exec .map (tierRing 1 [] (floor 0))) (fun t => t.recState (physCarve 0x41000000) == 3) = true :=
  ⟨fun row hr => tier_ready ((by decide +kernel : ∀ row ∈ tierRows, tierReady (tierRing row.2 [] (floor 0)) row.2 = true) row hr),
   tier_ready (by decide +kernel), by decide +kernel⟩

theorem witness_TierRows_other :
    (let s := tierRing 3 [] (floor 0)
     ∃ h e, tierHead s = ⟨h, some e⟩ ∧ bits e 7 0 = 3) ∧
    nextIs (exec .pin (tierRing 3 [] (floor 0))) (fun t => t.word Reg.MCQ_CONS == 0) = true ∧
    nextIs (exec .pin (tierRing 5 [(208, 4)] (floor 0))) (fun t => t.word Reg.MCQ_CONS == 1 &&
      t.heldEvents.map EventRec.code == [0x0806]) = true ∧
    nextIs (exec .pin (tierRing 9 [] (floor 0))) (fun t => t.recState (physCarve 0x41000000) == 3) = true := by
  refine ⟨?_, by decide +kernel⟩
  obtain ⟨h, e, hr, he⟩ := tier_ready (s := tierRing 3 [] (floor 0)) (op := 3) (by decide +kernel)
  exact ⟨h, e, hr.2.1, he⟩

theorem witness_TierMarks :
    (let s := floor 0
     s.inRun 0 1 = true ∧ entValid (s.entry 1) = true ∧ s.sheetState 0 ≠ 1 ∧ s.entryBad 1 = false ∧ entDry (s.entry 1) = false ∧
      entMoving (s.entry 1) = false ∧ entTier (s.entry 1) = 0 ∧ s.moves = []) ∧
    (let s := put (physCarve 8) (leBytes 8 (mkEntry 0 true false false 0 0 0 1)) (regs [(Reg.WQ 0, 9)] (floor 0))
     entDry (s.entry 1) = true ∧ entMoving (s.entry 1) = false ∧ entTier (s.entry 1) ≠ 2 ∧ s.writableRoom 0 = true) := by
  decide +kernel

/-- The floor with room for one writable granule, and granule 5 not mapped. -/
def roomy : State := regs [(Reg.WQ 0, 9)] (floor 0)

theorem witness_GranulePlaces :
    (roomy.inRun 0 5 = true ∧ entValid (roomy.entry 5) = false ∧ roomy.sheetState 0 ≠ 1 ∧ roomy.writableRoom 0 = true) ∧
    (let s := floor 0x123
     s.upsets = [] ∧ s.failing = [] ∧ s.badEntries = [] ∧ s.deadT2 (locPhys (entTier (s.entry 0)) (entLoc (s.entry 0))) = false ∧
      (s.relocate 0 1 7).2 = true ∧ Mem.le (s.relocate 0 1 7).1.mem (physT1 7) 2 = 0x123 ∧
      entTier ((s.relocate 0 1 7).1.entry 0) = 1) ∧
    (let s := put (physT1 2) [7] bare
     s.t1Byte (t1Place 2 0).dev (t1Place 2 0).data = 7 ∧ (t1Place 0 0).data ≠ (t1Place 0 1).data) := by decide +kernel

/-- Where the model chooses a free location the choice is open; a sheet whose T0 quota is one granule has one place to give. -/
theorem witness_MigratorRows :
    (let s := { floor 0x123 with moves := [⟨0, 0, 1, 7, none⟩] }
     (s.moves.find? fun x => x.g == 0) = some ⟨0, 0, 1, 7, none⟩ ∧ s.retraining (entTier (s.entry 0)) (entLoc (s.entry 0)) = false ∧
      s.retraining 1 7 = false ∧ ((s.zeroWaking 0).relocate 0 1 7).2 = true ∧
      nextIs (exec (.moveFlip 0) s) (fun t => entTier (t.entry 0) == 1 && entLoc (t.entry 0) == 7 && t.moves == [] &&
        Map.get? t.freeing 0 == some (0, 0)) = true) ∧
    (let s := { floor 0x123 with moves := [⟨0, 0, 1, 7, none⟩], calib := [⟨4, 5, 0⟩] }
     s.retraining 1 7 = true ∧ nextIs (exec (.moveFlip 0) s) (fun t => t == s) = true) ∧
    (let s := { bare with freeing := [(0, (0, 0)), (9, (4, 0))] }
     s.tierCmds = [] ∧ (∀ qn, qn < 128 → s.rdb (Reg.QCFG qn) 31 = false) ∧ nextIs (exec (.moveSourceFree 0) s) (fun t => t.freeing == [(9, (4, 0))]) = true) ∧
    (bare.upsets = [] ∧ (regs [(Reg.SCRUB_CTL, 1)]).rdb Reg.SCRUB_CTL 0 = true ∧
      nextIs (exec (.patrolScrub .t0 40959 1023 ⟨[(67, 0x80)], 0⟩) (regs [(Reg.SCRUB_CTL, 1)]))
        (fun t => t.upsets == [] && t.word Reg.CE_COUNT == 1) = true ∧ bare.failing = [] ∧
      nextIs (exec (.patrolScrub .t1 352256 3 ⟨[], 5⟩) (regs [(Reg.SCRUB_CTL, 1)]))
        (fun t => t.failing == [physCarve bare.chip.carveBase / 64 + 3] && t.word Reg.UE_COUNT == 1) = true) ∧
    (bare.mirrorT2Ok 0 = true ∧ ({ bare with t2Gran := [5, 0], t2Up := [true, false] } : State).mirrorT2Ok 5 = true ∧
      nextIs (exec (.mirrorT2Write 2) { bare with t2Gran := [5, 0], t2Up := [true, false] })
        (fun t => t.word Reg.MIRROR_T2 == 2 && t.word Reg.CAP_T2 == 3) = true) ∧
    (let s := { regs [(Reg.MIRR_CTL, 2 ^ 31 + 2 ^ 29)] with t2Up := [true, true] }
     nextIs (exec (.cxlPortDown 1) s) (fun t => t.t2Up == [true, false]) = true) ∧
    (bare.hitsTables bare.chip.ttBase 8 = true) ∧
    (bare.inCarve 0x40000000 2 = true ∧ bare.hitsTables 0x40000000 2 = false ∧
      (bare.eccEdges (physCarve 0x40000000) 2 0x40000000 0 16).2 = none ∧
      (({ bare with failing := [physCarve 0x40000000 / 64] } : State).eccEdges (physCarve 0x40000000) 2 0x40000000 0 16).2.isSome = true ∧
      nextIs (exec (.quillCoreStore 0x40000000 [1, 2]) bare) (fun t => t.carveLe 0x40000000 2 == 0x201 && t.answers == [(0, [])]) =
        true) := by decide +kernel

theorem witness_MigratorRows_other : (bare.moves.find? fun x => x.g == 0) = none ∧
    16 * (bare.word (Reg.U1 0)).toNat ≤ 15 * bare.quota 0 1 ∧ bare.rd Reg.EVICT_CTL 20 0 ≤ bare.t1Free ∧
    bare.mirrorT2Ok 5 = false ∧ bare.hitsTables 0xFFFFFFFFFFF0 64 = false ∧ bare.inCarve 0xFFFFFFFFFFF0 64 = false := by
  decide +kernel

/-- A completion record moves from IDLE to RUNNING to terminal. -/
theorem witness_CompletionRecord : bare.recState (physCarve 0) < 2 ∧
    2 ≤ (bare.recEnd (physCarve 0) 1 2 3 0 5 6).recState (physCarve 0) ∧
    (bare.recEnd (physCarve 0) 1 2 3 9 5 6).recState (physCarve 0) = 3 ∧
    (bare.seen (physCarve 0) 64 0 16).recState (physCarve 0) = 0 ∧ physCarve 0 % 64 = 0 ∧ bare.deadT2 (physCarve 0) = false ∧
    (bare.recTake (physCarve 0) 0 1 2 3).2 = true ∧
    (let t := bare.recEnd (physCarve 0) 1 2 3 0 5 6
     2 ≤ (t.seen (physCarve 0 / 64 * 64) 64 (physCarve 0 % 2 ^ 48) 16).recState (physCarve 0)) := by decide +kernel

/-- A list turned by k places holds a free location when the list does. -/
theorem pickFree_some (s : State) (tier : Nat) (l : List Nat) (h : l.any (fun x => !(s.locUsed tier x)) = true) :
    ∃ x, s.pickFree tier l = some x ∧ x ∈ l := by
  obtain ⟨y, hy, hf⟩ := List.any_eq_true.mp h
  have hm : ∀ x k, x ∈ l.drop k ++ l.take k ↔ x ∈ l := fun x k => by
    rw [List.mem_append, or_comm, ← List.mem_append, List.take_append_drop]
  have hs : (s.pickFree tier l).isSome = true := by
    simp only [State.pickFree, List.find?_isSome]
    exact ⟨y, (hm y _).2 hy, hf⟩
  obtain ⟨x, hx⟩ := Option.isSome_iff_exists.mp hs
  exact ⟨x, hx, (hm x _).1 (List.mem_of_find?_eq_some hx)⟩

theorem witness_GranulePlaces_room : ∃ u l, l < 2 ^ 25 ∧ roomy.claimed 0 0 < roomy.quota 0 0 ∧
    roomy.room 0 0 (roomy.saveDie 0 5) = (u, some l) := by
  obtain ⟨x, hx, hm⟩ := pickFree_some roomy 0
    ((roomy.slicesOf 0).flatMap fun k => (List.range (sliceRange k).2).map ((sliceRange k).1 + ·)) (by decide +kernel)
  have hl : ∀ y ∈ (roomy.slicesOf 0).flatMap fun k => (List.range (sliceRange k).2).map ((sliceRange k).1 + ·), y < 2 ^ 25 := by
    decide +kernel
  have hc : roomy.claimed 0 0 < roomy.quota 0 0 := by decide +kernel
  have hd : roomy.saveDie 0 5 = none := by decide +kernel
  have hf : roomy.roomFree 0 0 none = some x := by rw [State.roomFree, if_pos hc]; exact hx
  refine ⟨roomy.draw, x, hl x hm, hc, ?_⟩
  rw [hd, State.room, State.roomT0, hf]
  rfl

/-- Granule 4 of sheet 0 rests dry in T1, whose quota is one; T2 has one granule of room. -/
def crowded : State :=
  { put (physCarve 32) (leBytes 8 (mkEntry 0 true false false 1 0 0 9))
      (regs [(Reg.U1 0, 1), (Reg.Q1 0, 1), (Reg.Q2 0, 1), (Reg.EVICT_CTL, 2 ^ 21 - 1)] (floor 0)) with
    t2Gran := [1, 0], t2Up := [true, false] }

theorem crowded_demotes : ∃ u, crowded.demoteT1 0 = (u, true) := by
  have h0 : (crowded.inTier 0 1).length = 1 := by decide +kernel
  have h1 : ¬ crowded.quota 0 2 ≤ crowded.claimed 0 2 := by decide +kernel
  have h2 : (crowded.victim 0 1 none []).2 = some 4 := by decide +kernel
  have h3 : (crowded.victim 0 1 none []).1.t2Usable 0 ++ (crowded.victim 0 1 none []).1.t2Usable 1 = [0] := by decide +kernel
  obtain ⟨x, hx, hm⟩ := pickFree_some (crowded.victim 0 1 none []).1 2 [0] (by decide +kernel)
  have h4 : (crowded.victim 0 1 none []).1.freeLoc 0 2 none = some 0 := by
    rw [List.mem_singleton.mp hm] at hx
    simp only [State.freeLoc, h3]
    exact hx
  have h5 : ((crowded.victim 0 1 none []).1.relocate 4 2 0).2 = true := by decide +kernel
  have h6 : ((crowded.victim 0 1 none []).1.demote 4 2 0).2 = true := by simp only [State.demote, h5, if_true]
  have h7 : crowded.demoteT1 0 = (crowded.victim 0 1 none []).1.demote 4 2 0 := by
    simp only [State.demoteT1, h0, State.demoteFrom, h1, if_false, h2, h4, h6, if_true]
  exact ⟨_, h7.trans (Prod.ext rfl h6)⟩

theorem evictLoop_some (stop v : Nat) : ∀ (n : Nat) (s : State), (State.evictLoop stop n (some v) s).2 = some v
  | 0, _ => rfl
  | n + 1, s => by
    simp only [State.evictLoop]
    split
    · rfl
    · split
      · rfl
      · exact evictLoop_some stop v n _

theorem evictLoop_first {stop n i : Nat} {s u : State} (h : ¬ stop ≤ s.t1Free + s.t1Freeing) (h' : s.evictOne = (u, some i)) :
    State.evictLoop stop (n + 1) none s = State.evictLoop stop n (some i) u := by
  rw [State.evictLoop, if_neg h, h']
  rfl

theorem witness_MigratorRows_room :
    (15 * crowded.quota 0 1 < 16 * (crowded.word (Reg.U1 0)).toNat ∧ ∃ u, crowded.demoteT1 0 = (u, true)) ∧
    (crowded.t1Free < crowded.rd Reg.EVICT_CTL 20 0 ∧ ∃ u i,
      State.evictLoop (2 * crowded.rd Reg.EVICT_CTL 20 0) (2 * crowded.rd Reg.EVICT_CTL 20 0) none crowded = (u, some i)) := by
  refine ⟨⟨by decide +kernel, crowded_demotes⟩, by decide +kernel, ?_⟩
  obtain ⟨u, hu⟩ := crowded_demotes
  have h1 : crowded.victimSheet none [] = some 0 := by decide +kernel
  have h2 : ¬ 2 * crowded.rd Reg.EVICT_CTL 20 0 ≤ crowded.t1Free + crowded.t1Freeing := by decide +kernel
  have h3 : 2 * crowded.rd Reg.EVICT_CTL 20 0 = 4194301 + 1 := by decide +kernel
  have h4 : crowded.evictOne = (u.countEvict 0, some 0) := by simp only [State.evictOne, State.evictFrom, h1, hu, if_true]
  have h5 : State.evictLoop (2 * crowded.rd Reg.EVICT_CTL 20 0) (2 * crowded.rd Reg.EVICT_CTL 20 0) none crowded =
      State.evictLoop (2 * crowded.rd Reg.EVICT_CTL 20 0) 4194301 (some 0) (u.countEvict 0) :=
    (congrArg (fun n => State.evictLoop (2 * crowded.rd Reg.EVICT_CTL 20 0) n none crowded) h3).trans (evictLoop_first h2 h4)
  exact ⟨_, 0, h5.trans (Prod.ext rfl (evictLoop_some _ 0 4194301 _))⟩

/-- Queue 3 is a firmware queue with a ring of 64 entries at 0x42000000. -/
def queue (s : State) : State :=
  regs [(Reg.QBASE_LO 3, 0x42000000), (Reg.QBASE_HI 3, 2 ^ 31), (Reg.QCFG 3, 2 ^ 31 + 6)] s

/-- A COPY of one line from the well of scribe 0 to the carve-out, with its record in the carve-out. -/
def copyDesc (op : Nat) : Nat :=
  fields [(0, op), (96, 64), (192, 2 ^ 60), (256, 4 * 2 ^ 60 + 0x43000000), (335, 1), (336, 0x44000000)]

/-- The operation after its start. -/
def runningOp (op : Nat) : DmaOp := { DmaOp.taken 3 0 (copyDesc op) with started := true, total := 1 }

theorem witness_DmaRows :
    (let s := regs [(Reg.QBASE_LO 3, 0x42000000), (Reg.QBASE_HI 3, 2 ^ 31)]
     let v : W32 := 0x8000000C
     s.rdb (Reg.QCFG 3) 31 = false ∧ v.getLsbD 31 = true ∧ 6 ≤ bits v.toNat 3 0 ∧ bits v.toNat 3 0 ≤ 12 ∧
      (s.wrw (Reg.QCFG 3) (BitVec.ofNat 32 (bits v.toNat 27 21 * 2 ^ 21 + bits v.toNat 19 16 * 65536 + bits v.toNat 3 0))).qRingOk 3 =
        true ∧ nextIs (exec (.queueEnable 3 v) s) (fun t => t.word (Reg.QCFG 3) == v) = true) ∧
    (∀ op ∈ [1, 2, 3, 4], let s : State := { queue (floor 0) with dma := [runningOp op, { runningOp op with num := 1 }] }
      (((s.pumpDma.dmaTake 3 op).dmaStartNext 3 op).running 3 op 1).map DmaOp.num = some 1 ∧
      ((s.pumpDma.dmaTake 3 op).dmaStartNext 3 op).running 3 op 2 = none) ∧
    (let s : State := { queue (floor 0) with dma := [{ runningOp 5 with total := 4 }] }
     (((s.pumpDma.dmaTake 3 5).dmaStartNext 3 5).running 3 5 0).isSome = true) ∧
    (let s := carve 0x42001000 8 1 (carve 0x42000000 64 (copyDesc 1) (queue (floor 0)))
     s.rdb (Reg.QCFG 3) 31 = true ∧ s.rdb (Reg.QCFG 3) 20 = false ∧ (s.dma.filter fun o => o.qn == 3).length < 64 ∧
      s.qRingOk 3 = true ∧ s.qQuill 3 = true ∧ s.clean (s.qPhys 3 (s.qBase 3 + 64 * s.qEntries 3)) 8 = true ∧ s.qLe 3 (s.qBase 3 + 64 * s.qEntries 3) 8 % 2 ^ 32 ≠ (s.word (Reg.QCONS 3)).toNat ∧
      dOp (s.qLe 3 (s.qBase 3 + 64 * ((s.word (Reg.QCONS 3)).toNat % s.qEntries 3)) 64) = 1 ∧
      nextIs (exec (.copy ⟨3, 0⟩ 1) (put (physWell 0 5) [0x77] s))
        (fun t => Mem.read1 t.mem (physCarve 0x43000005) == 0x77 && t.word (Reg.QCONS 3) == 1 &&
          t.recState (physCarve 0x44000000) == 1) = true) ∧
    (let o := { runningOp 4 with desc := fields [(0, 4), (496, 2), (384, tier 0x10000)], units := 3, total := 8 }
     let s := { queue (floor 0) with dma := [o] }
     (s.pumpDma.dma.filter fun o => o.qn == 3 && o.started && dOp o.desc == 4 && o.ending.isNone) = [o] ∧ o.owed = 0 ∧ o.wbuf = [] ∧
      o.published + bits (dAux1 o.desc) 63 48 ≤ o.units ∧ (s.pumpDma.writeReady o 2).2 = 0 ∧
      (let u := put (physCarve 8) (leBytes 8 (mkEntry 0 true false false 0 0 0 1)) s
       (u.pumpDma.writeReady o 2).2 = 4 ∧ u.inRun (u.qSheet o.qn) (awAddr (dAux0 o.desc) / 65536) = true ∧ u.readyCheck o = 4) ∧
      s.inRun (s.qSheet o.qn) (awAddr (dAux0 o.desc) / 65536) = true ∧ s.readyCheck o = 0 ∧
      s.deadT2 (s.tierPhys (awAddr (dAux0 o.desc))) = false ∧ s.upsets = [] ∧ s.failing = [] ∧ s.badEntries = [] ∧
      nextIs (exec (.readyWrite 3) s) (fun t => Mem.le t.mem (physT0 1) 8 == 2) = true) ∧
    (let o := { runningOp 1 with units := 1 }
     let s := { queue (floor 0) with dma := [o] }
     s.pumpDma.delivered 3 = some o ∧ s.pumpDma.opOf o.key = some o ∧ dOp o.desc = 1 ∧
      nextIs (exec (.descriptorComplete 3) s) (fun t => t.recState (physCarve 0x44000000) == 2 && t.dma == []) = true) := by
  decide +kernel

theorem witness_DmaRows_other :
    (bare.rdb (Reg.QCFG 3) 31 = false ∧ (6 : W32).getLsbD 31 = false ∧ (0x80000005 : W32).getLsbD 31 = true ∧
      bits (0x80000005 : W32).toNat 3 0 < 6 ∧
      nextIs (exec (.queueEnable 3 0x80000005) bare) (fun t => t.word (Reg.QCFG 3) == 5 &&
        t.heldEvents.map EventRec.code == [3]) = true) ∧
    (let s := queue bare
     s.rdb (Reg.QCFG 3) 31 = true ∧
      nextIs (exec (.queueEnable 3 6) s) (fun t => !(t.rdb (Reg.QCFG 3) 31) && t.heldEvents == []) = true ∧
      nextIs (exec (.queueEnable 3 0x80000007) s) (fun t => t.word (Reg.QCFG 3) == 0x80000006 &&
        t.heldEvents.map EventRec.code == [3]) = true) ∧
    bare.pumpDma.delivered 3 = none ∧
    (bare.pumpDma.dma.filter fun o => o.qn == 3 && o.started && dOp o.desc == 4 && o.ending.isNone) = [] := by decide +kernel

theorem witness_DmaRows_lines :
    awSpace (4 * 2 ^ 60) = 4 ∧ bare.inCarve 0x43000000 64 = true ∧ bare.hitsTables 0x43000000 64 = false ∧ bare.upsets = [] ∧ bare.failing = [] ∧ bare.badEntries = [] ∧
    awSpace (tier 0) = 2 ∧ bare.tierOk (bare.qSheet 3) 0 64 = false ∧ awSpace (well 0) = 1 ∧ dDmask (copyDesc 1) = 0 ∧
    0x17FFC0 + 64 ≤ 0x180000 ∧
    (let s := put (physCarve 8) (leBytes 8 (mkEntry 0 true false false 0 0 0 1)) (floor 0)
     s.tierOk (s.qSheet 3) 0x10000 64 = true ∧ entDry (s.entry (0x10000 / 65536)) = true ∧
      s.inRun (s.qSheet 3) (0x10000 / 65536) = true ∧ ({ s with badEntries := [1] } : State).entryBad (0x10000 / 65536) = true) := by
  decide +kernel

/-! ## Operations of other modules, and the module's own -/

/-- A packet for this module from position 0x20, with a window and an offset. -/
def pkt (opc atop pseq : Nat) (gran : List (List Byte) := []) : Packet :=
  { mkPacket opc 0x20 0 with atop := BitVec.ofNat 4 atop, pseq := BitVec.ofNat 32 pseq, win := 5, offset := 0x40, imm := 3,
                             be := 1, gran := gran }

/-- A line of zeros. -/
def line0 : List Byte := List.replicate 64 0

/-- The served rows with an opcode, an ATOP and a payload that make them well formed. -/
def servedShapes : List (Nat × Nat × List (List Byte)) :=
  [(0x01, 0, []), (0x02, 0, []), (0x03, 0, []), (0x08, 0, []), (0x09, 0, [line0]), (0x0A, 0, [line0]), (0x0B, 0, []), (0x0B, 1, []),
   (0x0B, 2, []), (0x0B, 3, []), (0x0B, 4, [line0]), (0x0C, 0, []), (0x0C, 1, []), (0x20, 0, []), (0x21, 0, []), (0x22, 0, []),
   (0x23, 0, []), (0x24, 0, []), (0x30, 0, []), (0x30, 1, []), (0x30, 2, []), (0x30, 3, []), (0x31, 0, []), (0x31, 1, []),
   (0x31, 2, [])]

theorem witness_PacketsServed : bare.powered = true ∧ bare.pos = 0 ∧ bare.heldFlags = [] ∧ bare.heldPkts = [] ∧ bare.closing = none ∧
    (∀ x ∈ servedRows.zip servedShapes, let p := pkt x.2.1 x.2.2.1 1 x.2.2.2
      (x.1 p).wellFormed = true ∧ p.dst.toNat = bare.pos ∧ p.badGranule = false ∧ p.pver.toNat ≤ 1 ∧ p.dep = none ∧
      (bare.peer 0x20).ahead 1 < 2048 ∧ Map.get? (bare.peer 0x20).answered 1 = none ∧ (bare.peer 0x20).low = 1) ∧
    servedRows.length = servedShapes.length := by decide +kernel

/-- A window of each kind: 5 on the carve-out, 6 on sheet 0's tiered range. -/
def windows (s : State) : State :=
  { s with windows := [(5, ⟨0x40000000, 0x1000, 1, 0, 15, 0, 0⟩), (6, ⟨0, 0x20000, 0, 0, 15, 0xFFFF, 0x20⟩)] }

theorem witness_MemoryOperations :
    (∀ n ∈ [8, 64], ∀ need ∈ [1, 2, 4, 10, 12], ∀ w : Bool, ∀ rd : Bool,
      (windows bare).winCheck 0x20 5 0x40 n need w rd = (windows bare, 0)) ∧
    (let s := carve 0x40000040 8 7 (windows bare)
     (∀ x ∈ [(0x01, 0, ([] : List (List Byte))), (0x08, 0, []), (0x0B, 0, []), (0x0B, 4, [line0]), (0x0C, 0, []), (0x0C, 1, [])],
        (pkt x.1 x.2.1 1 x.2.2).status = 0) ∧
      nextIs (exec (.load8 (pkt 0x01 0 1)) s) (fun t => t.tx == []) = true ∧
      (s.perform (pkt 0x01 0 1)).2 = ⟨0, 7, []⟩ ∧
      nextIs (exec (.store8 (pkt 0x08 0 1)) s) (fun t => t.carveLe 0x40000040 8 == 3) = true ∧
      nextIs (exec (.atomicAdd (pkt 0x0B 0 1)) s) (fun t => t.carveLe 0x40000040 8 == 10) = true ∧
      nextIs (exec (.atomicMin (pkt 0x0B 1 1)) s) (fun t => t.carveLe 0x40000040 8 == 3) = true ∧
      nextIs (exec (.atomicMax (pkt 0x0B 2 1)) s) (fun t => t.carveLe 0x40000040 8 == 7) = true ∧
      nextIs (exec (.swap (pkt 0x0B 3 1)) s) (fun t => t.carveLe 0x40000040 8 == 3 && (t.peer 0x20).low == 2) = true ∧
      nextIs (exec (.flaggedAdd (pkt 0x0C 1 1)) s) (fun t => t.carveLe 0x40000040 8 == 10) = true) := by decide +kernel

theorem witness_WindowChecks :
    (let s := windows bare
     Map.get? s.windows 9 = none ∧ (Map.get? s.windows 5).isSome = true ∧ (Map.get? s.windows 6).isSome = true ∧
      0x30 &&& 0xFFFF ≠ 0x20 &&& 0xFFFF ∧ s.winCheck 0x30 6 0 8 1 false true = (s, 2) ∧ 1 % 8 ≠ 0 ∧
      s.winCheck 0x20 5 1 8 1 false true = (s, 3) ∧ s.winCheck 0x20 5 0x1000 8 1 false true = (s, 4) ∧ 0xFF8 + 8 ≤ 0x1000 ∧
      s.winCheck 0x20 5 0xFF8 8 1 false true = (s, 0) ∧ s.winCheck 0x20 9 0 8 1 false true = (s, 1)) ∧
    (let s := windows (put (physCarve 8) (leBytes 8 (mkEntry 0 true false false 0 0 0 1)) (floor 0))
     let w : WinEnt := ⟨0, 0x20000, 0, 0, 15, 0xFFFF, 0x20⟩
     (s.zeroWaking w.sheet == s) = true ∧ s.inRun w.sheet ((w.base + 0x10000) / 65536) = true ∧ s.entryBad 1 = false ∧
      (s.seenEntry ((w.base + 0x10000) / 65536) == s) = true ∧
      s.tierOk w.sheet (w.base + 0x10000) 8 = true ∧ s.winDry w 0x10000 8 = true ∧ s.winDry w 0xFFF8 8 = false ∧
      s.winCheck 0x20 6 0x10000 8 2 true true = (s, 5) ∧ s.winCheck 0x20 6 0xFFF8 8 2 true false = (s, 0) ∧
      s.winCheck 0x20 6 0x10000 8 1 false false = (s, 0) ∧
      ({ s with badEntries := [1] } : State).entryBad 1 = true ∧
      (regs [(Reg.TLIMIT 0, 1)] s).inRun w.sheet ((w.base + 0x10000) / 65536) = false ∧
      (put (physCarve 8) (leBytes 8 0) s).tierOk w.sheet (w.base + 0x10000) 8 = false ∧
      (put (physCarve 8) (leBytes 8 0) s).inRun w.sheet ((w.base + 0x10000) / 65536) = true) := by decide +kernel

theorem witness_PacketsNotTaken :
    (∀ x ∈ servedRows.zip servedShapes, let p := { pkt x.2.1 x.2.2.1 1 x.2.2.2 with dst := 0x40 }
      (x.1 p).wellFormed = true ∧ p.dst.toNat ≠ bare.pos) ∧
    (let p := { pkt 0x09 0 1 [line0] with badGranule := true }
     (Instr.store64 p).wellFormed = true ∧ p.dst.toNat = bare.pos ∧ p.badGranule = true) ∧
    (let p := { pkt 0x08 0 1 with pver := 2 }
     (Instr.store8 p).wellFormed = true ∧ p.badGranule = false ∧ 1 < p.pver.toNat ∧
      nextIs (exec (.store8 p) bare) (fun t => t.word Reg.BADVER == 1) = true) ∧
    (let s := bare.setPeer 0x20 ⟨1, 1, [(3, (5, 6, []))], false⟩
     isRequest 0x08 = false ∧ (s.peer 0x20).ahead 3 < 2048 ∧ Map.get? (s.peer 0x20).answered 3 = some (5, 6, []) ∧
      nextIs (exec (.store8 (pkt 0x08 0 3)) s) (fun t => t.word Reg.DUPS == 1) = true) ∧
    (let p := { pkt 0x08 0 2 with dep := some 1 }
     p.dep = some 1 ∧ (bare.peer 0x20).done 1 = false ∧ (bare.peer 0x20).ahead 2 < 2048 ∧
      nextIs (exec (.store8 p) bare) (fun t => t.heldPkts == [{ p with status := 0 }]) = true) ∧
    (let p := { pkt 0x0C 0 2 with dep := some 1 }
     nextIs (exec (.flaggedStore p) bare) (fun t => t.heldFlags == [{ p with status := 0 }]) = true) := by decide +kernel

/-- An operation of this module to position 0x20. -/
def sent (write : Bool) (iss : List Issuer) : OutOp :=
  ⟨{ mkPacket (if write then 0x08 else 0x02) 0 0x20 with pseq := 1, rtag := 7 }, write, iss, [0], 16, 0, false⟩

theorem witness_ReplyRows :
    (let s := { bare with outOps := [sent true []] }
     (Instr.ack (pkt 0x11 0 1)).wellFormed = true ∧ s.isLost 0x20 = false ∧
      (s.outOps.find? fun x => x.write && x.pkt.dst == (0x20 : BitVec 16) && x.pkt.pseq == (1 : W32)) = some (sent true []) ∧
      s.bulks = [] ∧ (sent true []).issuers = [] ∧
      nextIs (exec (.ack (pkt 0x11 0 1)) s) (fun t => t.outOps == []) = true) ∧
    (let s := { bare with outOps := [sent false [⟨2, 0, 0, 0, 0, 64, 0⟩]] }
     let p := { pkt 0x10 0 0 [line0] with rtag := 7 }
     (Instr.rdata p).wellFormed = true ∧ (Instr.bulkComplete p).wellFormed = true ∧
      (s.outOps.find? fun x => !x.write && x.path != 17 && x.pkt.dst == (0x20 : BitVec 16) && x.pkt.rtag == (7 : BitVec 12)) =
        some (sent false [⟨2, 0, 0, 0, 0, 64, 0⟩]) ∧
      nextIs (exec (.rdata p) s) (fun t => t.outOps == [] && t.answers == [(0, line0)]) = true) ∧
    (let p := { pkt 0x12 0 1 with rtag := 0 }
     (Instr.refuse p).wellFormed = true ∧
      nextIs (exec (.refuse p) { bare with outOps := [sent true []] }) (fun t => t.outOps.all OutOp.refused) = true) ∧
    (let s := bare.setPeer 0x20 ⟨1, 1, [], true⟩
     s.isLost 0x20 = true ∧ nextIs (exec (.ack (pkt 0x11 0 1)) s) (fun t => t.word Reg.LATE_REPLY == 1) = true) ∧
    (let b : BulkJob := ⟨fields [(336, 0x44000000)], 0, []⟩
     ([b].find? fun b => (sent true [⟨3, 0x44000000, 0, 0, 0, 0, 0⟩]).issuers == [⟨3, bits b.req 383 336, 0, 0, 0, 0, 0⟩]) = some b) ∧
    (let p := pkt 0x0C 0 1
     let s := { windows bare with heldFlags := [p] }
     s.heldReady s.heldFlags 0x20 = some p ∧ (State.serve { s with heldFlags := [] } p).heldFlags = [] ∧
      nextIs (exec (.flagApply 0x20) s) (fun t => t.heldFlags == [] && t.carveLe 0x40000040 8 == 3) = true) ∧
    (let p := pkt 0x08 0 1
     let s := { windows bare with heldPkts := [p] }
     s.heldReady s.heldPkts 0x20 = some p ∧ (State.serve { s with heldPkts := [] } p).heldPkts = []) ∧
    ((sent true []).pkt.dst = 0x20 ∧ { sent true [] with refused := true }.refused = true ∧ (sent true []).refused = false ∧
      bare.time.rack < 2 ^ 96 ∧ (sent true []).sentAt + bare.e2eNs < 2 ^ 64) ∧
    (let g : Gather := ⟨0x20, [(5, 0, line0, [])], 0⟩
     ([g].find? fun g => g.dst == (0x20 : BitVec 16).toNat) = some g) := by decide +kernel

theorem witness_WindowAndReachRows :
    (let s := carve 0xA0 32 (fields [(0, 0x40000000), (52, 15), (60, 1), (63, 1), (64, 0x1000)]) (regs [(Reg.WTAB_LO, 0)])
     s.wBusy = false ∧ Map.get? s.windows 5 = none ∧ (s.seenCarve (s.windowAt 5) 32 == s) = true ∧
      s.entryFits (s.windowEntry 5) = true ∧
      nextIs (exec (.windowOpen 5) s) (fun t => Map.get? t.windows 5 == some ⟨0x40000000, 0x1000, 1, 0, 15, 0, 0⟩) = true) ∧
    ((windows bare).wBusy = false ∧ (Map.get? (windows bare).windows 5).isSome = true ∧
      nextIs (exec (.windowClose 5) (windows bare)) (fun t => t.closing == some 5 && t.wBusy) = true) ∧
    (let s := { windows bare with closing := some 5 }
     s.heldFlags = [] ∧ s.heldPkts = [] ∧ nextIs (exec .closeComplete s) (fun t => Map.get? t.windows 5 == none) = true) ∧
    (bare.isLost 0x20 = false ∧ bare.outOps = [] ∧ bare.gathers = [] ∧
      nextIs (exec (.reachMark 0x20) bare) (fun t => t.isLost 0x20) = true) ∧
    ((∀ o ∈ bare.outOps, o.pkt.dst = 0x20 → o.path = 17) ∧ ([sent true []].find? fun o => o.pkt.dst == 0x20 && o.path != 17) = some (sent true []) ∧
      nextIs (exec (.tlostTimeout 0x20) { bare with outOps := [sent true []] }) (fun t => t.isLost 0x20 && t.outOps == []) = true) := by
  decide +kernel

theorem witness_WindowAndReachRows_other :
    ((regs [(Reg.WCMD_STAT, 2 ^ 31)]).wBusy = true ∧ bare.wBusy = false ∧ bare.closing = none ∧
      nextIs (exec (.windowOpen 5) (windows bare)) (fun t => t.rd Reg.WCMD_STAT 1 0 == 2) = true ∧
      nextIs (exec (.windowClose 9) (windows bare)) (fun t => t.rd Reg.WCMD_STAT 1 0 == 2) = true ∧
      nextIs (exec (.windowOpen 9) (windows bare)) (fun t => t.rd Reg.WCMD_STAT 1 0 == 1) = true) ∧
    (let p := pkt 0x0C 0 1
     let s := { windows bare with closing := some 5, heldFlags := [p] }
     p ∈ s.heldFlags ∧ p.status = 0 ∧ (∃ l ∈ linesOf p, l.1 = 5) ∧ nextIs (exec .closeComplete s) (fun t => t == s) = true) ∧
    (let w : WinEnt := ⟨0, 0x1000, 2, 0, 15, 0, 0⟩
     let s := { bare with windows := [(4, w)] }
     w.kind ≠ 0 ∧ s.winCheck 0x20 4 8 8 1 true false = (s, 0) ∧ (s.winEcc w 8 8).2 = none) := by decide +kernel

/-- The Quill's import table at 0x40000000, whose entry 0 allows everything on window 5 of position 0x20. -/
def imports : State := carve 0x40000000 16 (fields [(0, 0x20), (32, 5), (58, 15), (63, 1), (64, 0x1000)]) (regs [(Reg.QIMP_LO, 0x40000000)])

theorem witness_OwnRequests :
    (imports.seenImport none 0 == imports) = true ∧ (bare.seenImport none 0 == bare) = true ∧
    (∀ n ∈ [8, 64], ∀ need ∈ [1, 2, 4, 10, 12], importOk (imports.importEntry none 0) (0 % 2 ^ 36) n need = true) ∧
    (∀ need ∈ [1, 2, 4, 10, 12], importOk (bare.importEntry none 0) (0 % 2 ^ 36) 8 need = false) ∧
    nextIs (exec (.quillLoad 0 true) imports) (fun t => t.outOps.map (fun o => o.pkt.opc) == [2]) = true ∧
    nextIs (exec (.quillStore 0 255 (leBytes 8 9)) imports) (fun t => t.word Reg.QF_ISSUED == 1 &&
      t.outOps.map (fun o => o.pkt.imm) == [9]) = true ∧
    nextIs (exec (.quillStore 0 255 line0) imports) (fun t => t.word Reg.QF_ISSUED == 8 &&
      t.outOps.map (fun o => (o.pkt.opc, o.pkt.offset)) == (List.range 8).map fun i => (0x08, BitVec.ofNat 36 (8 * i))) = true ∧
    nextIs (exec (.quillAtomic 0 0 1 0) imports) (fun t => t.outOps.map (fun o => o.pkt.opc) == [0x0B]) = true ∧
    nextIs (exec (.quillAtomic 0 9 1 0) imports) (fun t => t.outOps.map (fun o => (o.pkt.opc, o.pkt.atop)) == [(0x0C, 1)]) = true ∧
    nextIs (exec (.quillLoad 0 false) bare) (fun t => t.answers == [(2, [])]) = true ∧ (4 : BitVec 4) ≠ 8 ∧ (10 : BitVec 4) ≠ 9 := by
  decide +kernel

/-! ## Routing and serving -/

/-- Route 3 of sheet 0 with its selection in a state. -/
def routed (sel : Nat) : State := { floor 0 with rulHome := [(routeKey 0 3, ⟨0, 7, 0, [], [], [], true, sel, []⟩)] }

theorem witness_RulingRows :
    (let v : W32 := BitVec.ofNat 32 (fields [(0, 2), (8, 3), (20, 7)])
     bits v.toNat 19 16 = 0 ∧ bits v.toNat 15 8 = 3 ∧ 7 % 4096 = bits v.toNat 31 20 ∧
      (∀ sel, sel < 3 → (Map.get? (routed sel).rulHome (routeKey 0 3)).map RulHome.sel = some sel) ∧
      nextIs (exec (.vsel v) (routed 1)) (fun t => t.rd Reg.VSEL_STAT 1 0 == 1) = true ∧
      nextIs (exec (.vsel v) (routed 2)) (fun t => t.rd Reg.VSEL_STAT 1 0 == 2 && t.word (Reg.VLATE 0) == 1) = true ∧
      nextIs (exec (.vsel v) (routed 0)) (fun t => t.rd Reg.VSEL_STAT 1 0 == 3) = true ∧
      nextIs (exec (.vtimeout 0 3) (routed 1)) (fun t => t.word (Reg.VTIMEOUT 0) == 1) = true) := by decide +kernel

theorem witness_RulingRows_other : Map.get? bare.rulHome (routeKey (bits (0x300 : W32).toNat 19 16) (bits (0x300 : W32).toNat 15 8)) = none ∧
    (Map.get? (routed 1).rulHome (routeKey (bits (0x300 : W32).toNat 19 16) (bits (0x300 : W32).toNat 15 8))).any
      (fun h => h.step % 4096 != bits (0x300 : W32).toNat 31 20) = true := by decide +kernel

theorem witness_ExpertChoice : (0 : Nat) < 1 ∧ replicaOf 5 100 4 = 1 ∧ replicaOf 5 100 3 = 0 := by decide +kernel

/-- A job slot on sheet 0, lead of a job with no other member, with slips 0 to 3; slip 0 holds a word. -/
def job (role : Nat) (w : Nat) : State :=
  put (physSlip 0) (leBytes 128 w) (put (physT0 1) (leBytes 128 (fields [(40, 4), (192, 0x30000), (320, 0x50000000), (376, 4)]))
    (regs [(Reg.JCFG 0, 2 ^ 31 + 2 ^ 30 + role * 2 ^ 29), (Reg.JREC_LO 0, 0x10000), (Reg.SCOUNT 0, 4)] (floor 0)))

/-- The Roll's ring at 0x48000000 holds one entry. -/
def rollRing (e : Nat) (s : State) : State :=
  carve 0x48004000 8 1 (carve 0x48000000 64 e (regs [(Reg.RCQ_BASE_LO, 0x48000000)] s))

/-- What `RollOn` asks, as a check. -/
def rollOn (s : State) (op e j i : Nat) : Bool :=
  bits e 7 0 == op && rollOp op && bits e 511 192 == 0 && bits e 63 58 == 0 && bits e 31 24 == 0 && bits e 15 12 == 0 &&
  bits e 11 8 == j && bits e 49 32 == i && s.slotOn j && (decide (0xC < op) || s.isLead j) && (op != 0x11 || !(s.isLead j)) &&
  s.inRange j i && slGen (s.slip i) == bits e 57 50

/-- What `RollReady` asks, as a check, with an operation and whether its command completes. -/
def rollReady (s : State) (op : Nat) (done : Bool) : Bool :=
  s.powered && ((List.range 16).all fun j => !(s.commitDue j)) &&
  match s.rollHead with
  | ⟨_, none⟩ => false
  | ⟨h, some e⟩ => bits e 7 0 == op && (h.rollDo e).res.isSome == done

/-- The check gives `RollReady`. -/
theorem roll_ready {s : State} {op : Nat} {done : Bool} (h : rollReady s op done = true) :
    ∃ h e, RollReady s h e ∧ bits e 7 0 = op ∧ (h.rollDo e).res.isSome = done := by
  simp only [rollReady, Bool.and_eq_true, List.all_eq_true, List.mem_range, Bool.not_eq_true'] at h
  obtain ⟨⟨h1, h2⟩, h3⟩ := h
  match hr : s.rollHead, h3 with
  | ⟨_, none⟩, h3 => cases h3
  | ⟨h, some e⟩, h3 =>
    simp only [Bool.and_eq_true, beq_iff_eq] at h3
    exact ⟨h, e, ⟨h1, h2, hr⟩, h3⟩

theorem witness_RollRows :
    (∀ row ∈ rollRows, ∃ h e, RollReady (rollRing row.2 (job 0 1)) h e ∧ bits e 7 0 = row.2 ∧ (h.rollDo e).res.isSome = true) ∧
    (∃ h e, RollReady (rollRing (fields [(0, 5), (64, 0x49000000)]) (put (physCarve (0x50000000 + 1024)) [16] (job 0 3))) h e ∧
      bits e 7 0 = 5 ∧ (h.rollDo e).res.isSome = false) ∧
    (∀ m ∈ rollMoves, let s := job (if m.2.1 then 1 else 0) m.2.2.1
      rollOn s m.1 m.1 0 0 = true ∧ s.prefill 0 = m.2.1 ∧ slState (s.slip 0) = m.2.2.1) ∧
    ((job 0 1).upsets = [] ∧ (job 0 1).failing = [] ∧ (job 0 1).badEntries = []) :=
  ⟨fun row hr => roll_ready ((by decide +kernel : ∀ row ∈ rollRows, rollReady (rollRing row.2 (job 0 1)) row.2 true = true) row hr),
   roll_ready (by decide +kernel), by decide +kernel, rfl, rfl, rfl⟩

theorem witness_RollRows_more :
    (rollOn (job 0 4) 0x08 0x08 0 0 = true ∧ slState ((job 0 4).slip 0) = 4 ∧ slState (((job 0 4).rollDo 8).st.slip 0) = 5) ∧
    (rollOn (job 1 3) 0x06 0x06 0 0 = true ∧ (job 1 3).prefill 0 = true) ∧
    (rollOn (job 0 4) 0x0A 0x0A 0 0 = true ∧ slInstep ((job 0 4).slip 0) = false) ∧
    (rollOn (job 0 7) 0x0C 0x0C 0 0 = true ∧ terminal 7 = true) ∧
    (rollOn (job 0 1) 0x10 0x10 0 0 = true ∧ (job 0 1).inCarve 0 32 = true ∧ ((job 0 1).rollDo 0x10).res = some 0) ∧
    (let s := job 0 3
     let e := fields [(0, 5), (64, 0x49000000)]
     rollOn s 0x05 e 0 0 = true ∧ s.prefill 0 = false ∧ s.inCarve 0x49000000 128 = true ∧
      bits (s.carveLe 0x49000000 128) 407 390 = 0 ∧ bits (s.carveLe 0x49000000 128) 415 408 = slGen (s.slip 0) ∧
      s.egRoom 0 1 = true ∧ (s.rollDo e).res = some 0 ∧ (put (physCarve (0x50000000 + 1024)) [16] s).egRoom 0 1 = false) ∧
    (let s := job 0 0
     (s.power.leaving = false) ∧ (s.slipsOf 0).find? (fun i => slState (s.slip i) == 0) = some 0 ∧
      (s.rollDo (fields [(0, 1), (64, 0x49000000)])).gen = 1) ∧
    ((job 0 1).rollDo (fields [(0, 3), (50, 1)])).res = some 4 ∧ slGen ((job 0 1).slip 0) ≠ 1 ∧
    ((job 0 4).rollDo 3).res = some 3 := by decide +kernel

theorem witness_StepTableRows :
    ((job 0 4).headerDue 0 = true ∧
      nextIs (exec (.headerAction 0) (job 0 4)) (fun t => t.rdb (Reg.ACTIVE 0) 31 && t.rd (Reg.ACTIVE 0) 12 0 == 1 &&
        slInstep (t.slip 0)) = true) ∧
    ((job 0 1).headerDue 0 = false) ∧
    (let s := regs [(Reg.ACTIVE 0, 2 ^ 31)] (job 0 4)
     s.commitDue 0 = true ∧ s.egRoom 0 (s.rd (Reg.ACTIVE 0) 12 0) = true ∧
      nextIs (exec (.stepCommit 0) s) (fun t => !(t.rdb (Reg.ACTIVE 0) 31)) = true) ∧
    (let s := regs [(Reg.ACTIVE 0, 2 ^ 31 + 17)] (job 0 4)
     s.commitDue 0 = true ∧ s.egRoom 0 (s.rd (Reg.ACTIVE 0) 12 0) = false ∧ s.egStall = [] ∧
      nextIs (exec (.stepCommit 0) s) (fun t => t.egStall == [0] && t.word (Reg.EGSTALL 0) == 1) = true) ∧
    ((job 0 4).commitDue 0 = false ∧
      (∀ i ∈ (job 0 4).slipsOf 0, slDeadline ((job 0 4).slip i) = 0) ∧ (job 0 4).requests = []) ∧
    (let s := regs [(Reg.SCOUNT 0, 1)] { job 0 (4 + 2 ^ 320) with time := { TimeRt.zero with rack := 5 * 2 ^ 32 } }
     let u := s.seenSlip 0
     s.slotOn 0 = true ∧ s.isLead 0 = true ∧ s.slipsOf 0 = [0] ∧ slInstep (u.slip 0) = false ∧ slState (u.slip 0) = 4 ∧
      slDeadline (u.slip 0) = 1 ∧ slDeadline (u.slip 0) ≤ u.now ∧
      nextIs (exec (.deadlineSweep 0) s) (fun t => slState (t.slip 0) == 6 && slReason (t.slip 0) == 4) = true) := by decide +kernel

/-- The outcomes of R362: a cancelled slip, a missing verdict, two accepted drafts, the end of a prefill. -/
theorem witness_StepTableRows_outcome :
    (slCxp (2 ^ 8) = true) ∧
    (let v := fields [(0, 77), (32, 2), (36, 8), (48, 3)]
     let e := fields [(18, 3), (56, 10), (224, 5), (256, 6)]
     let w := fields [(0, 4), (984, 100)]
     slCxp w = false ∧ bit e 38 = false ∧ bits v 63 48 = 3 % 65536 ∧ bits v 63 48 ≠ 4 % 65536 ∧
      min (bits v 35 32) (teTc e - 1) = 2 ∧ 2 < bits v 39 36 ∧ teC e + 2 + 2 < slCmax w ∧
      outcome false false w e v 3 0 = ⟨4, 0, 13, 77, [(11, 5), (12, 6), (13, 77)], false⟩ ∧
      (outcome false false w e v 4 0).pstate = 8) ∧
    (let v := fields [(0, 77), (48, 3)]
     let e := fields [(18, 90), (56, 10)]
     let w := fields [(0, 2), (984, 100)]
     teC e + teTc e = slCmax w ∧ (outcome true false w e v 3 0).pstate = 3) := by decide +kernel

/-- A client message of a type with a body. -/
def client (type : Nat) (body : List Byte) : List Byte := message type 0x1234 body

/-- A SUBMIT of one prompt token that asks for one new token. -/
def submitMsg : List Byte :=
  client 1 (fit 40 0 (List.replicate 8 0 ++ leBytes 4 1 ++ List.replicate 20 0 ++ leBytes 4 1) ++ leBytes 4 42)

/-- A plan of a SUBMIT: the page list at 0x11000, the rubric list at 0x12000. -/
def plan : SubmitPlan := ⟨0x11000, 0x12000, 0x49000000, 0, 0, [], []⟩

/-- A SUBMIT whose body starts with these bytes. -/
def submitWith (b : List Byte) : List Byte := client 1 (fit 40 0 b ++ leBytes 4 42)

/-- A request that is served, of slip 0. -/
def asked : Request := ⟨0x1234, 0, 0, 0, 0, 0, false, 0, none, none, none, 0⟩

theorem witness_EndpointRows :
    (submitOk [] = false ∧ submitOk submitMsg = true ∧ ((floor 0).slotOn 0 && (floor 0).isLead 0 && !((floor 0).prefill 0)) = false) ∧
    (let s := job 0 0
     s.slotOn 0 = true ∧ s.isLead 0 = true ∧ s.prefill 0 = false ∧ sbN submitMsg + sbMaxnew submitMsg ≤ 1048567 ∧ sbW submitMsg = 0 ∧
      sbFlag submitMsg 0 = false ∧ sbFlag submitMsg 2 = false ∧ s.records = [] ∧
      (let u := (s.seenJob 0 (s.headNact 0)).seenSlips 0
       u.slipOfRid 0 (mRid submitMsg) = none ∧ (u.prefixOf 0 submitMsg).1 ≠ 1)) ∧
    (let m := submitWith (List.replicate 8 0 ++ leBytes 4 0x100000 ++ List.replicate 20 0 ++ leBytes 4 1)
     submitOk m = true ∧ 1048567 < sbN m + sbMaxnew m) ∧
    ((job 0 0).request 0 (mRid (client 6 [])) = none ∧ headOk (client 6 []) 6 16 = true) ∧
    (let s := { job 0 4 with requests := [asked] }
     s.request 0 (mRid (client 6 [])) = some asked ∧ s.slotOn 0 = true ∧ s.isLead 0 = true ∧ slState (s.slip 0) = 4 ∧
      mLe (client 8 (leBytes 8 0)) 20 1 ≤ 8 ∧ headOk (client 8 (leBytes 8 0)) 8 (24 + 4 * mLe (client 8 (leBytes 8 0)) 20 1) = true) ∧
    (let s := put (physCarve (0x50000000 + 1024)) [1] (job 0 4)
     let v := s.seenEgress 0
     v.slotOn 0 = true ∧ v.isLead 0 = true ∧ v.ringOk (v.egBase 0) (v.egSize 0) = true ∧ v.egCons 0 ≠ v.egProd 0 ∧ v.tokensDue 0 = true ∧
      nextIs (exec (.tokens 0) s) (fun t => t.egCons 0 == 1) = true) ∧
    (((job 0 4).seenEgress 0).egCons 0 = ((job 0 4).seenEgress 0).egProd 0) := by decide +kernel

/-- The refusals for a bad image and window, publication and gloss, and the boundary values of their ranges. -/
theorem witness_EndpointRows_refusals :
    (∀ w ∈ [255, 32769, 257], let m := submitWith (List.replicate 4 0 ++ leBytes 4 w ++ leBytes 4 1 ++ List.replicate 20 0 ++ leBytes 4 1)
      submitOk m = true → sbN m + sbMaxnew m ≤ 1048567 ∧ sbW m ≠ 0 ∧ (sbW m % 16 ≠ 0 ∨ sbW m < 256 ∨ 32768 < sbW m)) ∧
    (∀ n ∈ [15, 16], let m := submitWith ([0, 1] ++ List.replicate 6 0 ++ leBytes 4 1 ++ List.replicate 12 0 ++ leBytes 4 n ++ leBytes 4 0 ++
        leBytes 4 1)
      submitOk m = true ∧ sbW m = 0 ∧ sbFlag m 0 = true ∧ (mLe m 40 4 % 16 ≠ 0 ∨ sbN m - 1 < mLe m 40 4)) ∧
    (let m := submitWith ([0, 4] ++ List.replicate 6 0 ++ leBytes 4 1 ++ List.replicate 20 0 ++ leBytes 4 1)
     submitOk m = true ∧ sbW m = 0 ∧ sbFlag m 0 = false ∧ (job 0 0).glossStaged 0 m [] = false) := by decide +kernel

/-- What firmware posts for the endpoint, when the ring has room. -/
theorem witness_EndpointRows_posts :
    (let p : RollPost := ⟨none, 0x0A, 0, 0x1234, .cancel⟩
     let s := regs [(Reg.RCQ_BASE_LO, 0x48000000)] (job 0 4)
     let v : State := { s with posts := [p] }
     s.posts = [] ∧ p.at_ = none ∧ v.rcqRoom = true ∧ (v.word Reg.RCQ_CONS).toNat = v.rcqProd % 2 ^ 32) ∧
    (Wish.enter asked 0 none = .enter asked 0 none ∧ asked.owed = none) ∧
    (let s := { job 0 4 with requests := [asked] }
     let e := fields [(0, 0), (26, 4), (34, 2)]
     (s.requests.find? fun r => r.job == 0 && recordOf r e && !r.ended) = some asked ∧ asked.pub = none ∧
      terminal (bits e 29 26) = false ∧ bits e 37 34 ≠ 0 ∧ terminal (bits (fields [(26, 6)]) 29 26) = true ∧
      ((job 0 4).requests.find? fun r => r.job == 0 && recordOf r e && !r.ended) = none) := by decide +kernel

/-- A module that mirrors its lead slot to a buddy. -/
def mirroring (st : Nat) : State := regs [(Reg.MIRR_CTL, 2 ^ 31 + st * 2 ^ 28), (Reg.MIRR_WL_LO, 0x31000)] (put (physT0 3 + 0x1000) [5] (job 0 4))

/-- A slot of it with a step mirror or a batch. -/
def mirrored (m : MirrorRt) : State := { mirroring 2 with mirror := [(0, m)] }

theorem witness_MirrorRows :
    ((job 0 4).mirrors = false) ∧
    (let s := mirroring 3
     s.mirrors = true ∧ s.slotOn 0 = true ∧ ((s.seenTrigger 0).seenJob 0 0).suspended = true) ∧
    (let s := mirroring 2
     s.mirrors = true ∧ s.slotOn 0 = true ∧ s.isLead 0 = true ∧ s.suspended = false ∧
      (let u := (s.seenTrigger 0).seenJob 0 0
       u.suspended = false ∧ u.headNact 0 = 0) ∧
      nextIs (exec (.mirrorStepTrigger 0) s) (fun t => (t.mirr 0).stepOf == some 5 && (t.mirr 0).stepRun == 1) = true) ∧
    (let s := mirrored { MirrorRt.zero with stepOf := some 5 }
     (s.mirr 0).stepOf = some 5 ∧ (s.mirr 0).stepOwed = 0 ∧
      nextIs (exec (.mirrorStepComplete 0) s) (fun t => (t.mirr 0).stepOf == none) = true) ∧
    (let s := mirrored { MirrorRt.zero with stepOf := some 5, stepOwed := 1, batchOf := some 3, batchOwed := 1 }
     (s.mirr 0).stepOwed ≠ 0 ∧ s.suspended = false ∧ s.isLead 0 = true ∧ (s.mirr 0).batchOf ≠ none ∧ (s.mirr 0).batchOwed ≠ 0 ∧
      ((s.batch 0 4).mirr 0).batchQ = [4]) ∧
    (((mirroring 2).mirr 0).batchOf = none ∧ ((mirroring 2).mirr 0).batchQ = []) ∧
    (∀ v ∈ [4, 5], let s := mirrored { MirrorRt.zero with dirty0 := [2], dirty1 := [2] }
      s.suspended = false ∧ (if v % 2 = 0 then (s.mirr 0).dirty0 else (s.mirr 0).dirty1) = [2]) ∧
    (let s := { regs [(Reg.MIRR_CTL, 2 ^ 31 + 2 ^ 29)] imports with mirror := [(0, { MirrorRt.zero with batchOf := some 7 })] }
     (s.mirr 0).batchOf = some 7 ∧ (s.mirr 0).batchOwed = 0 ∧ s.suspended = false ∧ s.rd Reg.MIRR_CTL 11 0 = 0 ∧
      (let u := (s.setMirr 0 { s.mirr 0 with batchOf := none, mseq := 7 }).seenImport none 0
       importOk (u.importEntry none 0) 0 8 10 = true) ∧
      (s.batchSeq 0).outOps.map (fun o => (o.pkt.opc, o.pkt.imm)) = [(0x0C, 7)]) ∧
    (let s := regs [(Reg.BUDDY, 2 ^ 16 + 0x20), (Reg.MIRR_CTL, 2 ^ 31)] (bare.setPeer 0x20 ⟨1, 1, [], true⟩)
     s.buddyLost = true ∧ nextIs (exec .resync s) (fun t => t.rd Reg.MIRR_CTL 29 28 == 3) = true) ∧
    ((mirroring 2).buddyLost = false) ∧
    (let s := regs [(Reg.MIRR_CTL, 2 ^ 31 + 2 ^ 28)]
     s.mirrors = true ∧ s.rd Reg.MIRR_CTL 29 28 = 1 ∧ s.resyncing = false ∧
      nextIs (exec .resyncComplete s) (fun t => t.rd Reg.MIRR_CTL 29 28 == 2) = true) ∧
    bare.mirrors = false ∧ (mirroring 2).rd Reg.MIRR_CTL 29 28 ≠ 1 ∧
    (let s := { regs [(Reg.MIRR_CTL, 2 ^ 31 + 2 ^ 28)] with outOps := [sent true [⟨4, 3, 0, 4, 0, 0, 0⟩]] }
     s.resyncing = true) := by decide +kernel

/-! ## Packets and links -/

theorem witness_PacketRoundTrip :
    (let p := { pkt 0x0A 1 9 [line0, line0] with dep := some 4, hops := 3, status := 5 }
     knownOpc p.opc.toNat = true ∧ (∀ g ∈ p.gran, g.length = 64) ∧ p.badGranule = false ∧ p.gran.length = payloadCount { p with ngm1 := 0 } ∧
      (parsePacket (packetBytes { p with gran := [] })).hops = 3 ∧ headerGood (packetBytes { p with gran := [] }) = true) := by
  decide +kernel

theorem witness_BadHeaders :
    (let b := packetBytes (pkt 0x08 0 1)
     crc32c (((b.set 4 1).take 36).set 1 ((b.set 4 1).getD 1 0 &&& 0x0F)) ≠ leNat (((b.set 4 1).drop 36).take 4) ∧
      (bare.rxBytes 0 (b.set 4 1)).word Reg.HDR_ERR = 1) ∧
    (knownOpc (([] : List Byte).getD 0 0).toNat = false) ∧ (4 < (([8, 5] : List Byte).getD 1 0).toNat % 8) := by decide +kernel

/-- A flit of a sequence number and lane that carries nothing. -/
def emptyFlit (seq lane : Nat) : List Byte :=
  let b := leBytes 2 seq ++ leBytes 2 0 ++ leBytes 1 lane ++ List.replicate 247 0
  b ++ leBytes 4 (crc32c b)

/-- Port 3 in a state. -/
def portIn (st : Nat) : State := regs [(Reg.PORT_STAT 3, st)]

theorem witness_PortRows :
    (let f := emptyFlit 1 0
     f.length = 256 ∧ crc32c (f.take 252) = leNat (f.drop 252) ∧ bit (f.getD 4 0).toNat 3 = false ∧ bit (f.getD 4 0).toNat 4 = false ∧
      leNat (f.take 2) = (((portIn 3).port 3).rxSeq + 1) % 65536 ∧
      (((portIn 3).port 3).stream.getD ((f.getD 4 0).toNat % 8) []) = [] ∧ f.getD 8 0 = 0 ∧ (portIn 3).portState 3 = 3 ∧
      nextIs (exec (.flitReceive 3 f 0 0) (portIn 3)) (fun t => (t.port 3).rxSeq == 1 && t.word (Reg.FLITS_RX 3) == 1) = true) ∧
    (let f := (emptyFlit 1 0).set 9 1
     f.length = 256 ∧ crc32c (f.take 252) ≠ leNat (f.drop 252) ∧
      nextIs (exec (.flitReceive 3 f 2 0) (portIn 3)) (fun t => (t.port 3).nak && t.word (Reg.CRC_ERR 3) == 1 &&
        t.word (Reg.LFEC_CORR 3) == 2) = true) ∧
    ((portIn 5).portState 3 = 5 ∧ ((portIn 3).port 3).unacked = []) ∧
    (let s := (portIn 3).setPort 3 { PortRt.zero with unacked := [⟨0, 0, []⟩] }
     (s.port 3).unacked ≠ [] ∧ nextIs (exec (.replayTimeout 3) s) (fun t => t.word (Reg.REPLAYS 3) == 1 &&
       t.word (Reg.FLITS_TX 3) == 1 && (t.port 3).wire.length == 1) = true) ∧
    (let s := regs [(Reg.PORT_STAT 9, 3)]
     let k := { pkt 0x08 0 1 with dst := 0x50, hops := 6 }
     k.dst.toNat ≠ s.pos ∧ vlOf k.opc.toNat ≠ 4 ∧ k.hops.toNat < 7 ∧ s.ringCarries 9 = true ∧ s.ringCarries 8 = false ∧
      nextIs (exec (.forward 8 k) s) (fun t => t.tx == [(9, { k with hops := 7 })]) = true ∧
      nextIs (exec (.forward 8 { k with badGranule := true }) s) (fun t => t.tx == [] && t.word Reg.PAY_ERR == 1) = true ∧
      7 ≤ ({ k with hops := 7 } : Packet).hops.toNat) ∧
    nextIs (exec (.portDown 3) (portIn 3)) (fun t => t.portState 3 == 5) = true ∧
    ((bare.port 3).downAt = none ∧ ({ bare with outOps := [{ sent true [] with path := 3 }] }.setPort 3
      { PortRt.zero with downAt := some 7 } |>.port 3).downAt = some 7) := by
  decide +kernel

theorem witness_PortRows_paths : ∀ n, n < 256 → bare.paths (idxPos n) = [] := by decide +kernel

theorem witness_LaneRows :
    (let u := (portIn 3).wrb (Reg.LANE_FAIL 3) 7 true
     (portIn 3).portState 3 ≠ 0 ∧ (portIn 3).portState 3 ≠ 5 ∧ bestSet (u.goodLanes 3) ≠ 0 ∧
      nextIs (exec (.laneFail 3 7) (portIn 3)) (fun t => (t.port 3).proposed == 0x0F && t.tx.length == 1) = true) ∧
    ((portIn 5).portState 3 = 5 ∧ nextIs (exec (.laneFail 3 7) (portIn 5)) (fun t => t.rdb (Reg.LANE_FAIL 3) 7) = true) ∧
    (bestSet 0x3C ≠ 0 ∧ (portIn 1).portUp 3 = false ∧ nextIs (exec (.flitLock 3 0x3C) (portIn 1)) (fun t => t.portState 3 == 2 && t.rd (Reg.PORT_STAT 3) 23 16 == 0x0C &&
      t.rd (Reg.LANE_FAIL 3) 7 0 == 0xC3) = true) ∧
    (let imm : W64 := 0x0101
     let s := regs [(Reg.PORT_STAT 3, 2), (Reg.LINK_CAP, 0x0101)]
     1 = min (bits imm.toNat 15 8) (s.rd Reg.LINK_CAP 15 8) ∧ bits imm.toNat 7 0 ≤ 1 ∧ s.rd Reg.LINK_CAP 7 0 ≤ 1 ∧
      nextIs (exec (.version 3 imm) s) (fun t => t.rd (Reg.PORT_STAT 3) 11 8 == 1) = true) ∧
    (let s := (portIn 3).setPort 3 { PortRt.zero with proposed := 0x0F }
     let imm : W64 := 0x10F
     bit imm.toNat 8 = true ∧ bits imm.toNat 7 0 = (s.port 3).proposed ∧ bits imm.toNat 7 0 ≠ 0 ∧ (s.port 3).unacked = [] ∧
      nextIs (exec (.width 3 imm) s) (fun t => t.rd (Reg.PORT_STAT 3) 23 16 == 0x0F && t.word (Reg.WIDTH_CHG 3) == 1) = true) ∧
    (let imm : W64 := 0xF0
     bit imm.toNat 8 = false ∧ bits imm.toNat 7 0 ≠ 0 ∧ (portIn 3).portState 3 = 3 ∧ laneSets.contains (bits imm.toNat 7 0) = true ∧
      bits imm.toNat 7 0 &&& (portIn 3).goodLanes 3 = bits imm.toNat 7 0) ∧
    (let s := regs [(Reg.PORT_STAT 3, 3), (Reg.LANE_FAIL 3, 0x80)]
     laneSets.contains 0x3C = false ∧ 0xF0 &&& s.goodLanes 3 ≠ 0xF0 ∧ nextSet (s.goodLanes 3) 0xF0 = 0x03 ∧ nextSet 0xF0 0x0F = 0xF0 ∧
      nextSet (s.goodLanes 3) 0x30 = 0 ∧
      nextIs (exec (.width 3 0xF0) s) (fun t => (t.port 3).proposed == 0x03 && t.tx.map (fun x => x.2.imm) == [0x03]) = true ∧
      nextIs (exec (.width 3 0xC0) s) (fun t => t.portState 3 == 5) = true) ∧
    (let s := regs [(Reg.PORT_STAT 3, 3 + 8 * 2 ^ 12)]
     s.portUp 3 = true ∧ s.rd (Reg.PORT_STAT 3) 15 12 = 8 ∧
      nextIs (exec (.borrow 3 5) s) (fun t => (t.port 3).borrowed == some 5 && t.rd (Reg.PORT_STAT 3) 23 16 == 0xDF) = true) ∧
    (let s := (portIn 3).setPort 3 { PortRt.zero with borrowed := some 5 }
     bit (0x105 : W64).toNat 8 = true ∧ (s.port 3).borrowed = some (bits (0x105 : W64).toNat 2 0) ∧
      nextIs (exec (.borrow 3 0x105) s) (fun t => (t.port 3).borrowed == none && t.rd (Reg.PORT_STAT 3) 15 12 == 8) = true) := by
  decide +kernel

theorem witness_LaneRows_other :
    (let s := regs [(Reg.PORT_STAT 3, 3), (Reg.LANE_FAIL 3, 0x54)]
     s.portState 3 ≠ 0 ∧ s.portState 3 ≠ 5 ∧ bestSet ((s.wrb (Reg.LANE_FAIL 3) 1 true).goodLanes 3) = 0 ∧
      nextIs (exec (.laneFail 3 1) s) (fun t => t.portState 3 == 5) = true) ∧ bestSet (0x15 : BitVec 8).toNat = 0 ∧
    (let s := regs [(Reg.PORT_STAT 3, 3), (Reg.LINK_CAP, 0x0202)]
     s.portState 3 = 3 ∧ min (bits (0x0101 : W64).toNat 15 8) (s.rd Reg.LINK_CAP 15 8) < s.rd Reg.LINK_CAP 7 0 ∧
      nextIs (exec (.version 3 0x0101) s) (fun t => t.portState 3 == 4) = true) ∧ (portIn 5).portState 3 = 5 ∧
    (portIn 2).portUp 3 = false ∧ bit (0 : W64).toNat 8 = false ∧ bit (0x100 : W64).toNat 8 = true ∧
    ((portIn 3).port 3).borrowed ≠ some (bits (0x100 : W64).toNat 2 0) := by decide +kernel

/-- Port 3 in a state, and planned. -/
def planned (st : Nat) : State :=
  { portIn st with start := { StartRt.zero with plan := List.replicate (4112 + 12) 0 ++ [0, 0, 0, 0x80] } }

theorem witness_DiscoveryRows :
    nextIs (exec (.unreach 3 0x20) bare) (fun t => (t.port 3).unreach == [0x20]) = true ∧
    (bits (0x30020 : W64).toNat 15 0 ≠ bare.pos ∧
      nextIs (exec (.ringmap 8 0x30020) bare) (fun t => Map.get? t.ringMap 0x20 == some (true, true, 0)) = true ∧
      Map.get? bare.ringMap 0x20 = none ∧
      nextIs (exec (.ringmapTimeout 0x20) { bare with ringMap := [(0x20, (true, true, 0))] })
        (fun t => t.ringMap == [] && t.now == 300000) = true) ∧
    (let f : List Byte := List.replicate 64 0
     f.length = 64 ∧ (f.getD 10 0).toNat ≤ 1 ∧ (portIn 2).portState 3 = 2 ∧
      nextIs (exec (.ident 3 f) (portIn 2)) (fun t => t.rd (Reg.IDM 3) 31 28 == (portIn 2).matchCode 3 f) = true) ∧
    ((portIn 4).portState 3 = 4 ∧ nextIs (exec (.identTimer 3) (portIn 4)) (fun t => t.tx.length == 1) = true) ∧
    nextIs (exec .absentDeadline bare) (fun t => t.start.deadline) = true ∧
    ((portIn 5).portState 3 = 5 ∧ nextIs (exec (.farEndDetect ⟨3, true, false, []⟩) (portIn 5)) (fun t => t.portState 3 == 1 && (t.port 3).mates == 1) = true) ∧
    (bare.portState (bare.ringPort false) = 0 ∧ bare.ringPort false < 10 ∧ (portIn 2).portState 3 ≠ 0 ∧ (portIn 2).portState 3 ≠ 5 ∧
      ([] : List Byte) = [] ∧ (List.replicate 191 (0 : Byte)).length ≠ 192 ∧ (List.replicate 191 (0 : Byte)) ≠ []) ∧
    (bare.portState 3 = 0 ∧ 3 ≠ (bare.cableRefresh 3).ringPort false ∧
      nextIs (exec (.cableUsageWrite 3 false) bare) (fun t => (t.heldEvents.map EventRec.code).getLast? == some 0x0905) = true) ∧
    (let u := bare.cableRefresh (bare.ringPort false)
     bare.portState (bare.ringPort false) = 0 ∧ bare.ringPort false = u.ringPort false) ∧
    (let s := planned 2
     bit (s.planPort 3) 31 = true ∧ s.rd (Reg.IDM 3) 31 28 = 0 ∧ nextIs (exec .absentDeadline s) (fun t => t.portState 3 == 4) = true ∧
      (∀ p, p < 10 → (planned 0).portState p ≠ 2 ∧ (planned 0).portState p ≠ 3)) ∧
    (let s := { portIn 2 with start := { StartRt.zero with matched := true } }
     s.start.matched = true ∧ ∀ n, n < 256 → s.paths (idxPos n) = []) := by decide +kernel

/-- A cable with a good identity block on port 3. -/
def cabled : State :=
  let b := leBytes 2 0x4943 ++ leBytes 1 1 ++ List.replicate 57 0
  put (physCable 3 0) (b ++ leBytes 4 (crc32c b)) bare

theorem witness_DiscoveryRows_cable : cabled.portState 3 = 0 ∧ 3 ≠ cabled.ringPort false ∧ 3 ≠ (cabled.cableRefresh 3).ringPort false ∧
    nextIs (exec (.cableUsageWrite 3 true) cabled) (fun t => t.usageAt 3 == some 64 && t.usageWord 3 0 4 == 1) = true := by
  decide +kernel

/-! ## Own requests on the bulk ring -/

/-- A bulk ring of the carve-out at 0x40000000, whose first entry is the request w. -/
def bulkRing (w : Nat) : State := carve 0x40004000 8 1 (carve 0x40000000 64 w (regs [(Reg.BQ_BASE_LO, 0x40000000)]))

/-- A request of operation o with its record at 0x40010000. -/
def bulkRequest (o : Nat) : Nat := fields [(0, o), (128, 7), (160, if o = 3 then 0 else 64), (252, 4), (336, 0x40010000)]

theorem bulkRing_head (w : Nat) (h1 : (bulkRing w).ringOk ((bulkRing w).addrOf Reg.BQ_BASE_LO Reg.BQ_BASE_HI 64) 256 = true)
    (h2 : ((bulkRing w).carveLe ((bulkRing w).addrOf Reg.BQ_BASE_LO Reg.BQ_BASE_HI 64 + 64 * 256) 8 % 2 ^ 32 ==
      ((bulkRing w).word Reg.BQ_CONS).toNat) = false)
    (h3 : (bulkRing w).carveLe ((bulkRing w).addrOf Reg.BQ_BASE_LO Reg.BQ_BASE_HI 64 +
      64 * (((bulkRing w).word Reg.BQ_CONS).toNat % 256)) 64 = w) (h4 : ¬ 16 ≤ (bulkRing w).bulks.length) :
    (bulkRing w).bulkHead = ⟨bulkRing w, some w⟩ := by
  have h2' := ne_of_beq_false h2
  have hs : Sound (bulkRing w) := ⟨rfl, rfl, rfl⟩
  rw [State.bulkHead, if_neg h4, State.ringHead, h1]
  simp only [Bool.not_true, Bool.false_eq_true, if_false, h2', State.seen_carve hs, h3]

theorem witness_OwnRequests_bulk : ∀ o ∈ [1, 2, 3],
    let s := bulkRing (bulkRequest o)
    let r := bulkRequest o
    s.powered = true ∧ s.bulkHead = ⟨s, some r⟩ ∧ CanTake s Reg.BQ_CONS (bits r 383 336) ∧ bulkBad r = false ∧ bits r 7 0 = o := by
  intro o ho
  have h : ∀ o ∈ [1, 2, 3], (bulkRing (bulkRequest o)).powered = true ∧
      ((bulkRing (bulkRequest o)).bump Reg.BQ_CONS).carveRecOk (bits (bulkRequest o) 383 336) = true ∧
      (((bulkRing (bulkRequest o)).bump Reg.BQ_CONS).seen (physCarve (bits (bulkRequest o) 383 336)) 64
        (bits (bulkRequest o) 383 336) 16).recState (physCarve (bits (bulkRequest o) 383 336)) = 0 ∧ bulkBad (bulkRequest o) = false ∧
      bits (bulkRequest o) 7 0 = o := by decide +kernel
  have hh : ∀ o ∈ [1, 2, 3], (bulkRing (bulkRequest o)).ringOk
        ((bulkRing (bulkRequest o)).addrOf Reg.BQ_BASE_LO Reg.BQ_BASE_HI 64) 256 = true ∧
      ((bulkRing (bulkRequest o)).carveLe ((bulkRing (bulkRequest o)).addrOf Reg.BQ_BASE_LO Reg.BQ_BASE_HI 64 + 64 * 256) 8 % 2 ^ 32 ==
        ((bulkRing (bulkRequest o)).word Reg.BQ_CONS).toNat) = false ∧
      (bulkRing (bulkRequest o)).carveLe ((bulkRing (bulkRequest o)).addrOf Reg.BQ_BASE_LO Reg.BQ_BASE_HI 64 +
        64 * (((bulkRing (bulkRequest o)).word Reg.BQ_CONS).toNat % 256)) 64 = bulkRequest o ∧
      ¬ 16 ≤ (bulkRing (bulkRequest o)).bulks.length := by decide +kernel
  obtain ⟨a, b, c, d, e⟩ := h o ho
  obtain ⟨f, g, i, j⟩ := hh o ho
  exact ⟨a, bulkRing_head _ f g i j, ⟨b, c⟩, d, e⟩

theorem test_bulkRead : nextIs (exec .bulkRead (bulkRing (bulkRequest 1)))
    (fun t => t.word Reg.BQ_CONS == 1 && t.recKind (physCarve 0x40010000) == 2) = true := by decide +kernel

/-! ## Time -/

/-- A REPLY's granule with T1, T2, T3 in ns. -/
def replyGran (t1 t2 t3 : Nat) : List Byte := leBytes 8 t1 ++ leBytes 8 t2 ++ leBytes 8 t3 ++ List.replicate 40 0

/-- A follower whose port P0 is UP, with a count of missed REPLYs. -/
def follower (waiting : Bool) (misses : Nat) (aligned : Nat) : State :=
  { regs [(Reg.PORT_STAT 0, 3), (Reg.MCFG, 0x00200010), (Reg.TIM_STAT, 0x10 + 2 ^ 28 * aligned)] with
    time := { TimeRt.zero with waiting := waiting, misses := misses } }

theorem witness_TimeRows :
    (let s := regs [(Reg.TIM_STAT, 2 * 2 ^ 26)]
     s.powered = true ∧ s.role = 2 ∧ s.rd Reg.START_STAT 3 0 ≠ 5 ∧ s.rdb Reg.TIM_STAT 31 = false ∧
      (regs [(Reg.START_STAT, 5), (Reg.TOPO_STAT, 2)] s).rd Reg.START_STAT 3 0 = 5 ∧
      nextIs (exec .syncInterval (regs [(Reg.START_STAT, 5)] s)) (fun t => t.rdb Reg.TIM_STAT 31 && t.rd Reg.START_STAT 3 0 == 6 &&
        !(t.rdb Reg.TIM_STAT 28)) = true) ∧
    (let s := follower false 0 0
     s.role ≠ 2 ∧ s.time.waiting = false ∧ s.time.misses < 3 ∧ s.syncPort = some 0 ∧
      nextIs (exec .syncInterval s) (fun t => t.tx.map (fun x => (x.1, x.2.dst)) == [(0, 0x10)]) = true) ∧
    (let s := regs [(Reg.MCFG, 0x00200010), (Reg.TIM_STAT, 0x10)] { bare with time := { TimeRt.zero with waiting := true, misses := 2 } }
     s.role ≠ 2 ∧ s.time.waiting = true ∧ s.time.misses = 2 ∧ s.syncPort = none ∧
      nextIs (exec .syncInterval s) (fun t => t.rd Reg.TIM_STAT 15 0 == 0x20 && t.rdb Reg.TIM_STAT 30) = true) ∧
    (replyGran 1000 5000 5000).length = 64 ∧
    exchange (replyGran 1000 5000 5000) (1800 * 65536) = (400 * 65536, 3600 * 65536) ∧
    exchange (replyGran 0 0 0) (30000 * 65536) = (15000 * 65536, -15000 * 65536) ∧ (655360000 : Int) < 15000 * 65536 ∧
    (follower true 0 0).rdb Reg.TIM_STAT 28 = false ∧
    ((follower true 0 0).arrives (1800 * 65536)).2 = 1800 * 65536 ∧
    nextIs (exec (.reply 0 (replyGran 1000 5000 5000) ⟨1800, 0⟩) (follower true 0 0)) (fun t => t.now == 5400) = true ∧
    ((follower true 0 1).rdb Reg.TIM_STAT 28 = true ∧ (follower true 0 1).time.readyOnce = false ∧
      (follower true 0 1).rdb Reg.TIM_STAT 30 = false ∧ (follower true 0 5).rdb Reg.TIM_STAT 30 = true ∧
      leNat (((replyGran 1000 5000 5000).drop 48).take 2) ≠ (follower true 0 5).rd Reg.TIM_STAT 15 0 ∧
      leNat ((((replyGran 1000 5000 5000).set 48 0x10).drop 48).take 2) = (follower true 0 5).rd Reg.TIM_STAT 15 0) := by
  decide +kernel

theorem witness_TimeRows_other :
    (let s := regs [(Reg.TIM_STAT, 2 * 2 ^ 26)]
     (s.arrives (1800 * 65536)).1.role = 2) ∧ (bits (0 : W64).toNat 15 0 = bare.pos) := by decide +kernel

/-- The delay and the offset with stamps of different fractions: D = 412.0 ns and O = 12.5 ns, in units of 1/65,536 ns. -/
theorem test_reply_example :
    exchange (leBytes 8 1000 ++ leBytes 8 1424 ++ leBytes 8 1500 ++ leBytes 2 0 ++ leBytes 2 0x8000 ++ leBytes 2 0 ++ List.replicate 34 0)
      (1899 * 65536 + 0x8000) = (412 * 65536, 819200) := by decide +kernel

theorem test_tick : nextIs (step { bare with time := { TimeRt.zero with adj := -1, rack := 5 } })
    (fun t => t.time.rack == 4294967300) = true := by decide +kernel

theorem test_phaseEnd : nextIs (exec .phaseEnd { bare with time := { TimeRt.zero with rate := 7, phase := 9, adj := 16, ticksLeft := 3 } })
    (fun t => t.time.adj == 7 && t.time.phase == 0) = true := by decide +kernel

theorem test_refloss : nextIs (exec .refloss bare) (fun t => t.rdb Reg.TIM_STAT 29) = true ∧
    nextIs (exec .refclkReturn (regs [(Reg.TIM_STAT, 2 ^ 29)])) (fun t => !(t.rdb Reg.TIM_STAT 29)) = true := by decide +kernel

/-! ## Power -/

/-- A quire that runs at a point. -/
def running (pt : Nat) (x : QuireRt := QuireRt.zero) : State :=
  { regs [(Reg.QUIRE_STAT 5, 3), (Reg.QPT 5, pt * 65536), (Reg.PTCTL, 1024 * 100), (Reg.BL_CFG, 2 ^ 29)] with quires := [(5, x)] }

theorem witness_EpochRows :
    (let s := regs [(Reg.RTCTL, 2 ^ 31)]
     s.rdb Reg.RTCTL 31 = true ∧ bare.rdb Reg.RTCTL 31 = false) ∧
    (let s := regs [(Reg.THERM_CFG, 95 * 2 ^ 24), (Reg.QTEMP 5, 760)] (running 3)
     s.runs 5 = true ∧ 8 * (s.rd Reg.THERM_CFG 31 24 : Int) ≤ s.temp 5 ∧ s.coolMax 5 ≠ 0 ∧
      (s.setQuire 5 { s.quire 5 with thr := 6 }).coolMax 5 = 0) ∧
    (let s := regs [(Reg.THERM_CFG, 95 * 2 ^ 24), (Reg.QTEMP 5, 719)] (running 3)
     s.temp 5 < 8 * (s.rd Reg.THERM_CFG 31 24 : Int) - 40) ∧
    (let s := regs [(Reg.THERM_CFG, 95 * 2 ^ 24), (Reg.QTEMP 5, 720)] (running 3)
     8 * (s.rd Reg.THERM_CFG 31 24 : Int) - 40 ≤ s.temp 5 ∧ s.temp 5 < 8 * (s.rd Reg.THERM_CFG 31 24 : Int)) := by decide +kernel

theorem witness_QuirePowerRows :
    (bare.powered = true ∧ bare.runs (5 : Fin 64).val = false ∧ (running 3).runs 5 = true) ∧
    (bare.quire (5 : Fin 64).val).raise_ = none ∧
    (let s := running 3 { QuireRt.zero with raise_ := some 4 }
     (s.quire (5 : Fin 64).val).raise_ = some 4 ∧
      nextIs (exec (.pointRaiseSettled 5) s) (fun t => t.rd (Reg.QPT 5) 23 16 == 4) = true) ∧
    ((5 : Fin 64).val < bare.nq ∧ nextIs (exec (.droopTrip 5 1) bare) (fun t => (t.quire 5).stretched && t.word (Reg.QDROOP 5) == 1) = true) ∧
    (nextIs (exec (.droopRelease 5) (running 3 { QuireRt.zero with stretched := true })) (fun t => !(t.quire 5).stretched) = true) ∧
    ((2 : Fin 8).val ∉ bare.power.clamped ∧
      (2 : Fin 8).val ∈ ({ bare with power := { PowerRt.zero with clamped := [2] } } : State).power.clamped ∧
      nextIs (exec (.clamp 2) bare) (fun t => t.power.clamped == [2] && t.word (Reg.CLAMPS 2) == 1) = true) ∧
    bare.rdb Reg.PTCTL 29 = false ∧
    (let s := regs [(Reg.PTCTL, 2 ^ 29), (Reg.PTAB_LO, 0x40000000)]
     s.rdb Reg.PTCTL 29 = true ∧ s.inCarve (s.phaseAt s.pside 0 0) 0x80000 = true ∧ s.inCarve (s.phaseAt (1 - s.pside) 0 0) 0x80000 = true ∧
      s.hitsTables (s.phaseAt (1 - s.pside) 0 0) 0x80000 = false ∧ s.upsets = [] ∧ s.failing = [] ∧ s.badEntries = []) := by
  decide +kernel

theorem witness_QuirePowerRows_other : let s := { bare with chip := { bare.chip with lv60 := true } }
    s.nq ≤ (63 : Fin 64).val ∧ nextIs (exec (.droopTrip 63 0) s) (fun t => t == s) = true := by decide +kernel

theorem witness_BudgetPass : (∀ x ∈ [(3, 96, 9), (5, 96, 9)], (x : Nat × Nat × Nat).2.2 ≤ 9) ∧
    poolAt [(3, 96, 9), (5, 96, 9)] 6 ≤ 200 ∧
    (passLoop 200 6 [(3, 96, 9), (5, 96, 9)] (poolAt [(3, 96, 9), (5, 96, 9)] 6) []).map Prod.fst = [3, 5] := by decide +kernel

/-- Quire 0 runs a stroke of phase 7 after one of phase 0; the learning side holds an entry of phase 0. -/
def phases : State :=
  carve 0x40080000 8 (2 ^ 63 + 100) (regs [(Reg.PTAB_LO, 0x40000000), (Reg.QPT 0, 6 * 65536), (Reg.BL_CFG, 2 ^ 29), (Reg.PTCTL, 2 ^ 28 + 1024 * 100)]
    (floor (fields [(0, 1), (16, 255), (48, 7)])))

/-- A phase of 1 µs at point 6 is learned into the verso: D moves by one eighth of the difference. -/
theorem test_phaseBoundary : phases.runs 0 = true ∧ phases.phaseNow 0 = 7 ∧ (phases.quire 0).phase = 0 ∧
    (phases.learn 0 1000 180).carveLe 0x40080000 8 = 2 ^ 63 + 2 ^ 32 + 180 * 2 ^ 16 + 110 ∧
    (floor (fields [(0, 1), (16, 255)])).phaseNow 0 = ((floor (fields [(0, 1), (16, 255)])).quire 0).phase := by decide +kernel

/-- The readings of a sample: all at t, in 1/8 °C. -/
def temps (n t : Nat) : List (BitVec 16) := List.replicate n (BitVec.ofNat 16 t)

theorem witness_SupplyRows :
    ((temps 64 400).length = 64 ∧ (temps 16 400).length = 16) ∧
    (let s := regs [(Reg.THERM_CFG, 125)]
     s.calib = [] ∧ atLeast ((temps 16 1000).getD 3 0).toNat (s.rd Reg.THERM_CFG 7 0) = true ∧
      nextIs (exec (.thermalSample (temps 64 400) (temps 16 1000)) s) (fun t => !t.powered) = true) ∧
    (let s := regs [(Reg.RAILV 2, 800 * 65536)]
     (850 - s.rd (Reg.RAILV 2) 31 16) + (s.rd (Reg.RAILV 2) 31 16 - 850) = 50 ∧
      (700 - s.rd (Reg.RAILV 2) 31 16) + (s.rd (Reg.RAILV 2) 31 16 - 700) = 100 ∧
      (901 - s.rd (Reg.RAILV 2) 31 16) + (s.rd (Reg.RAILV 2) 31 16 - 901) = 101 ∧
      nextIs (exec (.railSample 2 0 700 10) s) (fun t => t.powered && t.rdb Reg.MON_EVT 2) = true ∧
      nextIs (exec (.railSample 2 0 901 10) s) (fun t => !t.powered) = true ∧
      nextIs (exec (.railSample 2 0 901 9) s) (fun t => t == s) = true) ∧
    (bare.mirrors = false ∧ bare.power.leaving = false ∧
      nextIs (exec .latchOpen bare) (fun t => t.power.leaving && t.rd Reg.TOPO_STAT 2 0 == 4 && t.rdb Reg.SB_STAT 31) = true) ∧
    (nextIs (exec (.inputVoltageChange 39999) bare) (fun t => t.rdb Reg.VIN_STAT 31 && !(t.rdb Reg.VIN_STAT 30)) = true ∧
      nextIs (exec (.inputVoltageChange 52001) bare) (fun t => t.rdb Reg.VIN_STAT 30 && !(t.rdb Reg.VIN_STAT 31)) = true ∧
      nextIs (exec (.inputVoltageChange 40300) (regs [(Reg.VIN_STAT, 2 ^ 31)])) (fun t => t.rdb Reg.VIN_STAT 31) = true ∧
      nextIs (exec (.inputVoltageChange 40300) bare) (fun t => !(t.rdb Reg.VIN_STAT 31)) = true) ∧
    nextIs (exec .ductusReloadDone { bare with power := { PowerRt.zero with ductusReload := true } }) (fun t => !t.power.ductusReload) = true := by
  decide +kernel

theorem test_power_off : nextIs (exec .powerLoss bare) (fun t => !t.powered) = true ∧
    nextIs (exec .overvoltage bare) (fun t => !t.powered) = true ∧
    nextIs (exec .inputLoss bare) (fun t => t.rdb Reg.HOLDUP 30 && t.power.leaving) = true := by decide +kernel

/-! ## The Baseline exchange -/

/-- A record of the epoch e: a granule that names a position or a tray at byte 4. -/
def record (e p : Nat) (rest : List Byte) : List Byte := fit 64 0 (leBytes 4 e ++ leBytes 2 p ++ rest)

/-- A module at position 0 in epoch 7 that holds records. -/
def atEpoch (intents trays : Map (List Byte)) (s : State := bare) : State :=
  { s with time := { TimeRt.zero with rack := 700000 * 2 ^ 32, lastEpoch := 7 }, base := { BaseRt.zero with intents := intents, trays := trays } }

/-- A plan that populates tray 0 of rack 0 with the one position 0. -/
def onePlan : State := { bare with start := { StartRt.zero with plan := fit 8192 0 ([0, 0, 0, 0, 1, 0, 0, 0] ++ List.replicate 8 0 ++ [1]) } }

/-- Tray 0's record with slot 0 in it, that wants 1,000 W and needs 600 W; GPREV 2,000 W, CAPMIN 30,000 W. -/
def trayZero : List Byte :=
  record 7 0 ([1, 1, 0, 0, 0, 0] ++ leBytes 4 2000 ++ leBytes 4 30000 ++ leBytes 2 1000 ++ leBytes 2 600)

theorem witness_BaselineRows :
    (let s := atEpoch [] []
     let g := record 7 0x20 []
     g.length = 64 ∧ s.exchanges = true ∧ bNat g 4 2 / 256 = s.pos / 256 ∧ s.heldEpoch (bEpoch g) = true ∧
      Map.get? s.base.intents (bNat g 4 2 / 16 % 8) = none ∧ bNat g 4 2 / 16 % 8 = 2 ∧
      nextIs (exec (.intent 0 g 0) s) (fun t => Map.get? t.base.intents 2 == some g) = true) ∧
    (let s := atEpoch [] []
     let g := record 8 3 []
     g.length = 64 ∧ bNat g 4 1 < 8 ∧ s.heldEpoch (bEpoch g) = true ∧ Map.get? s.base.trays (bNat g 4 1) = none ∧
      nextIs (exec (.tray 0 g 0) s) (fun t => Map.get? t.base.trays 3 == some g) = true) ∧
    (let o := record 7 3 [1]
     let g := record 7 3 [2]
     let s := atEpoch [] [(3, o)]
     Map.get? s.base.trays (bNat g 4 1) = some o ∧ bEpoch o = bEpoch g ∧ o ≠ g ∧
      nextIs (exec (.tray 0 g 0) s) (fun t => t.base.conflict == [7]) = true) ∧
    (regs [(Reg.BL_CFG, 2 ^ 31)]).exchanges = false ∧
    (let s := atEpoch [(0, record 7 0 (leBytes 2 900 ++ leBytes 2 600 ++ [3]))] []
     ((List.range 8).find? fun i => (s.intentOf i).any fun r => bit (bNat r 10 1) 1) = some s.slotNo ∧
      s.trayOf s.trayNo = none ∧
      (let v := { s with base := { s.base with trays := [(s.trayNo, record 7 0 [1])] } }
       v.trayOf v.trayNo = some (record 7 0 [1]) ∧ record 7 0 [1] ≠ v.trayRec ∧ v.curEpoch = 7 ∧
        nextIs (exec .trayLeadTimer v) (fun t => t.base.conflict == [7]) = true) ∧
      nextIs (exec .trayLeadTimer s) (fun t => (Map.get? t.base.trays 0).any fun r => bNat r 20 2 == 900 && bNat r 6 2 == 0x0101) = true) ∧
    (let s := atEpoch [] []
     ((List.range 8).find? fun i => (s.intentOf i).any fun r => bit (bNat r 10 1) 1) ≠ some s.slotNo) ∧
    (let s := atEpoch [] [(0, trayZero)] onePlan
     s.exchanges = true ∧ s.base.done = false ∧ s.complete = true ∧
      nextIs (exec .baselineDeadline s) (fun t => t.base.decision.any fun d => d.g == 1000 && d.grant == 1000) = true) ∧
    (let s := atEpoch [] [] onePlan
     s.exchanges = true ∧ s.base.done = false ∧ s.complete = false ∧
      nextIs (exec .baselineDeadline s) (fun t => t.word Reg.BL_MISS == 1 && t.base.done) = true) ∧
    ({ bare with base := { BaseRt.zero with done := true } } : State).base.done = true := by decide +kernel

theorem witness_BaselineRows_other : (atEpoch [] []).heldEpoch (bEpoch (record 9 0 [])) = false ∧
    bNat (record 7 0x1020 []) 4 2 / 256 ≠ (atEpoch [] []).pos / 256 ∧ 8 ≤ bNat (record 7 8 []) 4 1 := by decide +kernel

theorem witness_BaselineExchange :
    (let s := atEpoch [] []
     let g := record 7 0x20 []
     s.powered = true ∧ g.length = 64 ∧ s.exchanges = true ∧ bNat g 4 2 / 256 = s.pos / 256 ∧ s.heldEpoch (bEpoch g) = true ∧
      Map.get? s.base.intents (bNat g 4 2 / 16 % 8) = none ∧
      Map.get? (atEpoch [(2, g)] []).base.intents (bNat g 4 2 / 16 % 8) = some g ∧
      bEpoch (record 6 0x20 []) ≠ bEpoch g) ∧
    (let s := atEpoch [] []
     let g := record 7 s.trayNo []
     bNat g 4 1 = s.trayNo ∧ s.trayNo < 8 ∧ s.heldEpoch (bEpoch g) = true ∧ s.base.seen.contains g = false ∧
      ({ s with base := { s.base with seen := [g] } } : State).base.seen.contains g = true ∧ bNat (record 7 3 []) 4 1 = 3 ∧ 3 ≠ s.trayNo ∧ (1 : Fin 10).val ≠ s.planePort 0 ∧
      s.planePort 0 < 10 ∧ (6 : BitVec 4).toNat < 7 ∧ 7 ≤ (7 : BitVec 4).toNat) ∧
    (let s := regs [(Reg.PORT_STAT (bare.ringPort true), 3)]
     s.portUp (s.ringPort true) = true ∧ (0 : Nat) < 7) ∧
    (let s := atEpoch [(0, record 7 0 (leBytes 2 900 ++ leBytes 2 600 ++ [3]))] []
     s.exchanges = true ∧ ((List.range 8).find? fun i => (s.intentOf i).any fun r => bit (bNat r 10 1) 1) = some s.slotNo ∧
      s.trayOf s.trayNo = none ∧ (∀ p, p < 10 → s.portUp p = false) ∧
      (regs [(Reg.PORT_STAT (bare.ringPort false), 3)] s).portUp (bare.ringPort false) = true) ∧
    (let s := atEpoch [] [(0, trayZero)] onePlan
     s.exchanges = true ∧ s.base.done = false ∧ s.complete = true) := by decide +kernel

theorem witness_GrantsAddUp :
    (∀ x ∈ [(1000, 600), (800, 600), (0, 0), (2400, 600)], (x : Nat × Nat).2 ≤ x.1) ∧
    total ([(1000, 600), (800, 600), (0, 0), (2400, 600)].map Prod.snd) ≤ 3001 ∧
    0 < total ([(1000, 600), (800, 600), (0, 0), (2400, 600)].map Prod.fst) ∧
    total ([(1000, 600), (800, 600), (0, 0), (2400, 600)].map Prod.fst) < 2 ^ 32 ∧
    grantsOf [(1000, 600), (800, 600), (0, 0), (2400, 600)] 3001 = [801, 700, 0, 1500] := by decide +kernel

/-! ## Live calibration and self-test -/

theorem witness_CalibrationRows :
    (let s := regs [(Reg.CALCTL, 2 ^ 31), (Reg.PORT_STAT 2, 3), (Reg.LANE_FAIL 2, 2)]
     s.rdb Reg.CALCTL 31 = true ∧ s.portUp (2 : Fin 10).val = true ∧ (∀ c ∈ s.calib, c.kind = 0 → c.unit ≠ (2 : Fin 10).val) ∧
      s.rdb (Reg.LANE_FAIL 2) 1 = true ∧ Map.get? (s.port 2).retrained 1 = none ∧
      (∀ n ∈ [999999999, 1000000000], let v := { s.setPort 2 { PortRt.zero with retrained := [(1, 0)] } with
          time := { TimeRt.zero with rack := n * 2 ^ 32 } }
        Map.get? (v.port 2).retrained 1 = some 0 ∧ v.now = n ∧
          nextIs (exec (.laneRecalibration 2 1) v) (fun t => t.calib.isEmpty == decide (n < 1000000000)) = true)) ∧
    (let s := regs [(Reg.CALCTL, 2 ^ 31), (Reg.PORT_STAT 2, 0x8003)]
     s.rdb (Reg.LANE_FAIL 2) 1 = false ∧ s.rd (Reg.PORT_STAT 2) 15 12 = 8 ∧ (s.port 2).borrowed = none ∧
      nextIs (exec (.laneRecalibration 2 1) s) (fun t => t.rd (Reg.PORT_STAT 2) 23 16 == 0xFD) = true) ∧
    (let s := regs [(Reg.CALCTL, 7 * 2 ^ 28)] (running 3)
     s.rdb Reg.CALCTL 30 = true ∧ s.rdb Reg.CALCTL 29 = true ∧ s.rdb Reg.CALCTL 28 = true ∧ (∀ c ∈ s.calib, c.kind ≠ 1 ∧ c.kind ≠ 2) ∧
      s.mayCalibrate (5 : Fin 64).val = true ∧ (s.quire (5 : Fin 64).val).testFrom = none ∧
      nextIs (exec (.droopCalibration 5 0) s) (fun t => t.quireState 5 == 7) = true ∧
      nextIs (exec (.thermalCalibration false 5) s) (fun t => t.quireState 5 == 7) = true ∧
      nextIs (exec (.thermalCalibration true 5) s) (fun t => t.calib == [⟨3, 5, 0⟩]) = true) ∧
    (let s := { regs [(Reg.CALCTL, 2 ^ 28)] with start := { StartRt.zero with chans := [7] } }
     (7 : Fin 24).val ∈ s.start.chans ∧ nextIs (exec (.channelRetrain 7) s) (fun t => t.calib == [⟨4, 7, 0⟩]) = true) ∧
    (regs [(Reg.CALCTL, 0)]).rd Reg.CALCTL 31 28 = 0 ∧
    (let s := { bare with calib := [⟨3, 5, 0⟩] }
     s.calib = [⟨3, 5, 0⟩] ∧ (⟨3, 5, 0⟩ : Calib).kind = 3 ∧
      nextIs (exec (.calibrationComplete true) s) (fun t => t.word Reg.CAL_QUIRE == 1 && t.calib == []) = true) ∧
    bare.calib = [] := by decide +kernel

/-- The record of a self-test at 0x40010000, and sheet 3 in a state. -/
def testing (st : Nat) (x : Option SelfTest := none) : State :=
  { regs [(Reg.STREC_LO, 0x40010000), (Reg.SCTL 3, st)] with selftest := x }

/-- A self-test of sheet 3. -/
def sheetTest (run : Bool) : SelfTest := ⟨3, 3, physCarve 0x40010000, run, 0⟩

theorem witness_CalibrationRows_selftest :
    (let s := testing 4
     let w : W32 := 0x13300000
     s.selftest = none ∧ s.upsets = [] ∧ s.failing = [] ∧ s.badEntries = [] ∧ s.carveRecOk s.stRec = true ∧ s.recState (physCarve s.stRec) = 0 ∧ bits w.toNat 18 0 = 0 ∧
      stSheet (bits w.toNat 27 24) = true ∧ s.sheetState (bits w.toNat 23 20) = 4 ∧
      nextIs (exec (.selftestStart w) s) (fun t => t.sheetState 3 == 5 && t.recState (physCarve 0x40010000) == 1) = true) ∧
    (let s := testing 2
     let w : W32 := 0x13300000
     s.sheetState (bits w.toNat 23 20) = 2 ∧ bit w.toNat 19 = false ∧
      nextIs (exec (.selftestStart w) s) (fun t => t.selftest == some (sheetTest false)) = true) ∧
    (let s := testing 0
     let w : W32 := 0x14000000
     bits w.toNat 27 24 = 4 ∧ (∀ n, n < 16 → s.sheetState n = 0) ∧ s.rdb Reg.MIRR_CTL 31 = false) ∧
    bits (0x16000000 : W32).toNat 27 24 = 6 ∧
    (let s := testing 2 (some (sheetTest false))
     s.selftest ≠ none ∧ nextIs (exec (.selftestStart 0x13300000) s) (fun t => t.rd Reg.STSTAT 1 0 == 1) = true) ∧
    (let s := testing 4 (some (sheetTest false))
     s.selftest = some (sheetTest false) ∧ (sheetTest false).running = false ∧ s.sheetState (sheetTest false).sheet = 4 ∧
      s.recState (sheetTest false).rec_ = 0 ∧ stSheet (sheetTest false).kind = true ∧ (sheetTest false).sheet < 16 ∧
      nextIs (exec .selftestDeferredStart s) (fun t => t.sheetState 3 == 5) = true) ∧
    (let s := put (physCarve 0x40010007) [1] (testing 5 (some (sheetTest true)))
     s.selftest = some (sheetTest true) ∧ (sheetTest true).running = true ∧ (sheetTest true).rec_ = physCarve s.stRec ∧
      s.carveRecOk s.stRec = true ∧ s.recState (sheetTest true).rec_ = 1 ∧
      nextIs (exec .selftestAbort s) (fun t => t.recState (physCarve 0x40010000) == 3 && t.sheetState 3 == 4) = true ∧
      nextIs (exec (.selftestComplete [77]) s) (fun t => t.selftest == none && t.carveLe 0x40010006 1 == 1) = true) := by
  decide +kernel

/-! ## Firmware -/

/-- A module that may be updated: every contact mated, the record at 0x40010000, and an image buffer of 2,048 bytes at 0x40020000. -/
def updating (rest : List (Nat × Nat) := []) : State :=
  regs ([(Reg.SB_STAT, 31 * 2 ^ 23), (Reg.UPD_REC_LO, 0x40010000), (Reg.UPD_SRC_LO, 0x40020000), (Reg.UPD_LEN, 2048)] ++ rest)

/-- An update that programs one sector. -/
def oneSector (done : Nat) : UpdJob := ⟨1, 6, 0x40020000, 2048, 0x400000, 0, 0, 0, 1, done, false, physCarve 0x40010000⟩

/-- As a request sees it after it has taken its record. -/
def taken (s : State) : State := (s.wr Reg.UPD_STAT 1 0 0).recRun (physCarve s.updRec) 0 0xFF 5

/-- A request that finds its record IDLE is ready. -/
theorem upd_ready {s : State} (h1 : s.powered = true) (h2 : s.sec.upd = none) (h3 : (s.wr Reg.UPD_STAT 1 0 0).carveRecOk s.updRec = true)
    (hs : Sound s) (h4 : (s.wr Reg.UPD_STAT 1 0 0).recState (physCarve s.updRec) = 0) : UpdReady s (taken s) := by
  refine ⟨h1, h2, h3, ?_⟩
  have hs' : Sound (s.wr Reg.UPD_STAT 1 0 0) := hs
  rw [State.recTake, State.seen_carve hs', h4]
  rfl

theorem witness_UpdateRows :
    (let s := { updating with sec := { SecRt.zero with upd := some (oneSector 0) } }
     s.sec.upd ≠ none ∧ nextIs (exec .discard s) (fun t => t.rd Reg.UPD_STAT 1 0 == 1) = true) ∧
    UpdReady updating (taken updating) ∧
    ((taken (updating [(Reg.HOLDUP, 2 ^ 31)])).updRefusal = 2 ∧ (taken updating).updRefusal = 0 ∧
      (taken updating).slotState (1 - (taken updating).activeSlot) = 0 ∧
      nextIs (exec .commitUpdate updating) (fun t => t.recState (physCarve 0x40010000) == 3 && t.carveLe 0x40010006 1 == 11) = true) ∧
    (let s := updating.setSlot 1 9 1 0
     (taken s).updRefusal = 0 ∧ (taken s).slotState (1 - (taken s).activeSlot) = 1 ∧
      setOk (fun k => (taken s).imageAt k (1 - (taken s).activeSlot)) = true ∧ (taken s).chip.lock = false ∧
      nextIs (exec .commitUpdate s) (fun t => t.slotState 1 == 2 && t.slotSeq 1 == 9) = true ∧
      nextIs (exec .discard s) (fun t => t.slotState 1 == 0 && t.slotSeq 1 == 9) = true) ∧
    (taken { updating with chip := { updating.chip with lock := true } }).chip.lock = true ∧
    ((taken updating).updLen ≤ 0x100000 ∧ (taken updating).updBuf = true ∧
      nextIs (exec .colophon updating) (fun t => t.sec.upd.any fun j => j.cmd == 5 && j.total == 1) = true) ∧
    ((taken updating).stageHead ((taken updating).carveAt (taken updating).updSrc) ≠ 0 ∧
      nextIs (exec .stage updating) (fun t => t.carveLe 0x40010006 1 == 4) = true) := by
  refine ⟨by decide +kernel, upd_ready rfl rfl (by decide +kernel) ⟨rfl, rfl, rfl⟩ (by decide +kernel), ?_⟩
  decide +kernel

/-- The next sector's data can be read, and programming it does not halt the update. -/
def sectorReady (s : State) : Bool :=
  match s.sectorSource (oneSector 0) with
  | (u, .ok d) => (u.sectorPut (oneSector 0) d).updHalt == 0
  | _ => false

/-- The next sector's data cannot be read. -/
def sectorErr (s : State) : Bool :=
  match s.sectorSource (oneSector 0) with
  | (_, .error _) => true
  | _ => false

theorem witness_UpdateRows_job :
    (let s := put (physCarve 0x40010007) [1] { updating with sec := { SecRt.zero with upd := some (oneSector 0) } }
     s.sec.upd = some (oneSector 0) ∧ s.carveRecOk s.updRec = true ∧ (oneSector 0).rec_ = physCarve s.updRec ∧
      s.recState (oneSector 0).rec_ = 1 ∧ (oneSector 0).done < (oneSector 0).total ∧ sectorReady s = true ∧
      sectorErr { s with failing := [physCarve (oneSector 0).src / 64] } = true ∧
      nextIs (exec .updateAbort s) (fun t => t.sec.upd == none && t.carveLe 0x40010006 1 == 7) = true ∧
      nextIs (exec (.sectorProgrammed true) s) (fun t => t.sec.upd == some (oneSector 1)) = true) ∧
    (let s := { updating with sec := { SecRt.zero with upd := some { oneSector 1 with kind := 2 } } }
     (oneSector 1).total ≤ (oneSector 1).done ∧ (oneSector 1).cmd ≠ 5 ∧ { oneSector 1 with kind := 2 }.kind ≠ 6 ∧
      (oneSector 1).inplace = false ∧
      nextIs (exec (.updateComplete true) s) (fun t => t.sec.upd == none && t.carveLe 0x40010006 2 == 0x200) = true) ∧
    (let s := { bare with sec := { SecRt.zero with linkPending := [8] } }
     let s : State := regs ([(Reg.PLANE_MAP, 0x76543210)] ++ (List.range 8).map fun p => (Reg.PORT_STAT p, 3)) s
     s.sec.linkPending = [(8 : Fin 10).val] ∧ s.portState (8 : Fin 10).val = 0 ∧ 7 ≤ s.upPlanes ∧ s.ports = [] ∧
      Map.get? s.sec.pendIn 4 = none) ∧
    (((1 : Nat) < 2 ∧ (2 ^ 32 - 1 : Nat) < 2 ^ 32 ∧ (255 : Nat) < 256) ∧ (bare.setSlot 1 (2 ^ 32 - 1) 255 255).slotSeq 1 = 2 ^ 32 - 1) := by
  decide +kernel

/-! ## A signature under a weak key

The public polynomial is the constant 111, so anyone can sign: the coefficients of the signature below were worked out from SHAKE256
and 17 R671 alone, and the check must accept them. -/

/-- The key whose polynomial is the constant 111. -/
def weakKey : List Byte := 0x0A :: 0x01 :: 0xBC :: List.replicate 1790 0

theorem zip_zero (c : Int) (A : List Int) (hA : ∀ a ∈ A, a % 12289 = a) (B R : List Int) :
    List.zipWith (fun a b => (a + c * b) % 12289) (A ++ B) (List.replicate A.length 0 ++ R) =
      A ++ List.zipWith (fun a b => (a + c * b) % 12289) B R := by
  induction A with
  | nil => simp
  | cons a A ih => simp [List.replicate_succ, hA a, ih fun x hx => hA x (List.mem_cons_of_mem _ hx)]

theorem zip_zeros (c : Int) (n : Nat) :
    List.zipWith (fun a b : Int => (a + c * b) % 12289) (List.replicate n 0) (List.replicate n 0) = List.replicate n 0 := by
  induction n with
  | zero => rfl
  | succ n ih => simp [List.replicate_succ, ih]

theorem negShift_unit (k : Int) (j p : Nat) :
    negShift (List.replicate j 0 ++ k :: List.replicate (p + 1) 0) = List.replicate (j + 1) 0 ++ k :: List.replicate p 0 := by
  have h : List.replicate j (0 : Int) ++ k :: List.replicate (p + 1) 0 = (List.replicate j 0 ++ k :: List.replicate p 0) ++ [0] := by
    rw [List.append_assoc, List.cons_append, ← List.replicate_succ']
  rw [negShift, h, List.getLastD_concat, List.dropLast_concat]
  rfl

theorem negMul_fold (k : Int) (s : List Int) : ∀ (A : List Int) (p : Nat), (∀ a ∈ A, a % 12289 = a) → s.length ≤ p + 1 →
    (s.foldl (fun (st : List Int × List Int) c =>
      (List.zipWith (fun a b => (a + c * b) % 12289) st.1 st.2, negShift st.2))
      (A ++ List.replicate (p + 1) 0, List.replicate A.length 0 ++ k :: List.replicate p 0)).1 =
    A ++ s.map (fun c => c * k % 12289) ++ List.replicate (p + 1 - s.length) 0 := by
  induction s with
  | nil => intro A p _ _; simp
  | cons c s ih =>
    intro A p hA hp
    have hz : List.zipWith (fun a b : Int => (a + c * b) % 12289) (A ++ List.replicate (p + 1) 0)
        (List.replicate A.length 0 ++ k :: List.replicate p 0) = (A ++ [c * k % 12289]) ++ List.replicate p 0 := by
      rw [zip_zero c A hA]; simp [List.replicate_succ]
    rw [List.foldl_cons]; simp only [hz]
    match p with
    | 0 =>
      have : s = [] := by simpa using hp
      subst this; simp
    | p + 1 =>
      rw [negShift_unit]
      have := ih (A ++ [c * k % 12289]) p (by
        intro a ha; rcases List.mem_append.mp ha with h | h
        · exact hA a h
        · have : a = c * k % 12289 := by simpa using h
          subst this; exact Int.emod_emod_of_dvd _ (Int.dvd_refl _)) (by simpa using hp)
      rw [List.length_append, List.length_singleton] at this
      rw [this]; simp

/-- The product by a constant polynomial. -/
theorem negMul_const (k : Int) (n : Nat) (s : List Int) (h : s.length = n + 1) :
    negMul s (k :: List.replicate n 0) = s.map fun c => c * k % 12289 := by
  have h1 := negMul_fold k s [] n (fun _ h => nomatch h) (by omega)
  rw [List.nil_append, List.nil_append, h, Nat.sub_self, List.replicate_zero, List.append_nil] at h1
  have h2 : (k :: List.replicate n (0 : Int)).map (fun _ => (0 : Int)) = List.replicate (n + 1) 0 := by
    rw [List.map_const', List.length_cons, List.length_replicate]
  rw [negMul, h2]
  exact h1

theorem foldl_sq_le (l : List Int) (h : ∀ x ∈ l, -55 ≤ x ∧ x ≤ 55) : ∀ a : Int, l.foldl (fun n x => n + x * x) a ≤ a + 3025 * l.length := by
  induction l with
  | nil => intro a; simp
  | cons x l ih =>
    intro a
    have hx := h x (List.mem_cons_self ..)
    have h2 : x * x ≤ 3025 := by nlinarith [hx.1, hx.2]
    have h3 := ih (fun y hy => h y (List.mem_cons_of_mem _ hy)) (a + x * x)
    rw [List.foldl_cons, List.length_cons]
    push_cast
    linarith

/-- The coefficient of the signature for a point. -/
def share (c : Int) : Int := (centre c + 55) / 111

theorem share_bound (c : Int) : -55 ≤ share c ∧ share c ≤ 55 := by
  simp only [share, centre]; split <;> omega

theorem share_rest (c : Int) : -55 ≤ centre (c - share c * 111 % 12289) ∧ centre (c - share c * 111 % 12289) ≤ 55 := by
  simp only [share, centre]; split <;> split <;> omega

/-- The code of a small coefficient: sign, seven bits, and no high part (17 R671). -/
def code (x : Int) : List Bool := decide (x < 0) :: ((List.range 7).map fun i => x.natAbs.testBit (6 - i)) ++ [true]

theorem decompress_code (n : Nat) (x : Int) (h : -55 ≤ x ∧ x ≤ 55) (rest : List Bool) :
    decompress (n + 1) (code x ++ rest) = (decompress n rest).map fun l => x :: l := by
  obtain ⟨h1, h2⟩ := h
  interval_cases x <;> rfl

theorem decompress_codes (l : List Int) (h : ∀ x ∈ l, -55 ≤ x ∧ x ≤ 55) : decompress l.length (l.flatMap code) = some l := by
  induction l with
  | nil => rfl
  | cons x l ih =>
    rw [List.length_cons, List.flatMap_cons, decompress_code _ _ (h x (List.mem_cons_self ..)),
      ih fun y hy => h y (List.mem_cons_of_mem _ hy)]
    rfl

/-- Bits packed into bytes, the first bit highest. -/
def pack : Nat → List Bool → List Byte
  | n + 1, a :: b :: c :: d :: e :: f :: g :: h :: t => BitVec.ofNat 8 (bitsNat [a, b, c, d, e, f, g, h]) :: pack n t
  | _, _ => []

theorem pack_byte (a b c d e f g h : Bool) : (List.range 8).map (fun i => (BitVec.ofNat 8 (bitsNat [a, b, c, d, e, f, g, h])).getLsbD (7 - i)) =
    [a, b, c, d, e, f, g, h] := by
  revert a b c d e f g h; decide

theorem bitsMsb_pack : ∀ (n : Nat) (l : List Bool), l.length = 8 * n → bitsMsb (pack n l) = l ∧ (pack n l).length = n
  | 0, l, h => by
    have : l = [] := List.length_eq_zero_iff.mp (by omega)
    subst this; exact ⟨rfl, rfl⟩
  | n + 1, a :: b :: c :: d :: e :: f :: g :: h :: t, hl => by
    have ht : t.length = 8 * n := by simp only [List.length_cons] at hl; omega
    have ih := bitsMsb_pack n t ht
    rw [pack]
    refine ⟨?_, by rw [List.length_cons, ih.2]⟩
    rw [bitsMsb, List.flatMap_cons, pack_byte]
    have := ih.1
    rw [bitsMsb] at this
    rw [this]; rfl
  | n + 1, [], hl | n + 1, [_], hl | n + 1, [_, _], hl | n + 1, [_, _, _], hl | n + 1, [_, _, _, _], hl
  | n + 1, [_, _, _, _, _], hl | n + 1, [_, _, _, _, _, _], hl | n + 1, [_, _, _, _, _, _, _], hl => by
    simp only [List.length_cons, List.length_nil] at hl; omega

/-- The points of a message. -/
def points (msg : List Byte) : List Int := (hashPoints 2400 (shake256 (List.replicate 40 0 ++ msg) 4800)).take 1024

/-- The coefficients that sign a message. -/
def sharesOf (n : Nat) (msg : List Byte) : List Int := fit n 0 ((points msg).map share)

/-- The 1,024 of them. -/
def shares (msg : List Byte) : List Int := sharesOf 1024 msg

/-- A signature of a message under the weak key. -/
def forge (msg : List Byte) : List Byte := (0x3A :: List.replicate 40 0) ++ pack 1152 ((shares msg).flatMap code)

theorem fit_length {α : Type} (d : α) : ∀ (n : Nat) (l : List α), (fit n d l).length = n
  | 0, _ => rfl
  | n + 1, [] => by rw [fit, List.length_cons, fit_length d n []]
  | n + 1, _ :: t => by rw [fit, List.length_cons, fit_length d n t]

theorem fit_mem {α : Type} {d : α} {p : α → Prop} (hd : p d) : ∀ (n : Nat) (l : List α), (∀ x ∈ l, p x) → ∀ x ∈ fit n d l, p x
  | 0, _, _, x, hx => nomatch hx
  | n + 1, [], h, x, hx => by
    rw [fit] at hx
    rcases List.mem_cons.mp hx with rfl | hx
    · exact hd
    · exact fit_mem hd n [] h x hx
  | n + 1, a :: t, h, x, hx => by
    rw [fit] at hx
    rcases List.mem_cons.mp hx with rfl | hx
    · exact h _ (List.mem_cons_self ..)
    · exact fit_mem hd n t (fun y hy => h y (List.mem_cons_of_mem _ hy)) x hx

theorem zip_rest : ∀ (n : Nat) (c : List Int), ∀ x ∈ List.zipWith (fun a b => centre (a - b)) c
    ((fit n 0 (c.map share)).map fun c => c * 111 % 12289), -55 ≤ x ∧ x ≤ 55
  | 0, c, x, hx => by simp [fit] at hx
  | n + 1, [], x, hx => by simp at hx
  | n + 1, a :: c, x, hx => by
    rw [List.map_cons, fit, List.map_cons, List.zipWith_cons_cons] at hx
    rcases List.mem_cons.mp hx with rfl | hx
    · exact share_rest a
    · exact zip_rest n c x hx

theorem shares_bound (msg : List Byte) : ∀ x ∈ shares msg, -55 ≤ x ∧ x ≤ 55 := by
  have h : ∀ n, ∀ x ∈ sharesOf n msg, -55 ≤ x ∧ x ≤ 55 := fun n =>
    fit_mem (p := fun x : Int => -55 ≤ x ∧ x ≤ 55) ⟨by decide, by decide⟩ n _ fun x hx => by
      obtain ⟨y, -, rfl⟩ := List.mem_map.mp hx
      exact share_bound y
  exact h 1024

theorem flatMap_code_length (l : List Int) : (l.flatMap code).length = 9 * l.length := by
  induction l with
  | nil => rfl
  | cons x l ih => rw [List.flatMap_cons, List.length_append, ih, List.length_cons]; simp [code]; omega

/-- The check accepts the signature of every message. -/
theorem forge_verifies (msg : List Byte) : falconVerify weakKey (forge msg) msg = true := by
  have hs : (shares msg).length = 1024 := fit_length 0 1024 _
  have hp := bitsMsb_pack 1152 ((shares msg).flatMap code) (by rw [flatMap_code_length, hs])
  have hk : (chunks 14 1024 (bitsMsb weakKey.tail)).map (fun b => ((bitsNat b : Nat) : Int)) = 111 :: List.replicate 1023 0 := by
    decide +kernel
  have hl : weakKey.length = 1793 := by decide +kernel
  have h1 : (forge msg).drop 41 = pack 1152 ((shares msg).flatMap code) := by
    rw [forge]; exact List.drop_left' (by rw [List.length_cons, List.length_replicate])
  have h2 : (((forge msg).drop 1).take 40) = List.replicate 40 0 := by
    rw [forge, List.cons_append, List.drop_one, List.tail_cons]; exact List.take_left' (by rw [List.length_replicate])
  have h3 : 41 < (forge msg).length := by
    rw [forge, List.length_append, hp.2]; omega
  have h4 : decompress 1024 ((shares msg).flatMap code) = some (shares msg) := by
    have := decompress_codes _ (shares_bound msg)
    rwa [hs] at this
  have hlen : (List.zipWith (fun a b => centre (a - b)) (points msg) ((shares msg).map fun c => c * 111 % 12289) ++
      shares msg).length ≤ 2048 := by
    rw [List.length_append, List.length_zipWith, List.length_map, hs]; omega
  have h5 := foldl_sq_le (List.zipWith (fun a b => centre (a - b)) (points msg) ((shares msg).map fun c => c * 111 % 12289) ++
      shares msg) (by
    intro x hx
    rcases List.mem_append.mp hx with hx | hx
    · exact zip_rest 1024 (points msg) x hx
    · exact shares_bound msg x hx) 0
  have h6 : ((111 : Int) :: List.replicate 1023 0).all (fun x => decide (x < 12289)) = true := by decide +kernel
  have h7 : (List.zipWith (fun a b => centre (a - b)) (points msg) ((shares msg).map fun c => c * 111 % 12289) ++
      shares msg).foldl (fun n x => n + x * x) 0 ≤ 70265242 := by omega
  unfold falconVerify
  rw [h1, h2, hp.1, h4]
  rw [hk, hl, show weakKey.headD 0 = 0x0A from rfl, show (forge msg).headD 0 = 0x3A from rfl]
  have h8 := negMul_const 111 1023 (shares msg) hs
  simp only [h8, h6, h3]
  rw [points] at h7
  simp only [h7]
  rfl

theorem forge_length (msg : List Byte) : (forge msg).length = 1193 := by
  have hs : (shares msg).length = 1024 := fit_length 0 1024 _
  rw [forge, List.length_append, (bitsMsb_pack 1152 ((shares msg).flatMap code) (by rw [flatMap_code_length, hs])).2]; rfl

theorem read_write (m : List Host.Cell) (a : Nat) (bs : List Byte) : Mem.read (Mem.write m a bs) a bs.length = bs := by
  apply List.ext_getElem
  · simp only [Mem.read, List.length_map, List.length_range]
  · intro i h1 h2
    simp only [Mem.read, List.getElem_map, List.getElem_range, Mem.read1_write_in _ _ _ _ h2]

/-! ## Owner commands -/

/-- A module whose owner has the weak key. -/
def owned (l : Bool) : State :=
  State.flashWrite { bare with chip := { bare.chip with ownerDigest := [some (digest32 weakKey), none, none, none], lock := l } }
    (ownerKeyAt 0) weakKey

theorem owned_owner (l : Bool) : (owned l).chip.owner = some 0 := by cases l <;> rfl

theorem owned_key (l : Bool) : (owned l).ownerKey = some weakKey := by
  have hk : (owned l).flashRead (ownerKeyAt 0) 1793 = weakKey := by
    have h := read_write bare.mem (physFlash (ownerKeyAt 0)) (weakKey.map fun b => ~~~ b)
    rw [List.length_map, show weakKey.length = 1793 from by decide +kernel] at h
    rw [State.flashRead, show (owned l).mem = Mem.write bare.mem (physFlash (ownerKeyAt 0)) (weakKey.map fun b => ~~~ b) from rfl, h,
      List.map_map, show ((fun b : Byte => ~~~ b) ∘ fun b => ~~~ b) = id from funext fun _ => BitVec.not_not, List.map_id]
  rw [State.ownerKey, owned_owner]
  simp only [hk]
  rw [show (owned l).chip.ownerDigest.getD 0 none = some (digest32 weakKey) from rfl]
  simp

/-- The first bytes of a token: the command, its argument, the length of the signature. -/
def tokHead (cmd arg : Nat) : List Byte := leBytes 4 cmd ++ leBytes 16 arg ++ leBytes 2 1193

/-- A token that the weak key signs. -/
def signedToken (s : State) (cmd arg : Nat) : List Byte :=
  tokHead cmd arg ++ forge (s.ownerDigest (tokHead cmd arg)) ++ List.replicate 1921 0

theorem ownerDigest_eq (s : State) (a b : List Byte) (h1 : a.take 1 = b.take 1) (h2 : (a.drop 4).take 16 = (b.drop 4).take 16)
    (h3 : a.headD 0 = b.headD 0) (h4 : a.headD 0 ≠ 3) : s.ownerDigest a = s.ownerDigest b := by
  rw [State.ownerDigest, State.ownerDigest, h1, h2, if_neg h4, if_neg (h3 ▸ h4)]

theorem signedToken_signed (l : Bool) (cmd arg : Nat) (h : (tokHead cmd arg).headD 0 ≠ 3) :
    (owned l).tokenSigned (signedToken (owned l) cmd arg) = true := by
  have hd : (owned l).ownerDigest (signedToken (owned l) cmd arg) = (owned l).ownerDigest (tokHead cmd arg) :=
    ownerDigest_eq _ _ _ rfl rfl rfl h
  have hn : leNat (((signedToken (owned l) cmd arg).drop 20).take 2) = 1193 := rfl
  have hs : ((signedToken (owned l) cmd arg).drop 22).take 1193 = forge ((owned l).ownerDigest (tokHead cmd arg)) := by
    have : (signedToken (owned l) cmd arg).drop 22 = forge ((owned l).ownerDigest (tokHead cmd arg)) ++ List.replicate 1921 0 := by
      rw [signedToken, List.append_assoc]; exact List.drop_left' rfl
    rw [this]; exact List.take_left' (forge_length _)
  rw [State.tokenSigned, owned_owner]
  simp only [hn, hs, hd, owned_key, Option.any_some, forge_verifies]
  rfl

theorem signedToken_keylen (s : State) (cmd arg : Nat) : leNat (((signedToken s cmd arg).drop 1302).take 2) = 0 := by
  have hl : (tokHead cmd arg ++ forge (s.ownerDigest (tokHead cmd arg))).length = 1215 := by
    rw [List.length_append, forge_length]; rfl
  have : (signedToken s cmd arg).drop 1302 = List.replicate 1834 0 := by
    rw [signedToken, List.drop_append, List.drop_of_length_le (by rw [hl]; omega), hl, List.drop_replicate, List.nil_append]
  rw [this]; rfl

theorem witness_OwnerRows_signed :
    (((signedToken (owned true) 1 0).headD 0).toNat = 1 ∧ leNat (((signedToken (owned true) 1 0).drop 1302).take 2) = 0 ∧
      (owned true).tokenSigned (signedToken (owned true) 1 0) = true) ∧
    (((signedToken (owned false) 4 3).headD 0).toNat = 4 ∧ leNat (((signedToken (owned false) 4 3).drop 1302).take 2) = 0 ∧
      (owned false).tokenSigned (signedToken (owned false) 4 3) = true ∧ (owned false).chip.lock = false ∧
      leNat (((signedToken (owned false) 4 3).drop 4).take 16) < 4) ∧
    ((owned true).chip.lock = true ∧ ([2] : List Byte).headD 0 ≠ 1) :=
  ⟨⟨rfl, signedToken_keylen _ _ _, signedToken_signed true 1 0 (by decide)⟩,
    ⟨rfl, signedToken_keylen _ _ _, signedToken_signed false 4 3 (by decide), rfl, by decide +kernel⟩, rfl, by decide⟩

/-- A token of a command in the carve-out at 0x40000000. -/
def tokenAt (cmd : Nat) : State := carve 0x40000000 1 cmd (regs [(Reg.LOCK_TOK_LO, 0x40000000), (Reg.ATT_BUF_LO, 0x40001000)])

theorem witness_OwnerRows :
    (bare.powered = true ∧ bare.chip.owner.isNone = true ∧ (owned false).chip.owner.isSome = true) ∧
    (∀ cmd ∈ [1, 2, 3, 4], (tokenAt cmd).powered = true ∧ (tokenAt cmd).tokenOk = true ∧ ((tokenAt cmd).token.headD 0).toNat = cmd) ∧
    (tokenAt 1).tokenOk = true ∧ ((tokenAt 1).token.headD 0).toNat ≠ 2 ∧ (regs [(Reg.LOCK_TOK_HI, 1)]).tokenOk = false ∧
    ((tokenAt 0).inCarve (tokenAt 0).attBuf 9600 = true ∧ (tokenAt 0).hitsTables (tokenAt 0).attBuf 9600 = false ∧
      (tokenAt 0).inCarve (tokenAt 0).attBuf 1746 = true ∧ (tokenAt 0).hitsTables (tokenAt 0).attBuf 1746 = false) ∧
    bare.hitsTables bare.attBuf 1746 = true ∧
    nextIs (exec .lockSet bare) (fun t => t.rd Reg.LOCK_CMD 1 0 == 1 && !t.chip.lock) = true ∧
    nextIs (exec .report bare) (fun t => t.rd Reg.ATT_STAT 1 0 == 3) = true := by decide +kernel

theorem test_lockSet : nextIs (exec .lockSet (owned false)) (fun t => t.chip.lock && t.rdb Reg.SEC_STAT 31) = true := by decide +kernel

/-- SHAKE256 of the empty message, as FIPS 202 gives it. -/
theorem test_shake256 : digest32 [] = (leBytes 32 0x46b9dd2b0ba88d13233b3feb743eeb243fcd52ea62b81b82b50c27646ed5762f).reverse := by
  decide +kernel

/-! ## An image that passes the checks of STAGE -/

/-- SHAKE256 of no bytes: the digest of an empty body. -/
def emptyDigest : List Byte := (leBytes 32 0x46b9dd2b0ba88d13233b3feb743eeb243fcd52ea62b81b82b50c27646ed5762f).reverse

/-- The header of a LOADER image with no body. -/
def imageHeader : List Byte :=
  leBytes 4 0x474D494E ++ [1, 6, 0, 0] ++ leBytes 2 0x4C56 ++ leBytes 2 0xFFFF ++ leBytes 4 3 ++ List.replicate 12 0 ++ emptyDigest ++
  List.replicate 194 0 ++ leBytes 2 1193

/-- The module with the header in its image buffer and the weak key as a signing key; the signature is still to come. -/
def unsigned : State :=
  put (physCarve 0x40020000) imageHeader { updating with chip := { updating.chip with nyfKeys := [weakKey, [], [], []] } }

/-- The module with the signed image in its buffer. -/
def signed : State := { unsigned with mem := Mem.write unsigned.mem (physCarve 0x40020100) (forge (digest32 imageHeader)) }

theorem notify_idle (s : State) (a n : Nat) (h : ∀ i ∈ List.range 64, s.rdb (Reg.QW_ADDR_LO i) 0 = false) : s.notify a n = s := by
  rw [State.notify]
  have : ∀ l : List Nat, (∀ i ∈ l, s.rdb (Reg.QW_ADDR_LO i) 0 = false) → l.foldl (fun s i =>
    if s.rdb (Reg.QW_ADDR_LO i) 0 then
      let v := s.addrOf (Reg.QW_ADDR_LO i) (Reg.QW_ADDR_HI i) 64
      let p := if s.rdb (Reg.QW_ADDR_HI i) 31 then s.tierPhys v else physCarve v
      let ok := if s.rdb (Reg.QW_ADDR_HI i) 31 then s.pinned (v / 65536) else true
      if ok && decide (p < a + n) && decide (a < p + 64) then
        if i < 32 then s.wrb Reg.QW_PEND_LO i true else s.wrb Reg.QW_PEND_HI (i - 32) true
      else s
    else s) s = s := by
    intro l
    induction l with
    | nil => intro _; rfl
    | cons i l ih =>
      intro hl
      rw [List.foldl_cons, if_neg (by rw [hl i (List.mem_cons_self ..)]; exact Bool.false_ne_true)]
      exact ih fun j hj => hl j (List.mem_cons_of_mem _ hj)
  exact this _ h

/-- The record that a taken request writes. -/
def takenRec : List Byte := recBytes 0 0xFF 5 0 1 0 0 (updating.now) 0 0

/-- The bytes outside the signature are those of the unsigned module. -/
theorem signed_out (x : Nat) (h : x < physCarve 0x40020100 ∨ physCarve 0x40020100 + 1193 ≤ x) :
    Mem.read1 signed.mem x = Mem.read1 unsigned.mem x := Mem.read1_write_out _ _ _ _ (by rw [forge_length]; exact h)

/-- What taking its record makes of a module whose registers are those of `updating`. -/
theorem taken_eq (s : State) (h : s.csr = updating.csr) (ht : s.time = updating.time) (hr : s.updRec = 0x40010000) :
    taken s = { s.wr Reg.UPD_STAT 1 0 0 with mem := Mem.write s.mem (physCarve 0x40010000) takenRec,
                                              upsets := clearUpsets s.upsets (physCarve 0x40010000) takenRec.length } := by
  have hn : (s.wr Reg.UPD_STAT 1 0 0).now = updating.now := by
    simp only [State.now]; rw [show (s.wr Reg.UPD_STAT 1 0 0).time = s.time from rfl, ht]
  rw [taken, hr, State.recRun, hn, State.store, show (recBytes 0 0xFF 5 0 1 0 0 updating.now 0 0).isEmpty = false from rfl,
    if_neg Bool.false_ne_true]
  rw [notify_idle]
  · rfl
  · intro i hi
    have h1 : ∀ i ∈ List.range 64, (updating.wr Reg.UPD_STAT 1 0 0).rdb (Reg.QW_ADDR_LO i) 0 = false := by decide +kernel
    have h2 : ∀ (t : State) (m : List Host.Cell) (u : Map (Map Byte)), t.csr = updating.csr →
        ({ t.wr Reg.UPD_STAT 1 0 0 with mem := m, upsets := u } : State).rdb (Reg.QW_ADDR_LO i) 0 =
        (updating.wr Reg.UPD_STAT 1 0 0).rdb (Reg.QW_ADDR_LO i) 0 := by
      intro t m u ht; simp only [State.rdb, State.rd, State.word, State.wr, State.wrw, ht]
    exact (h2 s _ _ h).trans (h1 i hi)

theorem wr_mem (s : State) (m m' w : List Host.Cell) (u : Map (Map Byte)) :
    ({ ({ s with mem := m } : State).wr Reg.UPD_STAT 1 0 0 with mem := m', upsets := u } : State) =
      { ({ s.wr Reg.UPD_STAT 1 0 0 with mem := w, upsets := u } : State) with mem := m' } := rfl

theorem taken_signed : taken signed = { taken unsigned with mem := Mem.write signed.mem (physCarve 0x40010000) takenRec } := by
  have h : unsigned.updRec = 0x40010000 := by decide +kernel
  have h' : signed.updRec = 0x40010000 := by decide +kernel
  rw [taken_eq signed rfl rfl h', taken_eq unsigned rfl rfl h]
  exact wr_mem unsigned _ _ _ _

theorem signed_read (a n : Nat) (h : a + n ≤ physCarve 0x40020100 ∨ physCarve 0x40020100 + 1193 ≤ a) :
    Mem.read (taken signed).mem a n = Mem.read (taken unsigned).mem a n := by
  have hu : unsigned.updRec = 0x40010000 := by decide +kernel
  rw [show (taken signed).mem = Mem.write signed.mem (physCarve 0x40010000) takenRec from by rw [taken_signed],
    show (taken unsigned).mem = Mem.write unsigned.mem (physCarve 0x40010000) takenRec from by rw [taken_eq unsigned rfl rfl hu]]
  refine List.map_congr_left fun i hi => ?_
  have hi := List.mem_range.mp hi
  by_cases hx : physCarve 0x40010000 ≤ a + i ∧ a + i < physCarve 0x40010000 + takenRec.length
  · obtain ⟨k, hk⟩ := Nat.exists_eq_add_of_le hx.1
    rw [hk, Mem.read1_write_in _ _ _ k (by omega), Mem.read1_write_in _ _ _ k (by omega)]
  · rw [Mem.read1_write_out _ _ _ _ (by omega), Mem.read1_write_out _ _ _ _ (by omega), signed_out _ (by omega)]

/-- The buffer as the request reads it, and as it reads without its signature. -/
def buffer : Reader := (taken signed).carveAt 0x40020000

/-- Without its signature. -/
def bare_ : Reader := (taken unsigned).carveAt 0x40020000

theorem taken_sound (s : State) (h : s.csr = updating.csr) (ht : s.time = updating.time) (hr : s.updRec = 0x40010000) (hs : Sound s) :
    Sound (taken s) := by
  rw [taken_eq s h ht hr]
  exact ⟨by simp only [hs.1]; rfl, hs.2.1, hs.2.2⟩

theorem signed_sound : Sound (taken signed) := taken_sound signed rfl rfl (by decide +kernel) ⟨rfl, rfl, rfl⟩

theorem unsigned_sound : Sound (taken unsigned) := taken_sound unsigned rfl rfl (by decide +kernel) ⟨rfl, rfl, rfl⟩

theorem buffer_out (a n : Nat) (h : a + n ≤ 256 ∨ 1449 ≤ a) : buffer a n = bare_ a n := by
  rw [buffer, bare_, State.carveAt_sound signed_sound, State.carveAt_sound unsigned_sound]
  exact signed_read _ _ (by simp only [physCarve]; omega)

theorem buffer_sig : buffer 256 1193 = forge (digest32 imageHeader) := by
  have h := read_write unsigned.mem (physCarve 0x40020100) (forge (digest32 imageHeader))
  rw [forge_length] at h
  rw [← h, buffer, State.carveAt_sound signed_sound, taken_signed]
  refine List.map_congr_left fun i hi => ?_
  have hi := List.mem_range.mp hi
  exact Mem.read1_write_out _ _ _ _ (by
    have : takenRec.length = 64 := by decide +kernel
    rw [this]; simp only [physCarve]; omega)

theorem signed_flash (b : Nat) : (taken signed).slotState b = (taken unsigned).slotState b := by
  have h := signed_read (physFlash (slotAt b)) 64 (Or.inr (by simp only [physFlash, physCarve]; omega))
  have h' : (taken signed).flashRead (slotAt b) 64 = (taken unsigned).flashRead (slotAt b) 64 :=
    congrArg (fun l : List Byte => l.map fun b => ~~~ b) h
  simp only [State.slotState, h']

theorem witness_UpdateRows_stage :
    UpdReady signed (taken signed) ∧
    (if (taken signed).updBuf then (taken signed).seen (physCarve (taken signed).updSrc) (min (taken signed).updLen 1536)
      (taken signed).updSrc 16 else taken signed) = taken signed ∧
    (taken signed).updRefusal = 0 ∧ (taken signed).updBuf = true ∧
    (taken signed).stageHead ((taken signed).carveAt (taken signed).updSrc) = 0 ∧
    bodyOk ((taken signed).carveAt (taken signed).updSrc) = true := by
  have hs : (taken signed).updSrc = 0x40020000 := by rw [taken_signed]; decide +kernel
  refine ⟨upd_ready rfl rfl (by decide +kernel) ⟨rfl, rfl, rfl⟩ ?_, ?_, by rw [taken_signed]; decide +kernel,
    by rw [taken_signed]; decide +kernel, ?_⟩
  · have : signed.updRec = 0x40010000 := by decide +kernel
    rw [this, State.recState, Mem.le, Mem.read, List.range_succ, List.range_zero, List.nil_append, List.map_singleton,
      show (signed.wr Reg.UPD_STAT 1 0 0).mem = signed.mem from rfl, signed_out _ (by simp only [physCarve]; omega)]
    decide +kernel
  · rw [State.seen_carve signed_sound]; exact ite_self _
  · rw [hs]
    have p (a n : Nat) (h : a + n ≤ 256 ∨ 1449 ≤ a) : rdLe (State.carveAt (taken signed) 0x40020000) a n = rdLe bare_ a n := by
      rw [rdLe, rdLe]; exact congrArg leNat (buffer_out a n h)
    have e1 : rdLe bare_ 0 4 = 0x474D494E ∧ rdLe bare_ 4 1 = 1 ∧ rdLe bare_ 5 1 = 6 ∧ rdLe bare_ 22 2 = 0 ∧ rdLe bare_ 80 174 = 0 ∧
        rdLe bare_ 254 2 = 1193 ∧ rdLe bare_ 24 4 = 0 ∧ rdLe bare_ 8 2 = 0x4C56 ∧ rdLe bare_ 10 2 = 0xFFFF ∧ rdLe bare_ 6 1 = 0 ∧
        rdLe bare_ 7 1 = 0 ∧ rdLe bare_ 16 2 = 0 ∧ rdLe bare_ 20 2 = 0 ∧ bare_ 0 256 = imageHeader := by decide +kernel
    obtain ⟨a1, a2, a3, a4, a5, a6, a7, a8, a9, a10, a11, a12, a13, a14⟩ := e1
    have e2 : digest32 [] = emptyDigest ∧ bare_ 28 32 = emptyDigest := by decide +kernel
    have c1 : bit 0xFFFF (taken signed).chip.stepping.toNat = true ∧ (taken signed).chip.keyRevoked.getD 0 true = false ∧
        (taken signed).chip.floors.getD 5 0 = 0 ∧ (taken signed).updLen = 2048 ∧ (taken signed).sec.active = [] ∧
        (taken signed).rdb Reg.SEC_STAT 27 = false ∧ (taken signed).chip.nyfKeys.getD 0 [] = weakKey := by
      rw [taken_signed]; decide +kernel
    obtain ⟨c1, c2, c3, c4, c5, c6, c7⟩ := c1
    have sl : (taken signed).slotState 0 = 0 ∧ (taken signed).slotState 1 = 0 := by
      rw [signed_flash, signed_flash]; decide +kernel
    have hb : State.carveAt (taken signed) 0x40020000 256 1193 = forge (digest32 imageHeader) := buffer_sig
    have h0 : State.carveAt (taken signed) 0x40020000 0 256 = imageHeader := (buffer_out 0 256 (by omega)).trans a14
    have hd : State.carveAt (taken signed) 0x40020000 28 32 = emptyDigest := (buffer_out 28 32 (by omega)).trans e2.2
    have hk : iKind (State.carveAt (taken signed) 0x40020000) = 6 := (p 5 1 (by omega)).trans a3
    have hbody : iBody (State.carveAt (taken signed) 0x40020000) = 0 := (p 24 4 (by omega)).trans a7
    have hh : (taken signed).headerCheck (State.carveAt (taken signed) 0x40020000) = 0 := by
      rw [State.headerCheck]
      simp only [hk, hbody, iFloor, p 0 4 (by omega), p 4 1 (by omega), p 22 2 (by omega), p 80 174 (by omega), p 254 2 (by omega),
        p 8 2 (by omega), p 10 2 (by omega), p 6 1 (by omega), p 7 1 (by omega), a1, a2, a4, a5, a6, a8, a9, a10, a11, c1, c2, c7,
        hb, h0, forge_verifies]
      rw [show (6 : Nat) - 1 = 5 from rfl, c3]
      rfl
    have hc : (taken signed).compatOk (State.carveAt (taken signed) 0x40020000) = true := by
      simp only [State.compatOk, hk, c5, State.inplace]; rfl
    have hm : (taken signed).migrateOk (State.carveAt (taken signed) 0x40020000) = true := by
      rw [State.migrateOk, p 20 2 (by omega), a13]; exact decide_eq_true (Nat.zero_le _)
    have hp : (taken signed).placeCheck 6 = 0 := by
      simp only [State.placeCheck, sl.1, sl.2, c6]; rfl
    have ho : bodyOk (State.carveAt (taken signed) 0x40020000) = true := by
      rw [bodyOk, hd, hbody, show State.carveAt (taken signed) 0x40020000 1536 0 = [] from rfl, e2.1]
      exact beq_self_eq_true _
    refine ⟨?_, ho⟩
    simp only [State.stageHead, hh, hbody, c4, hc, hm, hk, hp]
    rfl

/-! ## The specification's own examples -/

/-- Both test vectors of the rounding mixer (02_formats.md R61). -/
theorem test_mixer : mixer 0 0 0 0 = (0x8C78F219, 0x59F71B84) ∧
    mixer 0x12345678 0x0BADF00D 0x000C0005 0x00200064 = (0x6D78286C, 0x3FEADBEE) ∧
    rndBits 0x0BADF00D12345678 0 0 3 5 100 9 = 0x6D78 := by decide +kernel

/-- The block of "Ossory Lantern" in FP4 with amax 10.0, in FINE and in POW2 (02_formats.md R56): 10.0, −2.5 and 0.3. -/
theorem test_quantBlock :
    quantBlock 5 0 true false 0x3F800000 [some (0x41200000, 0), some (0xC0200000, 0), some (0x3E99999A, 0), none] =
      ⟨0x7E, [⟨7, 0, 0, 0⟩, ⟨0xB, 0, 0, 0⟩, ⟨0, 0, 0, 1⟩, ⟨0, 0, 0, 0⟩]⟩ ∧
    quantBlock 5 0 false false 0x3F800000 [some (0x41200000, 0), some (0xC0200000, 0), some (0x3E99999A, 0), none] =
      ⟨0x80, [⟨6, 0, 0, 0⟩, ⟨0xA, 0, 0, 0⟩, ⟨0, 0, 0, 1⟩, ⟨0, 0, 0, 0⟩]⟩ := by decide +kernel

/-- The key write of slip 5: the scale of a block whose largest magnitude is 3.0, and channels 8 to 10 (07_attention.md R272). -/
theorem test_keyWrite : pageScale 2 1 true 8 [0x40400000] = 0x46 ∧
    convert 2 true 0x286C (fdiv 0x3BEE0000 (decodeScale 0x46).to32) = ⟨0x31, 0, 0, 0⟩ ∧
    convert 2 true 0x6D78 (fdiv 0x3C968000 (decodeScale 0x46).to32) = ⟨0x3B, 0, 0, 0⟩ ∧
    convert 2 true 0xDBEE (fdiv 0x40E00000 (decodeScale 0x46).to32) = ⟨0x7E, 1, 0, 0⟩ ∧
    convert 2 true 0x6D78 0x3FA40000 = ⟨0x3A, 0, 0, 0⟩ := by decide +kernel

/-- The gate weights of "Corrie Vane": choice 2 is dropped (08_experts.md R309). -/
theorem test_gateWeights :
    gateWeights false false [(0x3EC00000, true), (0x3E800000, true), (0x3E800000, false), (0x3E000000, true), (0x3D800000, true)] =
      [0x3EC00000, 0x3E800000, 0, 0x3E000000, 0x3D800000, 0, 0, 0] ∧
    gateWeights true true [(0x3EC00000, true), (0x3E800000, true), (0x3E800000, false), (0x3E000000, true), (0x3D800000, true)] =
      [0x3EEC4EC6, 0x3E9D89D9, 0, 0x3E1D89D9, 0x3D9D89D9, 0, 0, 0] := by decide +kernel

/-- The walk of "Brackenhowe" (06_dma_pages.md R240): its window pages, and indices 50 and 70 skipped. -/
theorem test_walkSelect : walkSelect 1003 744 [0, 1, 50, 70] =
    ([0, 1, 46, 47, 48, 49, 50, 51, 52, 53, 54, 55, 56, 57, 58, 59, 60, 61, 62], 2, 1) := by decide +kernel

/-- The page of "Brackenhowe" (07_attention.md R267): key scales at 64 and 65, value scales at 66 and 67; rows at 512 and 1,536. -/
theorem test_pageShape : let p : PageShape := poolShape (fields [(96, 2), (105, 1)])
    [p.scaleAt 0 0 0 0, p.scaleAt 0 0 0 1, p.scaleAt 0 0 1 0, p.scaleAt 0 0 1 1] = [64, 65, 66, 67] ∧ p.region 0 0 0 = 512 ∧
    p.region 0 0 1 = 1536 := by decide +kernel

/-- The exchange of rack master 0x1000 (15_clocks_time.md R625): rate 6,710 and phase 214,748. -/
theorem test_adjust : TimeRt.adjust TimeRt.zero 819200 = { TimeRt.zero with rate := 6710, phase := 214748, adj := 221458, ticksLeft := 250000 } ∧
    exchange (leBytes 8 5000000000 ++ leBytes 8 5000000724 ++ leBytes 8 5000000924 ++ leBytes 2 0 ++ leBytes 2 0x8000 ++ leBytes 2 0x8000 ++
      leBytes 2 0 ++ leBytes 8 (300 * 65536) ++ leBytes 8 (300 * 65536) ++ List.replicate 16 0) (5000001624 * 65536) =
      (412 * 65536, 819200) := by decide +kernel

/-- The rack of 64 HVDC modules whose cap falls to 90,000 W (14_power.md R603): the first decision and the forced one. -/
theorem test_rackTotal :
    rackTotal 153600 38400 150000 90000 512 512 50 false 0 = ⟨1, 149488, false, false, 90000⟩ ∧
    rackTotal 153600 38400 124400 90000 512 512 50 false 50 = ⟨51, 90000, true, false, 90000⟩ ∧
    grantsOf (List.replicate 64 (2400, 600)) 149488 = List.replicate 48 2336 ++ List.replicate 16 2335 ∧
    grantsOf (List.replicate 64 (2400, 600)) 90000 = List.replicate 16 1407 ++ List.replicate 48 1406 := by decide +kernel

/-- The REGS entry that sets MCAP to 1,800 W on every module of rack 1 (16_startup_config.md R643). -/
theorem test_preset : let e := leBytes 4 0x00020004 ++ leBytes 4 0x0708 ++ leBytes 4 0x0FFF ++ leBytes 2 0x1000 ++ leBytes 2 0x7000
    ((regs [(Reg.POSITION, 0x1350)]).preset false e).rd Reg.MCAP 11 0 = 1800 ∧
    ((regs [(Reg.POSITION, 0x9350)]).preset false e).rd Reg.MCAP 11 0 = 1800 ∧
    (bare.preset false e).rd Reg.MCAP 11 0 = bare.rd Reg.MCAP 11 0 ∧ bare.rd Reg.MCAP 11 0 ≠ 1800 := by decide +kernel

/-- The straps of the module at position 0x1350, and a tray that leaves every strap open (18_module_interfaces.md R704). -/
theorem test_straps : nextIs (exec (.powerGood 0x1135 true) State.reset) (fun t => t.pos == 0x1350) = true ∧
    nextIs (exec (.powerGood 0x1FFF true) State.reset) (fun t => t.rd Reg.START_STAT 7 4 == 1) = true := by decide +kernel

/-- The BLOTRATE record of module 0x0243 (19_registers.md R732). -/
theorem test_eventBytes : EventRec.bytes ⟨51230000040, 7, 0x0301, 2, false, 0x0243, 1, [0x1103, 2400, 180000]⟩ =
    [0xA8, 0xC3, 0x8B, 0xED, 0x0B, 0, 0, 0, 7, 0, 0, 0, 0x01, 0x03, 2, 0, 0x43, 0x02, 1, 0, 0, 0, 0, 0, 0x03, 0x11, 0, 0, 0, 0, 0, 0,
      0x60, 0x09, 0, 0, 0, 0, 0, 0, 0x20, 0xBF, 0x02, 0, 0, 0, 0, 0] ++ List.replicate 16 0 := by decide +kernel

/-- The example of 19_registers.md R731: FUSE_1 = 0x1F7EF of a NYF-LV60-M, and logical quire 19 is physical quire 5 of SD1. -/
theorem test_physQuire : let s := { regs [(Reg.FUSE 1, 0x1F7EF)] with chip := { bare.chip with lv60 := true } }
    s.dieOf 19 = 1 ∧ s.physQuire 19 = some 5 ∧ (s.enabledQuires 1).length = 15 := by decide +kernel

/-- CRC-32C of the nine digits (12_fabric_links.md R484 names the code; its check value is well known). -/
theorem test_crc32c : crc32c [0x31, 0x32, 0x33, 0x34, 0x35, 0x36, 0x37, 0x38, 0x39] = 0xE3069283 := by decide +kernel

/-! ## Ill-formed commands -/

/-- Refused by the check, and stopped by the machine. -/
def bad (c : Instr) : Bool := !c.wellFormed && stops (exec c bare)

theorem test_badPackets :
    bad (.load8 (pkt 0x02 0 1)) = true ∧ bad (.atomicMin (pkt 0x0B 2 1)) = true ∧ bad (.store64 (pkt 0x09 0 1)) = true ∧
    bad (.bulkw (pkt 0x0A 0 1)) = true ∧ bad (.store64 (pkt 0x09 0 1 [[0]])) = true ∧ bad (.bulkw (pkt 0x0A 0 1 [line0, line0])) = true ∧
    bad (.bulkComplete (pkt 0x12 0 1)) = true ∧ (Instr.bulkComplete (pkt 0x10 0 1)).wellFormed = true ∧
    (Instr.store64 (pkt 0x09 0 1 [line0])).wellFormed = true := by decide +kernel

theorem test_badPacketRows : ([.load64 (pkt 1 0 1), .bulkr (pkt 1 0 1), .store8 (pkt 1 0 1), .atomicAdd (pkt 0x0B 1 1), .atomicMax (pkt 0x0B 1 1),
    .swap (pkt 0x0B 1 1), .cas (pkt 0x0B 1 1), .flaggedStore (pkt 0x0C 1 1), .flaggedAdd (pkt 0x0C 0 1), .rdata (pkt 1 0 1),
    .ack (pkt 1 0 1), .refuse (pkt 1 0 1), .dispatch (pkt 1 0 1), .poolans (pkt 1 0 1), .close (pkt 1 0 1), .retrow (pkt 1 0 1),
    .rethdr (pkt 1 0 1), .slip (pkt 0x30 1 1), .entries (pkt 0x30 0 1), .post (pkt 0x30 3 1), .mask (pkt 0x30 2 1),
    .header (pkt 0x31 1 1), .commit (pkt 0x31 0 1), .maskword (pkt 0x31 0 1)] : List Instr).all bad = true := by decide +kernel

theorem test_badLists : ([.quillStore 0 0 [1, 2], .flitReceive 0 line0 0 0, .ident 0 [], .sync 0 0 [], .reply 0 [] ⟨0, 0⟩, .intent 0 [] 0,
    .tray 0 [] 0, .thermalSample [] [], .thermalSample (temps 64 0) (temps 15 0)] : List Instr).all bad = true := by decide +kernel

theorem test_decodeTableWord : decodeTableWord 32 5 = none ∧ State.reset.withFetchWord 32 5 = State.reset := ⟨rfl, rfl⟩

theorem test_step_front : nextIs (step { bare with pending := [.refloss, .refclkReturn] })
    (fun t => t.pending == [.refclkReturn] && t.rdb Reg.TIM_STAT 29) = true := by decide +kernel

end Sys2Proof.Tests
end

section
/-! SUPPORT. The step, what reset leaves, and the statements about them. -/

namespace Sys2Proof.Machine

/-! ## The step -/

/-- Settles O1: the step is `exec` on the queue's rest by its definition. -/
theorem stepRunsFront : Obligations.StepRunsFront := by
  unfold Obligations.StepRunsFront
  intro c rest s
  rfl

/-! ## Reset -/

theorem Map.get?_eq_none_of_not_mem {α : Type} (m : Map α) {k : Nat} (h : k ∉ m.map Prod.fst) : Map.get? m k = none := by
  induction m with
  | nil => rfl
  | cons e t ih =>
    obtain ⟨a, v⟩ := e
    rw [List.map_cons, List.mem_cons, not_or] at h
    obtain ⟨hk, ht⟩ := h
    rw [Map.get?, if_neg (Ne.symm hk), ih ht]

theorem State.word_of_not_mem_csr (s : State) {o : Nat} (h : o ∉ s.csr.map Prod.fst) : s.word o = regReset o := by
  rw [State.word, Map.getD, Map.get?_eq_none_of_not_mem _ h, Option.getD_none]

theorem reset_sheets_empty : ∀ i, i < 16 → State.reset.rd (Reg.SCTL i) 2 0 = 0 := by decide +kernel

theorem reset_quires_gated : ∀ q, q < 64 → State.reset.rd (Reg.QUIRE_STAT q) 2 0 = 0 := by decide +kernel

theorem reset_named_words :
    State.reset.word Reg.EVICT_CTL = 16384 ∧ State.reset.word Reg.TLOST_CTL = 100 ∧
    State.reset.rd Reg.MCAP 11 0 = 2400 ∧ State.reset.rd Reg.START_STAT 3 0 = 0 := by decide +kernel

/-- Settles O7: a register that `csrSources` does not name reads its reset word, and the engines' fields are those of
`State.reset`. -/
theorem resetState : Obligations.ResetState := by
  unfold Obligations.ResetState
  obtain ⟨hevict, htlost, hmcap, hstart⟩ := reset_named_words
  exact ⟨fun o h => State.word_of_not_mem_csr State.reset h, State.wf_reset,
    rfl, rfl, rfl, rfl, rfl, rfl, rfl, rfl, rfl, rfl, rfl, rfl, rfl, rfl, rfl, rfl, rfl, rfl, rfl, rfl, rfl,
    hevict, htlost, hmcap, hstart, reset_sheets_empty, reset_quires_gated⟩

end Sys2Proof.Machine
end

section
/-! SUPPORT. The fields of a register under a write through the access codes and a read that clears (00_scope.md R11). -/

namespace Sys2Proof.Machine

/-! ## Fields -/

theorem bits_setBits_apart (w : W32) {hi lo hi' lo' : Nat} (v : Nat) (h1 : lo ≤ hi) (h2 : hi < 32) (h3 : lo' ≤ hi')
    (h : hi' < lo ∨ hi < lo') : bits (setBits w hi lo v).toNat hi' lo' = bits w.toNat hi' lo' := by
  rcases h with h | h
  · exact bits_setBits_below w v h1 h2 h3 h
  · exact bits_setBits_above w v h1 h2 h

/-- A number split at a field. -/
theorem split_at_field (w : Nat) {hi lo : Nat} (h : lo ≤ hi) :
    w / 2 ^ (hi + 1) * 2 ^ (hi + 1) + bits w hi lo * 2 ^ lo + w % 2 ^ lo = w := by
  have e : 2 ^ (hi + 1) = 2 ^ lo * 2 ^ (hi + 1 - lo) := by rw [← pow_add]; congr 1; omega
  have hlow := Nat.div_add_mod w (2 ^ lo)
  have hhigh := Nat.div_add_mod (w / 2 ^ lo) (2 ^ (hi + 1 - lo))
  rw [bits, e, ← Nat.div_div_eq_div_mul]
  calc _ = 2 ^ lo * (2 ^ (hi + 1 - lo) * (w / 2 ^ lo / 2 ^ (hi + 1 - lo)) + w / 2 ^ lo % 2 ^ (hi + 1 - lo)) + w % 2 ^ lo := by ring
    _ = w := by rw [hhigh, hlow]

/-- Each field of a list takes the value that `new` gives it from its old one. -/
def updateFields (new : Field → Nat → Nat) : List Field → W32 → W32
  | [], w => w
  | f :: rest, w => updateFields new rest (setBits w f.hi f.lo (new f (bits w.toNat f.hi f.lo)))

/-- Bits that lie in no field of the list stay. -/
theorem bits_updateFields_apart (new : Field → Nat → Nat) {fs : List Field} (hfs : fieldsApart fs) (w : W32) {hi lo : Nat}
    (hlh : lo ≤ hi) (h : ∀ f ∈ fs, hi < f.lo ∨ f.hi < lo) :
    bits (updateFields new fs w).toNat hi lo = bits w.toNat hi lo := by
  induction fs generalizing w with
  | nil => rfl
  | cons f rest ih =>
    obtain ⟨hf, hf32, _, hrest⟩ := hfs
    obtain ⟨hout, houts⟩ := List.forall_mem_cons.mp h
    rw [updateFields, ih hrest _ houts, bits_setBits_apart w _ hf hf32 hlh hout]

theorem bit_eq_bits (w i : Nat) : bit w i = (bits w i i == 1) := by
  rw [bit, bits, Nat.add_sub_cancel_left, pow_one]

/-- One bit that lies in no field of the list stays. -/
theorem bit_updateFields_apart (new : Field → Nat → Nat) {fs : List Field} (hfs : fieldsApart fs) (w : W32) {i : Nat}
    (h : ∀ f ∈ fs, i < f.lo ∨ f.hi < i) : bit (updateFields new fs w).toNat i = bit w.toNat i := by
  rw [bit_eq_bits, bit_eq_bits, bits_updateFields_apart new hfs w (le_refl i) h]

theorem fieldsApart_inWord {fs : List Field} (hfs : fieldsApart fs) {g : Field} (hg : g ∈ fs) : g.lo ≤ g.hi ∧ g.hi < 32 := by
  induction fs with
  | nil => cases hg
  | cons f rest ih =>
    obtain ⟨hf, hf32, _, hrest⟩ := hfs
    rcases List.mem_cons.mp hg with rfl | hg
    · exact ⟨hf, hf32⟩
    · exact ih hrest hg

/-- A field of the list takes its new value, however many are updated before and after it. -/
theorem bits_updateFields (new : Field → Nat → Nat) {fs : List Field} (hfs : fieldsApart fs) (w : W32) {g : Field} (hg : g ∈ fs)
    (hnew : ∀ x < 2 ^ (g.hi + 1 - g.lo), new g x < 2 ^ (g.hi + 1 - g.lo)) :
    bits (updateFields new fs w).toNat g.hi g.lo = new g (bits w.toNat g.hi g.lo) := by
  induction fs generalizing w with
  | nil => cases hg
  | cons f rest ih =>
    obtain ⟨hf, hf32, hapart, hrest⟩ := hfs
    rw [updateFields]
    rcases List.mem_cons.mp hg with rfl | hg
    · rw [bits_updateFields_apart new hrest _ hf fun r hr => (hapart r hr).symm, bits_setBits w _ hf hf32,
        Nat.mod_eq_of_lt (hnew _ (bits_lt _ _ _))]
    · rw [ih hrest _ hg, bits_setBits_apart w _ hf hf32 (fieldsApart_inWord hrest hg).1 (hapart g hg)]

/-- What a write of v leaves in a field that held x, by the field's access code (R11). -/
def writtenField (v : Nat) (f : Field) (x : Nat) : Nat :=
  match f.acc with
  | .rw => bits v f.hi f.lo
  | .w1c => x &&& (2 ^ (f.hi + 1 - f.lo) - 1 - bits v f.hi f.lo)
  | .w1s => x ||| bits v f.hi f.lo
  | _ => x

/-- What a read that clears leaves in a field that held x (R11). -/
def clearedField (f : Field) (x : Nat) : Nat := if f.acc = .rc then 0 else x

theorem writtenField_lt (v : Nat) (f : Field) {x : Nat} (hx : x < 2 ^ (f.hi + 1 - f.lo)) :
    writtenField v f x < 2 ^ (f.hi + 1 - f.lo) := by
  have hv : bits v f.hi f.lo < 2 ^ (f.hi + 1 - f.lo) := bits_lt v f.hi f.lo
  unfold writtenField
  cases f.acc with
  | rw => exact hv
  | w1c => exact lt_of_le_of_lt Nat.and_le_left hx
  | w1s => exact Nat.or_lt_two_pow hx hv
  | ro | wo | rc => exact hx

theorem clearedField_lt (f : Field) {x : Nat} (hx : x < 2 ^ (f.hi + 1 - f.lo)) :
    clearedField f x < 2 ^ (f.hi + 1 - f.lo) := by
  unfold clearedField
  split
  · exact Nat.two_pow_pos _
  · exact hx

/-- A write through the access codes updates the fields one by one. -/
theorem writeFields_eq_updateFields {fs : List Field} (hfs : fieldsApart fs) (w : W32) (v : Nat) :
    writeFields fs w.toNat v = (updateFields (writtenField v) fs w).toNat := by
  induction fs generalizing w with
  | nil => rfl
  | cons f rest ih =>
    obtain ⟨hf, hf32, _, hrest⟩ := hfs
    rw [updateFields, ← ih hrest, setBits_toNat w _ hf hf32, Nat.mod_eq_of_lt (writtenField_lt v f (bits_lt _ _ _))]
    rfl

/-- A read that clears updates the fields one by one. -/
theorem clearRc_eq_updateFields {fs : List Field} (hfs : fieldsApart fs) (w : W32) :
    clearRc fs w.toNat = (updateFields clearedField fs w).toNat := by
  induction fs generalizing w with
  | nil => rfl
  | cons f rest ih =>
    obtain ⟨hf, hf32, _, hrest⟩ := hfs
    rw [updateFields, ← ih hrest, setBits_toNat w _ hf hf32, Nat.mod_eq_of_lt (clearedField_lt f (bits_lt _ _ _)), clearRc,
      clearedField]
    split
    · simp only [Nat.zero_mul, Nat.add_zero]
    · rw [split_at_field w.toNat hf]

/-- Settles O12: both accesses update the fields one by one, and the fields lie apart. -/
theorem accessCodes : Obligations.AccessCodes := by
  unfold Obligations.AccessCodes
  intro fs old v hfs hold _
  obtain ⟨w, rfl⟩ : ∃ w : W32, w.toNat = old := ⟨BitVec.ofNat 32 old, Nat.mod_eq_of_lt hold⟩
  rw [writeFields_eq_updateFields hfs, clearRc_eq_updateFields hfs]
  refine ⟨fun f hf => ?_, fun f hf => ?_, fun i _ hout => ⟨?_, ?_⟩⟩
  · exact bits_updateFields _ hfs w hf fun _ => writtenField_lt v f
  · exact bits_updateFields _ hfs w hf fun _ => clearedField_lt f
  · exact bit_updateFields_apart _ hfs w hout
  · exact bit_updateFields_apart _ hfs w hout

end Sys2Proof.Machine
end

section
/-! SUPPORT. Control-space accesses as commands, and the ones that are refused (00_scope.md R10, 19_registers.md R722). -/

namespace Sys2Proof.Machine

theorem act_powered {s : State} (h : s.powered = true) (f : State → State) : act s f = .next (f s) := by rw [act, if_pos h]

theorem State.post_answers (s : State) (c : Nat) (a : List Nat) : (s.post c a).answers = s.answers := by
  rw [(s.post_logOnly c a).rest]

/-! ## The accesses as commands -/

section Commands

variable {s : State} (hp : s.powered = true)
include hp

theorem exec_csaccess (off : BitVec 32) (size : Nat) (write : Bool) : exec (.csaccess off size write) s =
    .next (if size = 4 && inSpace off.toNat then s else s.refuseAccess off.toNat size) :=
  act_powered hp fun s => if size = 4 && inSpace off.toNat then s else s.refuseAccess off.toNat size

theorem exec_readToClear (off : BitVec 20) : exec (.readToClear off) s = .next (s.regRead off.toNat) :=
  act_powered hp fun s => s.regRead off.toNat

theorem exec_counterLoRead (off : BitVec 20) : exec (.counterLoRead off) s = .next (s.regRead off.toNat) :=
  act_powered hp fun s => s.regRead off.toNat

theorem exec_registerWrite (off : BitVec 20) (v : W32) :
    exec (.registerWrite off v) s = .next (s.regWrite off.toNat v.toNat) :=
  act_powered hp fun s => s.regWrite off.toNat v.toNat

theorem exec_proxyAccess (ch : Fin 4) (v : W32) : exec (.proxyAccess ch v) s = .next (s.proxy ch.val v.toNat) :=
  act_powered hp fun s => s.proxy ch.val v.toNat

end Commands

/-- Settles O13: a refused access answers an error and posts an event, and posting leaves the answers. -/
theorem refusedAccess : Obligations.RefusedAccess := by
  unfold Obligations.RefusedAccess
  intro off size write s hp hbad
  have hlegal : ¬ (size = 4 && inSpace off.toNat) = true := by
    rw [Bool.and_eq_true, decide_eq_true_iff, not_and_or, Bool.not_eq_true]
    exact hbad
  refine ⟨s.refuseAccess off.toNat size, ?_, rfl, ?_⟩
  · rw [exec_csaccess hp, if_neg hlegal]
  · rw [State.refuseAccess, State.post_answers, State.answer_answers]

end Sys2Proof.Machine
end

section
/-! SUPPORT. Handing packets to the links, and the flush of gathers, change nothing but what sending changes (11_fabric_ops.md R462). -/

namespace Sys2Proof.Machine

/-! ## Sending -/

/-- t differs from s at most in what handing packets to the links changes. -/
def SentOnly (s t : State) : Prop :=
  t = { s with draws := t.draws, csr := t.csr, peers := t.peers, outOps := t.outOps, ports := t.ports, tx := t.tx }

theorem SentOnly.refl (s : State) : SentOnly s s := rfl

theorem SentOnly.trans {s t u : State} (h1 : SentOnly s t) (h2 : SentOnly t u) : SentOnly s u := by
  unfold SentOnly at *
  rw [h2, h1]

theorem State.bump_sentOnly (s : State) (o n : Nat) : SentOnly s (s.bump o n) := rfl

theorem State.pump_sentOnly (s : State) (p : Nat) : SentOnly s (s.pump p) := by
  rw [State.pump, State.pumpCount]
  dsimp only
  split
  · exact SentOnly.refl s
  · split <;> rfl

theorem State.send_sentOnly (s : State) (path : Nat) (p : Packet) : SentOnly s (s.send path p) := by
  rw [State.send, State.sendVl]
  dsimp only
  split
  · refine SentOnly.trans ?_ (State.pump_sentOnly _ _)
    rfl
  · rfl

theorem State.launch_sentOnly (s : State) (p : Packet) (issuers : List Issuer) (apers : List Nat) :
    SentOnly s (s.launch p issuers apers) := by
  rw [State.launch]
  dsimp only
  split
  · rfl
  · split
    · rfl
    · refine SentOnly.trans (SentOnly.trans ?_ (State.send_sentOnly _ _ _)) rfl
      rfl

/-- Flushing a gather sends, and closes the gathers of its target. -/
theorem State.flushGather_sentOnly (s : State) (g : Gather) :
    SentOnly { s with gathers := s.gathers.filter fun x => x.dst != g.dst } (s.flushGather g) :=
  (State.launch_sentOnly _ _ _ _).trans (State.bump_sentOnly _ _ _)

theorem State.foldl_flushGather_sentOnly (l : List Gather) (s : State) :
    SentOnly { s with gathers := (l.foldl State.flushGather s).gathers } (l.foldl State.flushGather s) ∧
      ∀ x ∈ (l.foldl State.flushGather s).gathers, x ∈ s.gathers ∧ ∀ g ∈ l, x.dst ≠ g.dst := by
  induction l generalizing s with
  | nil => exact ⟨rfl, fun x hx => ⟨hx, fun g hg => nomatch hg⟩⟩
  | cons g l ih =>
    obtain ⟨hsent, hkept⟩ := ih (s.flushGather g)
    have hone := State.flushGather_sentOnly s g
    have hgathers : (s.flushGather g).gathers = s.gathers.filter fun x => x.dst != g.dst := by rw [hone]
    refine ⟨?_, fun x hx => ?_⟩
    · rw [List.foldl_cons]
      generalize List.foldl State.flushGather (s.flushGather g) l = t at *
      unfold SentOnly at *
      rw [hsent, hone]
    · obtain ⟨hx', hl⟩ := hkept x hx
      rw [hgathers, List.mem_filter, bne_iff_ne] at hx'
      exact ⟨hx'.1, List.forall_mem_cons.mpr ⟨hx'.2, hl⟩⟩

/-- A flush sends and closes gathers; nothing else of the module changes. -/
theorem State.flushOf_sentOnly (s : State) (f : Issuer → Bool) : SentOnly { s with gathers := (s.flushOf f).gathers } (s.flushOf f) :=
  (State.foldl_flushGather_sentOnly _ s).1

/-- No gather that stays open after a flush holds a write of an issuer it was for (11 R458). -/
theorem State.flushOf_gathers (s : State) (f : Issuer → Bool) {g : Gather} (hg : g ∈ (s.flushOf f).gathers)
    {l : Nat × Nat × List Byte × List (Issuer × Nat)} (hl : l ∈ g.lines) {x : Issuer × Nat} (hx : x ∈ l.2.2.2) : f x.1 = false := by
  obtain ⟨hopen, hapart⟩ := (State.foldl_flushGather_sentOnly _ s).2 g hg
  by_contra hf
  rw [Bool.not_eq_false] at hf
  refine hapart g (List.mem_filter.mpr ⟨hopen, ?_⟩) rfl
  exact List.any_eq_true.mpr ⟨l, hl, List.any_eq_true.mpr ⟨x, hx, hf⟩⟩

end Sys2Proof.Machine
end

section
/-! SUPPORT. Reads, plain writes and proxied accesses of registers (00_scope.md R11, 10_sheets.md R429, 19_registers.md R725 to R728). -/

namespace Sys2Proof.Machine

theorem bit_toNat (v : W32) (i : Nat) : bit v.toNat i = v.getLsbD i := by
  rw [bit, BitVec.getLsbD, Nat.testBit_eq_decide_div_mod_eq]
  rfl

/-! ## Reading a register -/

/-- The latched words after a read of a register that holds none (R11, 10 R429). -/
def State.latchedBy (s : State) (off : Nat) : Map W32 :=
  let l := match hiOf off with
    | none => s.latched
    | some h => Map.set s.latched h (s.view h)
  if off = Reg.RT_LO then Map.set l Reg.RT_FRAC (s.view Reg.RT_FRAC) else l

theorem State.latchedBy_hi (s : State) {off h : Nat} (hrt : off ≠ Reg.RT_LO) (hh : hiOf off = some h) :
    Map.get? (s.latchedBy off) h = some (s.view h) := by
  rw [State.latchedBy, if_neg hrt, hh, Map.get?_set_same]

theorem State.readReg_noRegister (s : State) {off : Nat} (clear : Bool) (hr : regAt off = none) : s.readReg off clear = (s, 0) := by
  rw [State.readReg, hr]

theorem State.readReg_latched (s : State) {off : Nat} (clear : Bool) {r : RegDesc} {w : W32} (hr : regAt off = some r)
    (hl : Map.get? s.latched off = some w) : s.readReg off clear = ({ s with latched := Map.erase s.latched off }, w) := by
  rw [State.readReg, hr]
  simp only [hl]

/-- A read of a register with no latched word answers its current word and, with `clear`, empties its RC fields. -/
theorem State.readReg_current (s : State) {off : Nat} (clear : Bool) {r : RegDesc} (hr : regAt off = some r)
    (hl : Map.get? s.latched off = none) : s.readReg off clear =
      (let c : W32 := BitVec.ofNat 32 (clearRc r.fields (s.word off).toNat)
       let t : State := { s with latched := s.latchedBy off }
       if clear && c != s.word off then t.wrw off c else t, s.view off) := by
  rw [State.readReg, hr, State.latchedBy]
  simp only [hl]
  by_cases hrt : off = Reg.RT_LO
  · simp only [if_pos hrt]
    cases hiOf off <;> rfl
  · simp only [if_neg hrt]
    cases hiOf off <;> rfl

section CurrentWord

variable (s : State) {off : Nat} {r : RegDesc} (hr : regAt off = some r) (hl : Map.get? s.latched off = none)
include hr hl

theorem State.readReg_value (clear : Bool) : (s.readReg off clear).2 = s.view off := by
  rw [s.readReg_current clear hr hl]

theorem State.readReg_rest (clear : Bool) : (s.readReg off clear).1 =
    { s with csr := (s.readReg off clear).1.csr, latched := s.latchedBy off } := by
  rw [s.readReg_current clear hr hl]
  dsimp only
  split <;> rfl

theorem State.readReg_word_cleared :
    (s.readReg off true).1.word off = BitVec.ofNat 32 (clearRc r.fields (s.word off).toNat) := by
  rw [s.readReg_current true hr hl]
  dsimp only
  split
  · exact State.word_wrw _ _ _
  · rename_i h
    rw [Bool.true_and, bne_iff_ne, not_not] at h
    exact h.symm

theorem State.readReg_word_other (clear : Bool) {o : Nat} (ho : o ≠ off) : (s.readReg off clear).1.word o = s.word o := by
  rw [s.readReg_current clear hr hl]
  dsimp only
  split
  · exact State.word_wrw_ne _ _ ho
  · rfl

end CurrentWord

/-! ## A Quill core's read -/

theorem State.flushOf_of_no_gathers {s : State} (h : s.gathers = []) (f : Issuer → Bool) : s.flushOf f = s := by
  rw [State.flushOf, h]
  rfl

/-- A read that begins no fence over an open gather is the plain read of the register (11 R457). -/
theorem State.regRead_eq (s : State) {off : Nat} (hs : inSpace off = true) (hq : off = Reg.QF_ISSUED → s.gathers = []) :
    s.regRead off = (s.readReg off true).1.answer 0 (leBytes 4 (s.readReg off true).2.toNat) := by
  have hflush : (if off = Reg.QF_ISSUED then s.flushOf (fun x => x.kind == 2) else s) = s := by
    split
    · rename_i h; exact State.flushOf_of_no_gathers (hq h) _
    · rfl
  simp only [State.regRead, hs, hflush, Bool.not_true, Bool.false_eq_true, if_false]

theorem qf_issued_isRegister : (regAt Reg.QF_ISSUED).isSome = true := by decide +kernel

theorem State.view_qf_issued (s : State) : s.view Reg.QF_ISSUED = s.word Reg.QF_ISSUED := by
  have hclock : copyAt (Reg.CLOCK 0) 0x20 64 Reg.QF_ISSUED = none := by decide
  have hinfl : copyAt (Reg.QINFL 0) 0x20 128 Reg.QF_ISSUED = none := by decide
  have hrun : copyAt (Reg.RUNTIME 0 0) 0x20 128 Reg.QF_ISSUED = none := by decide
  rw [State.view]
  simp only [hclock, hinfl, hrun]
  rfl

/-! ## Proxy accesses (R725 to R728) -/

theorem State.pxyStat_word_data (s : State) (k r : Nat) : (s.pxyStat k r).word (Reg.PXY_DATA k) = s.word (Reg.PXY_DATA k) := by
  have h : Reg.PXY_DATA k ≠ Reg.PXY_STAT k := by rw [Reg.PXY_DATA, Reg.PXY_STAT]; omega
  exact s.word_wr_ne 1 0 r h

theorem State.pxyStat_rd (s : State) (k r : Nat) : (s.pxyStat k r).rd (Reg.PXY_STAT k) 1 0 = r % 4 :=
  s.rd_wr (Reg.PXY_STAT k) r (Nat.zero_le 1) (by decide)

section Proxy

variable (s : State) (k : Nat) {v : Nat}

theorem State.proxy_badClass (hc : bits v 31 30 = 0 ∨ bits v 31 30 = 3) : s.proxy k v = s.pxyStat k 3 := by
  simp only [State.proxy, if_pos hc]

variable (hc : bits v 31 30 = 1 ∨ bits v 31 30 = 2)
include hc

theorem proxyClass_good : ¬ (bits v 31 30 = 0 ∨ bits v 31 30 = 3) := by omega

theorem State.proxy_outside (hs : inSpace (bits v 19 0) = false) : s.proxy k v = s.pxyStat k 2 := by
  simp only [State.proxy, if_neg (proxyClass_good hc), hs, Bool.not_false, if_true]

variable (hs : inSpace (bits v 19 0) = true)
include hs

theorem State.proxy_write (hw : bit v 29 = true) : s.proxy k v =
    if s.mayWrite (bits v 31 30) (bits v 19 0) then
      (s.blockWrite (bits v 19 0) (s.word (Reg.PXY_DATA k)).toNat (bits v 31 30)).pxyStat k 0
    else (s.post 0x0006 [bits v 31 30, bits v 19 0]).pxyStat k 1 := by
  simp only [State.proxy, if_neg (proxyClass_good hc), hs, hw, Bool.not_true, Bool.false_eq_true, if_false, if_true]

variable (hw : bit v 29 = false)
include hw

/-- The owner-command nonce is hidden from the proxies. -/
theorem State.proxy_read_nonce (hn : (copyAt (Reg.NONCE 0) 4 4 (bits v 19 0)).isSome = true) :
    s.proxy k v = (s.wrw (Reg.PXY_DATA k) 0).pxyStat k 0 := by
  simp only [State.proxy, if_neg (proxyClass_good hc), hs, hw, hn, Bool.not_true, Bool.false_eq_true, if_false, if_true]

theorem State.proxy_read (hn : copyAt (Reg.NONCE 0) 4 4 (bits v 19 0) = none) : s.proxy k v =
    ((s.readReg (bits v 19 0) false).1.wrw (Reg.PXY_DATA k) (s.readReg (bits v 19 0) false).2).pxyStat k 0 := by
  simp only [State.proxy, if_neg (proxyClass_good hc), hs, hw, hn, Option.isSome_none, Bool.not_true, Bool.false_eq_true,
    if_false]

end Proxy

/-! ## Plain writes -/

/-- A block that gives its registers no behaviour of their own (R11, R722). -/
def PlainBlock (off : Nat) : Prop := off / 0x10000 = 3 ∨ off / 0x10000 = 0xA

theorem State.writeReg_register (s : State) {off v : Nat} {r : RegDesc} (hr : regAt off = some r) :
    s.writeReg off v = s.wrw off (BitVec.ofNat 32 (writeFields r.fields (s.word off).toNat (v % 2 ^ 32))) := by
  rw [State.writeReg, hr]

theorem State.blockWrite_plain (s : State) {off : Nat} (h : PlainBlock off) (v cls : Nat) :
    s.blockWrite off v cls = s.writeReg off v := by
  rcases h with h | h
  · simp only [State.blockWrite, h]
  · simp only [State.blockWrite, h]

theorem copyAt_pxyAddr_plain {off : Nat} (h : PlainBlock off) : copyAt (Reg.PXY_ADDR 0) 0x10 4 off = none := by
  have hout : ¬ (off - Reg.PXY_ADDR 0) / 0x10 < 4 := by
    unfold PlainBlock at h
    rw [Reg.PXY_ADDR]
    omega
  rw [copyAt, decide_eq_false hout, Bool.and_false]
  rfl

theorem State.regWrite_plain (s : State) {off : Nat} (hs : inSpace off = true) (h : PlainBlock off) (v : Nat) :
    s.regWrite off v = s.writeReg off v := by
  have hacc : ¬ (off = Reg.ACC_MGMT ∨ off = Reg.ACC_FAB) := by
    unfold PlainBlock at h
    rw [Reg.ACC_MGMT, Reg.ACC_FAB]
    omega
  rw [State.regWrite, hs, Bool.not_true, if_neg Bool.false_ne_true, if_neg hacc, copyAt_pxyAddr_plain h]
  exact s.blockWrite_plain h v 0

/-! ## What a read by a Quill core and by a proxy does -/

/-- What a Quill core's read of a current word does (R11). -/
theorem State.regRead_current (s : State) {off : Nat} {r : RegDesc} (hs : inSpace off = true) (hr : regAt off = some r)
    (hl : Map.get? s.latched off = none) (hq : off = Reg.QF_ISSUED → s.gathers = []) :
    (s.regRead off).answers = s.answers ++ [(0, leBytes 4 (s.view off).toNat)] ∧
    (s.regRead off).latched = s.latchedBy off ∧ (s.regRead off).mem = s.mem ∧
    (s.regRead off).word off = BitVec.ofNat 32 (clearRc r.fields (s.word off).toNat) ∧
    ∀ o, o ≠ off → (s.regRead off).word o = s.word o := by
  have hrest := s.readReg_rest hr hl true
  rw [s.regRead_eq hs hq, s.readReg_value hr hl]
  refine ⟨?_, ?_, ?_, s.readReg_word_cleared hr hl, fun o ho => s.readReg_word_other hr hl true ho⟩
  · rw [State.answer_answers, hrest]
  · rw [State.answer_latched, hrest]
  · rw [State.answer_mem, hrest]

theorem State.regRead_noRegister (s : State) {off : Nat} (hs : inSpace off = true) (hr : regAt off = none) :
    s.regRead off = s.answer 0 (leBytes 4 0) := by
  have hq : off ≠ Reg.QF_ISSUED := by
    rintro rfl
    exact Option.isSome_iff_ne_none.mp qf_issued_isRegister hr
  rw [s.regRead_eq hs fun h => absurd h hq, s.readReg_noRegister true hr]
  rfl

/-- A latched word is answered and released (10 R429). -/
theorem State.regRead_latched (s : State) {off : Nat} {r : RegDesc} {w : W32} (hs : inSpace off = true) (hr : regAt off = some r)
    (hl : Map.get? s.latched off = some w) (hq : off ≠ Reg.QF_ISSUED) :
    s.regRead off = { s with latched := Map.erase s.latched off }.answer 0 (leBytes 4 w.toNat) := by
  rw [s.regRead_eq hs fun h => absurd h hq, s.readReg_latched true hr hl]

/-- A read of QF_ISSUED flushes the Quill's gathers and then answers the count (11 R457, R458). -/
theorem State.regRead_fence (s : State) (hl : Map.get? s.latched Reg.QF_ISSUED = none) :
    (s.regRead Reg.QF_ISSUED).answers =
      s.answers ++ [(0, leBytes 4 ((s.flushOf fun x => x.kind == 2).word Reg.QF_ISSUED).toNat)] ∧
    (s.regRead Reg.QF_ISSUED).mem = s.mem ∧
    (s.regRead Reg.QF_ISSUED).gathers = (s.flushOf fun x => x.kind == 2).gathers := by
  have hsent := s.flushOf_sentOnly fun x => x.kind == 2
  have hread : s.regRead Reg.QF_ISSUED = ((s.flushOf fun x => x.kind == 2).readReg Reg.QF_ISSUED true).1.answer 0
      (leBytes 4 ((s.flushOf fun x => x.kind == 2).readReg Reg.QF_ISSUED true).2.toNat) := rfl
  rw [hread]
  generalize s.flushOf (fun x => x.kind == 2) = u at *
  obtain ⟨r, hr⟩ := Option.isSome_iff_exists.mp qf_issued_isRegister
  have hlu : Map.get? u.latched Reg.QF_ISSUED = none := by rw [hsent]; exact hl
  have hrest := u.readReg_rest hr hlu true
  rw [u.readReg_value hr hlu, u.view_qf_issued]
  refine ⟨?_, ?_, ?_⟩
  · rw [State.answer_answers, hrest, hsent]
  · rw [State.answer_mem, hrest, hsent]
  · rw [State.answer_gathers, hrest]

/-- A proxied read of a current word puts it in the channel's data register (R726, R728). -/
theorem State.proxy_read_current (s : State) (k : Nat) {v : Nat} {r : RegDesc} (hc : bits v 31 30 = 1 ∨ bits v 31 30 = 2)
    (hw : bit v 29 = false) (hs : inSpace (bits v 19 0) = true) (hr : regAt (bits v 19 0) = some r)
    (hl : Map.get? s.latched (bits v 19 0) = none) (hn : copyAt (Reg.NONCE 0) 4 4 (bits v 19 0) = none) :
    (s.proxy k v).word (Reg.PXY_DATA k) = s.view (bits v 19 0) ∧ (s.proxy k v).rd (Reg.PXY_STAT k) 1 0 = 0 ∧
    (s.proxy k v).mem = s.mem := by
  rw [s.proxy_read k hc hs hw hn]
  refine ⟨?_, State.pxyStat_rd _ k 0, ?_⟩
  · rw [State.pxyStat_word_data, State.word_wrw, s.readReg_value hr hl]
  · rw [State.pxyStat, State.wr_mem, State.wrw_mem, s.readReg_rest hr hl]

/-- Settles O11: the reads are `State.readReg` after a fence's flush, the plain writes `State.writeReg`, and a proxied access falls
under one case of `State.proxy`. -/
theorem registerAccess : Obligations.RegisterAccess := by
  unfold Obligations.RegisterAccess
  refine ⟨?_, ?_, ?_, ?_, ?_, ?_, ?_, ?_⟩
  · intro off s r hp hs hr hl _ hq
    obtain ⟨hans, _, hmem, hword, hother⟩ := s.regRead_current hs hr hl hq
    exact ⟨_, exec_readToClear hp off, hans, hword, hother, hmem⟩
  · intro off h s r hp hs hr hl hrt hq hh
    obtain ⟨hans, hlat, hmem, _, _⟩ := s.regRead_current hs hr hl hq
    refine ⟨_, exec_counterLoRead hp off, hans, ?_, hmem⟩
    rw [hlat, s.latchedBy_hi hrt hh]
  · intro s hp hl
    obtain ⟨hans, hmem, hgathers⟩ := s.regRead_fence hl
    refine ⟨_, _, rfl, exec_readToClear hp _, hans, hmem, fun g hg l hline x hx => ?_⟩
    exact beq_eq_false_iff_ne.mp (s.flushOf_gathers _ (hgathers ▸ hg) hline hx)
  · intro ch v s r hp hc hw hs hr hl hn
    rw [← bit_toNat] at hw
    exact ⟨_, exec_proxyAccess hp ch v, s.proxy_read_current ch.val hc hw hs hr hl hn⟩
  · intro off v s r hp hs hr hb
    refine ⟨_, exec_registerWrite hp off v, ?_⟩
    rw [s.regWrite_plain hs hb, s.writeReg_register hr, Nat.mod_eq_of_lt v.isLt]
    refine ⟨⟨rfl, fun o ho => State.word_wrw_ne s _ ?_⟩, State.word_wrw s _ _⟩
    exact fun h => ho (List.mem_singleton.mpr h)
  · intro off s hp hs hr
    rw [exec_readToClear hp, exec_counterLoRead hp, s.regRead_noRegister hs hr]
    exact ⟨rfl, rfl⟩
  · intro off s r w hp hs hr hl hq
    refine ⟨_, exec_readToClear hp off, ?_⟩
    rw [s.regRead_latched hs hr hl hq]
    exact ⟨rfl, rfl⟩
  · rintro ch v s _ _ hp rfl rfl
    rw [exec_proxyAccess hp, ← bit_toNat]
    refine ⟨fun hc => ?_, fun hc hs => ?_, fun hc hs hw => ⟨fun hm => ?_, fun hm => ?_⟩, fun hc hs hw hn => ?_⟩
    · rw [s.proxy_badClass ch.val hc]; rfl
    · rw [s.proxy_outside ch.val hc hs]; rfl
    · rw [s.proxy_write ch.val hc hs hw, if_pos hm]; rfl
    · rw [s.proxy_write ch.val hc hs hw, hm, if_neg Bool.false_ne_true]; rfl
    · rw [s.proxy_read_nonce ch.val hc hs hw hn]; rfl

end Sys2Proof.Machine
end

section
/-! SUPPORT. What no command but POWER_GOOD changes, and the shapes of functions that keep it (01_architecture.md R24). -/

namespace Sys2Proof.Machine

/-- What no command but POWER_GOOD changes: the queue, the latched straps and the latched feed class. -/
def State.fixed (s : State) : List Instr × BitVec 13 × Bool := (s.pending, s.straps, s.feed)

/-- An update of any other fields keeps the three: the form in which `simp` meets the model's `{ s with … }`. -/
@[simp] theorem fixed_mk (s : State) x1 x2 x3 x5 x7 x8 x9 x10 x11 x12 x13 x14 x15 x16 x17 x18 x19 x20 x21 x22 x23 x24 x25 x26
    x27 x28 x29 x30 x31 x32 x33 x34 x35 x36 x37 x38 x39 x40 x41 x42 x43 x44 x45 x46 x47 x48 x49 x50 x51 x52 x53 x54 x55 x56
    x57 x58 x59 x60 x61 x62 :
    (State.mk s.pending x1 x2 x3 s.straps x5 s.feed x7 x8 x9 x10 x11 x12 x13 x14 x15 x16 x17 x18 x19 x20 x21 x22 x23 x24 x25 x26
      x27 x28 x29 x30 x31 x32 x33 x34 x35 x36 x37 x38 x39 x40 x41 x42 x43 x44 x45 x46 x47 x48 x49 x50 x51 x52 x53 x54 x55
      x56 x57 x58 x59 x60 x61 x62).fixed = s.fixed := by
  rw [State.fixed, State.fixed]

/-- What changes the log alone keeps the three. -/
theorem LogOnly.fixed {s t : State} (h : LogOnly s t) : t.fixed = s.fixed := by rw [h.rest, fixed_mk]

@[simp] theorem fixed_ite (c : Prop) [Decidable c] (s t : State) :
    (if c then s else t).fixed = if c then s.fixed else t.fixed := apply_ite State.fixed c s t

theorem fixed_of_ite {c : Prop} [Decidable c] {s t : State} {k : List Instr × BitVec 13 × Bool} (hs : s.fixed = k)
    (ht : t.fixed = k) : (if c then s else t).fixed = k := by
  split
  · exact hs
  · exact ht

@[simp] theorem fst_fixed_ite {β : Type} (c : Prop) [Decidable c] (p q : State × β) :
    (if c then p else q).1.fixed = if c then p.1.fixed else q.1.fixed := apply_ite (fun p => p.1.fixed) c p q

@[simp] theorem foldl_fixed {α : Type} {f : State → α → State} (hf : ∀ s x, (f s x).fixed = s.fixed) (l : List α)
    (s : State) : (l.foldl f s).fixed = s.fixed := by
  induction l generalizing s with
  | nil => rfl
  | cons x l ih => exact (ih (f s x)).trans (hf s x)

@[simp] theorem foldl_fst_fixed {α β : Type} {f : State × β → α → State × β} (hf : ∀ p x, (f p x).1.fixed = p.1.fixed)
    (l : List α) (p : State × β) : (l.foldl f p).1.fixed = p.1.fixed := by
  induction l generalizing p with
  | nil => rfl
  | cons x l ih => exact (ih (f p x)).trans (hf p x)

@[simp] theorem line_fixed_ite (c : Prop) [Decidable c] (p q : Line) :
    (if c then p else q).st.fixed = if c then p.st.fixed else q.st.fixed := apply_ite (fun p => p.st.fixed) c p q

@[simp] theorem copied_fixed_ite (c : Prop) [Decidable c] (p q : Copied) :
    (if c then p else q).st.fixed = if c then p.st.fixed else q.st.fixed := apply_ite (fun p => p.st.fixed) c p q

@[simp] theorem rollRes_fixed_ite (c : Prop) [Decidable c] (p q : RollRes) :
    (if c then p else q).st.fixed = if c then p.st.fixed else q.st.fixed := apply_ite (fun p => p.st.fixed) c p q

@[simp] theorem copied_foldl_fixed {α : Type} {f : Copied → α → Copied} (hf : ∀ p x, (f p x).st.fixed = p.st.fixed)
    (l : List α) (p : Copied) : (l.foldl f p).st.fixed = p.st.fixed := by
  induction l generalizing p with
  | nil => rfl
  | cons x l ih => exact (ih (f p x)).trans (hf p x)

/-- The state after a read of operands, however it ended. -/
def Got.st {α : Type} : Got α → State
  | .ok s _ => s
  | .wait s => s
  | .bad s _ _ => s

@[simp] theorem Got.st_ok {α : Type} (s : State) (v : α) : (Got.ok s v).st = s := rfl
@[simp] theorem Got.st_wait {α : Type} (s : State) : (Got.wait s : Got α).st = s := rfl
@[simp] theorem Got.st_bad {α : Type} (s : State) (c a : Nat) : (Got.bad s c a : Got α).st = s := rfl

@[simp] theorem got_fixed_ite {α : Type} (c : Prop) [Decidable c] (g g' : Got α) :
    (if c then g else g').st.fixed = if c then g.st.fixed else g'.st.fixed := apply_ite (fun g => g.st.fixed) c g g'

theorem Got.fixed_of_ok {α : Type} {g : Got α} {t : State} {v : α} (h : g = .ok t v) : t.fixed = g.st.fixed := by
  rw [h, Got.st_ok]

theorem Got.fixed_of_wait {α : Type} {g : Got α} {t : State} (h : g = .wait t) : t.fixed = g.st.fixed := by
  rw [h, Got.st_wait]

theorem Got.fixed_of_bad {α : Type} {g : Got α} {t : State} {c a : Nat} (h : g = .bad t c a) : t.fixed = g.st.fixed := by
  rw [h, Got.st_bad]

theorem Got.bind_fixed {α β : Type} {g : Got α} {f : State → α → Got β} {k : List Instr × BitVec 13 × Bool}
    (hg : g.st.fixed = k) (hf : ∀ s v, (f s v).st.fixed = s.fixed) : (g.bind f).st.fixed = k := by
  cases g with
  | ok s v => exact (hf s v).trans hg
  | wait s => exact hg
  | bad s c a => exact hg

@[simp] theorem Got.ofRead_fixed (p : ReadBytes) : (Got.ofRead p).st.fixed = p.1.fixed := by
  obtain ⟨s, _ | _⟩ := p <;> rfl

/-- A stroke from `s` keeps `State.fixed`, and so does what it sends at its boundary. -/
def Got.KeepsFixed (s : State) (g : Got Done) : Prop :=
  g.st.fixed = s.fixed ∧ ∀ t x, g = .ok t x → ∀ u, (x.send u).fixed = u.fixed

theorem Got.keepsFixed_ok (s : State) {x : Done} (hx : ∀ u, (x.send u).fixed = u.fixed) : (Got.ok s x).KeepsFixed s := by
  refine ⟨rfl, ?_⟩
  rintro _ _ ⟨⟩
  exact hx

theorem Got.keepsFixed_bad {s t : State} (ht : t.fixed = s.fixed) (c a : Nat) : (Got.bad t c a).KeepsFixed s :=
  ⟨ht, fun _ _ h => nomatch h⟩

theorem Got.keepsFixed_ite {s : State} {c : Prop} [Decidable c] {g g' : Got Done} (h : g.KeepsFixed s) (h' : g'.KeepsFixed s) :
    (if c then g else g').KeepsFixed s := by
  split
  · exact h
  · exact h'

theorem Got.keepsFixed_bind {α : Type} {s : State} {g : Got α} {f : State → α → Got Done} (hg : g.st.fixed = s.fixed)
    (hf : ∀ t v, (f t v).KeepsFixed t) : (g.bind f).KeepsFixed s := by
  cases g with
  | ok t v => exact ⟨(hf t v).1.trans hg, (hf t v).2⟩
  | wait t => exact ⟨hg, fun _ _ h => nomatch h⟩
  | bad t c a => exact ⟨hg, fun _ _ h => nomatch h⟩

/-- The state after an operation on one granule. -/
def TierStep.st : TierStep → State
  | .done s => s
  | .moving s => s
  | .blocked s => s
  | .fail s _ => s

@[simp] theorem TierStep.st_done (s : State) : (TierStep.done s).st = s := rfl
@[simp] theorem TierStep.st_moving (s : State) : (TierStep.moving s).st = s := rfl
@[simp] theorem TierStep.st_blocked (s : State) : (TierStep.blocked s).st = s := rfl
@[simp] theorem TierStep.st_fail (s : State) (o : Nat) : (TierStep.fail s o).st = s := rfl

theorem line_mk_fixed (s : State) (code : Nat) (data : List Byte) (faddr fault : Nat) :
    (Line.mk s code data faddr fault).st.fixed = s.fixed := rfl

/-- The state of a pair that a match has taken apart. -/
theorem fixed_of_eq {β : Type} {p : State × β} {t : State} {b : β} (h : p = (t, b)) : t.fixed = p.1.fixed := by rw [h]

end Sys2Proof.Machine
end

section
/-! SUPPORT. `State.fixed` under the operations of State, the links, the contexts and the fabric. -/

namespace Sys2Proof.Machine

variable (s : State)

/-! ## Operations of State -/

@[simp] theorem State.wrw_fixed (off : Nat) (w : W32) : (s.wrw off w).fixed = s.fixed := by simp [State.wrw]
@[simp] theorem State.wr_fixed (off hi lo v : Nat) : (s.wr off hi lo v).fixed = s.fixed := by simp [State.wr]
@[simp] theorem State.wrb_fixed (off i : Nat) (b : Bool) : (s.wrb off i b).fixed = s.fixed := by simp [State.wrb]
@[simp] theorem State.bump_fixed (off : Nat) (n : Nat) : (s.bump off n).fixed = s.fixed := by simp [State.bump]
@[simp] theorem State.bumpSat_fixed (off : Nat) (n : Nat) : (s.bumpSat off n).fixed = s.fixed := by simp [State.bumpSat]
@[simp] theorem State.wr64_fixed (lo hi v : Nat) : (s.wr64 lo hi v).fixed = s.fixed := by simp [State.wr64]
@[simp] theorem State.setEntry_fixed (g e : Nat) : (s.setEntry g e).fixed = s.fixed := by simp [State.setEntry]
@[simp] theorem State.setTouch_fixed (g : Nat) : (s.setTouch g).fixed = s.fixed := by simp [State.setTouch]
@[simp] theorem State.clearTouch_fixed (g : Nat) : (s.clearTouch g).fixed = s.fixed := by simp [State.clearTouch]
@[simp] theorem State.notify_fixed (a n : Nat) : (s.notify a n).fixed = s.fixed := ((LogOnly.refl s).notify a n).fixed
@[simp] theorem State.putEntry_fixed (g e : Nat) : (s.putEntry g e).fixed = s.fixed := by simp [State.putEntry]
@[simp] theorem State.touch_fixed (g : Nat) : (s.touch g).fixed = s.fixed := by simp [State.touch]
@[simp] theorem State.untouch_fixed (g : Nat) : (s.untouch g).fixed = s.fixed := by simp [State.untouch]
@[simp] theorem State.store_fixed (a : Nat) (bs : List Byte) : (s.store a bs).fixed = s.fixed := by simp [State.store]
@[simp] theorem State.zero_fixed (a n : Nat) : (s.zero a n).fixed = s.fixed := by simp [State.zero]
@[simp] theorem State.storeTier_fixed (a : Nat) (bs : List Byte) : (s.storeTier a bs).fixed = s.fixed := by simp [State.storeTier]
@[simp] theorem State.storeCarve_fixed (a : Nat) (bs : List Byte) : (s.storeCarve a bs).fixed = s.fixed := by
  simp [State.storeCarve]
@[simp] theorem State.flashWrite_fixed (a : Nat) (bs : List Byte) : (s.flashWrite a bs).fixed = s.fixed := by
  simp [State.flashWrite]
@[simp] theorem State.flashErase_fixed (a n : Nat) : (s.flashErase a n).fixed = s.fixed := by simp [State.flashErase]
@[simp] theorem State.flushHeld_fixed : s.flushHeld.fixed = s.fixed := (LogOnly.refl s).flushHeld.fixed
@[simp] theorem State.post_fixed (code : Nat) (args : List Nat) : (s.post code args).fixed = s.fixed :=
  (s.post_logOnly code args).fixed
@[simp] theorem State.postOnce_fixed (code : Nat) (args : List Nat) (k : Nat) : (s.postOnce code args k).fixed = s.fixed :=
  ((LogOnly.refl s).postOnce code args k).fixed
@[simp] theorem State.logWrite_fixed (off : Nat) (v : Nat) (cls : Nat) : (s.logWrite off v cls).fixed = s.fixed := by
  simp [State.logWrite]
@[simp] theorem State.uncorr_fixed (store addr scribe sheet : Nat) : (s.uncorr store addr scribe sheet).fixed = s.fixed := by
  simp [State.uncorr]
@[simp] theorem State.settleLine_fixed (line : Nat) (resid : List Byte) : (s.settleLine line resid).fixed = s.fixed := by
  simp [State.settleLine]
@[simp] theorem State.correct_fixed (line : Nat) (resid : List Byte) (addr : Nat) :
    (s.correct line resid addr).fixed = s.fixed := by simp [State.correct]

@[simp] theorem State.eccLine_fixed (line : Nat) (p : Map Byte) (addr scribe sheet : Nat) :
    (s.eccLine line p addr scribe sheet).1.fixed = s.fixed := by
  simp only [State.eccLine]
  (repeat' split) <;> simp

@[simp] theorem State.ecc_fixed (a n base scribe sheet : Nat) : (s.ecc a n base scribe sheet).1.fixed = s.fixed := by
  simp only [State.ecc]
  (repeat' split) <;> simp

@[simp] theorem State.eccEdges_fixed (a n base scribe sheet : Nat) : (s.eccEdges a n base scribe sheet).1.fixed = s.fixed := by
  simp [State.eccEdges]
@[simp] theorem State.seen_fixed (a n base sheet : Nat) : (s.seen a n base sheet).fixed = s.fixed := by simp [State.seen]
@[simp] theorem State.seenCarve_fixed (a n : Nat) : (s.seenCarve a n).fixed = s.fixed := by simp [State.seenCarve]

@[simp] theorem State.unitPut_fixed (a : Nat) (bs : List Byte) (base : Nat) : (s.unitPut a bs base).fixed = s.fixed := by
  simp only [State.unitPut]
  split <;> (next h => simp [fixed_of_eq h])

@[simp] theorem State.carvePut_fixed (a : Nat) (bs : List Byte) : (s.carvePut a bs).fixed = s.fixed := by simp [State.carvePut]
@[simp] theorem State.correctRange_fixed (a n base : Nat) : (s.correctRange a n base).fixed = s.fixed := by
  simp [State.correctRange]
@[simp] theorem State.healEntry_fixed (g : Nat) : (s.healEntry g).fixed = s.fixed := by simp [State.healEntry]

@[simp] theorem State.seenEntry_fixed (g : Nat) : (s.seenEntry g).fixed = s.fixed := by
  simp only [State.seenEntry]
  split <;> simp

@[simp] theorem State.entryRead_fixed (g sheet : Nat) : (s.entryRead g sheet).1.fixed = s.fixed := by simp [State.entryRead]

@[simp] theorem State.eccTier_fixed (a n sheet : Nat) : (s.eccTier a n sheet).1.fixed = s.fixed := by
  rw [State.eccTier]
  refine foldl_fst_fixed (fun p x => ?_) _ _
  split <;> simp

@[simp] theorem State.eccTouch_fixed (a n sheet : Nat) : (s.eccTouch a n sheet).1.fixed = s.fixed := by simp [State.eccTouch]
@[simp] theorem State.seenTier_fixed (a n sheet : Nat) : (s.seenTier a n sheet).fixed = s.fixed := by simp [State.seenTier]

@[simp] theorem State.readPhys_fixed (a n base scribe sheet : Nat) : (s.readPhys a n base scribe sheet).1.fixed = s.fixed := by
  simp only [State.readPhys]
  split <;> (next h => simp [fixed_of_eq h])

@[simp] theorem State.readTier_fixed (a n sheet : Nat) : (s.readTier a n sheet).1.fixed = s.fixed := by
  simp only [State.readTier]
  split <;> (next h => simp [fixed_of_eq h])

@[simp] theorem State.readCarve_fixed (a n : Nat) : (s.readCarve a n).1.fixed = s.fixed := by simp [State.readCarve]
@[simp] theorem State.recRun_fixed (a tag unit kind : Nat) : (s.recRun a tag unit kind).fixed = s.fixed := by simp [State.recRun]
@[simp] theorem State.recEnd_fixed (a tag unit kind outcome progress faddr : Nat) (abrq : Nat) (base : Nat) :
    (s.recEnd a tag unit kind outcome progress faddr abrq base).fixed = s.fixed := by simp [State.recEnd]
@[simp] theorem State.waited_fixed (since ns : Nat) : (s.waited since ns).fixed = s.fixed := by simp [State.waited]
@[simp] theorem State.draw_fixed : s.draw.fixed = s.fixed := by simp [State.draw]
@[simp] theorem State.answer_fixed (status : Nat) (bs : List Byte) : (s.answer status bs).fixed = s.fixed := by
  simp [State.answer]
@[simp] theorem State.setActive_fixed (k : Nat) (m : Measured) : (s.setActive k m).fixed = s.fixed := by simp [State.setActive]

@[simp] theorem State.activate_fixed (k : Nat) : (s.activate k).fixed = s.fixed := by
  simp only [State.activate]
  split <;> simp

@[simp] theorem State.loadScribeCode_fixed (i : Nat) : (s.loadScribeCode i).fixed = s.fixed := by simp [State.loadScribeCode]

/-! ## Descriptors -/

@[simp] theorem State.mapOp_fixed (k : Nat × Nat) (f : DmaOp → DmaOp) : (s.mapOp k f).fixed = s.fixed := by simp [State.mapOp]
@[simp] theorem State.updOp_fixed (o : DmaOp) : (s.updOp o).fixed = s.fixed := by simp [State.updOp]

/-! ## Flags -/

@[simp] theorem State.writeReg_fixed (off v : Nat) : (s.writeReg off v).fixed = s.fixed := by
  simp only [State.writeReg]
  split <;> simp

@[simp] theorem State.guardedWrite_fixed (ok : Bool) (off v cls : Nat) : (s.guardedWrite ok off v cls).fixed = s.fixed := by
  simp [State.guardedWrite]

@[simp] theorem State.readReg_fixed (off : Nat) (clear : Bool) : (s.readReg off clear).1.fixed = s.fixed := by
  simp only [State.readReg]
  (repeat' split) <;> simp

/-! ## Wire -/

@[simp] theorem State.setPort_fixed (p : Nat) (r : PortRt) : (s.setPort p r).fixed = s.fixed := by simp [State.setPort]
@[simp] theorem State.setPortStat_fixed (p st width lanes : Nat) : (s.setPortStat p st width lanes).fixed = s.fixed := by
  simp [State.setPortStat]
@[simp] theorem State.pumpCount_fixed (p : Nat) : (s.pumpCount p).1.fixed = s.fixed := by simp [State.pumpCount]
@[simp] theorem State.pump_fixed (p : Nat) : (s.pump p).fixed = s.fixed := by simp [State.pump]
@[simp] theorem State.pumpOrNull_fixed (p : Nat) : (s.pumpOrNull p).fixed = s.fixed := by simp [State.pumpOrNull]
@[simp] theorem State.sendVl_fixed (path vl : Nat) (p : Packet) : (s.sendVl path vl p).fixed = s.fixed := by simp [State.sendVl]
@[simp] theorem State.send_fixed (path : Nat) (p : Packet) : (s.send path p).fixed = s.fixed := by simp [State.send]

@[simp] theorem State.sendAny_fixed (p : Packet) : (s.sendAny p).fixed = s.fixed := by
  simp only [State.sendAny]
  split <;> simp

@[simp] theorem State.report_fixed : s.report.fixed = s.fixed := by simp [State.report]
@[simp] theorem State.setSvc_fixed (v : Nat) : (s.setSvc v).fixed = s.fixed := by simp [State.setSvc]
@[simp] theorem State.portsChanged_fixed : s.portsChanged.fixed = s.fixed := by simp [State.portsChanged]
@[simp] theorem State.sendRingmap_fixed : s.sendRingmap.fixed = s.fixed := by simp [State.sendRingmap]
@[simp] theorem State.portChanged_fixed (p : Nat) : (s.portChanged p).fixed = s.fixed := by simp [State.portChanged]

/-! ## Contexts -/

@[simp] theorem State.setSheetState_fixed (i st : Nat) : (s.setSheetState i st).fixed = s.fixed := by simp [State.setSheetState]
@[simp] theorem State.setSheet_fixed (i : Nat) (r : SheetRt) : (s.setSheet i r).fixed = s.fixed := by simp [State.setSheet]
@[simp] theorem State.setQuire_fixed (q : Nat) (r : QuireRt) : (s.setQuire q r).fixed = s.fixed := by simp [State.setQuire]
@[simp] theorem State.setScribe_fixed (n : Nat) (r : ScribeRt) : (s.setScribe n r).fixed = s.fixed := by simp [State.setScribe]
@[simp] theorem State.setCtx_fixed (i c : Nat) (r : CtxRt) : (s.setCtx i c r).fixed = s.fixed := by simp [State.setCtx]

@[simp] theorem State.setQuireState_fixed (q st : Nat) : (s.setQuireState q st).fixed = s.fixed := by
  simp only [State.setQuireState]
  split <;> simp

@[simp] theorem State.setQuires_fixed (i st : Nat) : (s.setQuires i st).fixed = s.fixed := by simp [State.setQuires]
@[simp] theorem State.recSeen_fixed (i c : Nat) : (s.recSeen i c).fixed = s.fixed := by simp [State.recSeen]
@[simp] theorem State.bindSeen_fixed (i c q : Nat) : (s.bindSeen i c q).fixed = s.fixed := by simp [State.bindSeen]
@[simp] theorem State.recPut_fixed (i c o : Nat) (bs : List Byte) : (s.recPut i c o bs).fixed = s.fixed := by simp [State.recPut]
@[simp] theorem State.recWr_fixed (i c o v : Nat) : (s.recWr i c o v).fixed = s.fixed := by simp [State.recWr]
@[simp] theorem State.setCtxState_fixed (i c st : Nat) : (s.setCtxState i c st).fixed = s.fixed := by simp [State.setCtxState]
@[simp] theorem State.bumpGen_fixed (i c : Nat) : (s.bumpGen i c).fixed = s.fixed := by simp [State.bumpGen]
@[simp] theorem State.zeroSheet_fixed (i : Nat) : (s.zeroSheet i).fixed = s.fixed := by simp [State.zeroSheet]
@[simp] theorem State.zeroWaking_fixed (i : Nat) : (s.zeroWaking i).fixed = s.fixed := by simp [State.zeroWaking]
@[simp] theorem State.ringLost_fixed (qn : Nat) : (s.ringLost qn).fixed = s.fixed := by simp [State.ringLost]
@[simp] theorem State.ringsCheck_fixed : s.ringsCheck.fixed = s.fixed := by simp [State.ringsCheck]
@[simp] theorem State.countEnd_fixed (qn outcome : Nat) : (s.countEnd qn outcome).fixed = s.fixed := by simp [State.countEnd]

@[simp] theorem State.writeReady_fixed (o : DmaOp) (n : Nat) : (s.writeReady o n).1.fixed = s.fixed := by
  unfold State.writeReady
  extract_lets a e
  have he : e.1.fixed = s.fixed := by simp [e]
  split
  · exact he
  · split
    · exact he
    · split <;> (next h => simp [fixed_of_eq h, he])

@[simp] theorem State.recTouch_fixed (d : Nat) : (s.recTouch d).fixed = s.fixed := by simp [State.recTouch]
@[simp] theorem State.dmaClose_fixed (o : DmaOp) (outcome faddr abrq : Nat) :
    (s.dmaClose o outcome faddr abrq).fixed = s.fixed := by simp [State.dmaClose]
@[simp] theorem State.endWaiters_fixed : s.endWaiters.fixed = s.fixed := by simp [State.endWaiters]

@[simp] theorem State.dmaStop_fixed (o : DmaOp) (outcome faddr abrq : Nat) (data : Nat) :
    (s.dmaStop o outcome faddr abrq data).fixed = s.fixed := by
  simp only [State.dmaStop]
  split <;> simp

@[simp] theorem State.setPeer_fixed (pos : Nat) (p : Peer) : (s.setPeer pos p).fixed = s.fixed := by simp [State.setPeer]

@[simp] theorem State.launch_fixed (p : Packet) (issuers : List Issuer) (apers : List Nat) :
    (s.launch p issuers apers).fixed = s.fixed := by
  simp only [State.launch]
  (repeat' split) <;> simp

@[simp] theorem State.flushGather_fixed (g : Gather) : (s.flushGather g).fixed = s.fixed := by simp [State.flushGather]

@[simp] theorem State.flushTo_fixed (dst : Nat) : (s.flushTo dst).fixed = s.fixed := by
  simp only [State.flushTo]
  split <;> simp

@[simp] theorem State.flushOf_fixed (f : Issuer → Bool) : (s.flushOf f).fixed = s.fixed := by simp [State.flushOf]

@[simp] theorem State.leave_fixed (i c : Nat) : (s.leave i c).fixed = s.fixed := by
  simp only [State.leave]
  split <;> simp

@[simp] theorem State.beginRestore_fixed (i c : Nat) : (s.beginRestore i c).fixed = s.fixed := by simp [State.beginRestore]
@[simp] theorem State.beginSave_fixed (i c : Nat) : (s.beginSave i c).fixed = s.fixed := by simp [State.beginSave]

@[simp] theorem State.schedule_fixed (i : Nat) : (s.schedule i).fixed = s.fixed := by
  simp only [State.schedule]
  (repeat' split) <;> simp

@[simp] theorem State.stopScribes_fixed (q : Nat) : (s.stopScribes q).fixed = s.fixed := by simp [State.stopScribes]
@[simp] theorem State.dropResident_fixed (i c : Nat) : (s.dropResident i c).fixed = s.fixed := by simp [State.dropResident]
@[simp] theorem State.abortCtxDma_fixed (i c : Nat) : (s.abortCtxDma i c).fixed = s.fixed := by simp [State.abortCtxDma]
@[simp] theorem State.dropArrived_fixed (i c : Nat) : (s.dropArrived i c).fixed = s.fixed := by simp [State.dropArrived]
@[simp] theorem State.tearContext_fixed (i c st : Nat) : (s.tearContext i c st).fixed = s.fixed := by simp [State.tearContext]
@[simp] theorem State.ctxFault_fixed (i c cause scribe f1 f2 : Nat) : (s.ctxFault i c cause scribe f1 f2).fixed = s.fixed := by
  simp [State.ctxFault]
@[simp] theorem State.tellEnd_fixed (o : DmaOp) (outcome faddr : Nat) : (s.tellEnd o outcome faddr).fixed = s.fixed := by
  simp [State.tellEnd]

@[simp] theorem State.dmaEnd_fixed (o : DmaOp) (outcome faddr : Nat) (abrq : Nat) (data : Nat) :
    (s.dmaEnd o outcome faddr abrq data).fixed = s.fixed := by
  simp only [State.dmaEnd]
  split <;> simp

@[simp] theorem State.dmaAck_fixed (k : Nat × Nat) (line status aper : Nat) : (s.dmaAck k line status aper).fixed = s.fixed := by
  simp only [State.dmaAck]
  (repeat' split) <;> simp

@[simp] theorem State.countIssued_fixed (q n : Nat) : (s.countIssued q n).fixed = s.fixed := by simp [State.countIssued]
@[simp] theorem State.quireAck_fixed (x : Issuer) (status aper : Nat) : (s.quireAck x status aper).fixed = s.fixed := by
  simp [State.quireAck]

/-! ## Ductus -/

@[simp] theorem State.setClock_fixed (q : Nat) : (s.setClock q).fixed = s.fixed := by simp [State.setClock]
@[simp] theorem State.firstPoint_fixed (q : Nat) : (s.firstPoint q).fixed = s.fixed := by simp [State.firstPoint]
@[simp] theorem State.setClocks_fixed : s.setClocks.fixed = s.fixed := by simp [State.setClocks]
@[simp] theorem State.setRails_fixed : s.setRails.fixed = s.fixed := by simp [State.setRails]
@[simp] theorem State.resumePoint_fixed (q : Nat) : (s.resumePoint q).fixed = s.fixed := by simp [State.resumePoint]
@[simp] theorem State.startPoints_fixed (l : List Nat) : (s.startPoints l).fixed = s.fixed := by simp [State.startPoints]

/-! ## Fabric -/

@[simp] theorem State.touchRange_fixed (a n : Nat) : (s.touchRange a n).fixed = s.fixed := by simp [State.touchRange]

@[simp] theorem State.winWrite_fixed (w : WinEnt) (o : Nat) (bs : List Byte) : (s.winWrite w o bs).fixed = s.fixed := by
  simp only [State.winWrite]
  split <;> simp

@[simp] theorem State.winEcc_fixed (w : WinEnt) (o n : Nat) : (s.winEcc w o n).1.fixed = s.fixed := by
  simp only [State.winEcc]
  split <;> simp

@[simp] theorem State.winCheck_fixed (src win o n need : Nat) (write rd : Bool) :
    (s.winCheck src win o n need write rd).1.fixed = s.fixed := by
  simp only [State.winCheck]
  split <;> simp

@[simp] theorem State.winPut_fixed (win o : Nat) (bs : List Byte) : (s.winPut win o bs).fixed = s.fixed := by
  simp only [State.winPut]
  split <;> simp

@[simp] theorem State.winGet_fixed (win o n : Nat) : (s.winGet win o n).1.fixed = s.fixed := by
  simp only [State.winGet]
  split <;> simp

@[simp] theorem State.applyLoad_fixed (p : Packet) (n : Nat) : (s.applyLoad p n).1.fixed = s.fixed := by simp [State.applyLoad]
@[simp] theorem State.applyStore8_fixed (p : Packet) : (s.applyStore8 p).1.fixed = s.fixed := by simp [State.applyStore8]
@[simp] theorem State.applyLine_fixed (src win o : Nat) (bs : List Byte) : (s.applyLine src win o bs).1.fixed = s.fixed := by
  simp [State.applyLine]
@[simp] theorem State.readLine_fixed (src win o : Nat) : (s.readLine src win o).1.fixed = s.fixed := by simp [State.readLine]

@[simp] theorem State.applyBulkw_fixed (src win : Nat) (n : List (List Byte)) (m : Nat) (l : Nat) (s : State) :
    (State.applyBulkw src win n m l s).1.fixed = s.fixed := by
  induction n generalizing m l s with
  | nil => rfl
  | cons g n ih => rw [State.applyBulkw]; simp [ih]

@[simp] theorem State.applyBulkr_fixed (src win : Nat) (n : Nat) (m : Nat) (l : List (List Byte)) (s : State) :
    (State.applyBulkr src win n m l s).1.fixed = s.fixed := by
  induction n generalizing m l s with
  | zero => rfl
  | succ n ih => rw [State.applyBulkr]; simp [ih]

@[simp] theorem State.applyEachW_fixed (p : Packet) : (s.applyEachW p).1.fixed = s.fixed := by simp [State.applyEachW]
@[simp] theorem State.applyEachR_fixed (p : Packet) : (s.applyEachR p).1.fixed = s.fixed := by simp [State.applyEachR]
@[simp] theorem State.applyAtomic_fixed (p : Packet) : (s.applyAtomic p).1.fixed = s.fixed := by simp [State.applyAtomic]
@[simp] theorem State.applyFlag_fixed (p : Packet) : (s.applyFlag p).1.fixed = s.fixed := by simp [State.applyFlag]

@[simp] theorem State.applyOp_fixed (p : Packet) : (s.applyOp p).1.fixed = s.fixed := by
  simp only [State.applyOp]
  split <;> simp

@[simp] theorem State.applyMem_fixed (p : Packet) : (s.applyMem p).1.fixed = s.fixed := by
  simp only [State.applyMem]
  (repeat' split) <;> simp

@[simp] theorem State.countIn_fixed (r : Reply) : (s.countIn r).fixed = s.fixed := by simp [State.countIn]
@[simp] theorem State.quillAck_fixed (num opc target status aper : Nat) :
    (s.quillAck num opc target status aper).fixed = s.fixed := by simp [State.quillAck]
@[simp] theorem State.setMirr_fixed (j : Nat) (m : MirrorRt) : (s.setMirr j m).fixed = s.fixed := by simp [State.setMirr]

@[simp] theorem State.mirrorAck_fixed (x : Issuer) (ok : Bool) : (s.mirrorAck x ok).fixed = s.fixed := by
  simp only [State.mirrorAck]
  split <;> simp

@[simp] theorem State.unitAck_fixed (x : Issuer) (target status : Nat) : (s.unitAck x target status).fixed = s.fixed := by
  simp [State.unitAck]

@[simp] theorem State.tell_fixed (x : Issuer) (write : Bool) (opc target status aper : Nat) (data : List Byte) :
    (s.tell x write opc target status aper data).fixed = s.fixed := by
  simp only [State.tell]
  (repeat' split) <;> simp

@[simp] theorem State.bulkRec_fixed (req outcome lines abrq : Nat) : (s.bulkRec req outcome lines abrq).fixed = s.fixed := by
  simp [State.bulkRec]
@[simp] theorem State.bulkEnd_fixed (b : BulkJob) (outcome lines : Nat) (abrq : Nat) :
    (s.bulkEnd b outcome lines abrq).fixed = s.fixed := by simp [State.bulkEnd]

@[simp] theorem State.bulkPut_fixed (tier : Bool) (sheet : Nat) (n : List (List Byte)) (m : Nat) (l : Nat) (s : State) :
    (State.bulkPut tier sheet n m l s).1.fixed = s.fixed := by
  induction n generalizing m l s with
  | nil => rfl
  | cons g n ih => rw [State.bulkPut]; simp [ih]

@[simp] theorem State.bulkReply_fixed (b : BulkJob) (status count : Nat) (gran : List (List Byte)) :
    (s.bulkReply b status count gran).fixed = s.fixed := by
  simp only [State.bulkReply]
  (repeat' split) <;> simp

@[simp] theorem State.finish_fixed (o : OutOp) (status imm : Nat) (gran : List (List Byte)) :
    (s.finish o status imm gran).fixed = s.fixed := by
  simp only [State.finish]
  split <;> simp

@[simp] theorem State.resend_fixed (o : OutOp) (count : Bool) : (s.resend o count).fixed = s.fixed := by
  simp only [State.resend]
  (repeat' split) <;> simp

@[simp] theorem State.badPayload_fixed : s.badPayload.fixed = s.fixed := by simp [State.badPayload]

@[simp] theorem State.taken_fixed (p : Packet) {f : State → State} (hf : ∀ s, (f s).fixed = s.fixed) :
    (s.taken p f).fixed = s.fixed := by
  simp [State.taken, hf]

@[simp] theorem State.rxBadRdata_fixed (p : Packet) : (s.rxBadRdata p).fixed = s.fixed := by
  simp only [State.rxBadRdata]
  split <;> simp

@[simp] theorem State.rxRefuse_fixed (p : Packet) : (s.rxRefuse p).fixed = s.fixed := by simp [State.rxRefuse]
@[simp] theorem State.selfApply_fixed (o : OutOp) : (s.selfApply o).fixed = s.fixed := by simp [State.selfApply]

@[simp] theorem State.putOn_fixed (o : OutOp) : (s.putOn o).fixed = s.fixed := by
  simp only [State.putOn]
  (repeat' split) <;> simp

@[simp] theorem State.releaseWaiting_fixed : s.releaseWaiting.fixed = s.fixed := by simp [State.releaseWaiting]
@[simp] theorem State.tellLost_fixed (write : Bool) (p : Packet) (xs : List (Issuer × Nat)) :
    (s.tellLost write p xs).fixed = s.fixed := by simp [State.tellLost]
@[simp] theorem State.issueWrite_fixed (p : Packet) (xs : List Issuer) (apers : List Nat) :
    (s.issueWrite p xs apers).fixed = s.fixed := by simp [State.issueWrite]
@[simp] theorem State.issueRead_fixed (p : Packet) (xs : List Issuer) (apers : List Nat) :
    (s.issueRead p xs apers).fixed = s.fixed := by simp [State.issueRead]

@[simp] theorem State.rxAck_fixed (p : Packet) : (s.rxAck p).fixed = s.fixed := by
  simp only [State.rxAck]
  (repeat' split) <;> simp

@[simp] theorem State.rxRdata_fixed (p : Packet) : (s.rxRdata p).fixed = s.fixed := by
  simp only [State.rxRdata]
  (repeat' split) <;> simp

@[simp] theorem State.gatherStore_fixed (p : Packet) (x : Issuer × Nat) : (s.gatherStore p x).fixed = s.fixed := by
  simp only [State.gatherStore]
  split <;> simp

@[simp] theorem State.gatherLoad_fixed (p : Packet) (x : Issuer) (aper len : Nat) :
    (s.gatherLoad p x aper len).fixed = s.fixed := by simp [State.gatherLoad]
@[simp] theorem State.issue_fixed (p : Packet) (x : Issuer) (aper len : Nat) (nogather : Bool) :
    (s.issue p x aper len nogather).fixed = s.fixed := by simp [State.issue]

@[simp] theorem State.seenImport_fixed (sheet : Option Nat) (aper : Nat) : (s.seenImport sheet aper).fixed = s.fixed := by
  simp only [State.seenImport]
  split <;> simp

@[simp] theorem State.loseOps_fixed (ops : List OutOp) : (s.loseOps ops).fixed = s.fixed := by
  rw [State.loseOps]
  refine foldl_fixed (fun t x => ?_) _ _
  split <;> simp

@[simp] theorem State.markLost_fixed (pos : Nat) : (s.markLost pos).fixed = s.fixed := by simp [State.markLost]
@[simp] theorem State.clearLost_fixed (pos : Nat) : (s.clearLost pos).fixed = s.fixed := by simp [State.clearLost]

/-! ## Commands of the fabric -/

@[simp] theorem State.windowOpen_fixed (w : Nat) : (s.windowOpen w).fixed = s.fixed := by simp [State.windowOpen]
@[simp] theorem State.windowClose_fixed (w : Nat) : (s.windowClose w).fixed = s.fixed := by simp [State.windowClose]

@[simp] theorem State.windowCommand_fixed (v cls : Nat) : (s.windowCommand v cls).fixed = s.fixed := by
  simp only [State.windowCommand]
  (repeat' split) <;> simp

@[simp] theorem State.apertureError_fixed (aper opc : Nat) : (s.apertureError aper opc).fixed = s.fixed := by
  simp [State.apertureError]
@[simp] theorem State.quillIssue_fixed : s.quillIssue.1.fixed = s.fixed := by simp [State.quillIssue]

@[simp] theorem State.quillOp_fixed (a opc n need : Nat) {f : State → Nat → State}
    (hf : ∀ s e, (f s e).fixed = s.fixed) : (s.quillOp a opc n need f).fixed = s.fixed := by
  simp [State.quillOp, hf]

@[simp] theorem State.quillWrite_fixed (e a opc : Nat) (f : Packet → Packet) : (s.quillWrite e a opc f).fixed = s.fixed := by
  simp [State.quillWrite]
@[simp] theorem State.quillStore8_fixed (a : Nat) (be : BitVec 8) (w : List Byte) : (s.quillStore8 a be w).fixed = s.fixed := by
  simp [State.quillStore8]
@[simp] theorem State.ringFail_fixed (k code qn base : Nat) : (s.ringFail k code qn base).fixed = s.fixed := by
  simp [State.ringFail]

@[simp] theorem State.ringHead_fixed (k code base entries cons : Nat) (a : Nat) (n : Nat) :
    (s.ringHead k code base entries cons a n).st.fixed = s.fixed := by
  simp only [State.ringHead]
  (repeat' split) <;> simp

@[simp] theorem State.bulkHead_fixed : s.bulkHead.st.fixed = s.fixed := by
  simp only [State.bulkHead]
  split <;> simp

@[simp] theorem State.recTake_fixed (a crec tag unit kind : Nat) : (s.recTake a crec tag unit kind).1.fixed = s.fixed := by
  simp only [State.recTake]
  split <;> simp

@[simp] theorem State.bulkGet_fixed (tier : Bool) (sheet : Nat) (n : Nat) (m : Nat) (l : List (List Byte)) (s : State) :
    (State.bulkGet tier sheet n m l s).1.fixed = s.fixed := by
  induction n generalizing m l s with
  | zero => rfl
  | succ n ih =>
    rw [State.bulkGet]
    cases tier <;> simp [ih]

@[simp] theorem State.bulkStart_fixed (r : Nat) : (s.bulkStart r).fixed = s.fixed := by simp [State.bulkStart]

@[simp] theorem State.bulkAbort_fixed (r : Nat) : (s.bulkAbort r).1.fixed = s.fixed := by
  simp only [State.bulkAbort]
  (repeat' split) <;> simp

@[simp] theorem State.bulkStep_fixed (op : Nat) : (s.bulkStep op).fixed = s.fixed := by
  simp only [State.bulkStep]
  split
  · simp
  · split
    · simp
    · split
      · simp
      · split
        · simp
        · split
          · simp
          · split
            · split <;> (next h => simp [fixed_of_eq h])
            · simp

@[simp] theorem State.fopsWrite_fixed (off v cls : Nat) : (s.fopsWrite off v cls).fixed = s.fixed := by
  simp only [State.fopsWrite]
  (repeat' split) <;> simp

end Sys2Proof.Machine
end

section
/-! SUPPORT. `State.fixed` under sheets, DMA and the strokes that compute. -/

namespace Sys2Proof.Machine

variable (s : State)

/-! ## Sheets -/

@[simp] theorem State.lose_fixed (a n : Nat) : (s.lose a n).fixed = s.fixed := by simp [State.lose]
@[simp] theorem State.loseWells_fixed (q : Nat) : (s.loseWells q).fixed = s.fixed := by simp [State.loseWells]
@[simp] theorem State.gateSlices_fixed (mask : Nat) : (s.gateSlices mask).fixed = s.fixed := by simp [State.gateSlices]
@[simp] theorem State.gateQuire_fixed (q : Nat) : (s.gateQuire q).fixed = s.fixed := by simp [State.gateQuire]
@[simp] theorem State.wakeQuire_fixed (i q : Nat) : (s.wakeQuire i q).fixed = s.fixed := by simp [State.wakeQuire]
@[simp] theorem State.clearRegs_fixed (lo n : Nat) : (s.clearRegs lo n).fixed = s.fixed := by simp [State.clearRegs]
@[simp] theorem State.clearCounters_fixed (i : Nat) : (s.clearCounters i).fixed = s.fixed := by simp [State.clearCounters]
@[simp] theorem State.scmdStat_fixed (i r : Nat) : (s.scmdStat i r).fixed = s.fixed := by simp [State.scmdStat]
@[simp] theorem State.takeShape_fixed (i qm sl after : Nat) : (s.takeShape i qm sl after).fixed = s.fixed := by
  simp [State.takeShape]
@[simp] theorem State.assign_fixed (i : Nat) : (s.assign i).fixed = s.fixed := by simp [State.assign]
@[simp] theorem State.reshape_fixed (i : Nat) : (s.reshape i).fixed = s.fixed := by simp [State.reshape]
@[simp] theorem State.release_fixed (i : Nat) : (s.release i).fixed = s.fixed := by simp [State.release]
@[simp] theorem State.goOff_fixed (i c : Nat) : (s.goOff i c).fixed = s.fixed := by simp [State.goOff]
@[simp] theorem State.stopCtx_fixed (i c : Nat) : (s.stopCtx i c).fixed = s.fixed := by simp [State.stopCtx]

@[simp] theorem State.drainSweep_fixed (i : Nat) : (s.drainSweep i).fixed = s.fixed := by
  simp only [State.drainSweep]
  (repeat' split) <;> simp

@[simp] theorem State.drain_fixed (i : Nat) : (s.drain i).fixed = s.fixed := by simp [State.drain]
@[simp] theorem State.reopen_fixed (i : Nat) : (s.reopen i).fixed = s.fixed := by simp [State.reopen]
@[simp] theorem State.tearSheet_fixed (i : Nat) : (s.tearSheet i).fixed = s.fixed := by simp [State.tearSheet]
@[simp] theorem State.teardown_fixed (i : Nat) : (s.teardown i).fixed = s.fixed := by simp [State.teardown]

@[simp] theorem State.sheetCommand_fixed (i v : Nat) : (s.sheetCommand i v).fixed = s.fixed := by
  simp only [State.sheetCommand]
  split <;> simp

@[simp] theorem State.contextStart_fixed (i c cls : Nat) : (s.contextStart i c cls).fixed = s.fixed := by
  simp [State.contextStart]
@[simp] theorem State.contextStop_fixed (i c cls : Nat) : (s.contextStop i c cls).fixed = s.fixed := by simp [State.contextStop]
@[simp] theorem State.contextReset_fixed (i c cls : Nat) : (s.contextReset i c cls).fixed = s.fixed := by
  simp [State.contextReset]

@[simp] theorem State.contextCommand_fixed (i c v cls : Nat) : (s.contextCommand i c v cls).fixed = s.fixed := by
  simp only [State.contextCommand]
  split <;> simp

@[simp] theorem State.saveReads_fixed (i : Nat) : (s.saveReads i).1.fixed = s.fixed := by simp [State.saveReads]
@[simp] theorem State.restoreReads_fixed (i c : Nat) : (s.restoreReads i c).1.fixed = s.fixed := by simp [State.restoreReads]
@[simp] theorem State.saveScribe_fixed (i c n q k : Nat) : (s.saveScribe i c n q k).fixed = s.fixed := by simp [State.saveScribe]
@[simp] theorem State.saveQuire_fixed (i c n q : Nat) : (s.saveQuire i c n q).fixed = s.fixed := by simp [State.saveQuire]

@[simp] theorem State.saveComplete_fixed (i : Nat) : (s.saveComplete i).fixed = s.fixed := by
  rw [State.saveComplete]
  split
  · rfl
  · split
    · simp
    · split
      · next h => simp [fixed_of_eq h]
      · next h => simp [fixed_of_eq h]

@[simp] theorem State.loadScribe_fixed (i c n q k : Nat) : (s.loadScribe i c n q k).fixed = s.fixed := by simp [State.loadScribe]
@[simp] theorem State.loadQuire_fixed (i c n q : Nat) : (s.loadQuire i c n q).fixed = s.fixed := by simp [State.loadQuire]
@[simp] theorem State.beginQuire_fixed (i c q : Nat) : (s.beginQuire i c q).fixed = s.fixed := by simp [State.beginQuire]
@[simp] theorem State.restartDma_fixed (i c : Nat) : (s.restartDma i c).fixed = s.fixed := by simp [State.restartDma]

@[simp] theorem State.restoreComplete_fixed (i : Nat) : (s.restoreComplete i).fixed = s.fixed := by
  simp only [State.restoreComplete]
  split <;> simp

@[simp] theorem State.wakeWaiting_fixed (line : Nat) : (s.wakeWaiting line).fixed = s.fixed := by simp [State.wakeWaiting]
@[simp] theorem State.shtWrite_fixed (off v cls : Nat) : (s.shtWrite off v cls).fixed = s.fixed := by simp [State.shtWrite]
@[simp] theorem State.memSheetWrite_fixed (off v cls : Nat) : (s.memSheetWrite off v cls).fixed = s.fixed := by
  simp [State.memSheetWrite]

/-! ## DMA -/

@[simp] theorem State.aperAsk_fixed (o : DmaOp) (n : Nat) (m : Nat) (s : State) : (State.aperAsk o n m s).fixed = s.fixed := by
  induction n generalizing m s with
  | zero => rfl
  | succ n ih => rw [State.aperAsk]; simp [ih]

@[simp] theorem State.askLines_fixed (o : DmaOp) (w a n : Nat) : (s.askLines o w a n).fixed = s.fixed := by simp [State.askLines]

@[simp] theorem State.aperLine_fixed (o : DmaOp) (a : Nat) : (s.aperLine o a).st.fixed = s.fixed := by
  simp only [State.aperLine]
  (repeat' split) <;> simp

@[simp] theorem State.dmaRead_fixed (o : DmaOp) (w a : Nat) : (s.dmaRead o w a).st.fixed = s.fixed := by
  rw [State.dmaRead]
  split
  · split
    · rfl
    · rw [line_mk_fixed, State.ecc_fixed]
  · split <;> simp
  · simp
  · split
    · rfl
    · rw [line_mk_fixed, State.ecc_fixed]

@[simp] theorem State.lineDone_fixed (o : DmaOp) (counts : Bool) : (s.lineDone o counts).fixed = s.fixed := by
  simp [State.lineDone]
@[simp] theorem State.aperIssue_fixed (o : DmaOp) (w : WaitingLine) : (s.aperIssue o w).fixed = s.fixed := by
  simp [State.aperIssue]

@[simp] theorem State.dmaWrite_fixed (o : DmaOp) (counts : Bool) (src w a : Nat) (bs : List Byte) :
    (s.dmaWrite o counts src w a bs).st.fixed = s.fixed := by
  simp only [State.dmaWrite]
  (repeat' split) <;> simp

@[simp] theorem State.dmaPump_fixed (k : Nat × Nat) : (s.dmaPump k).fixed = s.fixed := by
  rw [State.dmaPump]
  refine foldl_fixed (fun t x => ?_) _ _
  split <;> simp

@[simp] theorem State.pumpDma_fixed : s.pumpDma.fixed = s.fixed := by simp [State.pumpDma]

@[simp] theorem State.moveLines_fixed (o : DmaOp) (sw dw : Nat) (n : Nat) (m : Nat) (l : Nat) (s : State) :
    (State.moveLines o sw dw n m l s).st.fixed = s.fixed := by
  induction n generalizing m l s with
  | zero => rfl
  | succ n ih => rw [State.moveLines]; simp [ih]

@[simp] theorem State.moveRun_fixed (o : DmaOp) (sw dw n a b : Nat) : (s.moveRun o sw dw n a b).st.fixed = s.fixed := by
  simp only [State.moveRun]
  (repeat' split) <;> simp

@[simp] theorem State.readLines_fixed (o : DmaOp) (sw : Nat) (n : Nat) (m : Nat) (l : List Byte) (s : State) :
    (State.readLines o sw n m l s).st.fixed = s.fixed := by
  induction n generalizing m l s with
  | zero => rfl
  | succ n ih => rw [State.readLines]; simp [ih]

@[simp] theorem State.writeLines_fixed (o : DmaOp) (dw : Nat) (counts : Bool) (n : Nat) (m : Nat) (l : Nat) (j : List Byte)
    (s : State) :
    (State.writeLines o dw counts n m l j s).st.fixed = s.fixed := by
  induction n generalizing m l j s with
  | zero => rfl
  | succ n ih => rw [State.writeLines]; simp [ih]

@[simp] theorem State.noteDmaTer_fixed (o : DmaOp) (a : Nat) (f : List Byte) : (s.noteDmaTer o a f).fixed = s.fixed := by
  simp [State.noteDmaTer]
@[simp] theorem State.moveFolio_fixed (o : DmaOp) (sw dw a b : Nat) (sstride dstride : Nat) :
    (s.moveFolio o sw dw a b sstride dstride).st.fixed = s.fixed := by simp [State.moveFolio]

@[simp] theorem State.inPool_fixed (i base pg : Nat) : (s.inPool i base pg).1.fixed = s.fixed := by
  rw [State.inPool]
  split
  · rfl
  · split <;> (next h => exact (fixed_of_eq h).trans (State.readTier_fixed ..))

@[simp] theorem State.dmaNum_fixed (o : DmaOp) (a n : Nat) : (s.dmaNum o a n).1.fixed = s.fixed := by
  rw [State.dmaNum]
  split
  · rfl
  · split <;> (next h => simp [fixed_of_eq h])

@[simp] theorem State.walkPages_fixed (o : DmaOp) (plist : Nat) (n : List Nat) (m : List (Nat × Nat)) (s : State) :
    (State.walkPages o plist n m s).1.fixed = s.fixed := by
  induction n generalizing m s with
  | nil => rfl
  | cons i t ih =>
    rw [State.walkPages]
    split <;> (next h => simp [ih, fixed_of_eq h])

@[simp] theorem State.walkSlip_fixed (o : DmaOp) : (s.walkSlip o).1.fixed = s.fixed := by
  simp only [State.walkSlip]
  split <;> (next h => simp [fixed_of_eq h])

@[simp] theorem State.walkRubric_fixed (o : DmaOp) (rlist : Nat) : (s.walkRubric o rlist).1.fixed = s.fixed := by
  rw [State.walkRubric]
  split
  · next h => simp [fixed_of_eq h]
  · next h =>
    split
    · simp [fixed_of_eq h]
    · split <;> (next h' => simp [fixed_of_eq h', fixed_of_eq h])

@[simp] theorem State.walkStart_fixed (o : DmaOp) : (s.walkStart o).1.fixed = s.fixed := by
  rw [State.walkStart]
  split
  · next h => simp [fixed_of_eq h]
  · next h =>
    dsimp only
    split
    · next h' => simp [fixed_of_eq h', fixed_of_eq h]
    · next h' =>
      split
      · simp [fixed_of_eq h', fixed_of_eq h]
      · split <;> (next h'' => simp [fixed_of_eq h'', fixed_of_eq h', fixed_of_eq h])

@[simp] theorem State.moveUnit_fixed (o : DmaOp) : (s.moveUnit o).st.fixed = s.fixed := by
  simp only [State.moveUnit]
  split
  · simp
  · split <;> (next h => simp [fixed_of_eq h])
  · simp
  · simp

@[simp] theorem State.moveUnits_fixed (n : Nat) (m : DmaOp) (s : State) : (State.moveUnits n m s).fixed = s.fixed := by
  induction n generalizing m s with
  | zero => rfl
  | succ n ih => rw [State.moveUnits]; simp [ih]

@[simp] theorem State.qSeen_fixed (qn a : Nat) : (s.qSeen qn a).fixed = s.fixed := by simp [State.qSeen]
@[simp] theorem State.dmaTake_fixed (qn op : Nat) : (s.dmaTake qn op).fixed = s.fixed := by simp [State.dmaTake]
@[simp] theorem State.dmaDrop_fixed (o : DmaOp) : (s.dmaDrop o).fixed = s.fixed := by simp [State.dmaDrop]
@[simp] theorem State.recRefuse_fixed (o : DmaOp) (cause : Nat) : (s.recRefuse o cause).fixed = s.fixed := by
  simp [State.recRefuse]
@[simp] theorem State.cancelGroup_fixed (sheet key : Nat) (by_ : Option (Nat × Nat)) (quill : Bool) :
    (s.cancelGroup sheet key by_ quill).fixed = s.fixed := by simp [State.cancelGroup]
@[simp] theorem State.skipOp_fixed (o : DmaOp) : (s.skipOp o).fixed = s.fixed := by simp [State.skipOp]

@[simp] theorem State.dmaAbort_fixed (o : DmaOp) : (s.dmaAbort o).1.fixed = s.fixed := by
  simp only [State.dmaAbort]
  (repeat' split) <;> simp

@[simp] theorem State.dmaActed_fixed (o : DmaOp) : (s.dmaActed o).fixed = s.fixed := by simp [State.dmaActed]

@[simp] theorem State.dmaBegin_fixed (o : DmaOp) : (s.dmaBegin o).fixed = s.fixed := by
  simp only [State.dmaBegin]
  split
  · split <;> (next h => simp [fixed_of_eq h])
  · simp
  · split <;> (next h => simp [fixed_of_eq h])
  · simp
  · simp
  · rfl

@[simp] theorem State.dmaStart_fixed (o : DmaOp) (engine : Nat) : (s.dmaStart o engine).fixed = s.fixed := by
  simp [State.dmaStart]

@[simp] theorem State.dmaStartNext_fixed (qn op : Nat) : (s.dmaStartNext qn op).fixed = s.fixed := by
  simp only [State.dmaStartNext]
  (repeat' split) <;> simp

@[simp] theorem State.dmaRun_fixed (qn op n k : Nat) : (s.dmaRun qn op n k).fixed = s.fixed := by
  simp only [State.dmaRun]
  split <;> simp

@[simp] theorem State.readyStep_fixed (o : DmaOp) : (s.readyStep o).fixed = s.fixed := by simp [State.readyStep]

@[simp] theorem State.dmaLast_fixed (o : DmaOp) : (s.dmaLast o).st.fixed = s.fixed := by
  simp only [State.dmaLast]
  (repeat' split) <;> simp

@[simp] theorem State.dmaComplete_fixed (o : DmaOp) : (s.dmaComplete o).fixed = s.fixed := by
  simp only [State.dmaComplete]
  split <;> simp

@[simp] theorem State.qcfgWrite_fixed (qn v cls : Nat) : (s.qcfgWrite qn v cls).fixed = s.fixed := by simp [State.qcfgWrite]
@[simp] theorem State.dmaWriteReg_fixed (off v cls : Nat) : (s.dmaWriteReg off v cls).fixed = s.fixed := by
  simp [State.dmaWriteReg]

/-! ## Operands and the stroke -/

@[simp] theorem State.seek_fixed (i k : Nat) (n : Nat) (m : Nat) (s : State) : (State.seek i k n m s).st.fixed = s.fixed := by
  induction n generalizing m s with
  | zero => rfl
  | succ n ih =>
    rw [State.seek]
    split
    · rfl
    · split
      · next h => exact (fixed_of_eq h).trans (State.readTier_fixed ..)
      · next h =>
        have ht := (fixed_of_eq h).trans (State.readTier_fixed ..)
        dsimp only
        split
        · exact ht
        · split
          · exact ht
          · rw [ih, ht]

@[simp] theorem State.loadLine_fixed (r : Run) (e a : Nat) : (s.loadLine r e a).fixed = s.fixed := by simp [State.loadLine]

@[simp] theorem State.askStroke_fixed (r : Run) (e : Nat) (n : Nat) (m : Nat) (s : State) :
    (State.askStroke r e n m s).fixed = s.fixed := by
  induction n generalizing m s with
  | zero => rfl
  | succ n ih => rw [State.askStroke]; simp [ih]

@[simp] theorem State.keep_fixed (r : Run) (space a n : Nat) (b : List Byte) : (s.keep r space a n b).fixed = s.fixed := by
  simp [State.keep]

@[simp] theorem State.readOnce_fixed (r : Run) (space a n : Nat) {f : State → Got (List Byte)}
    (hf : ∀ s, (f s).st.fixed = s.fixed) : (s.readOnce r space a n f).st.fixed = s.fixed := by
  rw [State.readOnce]
  split
  · rfl
  · split
    · next h => simp [← hf s, h]
    · exact hf s

@[simp] theorem State.readOp_fixed (r : Run) (space a n : Nat) : (s.readOp r space a n).st.fixed = s.fixed := by
  simp only [State.readOp]
  (repeat' split) <;> simp

@[simp] theorem State.readFolio_fixed (r : Run) (space a : Nat) : (s.readFolio r space a).st.fixed = s.fixed := by
  refine Got.bind_fixed (by simp) fun t h => ?_
  split
  · rfl
  · exact Got.bind_fixed (by simp) fun _ _ => rfl

@[simp] theorem State.readFolios_fixed (r : Run) (space : Nat) (stride : Nat) (n : Nat) (m : Nat) (l : List FolioAt) (s : State) :
    (State.readFolios r space stride n m l s).st.fixed = s.fixed := by
  induction n generalizing m l s with
  | zero => rfl
  | succ n ih => exact Got.bind_fixed (by simp) fun t f => ih ..

@[simp] theorem State.readPacked_fixed (r : Run) (space : Nat) (n : Nat) (m : Nat) (l : List FolioAt) (s : State) :
    (State.readPacked r space n m l s).st.fixed = s.fixed := by
  induction n generalizing m l s with
  | zero => rfl
  | succ n ih => exact Got.bind_fixed (by simp) fun t f => ih ..

@[simp] theorem State.readColumn_fixed (r : Run) (space a : Nat) : (s.readColumn r space a).st.fixed = s.fixed := by
  exact Got.bind_fixed (by simp) fun _ _ => rfl
@[simp] theorem State.noteTer_fixed (r : Run) (fs : List FolioAt) : (s.noteTer r fs).fixed = s.fixed := by simp [State.noteTer]

@[simp] theorem State.sampleMask_fixed (i c : Nat) (acts : List Nat) : (s.sampleMask i c acts).1.fixed = s.fixed := by
  rw [State.sampleMask]
  split
  · rfl
  · refine foldl_fst_fixed (fun p x => ?_) _ _
    split
    · rfl
    · split <;> (next h => simp [fixed_of_eq h])

@[simp] theorem State.readRows_fixed (r : Run) : (s.readRows r).st.fixed = s.fixed := by
  rw [State.readRows]
  split
  · rfl
  · split
    · rfl
    · refine Got.bind_fixed (by simp) fun t b => ?_
      split <;> (next h => simp [fixed_of_eq h])

@[simp] theorem State.recipeWord_fixed (r : Run) : (s.recipeWord r).st.fixed = s.fixed := by
  refine Got.bind_fixed ?_ fun _ _ => rfl
  simp

@[simp] theorem State.useRecipe_fixed (r : Run) (fixed : Option Nat) : (s.useRecipe r fixed).st.fixed = s.fixed := by
  refine Got.bind_fixed (by simp) fun t w => ?_
  simp

@[simp] theorem State.countFolio_fixed (i slot : Nat) (blot : Bool) : (s.countFolio i slot blot).fixed = s.fixed := by
  simp [State.countFolio]

@[simp] theorem State.outBad_fixed (r : Run) (o : Out) : (s.outBad r o).1.fixed = s.fixed := by
  simp only [State.outBad]
  split <;> simp

@[simp] theorem State.strokeWrite_fixed (r : Run) (opc a : Nat) (f : Packet → Packet) :
    (s.strokeWrite r opc a f).fixed = s.fixed := by simp [State.strokeWrite]
@[simp] theorem State.aperOut_fixed (r : Run) (l : Nat × List Byte × List Bool) : (s.aperOut r l).fixed = s.fixed := by
  simp [State.aperOut]

@[simp] theorem State.putOut_fixed (r : Run) (o : Out) : (s.putOut r o).fixed = s.fixed := by
  simp only [State.putOut]
  split <;> simp

@[simp] theorem Done.none_keepsFixed : (Got.ok s Done.none).KeepsFixed s := Got.keepsFixed_ok s fun _ => rfl
@[simp] theorem State.quireWatch_fixed (q : Nat) : (s.quireWatch q).fixed = s.fixed := by simp [State.quireWatch]

@[simp] theorem State.endStall_fixed (r : Run) : (s.endStall r).fixed = s.fixed := by
  simp only [State.endStall]
  split <;> simp

@[simp] theorem State.passed_fixed (r : Run) (next : Nat) (ran : Bool) : (s.passed r next ran).fixed = s.fixed := by
  simp [State.passed]
@[simp] theorem State.strokeFault_fixed (r : Run) (cause f2 : Nat) : (s.strokeFault r cause f2).fixed = s.fixed := by
  simp [State.strokeFault]

@[simp] theorem State.boundary_fixed (r : Run) (lost : Nat) {x : Done} (hx : ∀ s, (x.send s).fixed = s.fixed) :
    (s.boundary r lost x).fixed = s.fixed := by
  simp only [State.boundary]
  split
  · simp
  · split <;> simp [hx]

@[simp] theorem State.stroke_fixed (q k op : Nat) (sub : Nat → Bool) {f : Run → State → State}
    (hf : ∀ r s, (f r s).fixed = s.fixed) : (s.stroke q k op sub f).fixed = s.fixed := by
  simp only [State.stroke]
  split <;> simp [hf]

@[simp] theorem State.compute_fixed (q k op : Nat) (sub : Nat → Bool) (lost : Nat) {f : Run → State → Got Done}
    (hf : ∀ r s, (f r s).KeepsFixed s) : (s.compute q k op sub lost f).fixed = s.fixed := by
  refine State.stroke_fixed _ _ _ _ _ fun r t => ?_
  obtain ⟨hst, hsend⟩ := hf r t
  split
  · next e =>
    rw [State.boundary_fixed _ _ _ (hsend _ _ e)]
    simpa [e] using hst
  · next e => simpa [e] using hst
  · next e => simpa [e] using hst

theorem State.withRows_keepsFixed {s : State} {r : Run} {empty : Done} {f : State → Rows → Got Done}
    (hempty : ∀ u, (empty.send u).fixed = u.fixed) (hf : ∀ t x, (f t x).KeepsFixed t) : (s.withRows r empty f).KeepsFixed s :=
  Got.keepsFixed_bind (by simp) fun t x => Got.keepsFixed_ite (Got.keepsFixed_ok t hempty) (hf t x)

/-! ## Vector strokes -/

@[simp] theorem vecStroke_keepsFixed (r : Run) (s : State) : (vecStroke r s).KeepsFixed s := by
  refine State.withRows_keepsFixed (fun _ => rfl) fun t x => ?_
  iterate 5 refine Got.keepsFixed_bind (by simp) fun t v => ?_
  exact Got.keepsFixed_ok t fun _ => rfl

@[simp] theorem State.vec_fixed (q k sub lost : Nat) : (s.vec q k sub lost).fixed = s.fixed := by
  exact State.compute_fixed _ _ _ _ _ _ vecStroke_keepsFixed

@[simp] theorem redStroke_keepsFixed (r : Run) (s : State) : (redStroke r s).KeepsFixed s := by
  refine State.withRows_keepsFixed (fun _ => rfl) fun t x => ?_
  refine Got.keepsFixed_bind (by simp) fun t v => ?_
  exact Got.keepsFixed_ok t fun _ => rfl

@[simp] theorem quantStroke_keepsFixed (fixed : Option Nat) (r : Run) (s : State) : (quantStroke fixed r s).KeepsFixed s := by
  refine State.withRows_keepsFixed (fun _ => rfl) fun t x => ?_
  iterate 2 refine Got.keepsFixed_bind (by simp) fun t v => ?_
  exact Got.keepsFixed_ok t fun _ => rfl

@[simp] theorem moveStroke_keepsFixed (r : Run) (s : State) : (moveStroke r s).KeepsFixed s :=
  Got.keepsFixed_bind (by simp) fun t _ => Got.keepsFixed_ok t fun _ => rfl

/-! ## Tensor strokes -/

@[simp] theorem matmulStroke_keepsFixed (r : Run) (s : State) : (matmulStroke r s).KeepsFixed s := by
  refine State.withRows_keepsFixed (fun _ => rfl) fun t x => ?_
  iterate 2 refine Got.keepsFixed_bind (by simp) fun t v => ?_
  refine Got.keepsFixed_ite (Got.keepsFixed_bad rfl ..) ?_
  iterate 2 refine Got.keepsFixed_bind (by simp) fun t v => ?_
  exact Got.keepsFixed_ite (Got.keepsFixed_bad rfl ..) (Got.keepsFixed_ok t fun _ => rfl)

@[simp] theorem State.readGloss_fixed (r : Run) (g : Nat) : (s.readGloss r g).st.fixed = s.fixed := by
  iterate 3 refine Got.bind_fixed (by simp) fun t v => ?_
  simp

@[simp] theorem State.readGlosses_fixed (r : Run) (n : List Nat) (m : List GlossOp) (s : State) :
    (State.readGlosses r n m s).st.fixed = s.fixed := by
  induction n generalizing m s with
  | nil => rfl
  | cons g n ih => exact Got.bind_fixed (by simp) fun t f => ih ..

@[simp] theorem glossStroke_keepsFixed (r : Run) (s : State) : (glossStroke r s).KeepsFixed s := by
  refine State.withRows_keepsFixed (fun _ => rfl) fun t x => ?_
  iterate 2 refine Got.keepsFixed_bind (by simp) fun t v => ?_
  refine Got.keepsFixed_bind ?_ fun t v => ?_
  · split
    · exact Got.bind_fixed (by simp) fun _ _ => rfl
    · rfl
  exact Got.keepsFixed_ite (Got.keepsFixed_bad rfl ..) (Got.keepsFixed_ok t fun _ => rfl)

/-! ## Attention strokes -/

@[simp] theorem State.readHeads_fixed (r : Run) (n : List Nat) (m : List Nat) (s : State) :
    (State.readHeads r n m s).st.fixed = s.fixed := by
  induction n generalizing m s with
  | nil => rfl
  | cons g n ih => exact Got.bind_fixed (by simp) fun t f => ih ..

@[simp] theorem State.askHeads_fixed (r : Run) (n : Nat) : (s.askHeads r n).fixed = s.fixed := by
  rw [State.askHeads]
  split
  · rfl
  · refine foldl_fixed (fun t x => ?_) _ _
    have h := t.readOp_fixed r 3 (pageAddr r x) 64
    split <;> (next e => simpa [e] using h)

@[simp] theorem State.readBodies_fixed (r : Run) (l h : Nat) (vals : Bool) (n : List (Nat × Nat)) (m : List Page) (s : State) :
    (State.readBodies r l h vals n m s).st.fixed = s.fixed := by
  induction n generalizing m s with
  | nil => rfl
  | cons g n ih =>
    iterate 3 refine Got.bind_fixed (by simp) fun t v => ?_
    exact ih ..

@[simp] theorem State.readPages_fixed (r : Run) (l h : Nat) (vals : Bool) (n : Nat) :
    (s.readPages r l h vals n).st.fixed = s.fixed := by
  refine Got.bind_fixed (by simp) fun t ws => ?_
  dsimp only
  split <;> simp

@[simp] theorem State.readTile_fixed (r : Run) (vals : Bool) : (s.readTile r vals).st.fixed = s.fixed := by
  iterate 2 refine Got.bind_fixed (by simp) fun t v => ?_
  simp

@[simp] theorem fwdStroke_keepsFixed (r : Run) (s : State) : (fwdStroke r s).KeepsFixed s := by
  refine State.withRows_keepsFixed (fun _ => rfl) fun t x => ?_
  iterate 4 refine Got.keepsFixed_bind (by simp) fun t v => ?_
  exact Got.keepsFixed_ite (Got.keepsFixed_bad rfl ..) (Got.keepsFixed_ok t fun _ => rfl)

@[simp] theorem probStroke_keepsFixed (r : Run) (s : State) : (probStroke r s).KeepsFixed s := by
  refine State.withRows_keepsFixed (fun _ => rfl) fun t x => ?_
  iterate 4 refine Got.keepsFixed_bind (by simp) fun t v => ?_
  exact Got.keepsFixed_ok t fun _ => rfl

@[simp] theorem State.poolOf_fixed (r : Run) (layer hg : Nat) : (s.poolOf r layer hg).st.fixed = s.fixed := by
  refine Got.bind_fixed (by simp) fun t v => ?_
  dsimp only
  split
  · rfl
  · refine Got.bind_fixed (by simp) fun t v => ?_
    simp

@[simp] theorem State.putRow_fixed (r : Run) (pool : Nat) (x : Rows) (m : Nat) : (s.putRow r pool x m).st.fixed = s.fixed := by
  refine Got.bind_fixed (by simp) fun t v => ?_
  dsimp only
  split
  · rfl
  · refine Got.bind_fixed (by simp) fun t v => ?_
    split
    · rfl
    · refine Got.bind_fixed (by simp) fun t v => ?_
      simp

@[simp] theorem State.putRows_fixed (r : Run) (pool : Nat) (x : Rows) (n : List Nat) (m : List PutRow) (s : State) :
    (State.putRows r pool x n m s).st.fixed = s.fixed := by
  induction n generalizing m s with
  | nil => rfl
  | cons g n ih => exact Got.bind_fixed (by simp) fun t f => ih ..

@[simp] theorem kvputStroke_keepsFixed (kv : Nat) (r : Run) (s : State) : (kvputStroke kv r s).KeepsFixed s := by
  refine State.withRows_keepsFixed (fun _ => rfl) fun t x => ?_
  refine Got.keepsFixed_bind (by simp) fun t pool => ?_
  refine Got.keepsFixed_ite (Got.keepsFixed_bad rfl ..) ?_
  iterate 3 refine Got.keepsFixed_bind (by simp) fun t v => ?_
  refine Got.keepsFixed_ite (Got.keepsFixed_bad rfl ..) ?_
  exact Got.keepsFixed_ite (Got.keepsFixed_bad rfl ..) (Got.keepsFixed_ok t fun _ => rfl)

end Sys2Proof.Machine
end

section
/-! SUPPORT. `State.fixed` under the timebase, the link units, the sequencer, the ruling and the mirror. -/

namespace Sys2Proof.Machine

variable (s : State)

/-! ## Timebase -/

@[simp] theorem State.masterLost_fixed : s.masterLost.fixed = s.fixed := by simp [State.masterLost]
@[simp] theorem State.setLock_fixed : s.setLock.fixed = s.fixed := by simp [State.setLock]
@[simp] theorem State.rxSync_fixed (p src : Nat) (gr : List Byte) : (s.rxSync p src gr).fixed = s.fixed := by simp [State.rxSync]
@[simp] theorem State.timeFault_fixed (o d : Int) : (s.timeFault o d).fixed = s.fixed := by simp [State.timeFault]
@[simp] theorem State.stepTime_fixed (o : Int) : (s.stepTime o).fixed = s.fixed := by simp [State.stepTime]
@[simp] theorem State.slewTime_fixed (o d : Int) : (s.slewTime o d).fixed = s.fixed := by simp [State.slewTime]
@[simp] theorem State.noteReply_fixed (gr : List Byte) (o d : Int) : (s.noteReply gr o d).fixed = s.fixed := by
  simp [State.noteReply]
@[simp] theorem State.rxReply_fixed (gr : List Byte) (t4 : Int) : (s.rxReply gr t4).fixed = s.fixed := by simp [State.rxReply]
@[simp] theorem State.arrives_fixed (t4 : Nat) : (s.arrives t4).1.fixed = s.fixed := by simp [State.arrives]

/-! ## Link units -/

@[simp] theorem State.lostSince_fixed (s₀ s : State) : (s₀.lostSince s).fixed = s.fixed := by
  simp [State.lostSince]
@[simp] theorem State.replay_fixed (p : Nat) : (s.replay p).fixed = s.fixed := by simp [State.replay]
@[simp] theorem State.flitIn_fixed (p : Nat) (flit : List Byte) (corr unc : Nat) :
    (s.flitIn p flit corr unc).1.fixed = s.fixed := by simp [State.flitIn]
@[simp] theorem State.forward_fixed (p : Nat) (pkt : Packet) : (s.forward p pkt).fixed = s.fixed := by simp [State.forward]
@[simp] theorem State.portGoesDown_fixed (p : Nat) : (s.portGoesDown p).fixed = s.fixed := by simp [State.portGoesDown]
@[simp] theorem State.sendLink_fixed (p atop imm : Nat) : (s.sendLink p atop imm).fixed = s.fixed := by simp [State.sendLink]
@[simp] theorem State.takeLanes_fixed (p lanes : Nat) : (s.takeLanes p lanes).fixed = s.fixed := by simp [State.takeLanes]
@[simp] theorem State.laneFails_fixed (p lane : Nat) : (s.laneFails p lane).fixed = s.fixed := by simp [State.laneFails]
@[simp] theorem State.flitLock_fixed (p lanes : Nat) : (s.flitLock p lanes).fixed = s.fixed := by simp [State.flitLock]
@[simp] theorem State.rxVersion_fixed (p imm : Nat) : (s.rxVersion p imm).fixed = s.fixed := by simp [State.rxVersion]
@[simp] theorem State.rxWidth_fixed (p imm : Nat) : (s.rxWidth p imm).fixed = s.fixed := by simp [State.rxWidth]
@[simp] theorem State.rxBorrow_fixed (p imm : Nat) : (s.rxBorrow p imm).fixed = s.fixed := by simp [State.rxBorrow]
@[simp] theorem State.rxUnreach_fixed (p pos : Nat) : (s.rxUnreach p pos).fixed = s.fixed := by simp [State.rxUnreach]
@[simp] theorem State.rxReachable_fixed (p pos : Nat) : (s.rxReachable p pos).fixed = s.fixed := by simp [State.rxReachable]
@[simp] theorem State.rxRingmap_fixed (p imm : Nat) : (s.rxRingmap p imm).fixed = s.fixed := by simp [State.rxRingmap]
@[simp] theorem State.mapPlane_fixed (n p : Nat) : (s.mapPlane n p).fixed = s.fixed := by simp [State.mapPlane]
@[simp] theorem State.holdPort_fixed (p : Nat) : (s.holdPort p).fixed = s.fixed := by simp [State.holdPort]
@[simp] theorem State.startFails_fixed (code : Nat) : (s.startFails code).fixed = s.fixed := by simp [State.startFails]
@[simp] theorem State.checkMatched_fixed : s.checkMatched.fixed = s.fixed := by simp [State.checkMatched]
@[simp] theorem State.settlePort_fixed (p : Nat) : (s.settlePort p).fixed = s.fixed := by simp [State.settlePort]
@[simp] theorem State.rxIdent_fixed (p : Nat) (f : List Byte) : (s.rxIdent p f).fixed = s.fixed := by simp [State.rxIdent]
@[simp] theorem State.absent_fixed (p : Nat) : (s.absent p).fixed = s.fixed := by simp [State.absent]
@[simp] theorem State.cableRefresh_fixed (p : Nat) : (s.cableRefresh p).fixed = s.fixed := by simp [State.cableRefresh]
@[simp] theorem State.cableRead_fixed (p : Nat) (gap : Bool) : (s.cableRead p gap).fixed = s.fixed := by simp [State.cableRead]
@[simp] theorem State.cableHours_fixed (p : Nat) : (s.cableHours p).fixed = s.fixed := by simp [State.cableHours]
@[simp] theorem State.cableEpoch_fixed (p : Nat) : (s.cableEpoch p).fixed = s.fixed := by simp [State.cableEpoch]
@[simp] theorem State.cableWrite_fixed (p : Nat) (ok : Bool) : (s.cableWrite p ok).fixed = s.fixed := by simp [State.cableWrite]
@[simp] theorem State.cableTry_fixed (p : Nat) (gap silent : Bool) : (s.cableTry p gap silent).fixed = s.fixed := by
  simp [State.cableTry]
@[simp] theorem State.portCtlWrite_fixed (p v : Nat) : (s.portCtlWrite p v).fixed = s.fixed := by simp [State.portCtlWrite]

@[simp] theorem State.linkWrite_fixed (off v cls : Nat) : (s.linkWrite off v cls).fixed = s.fixed := by
  simp only [State.linkWrite]
  (repeat' split) <;> simp

/-! ## Sequencer -/

@[simp] theorem State.recipeTurn_fixed (i : Nat) : (s.recipeTurn i).fixed = s.fixed := by simp [State.recipeTurn]
@[simp] theorem State.routeTurn_fixed (i v : Nat) : (s.routeTurn i v).fixed = s.fixed := by simp [State.routeTurn]
@[simp] theorem State.routeStart_fixed (i c v : Nat) : (s.routeStart i c v).fixed = s.fixed := by simp [State.routeStart]
@[simp] theorem State.routeSide_fixed (i c v : Nat) : (s.routeSide i c v).fixed = s.fixed := by simp [State.routeSide]
@[simp] theorem State.stepStart_fixed (i c v : Nat) : (s.stepStart i c v).fixed = s.fixed := by simp [State.stepStart]
@[simp] theorem State.takeStep_fixed (r : Run) (v : Nat) : (s.takeStep r v).fixed = s.fixed := by simp [State.takeStep]
@[simp] theorem State.enterWatch_fixed (r : Run) (a : Nat) : (s.enterWatch r a).fixed = s.fixed := by simp [State.enterWatch]
@[simp] theorem State.watchFault_fixed (r : Run) (w : Nat) : (s.watchFault r w).fixed = s.fixed := by simp [State.watchFault]
@[simp] theorem State.stepOn_fixed (r : Run) (a : Nat) : (s.stepOn r a).fixed = s.fixed := by simp [State.stepOn]

@[simp] theorem State.waitAt_fixed (r : Run) : (s.waitAt r).fixed = s.fixed := by
  simp only [State.waitAt]
  split
  · simp
  · split
    · next h => simp [Got.fixed_of_ok h]
    · next h => simp [Got.fixed_of_wait h]
    · next h => simp [Got.fixed_of_bad h]

@[simp] theorem State.passAll_fixed (r : Run) (next ret : Nat) : (s.passAll r next ret).fixed = s.fixed := by simp [State.passAll]

@[simp] theorem State.barrier_fixed (q k op : Nat) (sub : Nat → Bool) {f : Run → State → State}
    (hf : ∀ r s, (f r s).fixed = s.fixed) : (s.barrier q k op sub f).fixed = s.fixed :=
  State.stroke_fixed _ _ _ _ _ fun r t => by simp [hf]

@[simp] theorem State.flagAct_fixed (r : Run) : (s.flagAct r).fixed = s.fixed := by
  simp only [State.flagAct]
  split
  · simp
  · split
    · next h => split <;> simp [Got.fixed_of_ok h]
    · next h => simp [Got.fixed_of_wait h]
    · next h => simp [Got.fixed_of_bad h]

@[simp] theorem State.flagAt_fixed (r : Run) : (s.flagAt r).fixed = s.fixed := by simp [State.flagAt]
@[simp] theorem State.setPred_fixed (r : Run) (v : Bool) : (s.setPred r v).fixed = s.fixed := by simp [State.setPred]
@[simp] theorem State.watchAll_fixed (r : Run) (a : Nat) : (s.watchAll r a).fixed = s.fixed := by simp [State.watchAll]

@[simp] theorem State.variantAt_fixed (r : Run) : (s.variantAt r).fixed = s.fixed := by
  simp only [State.variantAt]
  split
  · simp
  · split
    · simp
    · split
      · next h =>
        split
        · simp [Got.fixed_of_ok h]
        · split
          · next h' => simp [Got.fixed_of_ok h', Got.fixed_of_ok h]
          · next h' => simp [Got.fixed_of_wait h', Got.fixed_of_ok h]
          · next h' => simp [Got.fixed_of_bad h', Got.fixed_of_ok h]
      · next h => simp [Got.fixed_of_wait h]
      · next h => simp [Got.fixed_of_bad h]

@[simp] theorem State.wakeScribe_fixed (q k : Nat) : (s.wakeScribe q k).fixed = s.fixed := by
  simp only [State.wakeScribe]
  split <;> simp

@[simp] theorem State.stepEvent_fixed (q line : Nat) : (s.stepEvent q line).fixed = s.fixed := by
  simp only [State.stepEvent]
  split <;> simp

@[simp] theorem State.wakeLine_fixed (line : Nat) : (s.wakeLine line).fixed = s.fixed := by
  rw [State.wakeLine]
  refine (foldl_fixed (fun t n => ?_) _ _).trans (by simp)
  split <;> simp

@[simp] theorem State.rowBlock_fixed (r : Run) : (s.rowBlock r).st.fixed = s.fixed := by
  rw [State.rowBlock]
  split
  · rfl
  · exact Got.bind_fixed (by simp) fun _ _ => by simp

/-! ## Ruling -/

@[simp] theorem State.sysPut_fixed (i a : Nat) (bs : List Byte) : (s.sysPut i a bs).fixed = s.fixed := by
  unfold State.sysPut
  extract_lets e t
  have ht : t.fixed = s.fixed := by simp [t, e]
  split
  · exact ht
  · split
    · split <;> (next h => simp [fixed_of_eq h, ht])
    · exact ht

@[simp] theorem State.sendSys_fixed {rx : State → Packet → State × Nat} (hrx : ∀ s p, (rx s p).1.fixed = s.fixed)
    (x : Issuer) (s : State) (p : Packet) : (State.sendSys rx x s p).fixed = s.fixed := by
  simp [State.sendSys, hrx]

@[simp] theorem State.seenPlc_fixed (i side o : Nat) : (s.seenPlc i side o).fixed = s.fixed := by simp [State.seenPlc]
@[simp] theorem State.seenRoute_fixed (i side r : Nat) : (s.seenRoute i side r).fixed = s.fixed := by simp [State.seenRoute]
@[simp] theorem State.seenExperts_fixed (i side w : Nat) : (s.seenExperts i side w).fixed = s.fixed := by simp [State.seenExperts]
@[simp] theorem State.stale_fixed (i : Nat) : (s.stale i).fixed = s.fixed := by simp [State.stale]
@[simp] theorem State.ctlWord_fixed (i w o v n : Nat) : (s.ctlWord i w o v n).fixed = s.fixed := by simp [State.ctlWord]
@[simp] theorem State.countDrop_fixed (i r w e : Nat) : (s.countDrop i r w e).fixed = s.fixed := by simp [State.countDrop]
@[simp] theorem State.zeroResult_fixed (i w t j : Nat) : (s.zeroResult i w t j).fixed = s.fixed := by simp [State.zeroResult]

@[simp] theorem State.tryRouted_fixed (i r : Nat) : (s.tryRouted i r).fixed = s.fixed := by
  simp only [State.tryRouted]
  split <;> simp

@[simp] theorem State.rxPoolans_fixed (p : Packet) : (s.rxPoolans p).1.fixed = s.fixed := by
  simp only [State.rxPoolans]
  (repeat' split) <;> simp

@[simp] theorem State.putRow_sysPut_fixed (i a fmt m : Nat) (x : RowBytes) : (s.putRow_ i a fmt m x).fixed = s.fixed := by
  simp [State.putRow_]
@[simp] theorem State.poolAnswer_fixed (i : Nat) (p : Packet) (ok : Bool) : (s.poolAnswer i p ok).fixed = s.fixed := by
  simp [State.poolAnswer]
@[simp] theorem State.rejectRow_fixed (i : Nat) (p : Packet) : (s.rejectRow i p).fixed = s.fixed := by simp [State.rejectRow]
@[simp] theorem State.setHome_fixed (i r : Nat) (h : RulHome) : (s.setHome i r h).fixed = s.fixed := by simp [State.setHome]
@[simp] theorem State.landRow_fixed (i w slot n : Nat) (p : Packet) : (s.landRow i w slot n p).fixed = s.fixed := by
  simp [State.landRow]
@[simp] theorem State.rxDispatch_fixed (p : Packet) : (s.rxDispatch p).1.fixed = s.fixed := by
  fun_cases State.rxDispatch s p <;> simp +zetaDelta
@[simp] theorem State.closeRoute_fixed (i r w : Nat) (h : RulHome) (xs : List Nat) :
    (s.closeRoute i r w h xs).fixed = s.fixed := by simp [State.closeRoute]

@[simp] theorem State.rxClose_fixed (p : Packet) : (s.rxClose p).1.fixed = s.fixed := by
  simp only [State.rxClose]
  (repeat' split) <;> simp

@[simp] theorem State.writeSelect_fixed (i r w : Nat) (h : RulHome) (idx : Nat) (timeout : Bool) :
    (s.writeSelect i r w h idx timeout).fixed = s.fixed := by simp [State.writeSelect]

@[simp] theorem State.vselWrite_fixed (v : Nat) : (s.vselWrite v).fixed = s.fixed := by
  simp only [State.vselWrite]
  split <;> simp

@[simp] theorem State.rxRetrow_fixed (p : Packet) : (s.rxRetrow p).1.fixed = s.fixed := by
  simp only [State.rxRetrow]
  (repeat' split) <;> simp

@[simp] theorem State.rxRethdr_fixed (p : Packet) : (s.rxRethdr p).1.fixed = s.fixed := by
  simp only [State.rxRethdr]
  (repeat' split) <;> simp

@[simp] theorem State.readRaw_fixed (r : Run) (space fmt stride : Nat) (n : Nat) (m : Nat) (l : List (List Byte)) (s : State) :
    (State.readRaw r space fmt stride n m l s).st.fixed = s.fixed := by
  induction n generalizing m l s with
  | zero => rfl
  | succ n ih =>
    refine Got.bind_fixed (by simp) fun t h => ?_
    split
    · rfl
    · exact Got.bind_fixed (by simp) fun _ _ => ih ..

@[simp] theorem State.sendReturn_fixed (r : Run) (route slot v : Nat) (rows : List RetRow) (dsts : List Nat) :
    (s.sendReturn r route slot v rows dsts).fixed = s.fixed := by simp [State.sendReturn]

@[simp] theorem returnStroke_keepsFixed (r : Run) (s : State) : (returnStroke r s).KeepsFixed s := by
  refine Got.keepsFixed_ite (Got.keepsFixed_bad (by simp) ..) ?_
  iterate 2 refine Got.keepsFixed_bind (by simp) fun t v => ?_
  refine Got.keepsFixed_ite (Got.keepsFixed_bad rfl ..) ?_
  refine Got.keepsFixed_bind (by simp) fun t ds => ?_
  refine Got.keepsFixed_ite (Got.keepsFixed_ok _ fun u => by simp) ?_
  iterate 2 refine Got.keepsFixed_bind (by simp) fun t v => ?_
  exact Got.keepsFixed_ok _ fun u => by simp

@[simp] theorem State.setSource_fixed (i r : Nat) (x : RulSrc) : (s.setSource i r x).fixed = s.fixed := by simp [State.setSource]
@[simp] theorem State.dispatchRow_fixed (i route w t j entry rep : Nat) (v : Nat) (pool : Bool) :
    (s.dispatchRow i route w t j entry rep v pool).fixed = s.fixed := by simp [State.dispatchRow]
@[simp] theorem State.offerRow_fixed (i route ctx w t j entry v q : Nat) (c : Nat × W32) :
    (s.offerRow i route ctx w t j entry v q c).fixed = s.fixed := by simp [State.offerRow]
@[simp] theorem State.submitRow_fixed (i route ctx w v q entry : Nat) (cs : List (Nat × W32)) :
    (s.submitRow i route ctx w v q entry cs).fixed = s.fixed := by simp [State.submitRow]

@[simp] theorem State.sendCloses_fixed (i route w v : Nat) (x : RulSrc) : (s.sendCloses i route w v x).fixed = s.fixed := by
  refine foldl_fixed (fun t e => ?_) _ _
  refine (foldl_fixed (fun u k => ?_) _ _).trans (State.seenPlc_fixed ..)
  simp

@[simp] theorem State.submitRule_fixed (r : Run) (route w v : Nat) (rows : List (Nat × Bool × List (Nat × W32))) (last : Bool) :
    (s.submitRule r route w v rows last).fixed = s.fixed := by simp [State.submitRule]

@[simp] theorem State.dispHeads_fixed (r : Run) (w b : Nat) (n : List Nat) (s : State) :
    (State.dispHeads r w b n s).st.fixed = s.fixed := by
  induction n generalizing s with
  | nil => rfl
  | cons f n ih =>
    refine Got.bind_fixed (by simp) fun t h => ?_
    split
    · exact ih ..
    · rfl

@[simp] theorem State.dispRow_fixed (r : Run) (w t : Nat) (n : List Nat) (s : State) :
    (State.dispRow r w t n s).st.fixed = s.fixed := by
  induction n generalizing s with
  | nil => rfl
  | cons f n ih =>
    iterate 2 refine Got.bind_fixed (by simp) fun t h => ?_
    exact ih ..

@[simp] theorem State.dispCheck_fixed (r : Run) (w : Nat) (n : List (Nat × Bool × Bool)) (s : State) :
    (State.dispCheck r w n s).st.fixed = s.fixed := by
  induction n generalizing s with
  | nil => rfl
  | cons f n ih =>
    obtain ⟨m, head, sent⟩ := f
    iterate 2 refine Got.bind_fixed (by simp) fun t h => ?_
    exact ih ..

@[simp] theorem ruleStroke_keepsFixed (r : Run) (s : State) : (ruleStroke r s).KeepsFixed s := by
  refine Got.keepsFixed_ite (Got.keepsFixed_bad (by simp) ..) (Got.keepsFixed_ite (Got.keepsFixed_bad (by simp) ..) ?_)
  refine Got.keepsFixed_bind (by simp) fun t rb => ?_
  refine Got.keepsFixed_ite (Got.keepsFixed_bad rfl ..) (Got.keepsFixed_ite (Got.keepsFixed_ok _ fun u => by simp) ?_)
  iterate 2 refine Got.keepsFixed_bind (by simp) fun t v => ?_
  exact Got.keepsFixed_ite (Got.keepsFixed_bad rfl ..) (Got.keepsFixed_ok _ fun u => by simp)

@[simp] theorem State.modeCheck_fixed (i : Nat) (cls : Nat) : (s.modeCheck i cls).fixed = s.fixed := by simp [State.modeCheck]
@[simp] theorem State.rulWrite_fixed (off v cls : Nat) : (s.rulWrite off v cls).fixed = s.fixed := by simp [State.rulWrite]

/-! ## Mirror -/

@[simp] theorem State.seenSlip_fixed (i : Nat) : (s.seenSlip i).fixed = s.fixed := by simp [State.seenSlip]
@[simp] theorem State.setSlip_fixed (j i w : Nat) : (s.setSlip j i w).fixed = s.fixed := by simp [State.setSlip]
@[simp] theorem State.seenSlips_fixed (j : Nat) : (s.seenSlips j).fixed = s.fixed := by simp [State.seenSlips]
@[simp] theorem State.seenSheet_fixed (i a n : Nat) : (s.seenSheet i a n).fixed = s.fixed := by simp [State.seenSheet]
@[simp] theorem State.stepPut_fixed (j o : Nat) (bs : List Byte) : (s.stepPut j o bs).fixed = s.fixed := by simp [State.stepPut]
@[simp] theorem State.seenJob_fixed (j n : Nat) : (s.seenJob j n).fixed = s.fixed := by simp [State.seenJob]
@[simp] theorem State.mirrState_fixed : s.mirrState.fixed = s.fixed := by simp [State.mirrState]
@[simp] theorem State.mirrorPut_fixed (x : Issuer) (o : Nat) (line : List Byte) : (s.mirrorPut x o line).fixed = s.fixed := by
  simp [State.mirrorPut]
@[simp] theorem State.mirrorAll_fixed (x : Issuer) (ls : List (Nat × List Byte)) : (s.mirrorAll x ls).fixed = s.fixed := by
  simp [State.mirrorAll]
@[simp] theorem Copied.page_fixed (c : Copied) (i p : Nat) : (c.page i p).st.fixed = c.st.fixed := by
  simp [Copied.page]

@[simp] theorem Copied.list_fixed (c : Copied) (i plist : Nat) (idx : List Nat) : (c.list i plist idx).st.fixed = c.st.fixed := by
  refine copied_foldl_fixed (fun d a => ?_) _ _
  split
  · rfl
  · split
    · rfl
    · dsimp only
      split <;> simp

@[simp] theorem Copied.slip_fixed (c : Copied) (i plist : Nat) (idx : List Nat) : (c.slip i plist idx).st.fixed = c.st.fixed := by
  simp [Copied.slip]
@[simp] theorem Copied.rubric_fixed (c : Copied) (i rlist : Nat) : (c.rubric i rlist).st.fixed = c.st.fixed := by
  simp [Copied.rubric]
@[simp] theorem State.mirrorMset_fixed (j i : Nat) : (s.mirrorMset j i).fixed = s.fixed := by simp [State.mirrorMset]

@[simp] theorem State.addDone_fixed (j : Nat) : (s.addDone j).fixed = s.fixed := by
  simp only [State.addDone]
  split <;> simp

@[simp] theorem State.seenTrigger_fixed (k : Nat) : (s.seenTrigger k).fixed = s.fixed := by simp [State.seenTrigger]
@[simp] theorem State.stepMirror_fixed (j : Nat) : (s.stepMirror j).fixed = s.fixed := by simp [State.stepMirror]

@[simp] theorem State.batchSeq_fixed (j : Nat) : (s.batchSeq j).fixed = s.fixed := by
  simp only [State.batchSeq]
  split <;> simp

@[simp] theorem State.batchStart_fixed (j v : Nat) : (s.batchStart j v).fixed = s.fixed := by simp [State.batchStart]

@[simp] theorem State.batchNext_fixed (n : Nat) (m : Nat) (s : State) : (State.batchNext n m s).fixed = s.fixed := by
  induction n generalizing s with
  | zero => rfl
  | succ n ih =>
    rw [State.batchNext]
    split <;> simp [ih]

@[simp] theorem State.batches_fixed (j : Nat) : (s.batches j).fixed = s.fixed := by simp [State.batches]
@[simp] theorem State.mirrorSweep_fixed : s.mirrorSweep.fixed = s.fixed := by simp [State.mirrorSweep]
@[simp] theorem State.batch_fixed (j v : Nat) : (s.batch j v).fixed = s.fixed := by simp [State.batch]
@[simp] theorem State.flushMirror_fixed : s.flushMirror.fixed = s.fixed := by simp [State.flushMirror]
@[simp] theorem State.resyncSlot_fixed (j : Nat) : (s.resyncSlot j).fixed = s.fixed := by simp [State.resyncSlot]
@[simp] theorem State.resync_fixed : s.resync.fixed = s.fixed := by simp [State.resync]
@[simp] theorem State.topoWrite_fixed (off v cls : Nat) : (s.topoWrite off v cls).fixed = s.fixed := by simp [State.topoWrite]

end Sys2Proof.Machine
end

section
/-! SUPPORT. `State.fixed` under power, calibration, the Roll and the Endpoint. -/

namespace Sys2Proof.Machine

variable (s : State)

/-! ## Power -/

@[simp] theorem State.learn_fixed (q ns power : Nat) : (s.learn q ns power).fixed = s.fixed := by simp [State.learn]
@[simp] theorem State.setPoint_fixed (q pt : Nat) : (s.setPoint q pt).fixed = s.fixed := by simp [State.setPoint]
@[simp] theorem State.holdPoints_fixed : s.holdPoints.fixed = s.fixed := by simp [State.holdPoints]
@[simp] theorem State.budget_fixed : s.budget.fixed = s.fixed := by simp [State.budget]
@[simp] theorem State.phaseCopy_fixed : s.phaseCopy.fixed = s.fixed := by simp [State.phaseCopy]
@[simp] theorem State.phaseTurn_fixed (e : Nat) : (s.phaseTurn e).fixed = s.fixed := by simp [State.phaseTurn]
@[simp] theorem State.monOnce_fixed (code : Nat) (args : List Nat) (b : Nat) : (s.monOnce code args b).fixed = s.fixed := by
  simp [State.monOnce]
@[simp] theorem State.monPost_fixed (code : Nat) (args : List Nat) (b : Nat) : (s.monPost code args b).fixed = s.fixed := by
  simp [State.monPost]
@[simp] theorem State.off_fixed : s.off.fixed = s.fixed := by simp [State.off]
@[simp] theorem State.shutdown_fixed (code : Nat) (args : List Nat) : (s.shutdown code args).fixed = s.fixed := by
  simp [State.shutdown]
@[simp] theorem State.lostSelf_fixed : s.lostSelf.fixed = s.fixed := by simp [State.lostSelf]
@[simp] theorem State.takeTemps_fixed (quires groups : List (BitVec 16)) : (s.takeTemps quires groups).fixed = s.fixed := by
  simp [State.takeTemps]

@[simp] theorem State.critical_fixed : s.critical.fixed = s.fixed := by
  simp only [State.critical]
  (repeat' split) <;> simp

@[simp] theorem State.thermal_fixed (quires groups : List (BitVec 16)) : (s.thermal quires groups).fixed = s.fixed := by
  simp only [State.thermal]
  split <;> simp

@[simp] theorem State.leaveModule_fixed (cause : Nat) : (s.leaveModule cause).fixed = s.fixed := by simp [State.leaveModule]
@[simp] theorem State.mates_fixed (b : Nat) (mated : Bool) : (s.mates b mated).fixed = s.fixed := by simp [State.mates]
@[simp] theorem State.inputBands_fixed (mv : Nat) : (s.inputBands mv).fixed = s.fixed := by simp [State.inputBands]
@[simp] theorem State.pwrWrite_fixed (off v : Nat) : (s.pwrWrite off v).fixed = s.fixed := by simp [State.pwrWrite]

/-! ## Baseline -/

@[simp] theorem State.sendPower_fixed (p atop dst hops : Nat) (r : List Byte) :
    (s.sendPower p atop dst hops r).fixed = s.fixed := by simp [State.sendPower]
@[simp] theorem State.sendRing_fixed (atop hops : Nat) (r : List Byte) : (s.sendRing atop hops r).fixed = s.fixed := by
  simp [State.sendRing]
@[simp] theorem State.forwardRing_fixed (p atop hops : Nat) (r : List Byte) : (s.forwardRing p atop hops r).fixed = s.fixed := by
  simp [State.forwardRing]
@[simp] theorem State.sendIntent_fixed : s.sendIntent.fixed = s.fixed := by simp [State.sendIntent]
@[simp] theorem State.rxIntent_fixed (p : Nat) (r : List Byte) (hops : Nat) : (s.rxIntent p r hops).fixed = s.fixed := by
  simp [State.rxIntent]

@[simp] theorem State.holdTray_fixed (t : Nat) (r : List Byte) : (s.holdTray t r).fixed = s.fixed := by
  simp only [State.holdTray]
  split <;> simp

@[simp] theorem State.rxTray_fixed (p : Nat) (r : List Byte) (hops : Nat) : (s.rxTray p r hops).fixed = s.fixed := by
  simp [State.rxTray]
@[simp] theorem State.decide_fixed : s.decide_.fixed = s.fixed := by simp [State.decide_]
@[simp] theorem State.missed_fixed : s.missed.fixed = s.fixed := by simp [State.missed]

@[simp] theorem State.applyGrant_fixed (e : Nat) : (s.applyGrant e).fixed = s.fixed := by
  simp only [State.applyGrant]
  (repeat' split) <;> simp

@[simp] theorem State.takeRcap_fixed (e : Nat) : (s.takeRcap e).fixed = s.fixed := by simp [State.takeRcap]
@[simp] theorem State.baselineEpoch_fixed (e : Nat) : (s.baselineEpoch e).fixed = s.fixed := by simp [State.baselineEpoch]

/-! ## Calibration and self-test -/

@[simp] theorem State.addCalib_fixed (kind unit sub : Nat) : (s.addCalib kind unit sub).fixed = s.fixed := by
  simp [State.addCalib]
@[simp] theorem State.showTest_fixed (q : Nat) : (s.showTest q).fixed = s.fixed := by simp [State.showTest]

@[simp] theorem State.leaveTest_fixed (q : Nat) : (s.leaveTest q).fixed = s.fixed := by
  simp only [State.leaveTest]
  (repeat' split) <;> simp

@[simp] theorem State.lanePass_fixed (p lane : Nat) : (s.lanePass p lane).fixed = s.fixed := by simp [State.lanePass]
@[simp] theorem State.channelPass_fixed (ch : Nat) : (s.channelPass ch).fixed = s.fixed := by simp [State.channelPass]
@[simp] theorem State.holdDroop_fixed (q det : Nat) (v : Bool) : (s.holdDroop q det v).fixed = s.fixed := by
  simp [State.holdDroop]

@[simp] theorem State.calibPass_fixed (c : Calib) : (s.calibPass c).fixed = s.fixed := by
  simp only [State.calibPass]
  split <;> simp

@[simp] theorem State.channelFails_fixed (ch : Nat) : (s.channelFails ch).fixed = s.fixed := by simp [State.channelFails]

@[simp] theorem State.calibFail_fixed (c : Calib) : (s.calibFail c).fixed = s.fixed := by
  simp only [State.calibFail]
  split <;> simp

@[simp] theorem State.stStat_fixed (r : Nat) : (s.stStat r).fixed = s.fixed := by simp [State.stStat]
@[simp] theorem State.stQuires_fixed (i st : Nat) : (s.stQuires i st).fixed = s.fixed := by simp [State.stQuires]
@[simp] theorem State.stRun_fixed (t : SelfTest) : (s.stRun t).fixed = s.fixed := by simp [State.stRun]
@[simp] theorem State.stNow_fixed (rec_ outcome : Nat) : (s.stNow rec_ outcome).fixed = s.fixed := by simp [State.stNow]
@[simp] theorem State.stRequest_fixed (kind sheet : Nat) (force resv : Bool) :
    (s.stRequest kind sheet force resv).fixed = s.fixed := by simp [State.stRequest]

@[simp] theorem State.stStart_fixed (v : Nat) : (s.stStart v).fixed = s.fixed := by
  simp only [State.stStart]
  (repeat' split) <;> simp

@[simp] theorem State.stZero_fixed (t : SelfTest) : (s.stZero t).fixed = s.fixed := by
  simp only [State.stZero]
  split <;> simp

@[simp] theorem State.stEnd_fixed (t : SelfTest) (outcome progress faddr abrq : Nat) :
    (s.stEnd t outcome progress faddr abrq).fixed = s.fixed := by simp [State.stEnd]

@[simp] theorem State.stAbort_fixed : s.stAbort.fixed = s.fixed := by
  simp only [State.stAbort]
  (repeat' split) <;> simp

@[simp] theorem State.stCommand_fixed (v : Nat) : (s.stCommand v).fixed = s.fixed := by
  simp only [State.stCommand]
  split <;> simp

/-! ## Messages -/

@[simp] theorem State.say_fixed (type rid : Nat) (body : List Byte) : (s.say type rid body).fixed = s.fixed := by simp [State.say]
@[simp] theorem State.refuseMsg_fixed (rid code lead : Nat) : (s.refuseMsg rid code lead).fixed = s.fixed := by
  simp [State.refuseMsg]
@[simp] theorem State.accept_fixed (rid slip gen dropped : Nat) : (s.accept rid slip gen dropped).fixed = s.fixed := by
  simp [State.accept]
@[simp] theorem State.cancelResult_fixed (rid c : Nat) : (s.cancelResult rid c).fixed = s.fixed := by simp [State.cancelResult]
@[simp] theorem State.setRequest_fixed (r r' : Request) : (s.setRequest r r').fixed = s.fixed := by simp [State.setRequest]
@[simp] theorem State.sendEnd_fixed (r : Request) (st why : Nat) : (s.sendEnd r st why).fixed = s.fixed := by simp [State.sendEnd]
@[simp] theorem State.sayAgain_fixed (rid pos n : Nat) (toks : List Byte) : (s.sayAgain rid pos n toks).fixed = s.fixed := by
  simp [State.sayAgain]
@[simp] theorem State.resendTokens_fixed (rid line : Nat) : (s.resendTokens rid line).fixed = s.fixed := by
  simp [State.resendTokens]
@[simp] theorem State.publish_fixed (j : Nat) (r : Request) : (s.publish j r).1.fixed = s.fixed := by
  fun_cases State.publish s j r <;> simp +zetaDelta
@[simp] theorem State.published_fixed (j : Nat) (r : Request) : (s.published j r).1.fixed = s.fixed := by simp [State.published]

@[simp] theorem State.tellOver_fixed (j : Nat) (s : State) (r : Request) : (State.tellOver j s r).fixed = s.fixed := by
  simp only [State.tellOver]
  split <;> simp

@[simp] theorem State.sendEnds_fixed (j : Nat) : (s.sendEnds j).fixed = s.fixed := by simp [State.sendEnds]
@[simp] theorem State.postOne_fixed (st : State × List RollPost) (p : RollPost) : (State.postOne st p).1.fixed = st.1.fixed := by
  fun_cases State.postOne st p <;> simp +zetaDelta
@[simp] theorem State.postAll_fixed : s.postAll.fixed = s.fixed := by simp [State.postAll]

@[simp] theorem State.wishDone_fixed (p : RollPost) (c slip gen : Nat) : (s.wishDone p c slip gen).fixed = s.fixed := by
  simp only [State.wishDone]
  split <;> simp

@[simp] theorem State.adopted_fixed (j slip : Nat) (s : State) (r : Request) : (State.adopted j slip s r).fixed = s.fixed := by
  simp only [State.adopted]
  split <;> simp

@[simp] theorem State.reorder_fixed (j slip : Nat) : (s.reorder j slip).fixed = s.fixed := by simp [State.reorder]
@[simp] theorem State.rollTold_fixed (cons e c slip gen : Nat) : (s.rollTold cons e c slip gen).fixed = s.fixed := by
  simp [State.rollTold]

/-! ## Roll -/

@[simp] theorem State.sendMembers_fixed (j opc atop off imm : Nat) (bs : List Byte) :
    (s.sendMembers j opc atop off imm bs).fixed = s.fixed := by simp [State.sendMembers]
@[simp] theorem State.sendSlip_fixed (j i : Nat) : (s.sendSlip j i).fixed = s.fixed := by simp [State.sendSlip]
@[simp] theorem State.sendSlips_fixed (j : Nat) : (s.sendSlips j).fixed = s.fixed := by simp [State.sendSlips]
@[simp] theorem State.sendEntries_fixed (j atop : Nat) (es : List Nat) : (s.sendEntries j atop es).fixed = s.fixed := by
  simp [State.sendEntries]
@[simp] theorem State.markOver_fixed (j i st why : Nat) : (s.markOver j i st why).fixed = s.fixed := by simp [State.markOver]
@[simp] theorem State.endSlip_fixed (j i st why : Nat) : (s.endSlip j i st why).fixed = s.fixed := by simp [State.endSlip]
@[simp] theorem State.refs_fixed (j r : Nat) (up : Bool) : (s.refs j r up).fixed = s.fixed := by exact State.sysPut_fixed ..
@[simp] theorem State.egress_fixed (j i st why : Nat) (emit : List (Nat × Nat)) : (s.egress j i st why emit).fixed = s.fixed := by
  simp [State.egress]
@[simp] theorem RollRes.of_fixed (r : Nat) : (RollRes.of s r).st.fixed = s.fixed := by simp [RollRes.of]

@[simp] theorem State.admitSlip_fixed (j img : Nat) : (s.admitSlip j img).st.fixed = s.fixed := by
  simp only [State.admitSlip]
  split <;> simp

@[simp] theorem State.transit_fixed (j i : Nat) (ok : Bool) (next : Nat) : (s.transit j i ok next).st.fixed = s.fixed := by
  simp [State.transit]
@[simp] theorem State.cancelSlip_fixed (j i why : Nat) (fail : Bool) : (s.cancelSlip j i why fail).st.fixed = s.fixed := by
  simp [State.cancelSlip]
@[simp] theorem State.landed_fixed (j i a : Nat) : (s.landed j i a).st.fixed = s.fixed := by simp [State.landed]
@[simp] theorem State.mset_fixed (j i a : Nat) : (s.mset j i a).st.fixed = s.fixed := by simp [State.mset]
@[simp] theorem State.freeSlip_fixed (j i : Nat) : (s.freeSlip j i).st.fixed = s.fixed := by simp [State.freeSlip]
@[simp] theorem State.pause_fixed (j i : Nat) : (s.pause j i).st.fixed = s.fixed := by simp [State.pause]

@[simp] theorem State.rollDo_fixed (e : Nat) : (s.rollDo e).st.fixed = s.fixed := by
  simp only [State.rollDo]
  (repeat' split) <;> simp

@[simp] theorem State.handleTurn_fixed (j : Nat) : (s.handleTurn j).fixed = s.fixed := by simp [State.handleTurn]
@[simp] theorem State.putHeader_fixed (j : Nat) (h : List Byte) : (s.putHeader j h).fixed = s.fixed := by simp [State.putHeader]
@[simp] theorem State.headerAction_fixed (j : Nat) : (s.headerAction j).fixed = s.fixed := by simp [State.headerAction]

@[simp] theorem State.commitEntry_fixed (j a step : Nat) (st : State × List (Nat × Outcome)) :
    (State.commitEntry j a step st).1.fixed = st.1.fixed := by
  simp [State.commitEntry]

@[simp] theorem State.setCommitted_fixed (j v : Nat) : (s.setCommitted j v).fixed = s.fixed := by simp [State.setCommitted]
@[simp] theorem State.commit_fixed (j : Nat) : (s.commit j).fixed = s.fixed := by simp [State.commit]
@[simp] theorem State.tryCommit_fixed (j : Nat) : (s.tryCommit j).fixed = s.fixed := by simp [State.tryCommit]
@[simp] theorem State.rollPoint_fixed : s.rollPoint.fixed = s.fixed := by simp [State.rollPoint]
@[simp] theorem State.rollSeen_fixed (e : Nat) : (s.rollSeen e).fixed = s.fixed := by simp [State.rollSeen]

@[simp] theorem State.rollHead_fixed : s.rollHead.st.fixed = s.fixed := by
  simp only [State.rollHead]
  split <;> simp

@[simp] theorem State.rollNext_fixed (want : Nat → Bool) : (s.rollNext want).fixed = s.fixed := by
  simp only [State.rollNext]
  (repeat' split) <;> simp

@[simp] theorem State.rollTake_fixed (op : Nat) : (s.rollTake op).fixed = s.fixed := by simp [State.rollTake]
@[simp] theorem State.postCommand_fixed (p : RollPost) : (s.postCommand p).fixed = s.fixed := by simp [State.postCommand]
@[simp] theorem State.sweepDeadlines_fixed (j : Nat) : (s.sweepDeadlines j).fixed = s.fixed := by simp [State.sweepDeadlines]
@[simp] theorem State.rxSlip_fixed (j i new : Nat) : (s.rxSlip j i new).fixed = s.fixed := by simp [State.rxSlip]
@[simp] theorem State.rxPost_fixed (j a new : Nat) : (s.rxPost j a new).fixed = s.fixed := by simp [State.rxPost]
@[simp] theorem State.rxHeader_fixed (j : Nat) (h : List Byte) : (s.rxHeader j h).fixed = s.fixed := by simp [State.rxHeader]
@[simp] theorem State.rxCommit_fixed (j v : Nat) : (s.rxCommit j v).fixed = s.fixed := by simp [State.rxCommit]

@[simp] theorem State.rxRoll_fixed (p : Packet) : (s.rxRoll p).1.fixed = s.fixed := by
  simp only [State.rxRoll]
  (repeat' split) <;> simp

@[simp] theorem State.jcfgWrite_fixed (j v cls : Nat) : (s.jcfgWrite j v cls).fixed = s.fixed := by simp [State.jcfgWrite]
@[simp] theorem State.rolWrite_fixed (off v cls : Nat) : (s.rolWrite off v cls).fixed = s.fixed := by simp [State.rolWrite]

/-! ## Endpoint -/

@[simp] theorem State.acceptAgain_fixed (m : List Byte) (r : Request) : (s.acceptAgain m r).fixed = s.fixed := by
  simp [State.acceptAgain]
@[simp] theorem State.loadRecords_fixed (j old : Nat) : (s.loadRecords j old).fixed = s.fixed := by
  simp [State.loadRecords, -Nat.reducePow]
@[simp] theorem State.dropRecords_fixed : s.dropRecords.fixed = s.fixed := by simp [State.dropRecords]

@[simp] theorem State.restorePage_fixed (i p slot : Nat) : (s.restorePage i p slot).fixed = s.fixed := by
  refine foldl_fixed (fun t k => foldl_fixed (fun u l => ?_) _ _) _ _
  split <;> (next h => simp [fixed_of_eq h])

@[simp] theorem State.restoreHot_fixed (j : Nat) (x : SlipRecord) (rub : List Nat) (plist : Nat) (slots : List (BitVec 32)) :
    (s.restoreHot j x rub plist slots).fixed = s.fixed := by simp [State.restoreHot]

@[simp] theorem State.postAdmit_fixed (j : Nat) (m : List Byte) (plan : SubmitPlan) (image : Nat) (r : Request)
    (order : Option PrefillOrder) :
    (s.postAdmit j m plan image r order).fixed = s.fixed := by simp [State.postAdmit]

@[simp] theorem State.submitNew_fixed (j : Nat) (m : List Byte) (plan : SubmitPlan) : (s.submitNew j m plan).fixed = s.fixed := by
  simp only [State.submitNew]
  split <;> simp

@[simp] theorem State.submit_fixed (j : Nat) (m : List Byte) (plan : SubmitPlan) (adopt : Option (Fin 16)) :
    (s.submit j m plan adopt).fixed = s.fixed := by
  simp only [State.submit]
  (repeat' split) <;> simp

@[simp] theorem State.clientCancel_fixed (j : Nat) (m : List Byte) : (s.clientCancel j m).fixed = s.fixed := by
  simp only [State.clientCancel]
  (repeat' split) <;> simp

@[simp] theorem State.draft_fixed (j : Nat) (m : List Byte) : (s.draft j m).fixed = s.fixed := by
  simp only [State.draft]
  (repeat' split) <;> simp

@[simp] theorem State.deliver_fixed (j rec_ : Nat) : (s.deliver j rec_).fixed = s.fixed := by
  simp only [State.deliver]
  split <;> simp

@[simp] theorem State.seenEgress_fixed (j : Nat) : (s.seenEgress j).fixed = s.fixed := by simp [State.seenEgress]
@[simp] theorem State.tokens_fixed (j : Nat) : (s.tokens j).fixed = s.fixed := by simp [State.tokens]

end Sys2Proof.Machine
end

section
/-! SUPPORT. `State.fixed` under tiers, start-up, the epoch, received packets, updates and register writes. -/

namespace Sys2Proof.Machine

variable (s : State)

/-! ## Images -/

@[simp] theorem State.setSlot_fixed (b seq st tries : Nat) : (s.setSlot b seq st tries).fixed = s.fixed := by simp [State.setSlot]

/-! ## Tiers -/

@[simp] theorem State.usage_fixed (i tier : Nat) (up : Bool) : (s.usage i tier up).fixed = s.fixed := by simp [State.usage]
@[simp] theorem State.writable_fixed (i : Nat) (up : Bool) : (s.writable i up).fixed = s.fixed := by simp [State.writable]
@[simp] theorem State.relocate_fixed (g tier loc : Nat) : (s.relocate g tier loc).1.fixed = s.fixed := by simp [State.relocate]
@[simp] theorem State.holdLoc_fixed (g tier loc : Nat) : (s.holdLoc g tier loc).fixed = s.fixed := by simp [State.holdLoc]
@[simp] theorem State.demote_fixed (g tier loc : Nat) : (s.demote g tier loc).1.fixed = s.fixed := by simp [State.demote]

@[simp] theorem State.clock_fixed (tier : Nat) (die : Option Nat) (skip : List Nat) (n : List Nat) (s : State) :
    (State.clock tier die skip n s).1.fixed = s.fixed := by
  induction n generalizing s with
  | nil => rfl
  | cons g n ih => rw [State.clock]; simp [ih]

@[simp] theorem State.victim_fixed (i tier : Nat) (die : Option Nat) (skip : List Nat) :
    (s.victim i tier die skip).1.fixed = s.fixed := by
  simp only [State.victim]
  split <;> simp

@[simp] theorem State.demoteFrom_fixed (i : Nat) (die : Option Nat) (n : Nat) (m : List Nat) (s : State) :
    (State.demoteFrom i die n m s).1.fixed = s.fixed := by
  induction n generalizing m s with
  | zero => rfl
  | succ n ih =>
    rw [State.demoteFrom]
    split
    · rfl
    · dsimp only
      split <;> simp [ih]

@[simp] theorem State.demoteT1_fixed (i : Nat) (die : Option Nat) : (s.demoteT1 i die).1.fixed = s.fixed := by
  simp [State.demoteT1]
@[simp] theorem State.countEvict_fixed (i : Nat) : (s.countEvict i).fixed = s.fixed := by simp [State.countEvict]

@[simp] theorem State.evictFrom_fixed (die : Option Nat) (n : Nat) (m : List Nat) (s : State) :
    (State.evictFrom die n m s).1.fixed = s.fixed := by
  induction n generalizing m s with
  | zero => rfl
  | succ n ih =>
    rw [State.evictFrom]
    split <;> simp [ih]

@[simp] theorem State.evictOne_fixed (die : Option Nat) : (s.evictOne die).1.fixed = s.fixed := by simp [State.evictOne]

@[simp] theorem State.evictLoop_fixed (stop : Nat) (n : Nat) (m : Option Nat) (s : State) :
    (State.evictLoop stop n m s).1.fixed = s.fixed := by
  induction n generalizing m s with
  | zero => rfl
  | succ n ih =>
    rw [State.evictLoop]
    split
    · rfl
    · dsimp only
      split <;> simp [ih]

@[simp] theorem State.evictEvent_fixed (n : Option Nat) : (State.evictEvent s n).fixed = s.fixed := by
  simp only [State.evictEvent]
  split <;> simp

@[simp] theorem State.evict_fixed (atLeast : Nat) : (s.evict atLeast).fixed = s.fixed := by simp [State.evict]
@[simp] theorem State.roomT1_fixed (i : Nat) (die : Option Nat) : (s.roomT1 i die).1.fixed = s.fixed := by simp [State.roomT1]

@[simp] theorem State.demoteT0_fixed (i : Nat) (die : Option Nat) (n : Nat) (m : List Nat) (s : State) :
    (State.demoteT0 i die n m s).1.fixed = s.fixed := by
  induction n generalizing m s with
  | zero => rfl
  | succ n ih =>
    rw [State.demoteT0]
    split
    · simp
    · dsimp only
      split <;> simp [ih]

@[simp] theorem State.roomT0_fixed (i : Nat) (die : Option Nat) : (s.roomT0 i die).1.fixed = s.fixed := by simp [State.roomT0]

@[simp] theorem State.room_fixed (i tier : Nat) (die : Option Nat) : (s.room i tier die).1.fixed = s.fixed := by
  simp only [State.room]
  split <;> simp

@[simp] theorem State.startMove_fixed (c : TierCmd) (g tier loc : Nat) : (s.startMove c g tier loc).fixed = s.fixed := by
  simp [State.startMove]

@[simp] theorem State.tierTo_fixed (c : TierCmd) (g tier : Nat) (die : Option Nat) :
    (s.tierTo c g tier die).st.fixed = s.fixed := by
  simp only [State.tierTo]
  (repeat' split) <;> simp

@[simp] theorem State.setMarks_fixed (g : Nat) (dry pin : Bool) : (s.setMarks g dry pin).fixed = s.fixed := by
  simp [State.setMarks]

@[simp] theorem State.mapOne_fixed (c : TierCmd) (g : Nat) : (s.mapOne c g).st.fixed = s.fixed := by
  simp only [State.mapOne]
  (repeat' split) <;> simp

@[simp] theorem State.tierEnd_fixed (c : TierCmd) (outcome : Nat) (abrq : Nat) : (s.tierEnd c outcome abrq).fixed = s.fixed := by
  simp [State.tierEnd]
@[simp] theorem State.abandon_fixed (g : Nat) : (s.abandon g).fixed = s.fixed := by simp [State.abandon]

@[simp] theorem State.unmapOne_fixed (c : TierCmd) (g : Nat) : (s.unmapOne c g).fixed = s.fixed := by
  simp only [State.unmapOne]
  (repeat' split) <;> simp

@[simp] theorem State.tierOne_fixed (c : TierCmd) (g : Nat) : (s.tierOne c g).st.fixed = s.fixed := by
  simp only [State.tierOne]
  (repeat' split) <;> simp

@[simp] theorem State.setTierCmd_fixed (c : TierCmd) : (s.setTierCmd c).fixed = s.fixed := by simp [State.setTierCmd]

@[simp] theorem State.tierRun_fixed (n : Nat) (m : TierCmd) (s : State) : (State.tierRun n m s).fixed = s.fixed := by
  induction n generalizing m s with
  | zero => exact State.tierEnd_fixed ..
  | succ n ih =>
    rw [State.tierRun]
    have h := (s.seenEntry (m.gran + m.done)).tierOne_fixed m (m.gran + m.done)
    split
    · rfl
    · split <;> (next e => simpa [e, ih] using h)

@[simp] theorem State.tierSweep_fixed : s.tierSweep.fixed = s.fixed := by
  refine (State.ringsCheck_fixed _).trans (foldl_fixed (fun t c => ?_) _ _)
  split
  · rfl
  · split <;> simp

@[simp] theorem State.tierAbort_fixed (own t : Nat) : (s.tierAbort own t).1.fixed = s.fixed := by
  simp only [State.tierAbort]
  (repeat' split) <;> simp

@[simp] theorem State.tierTake_fixed (op : Nat) : (s.tierTake op).fixed = s.fixed := by
  simp only [State.tierTake]
  (repeat' split) <;> simp

@[simp] theorem State.moveDone_fixed (m : Move) : (s.moveDone m).fixed = s.fixed := by
  simp only [State.moveDone]
  (repeat' split) <;> simp

@[simp] theorem State.moveFlip_fixed (g : Nat) : (s.moveFlip g).fixed = s.fixed := by
  simp only [State.moveFlip]
  (repeat' split) <;> simp

@[simp] theorem State.demoteLoop_fixed (i : Nat) (n : Nat) (s : State) : (State.demoteLoop i n s).fixed = s.fixed := by
  induction n generalizing s with
  | zero => rfl
  | succ n ih => rw [State.demoteLoop]; simp [ih]

@[simp] theorem State.setCapT2_fixed : s.setCapT2.fixed = s.fixed := by simp [State.setCapT2]
@[simp] theorem State.mirrorT2Write_fixed (v cls : Nat) : (s.mirrorT2Write v cls).fixed = s.fixed := by simp [State.mirrorT2Write]
@[simp] theorem State.memWrite_fixed (off v cls : Nat) : (s.memWrite off v cls).fixed = s.fixed := by simp [State.memWrite]

/-! ## Start-up -/

@[simp] theorem State.preset_fixed (turn : Bool) (s : State) (e : List Byte) : (State.preset turn s e).fixed = s.fixed := by
  simp [State.preset]
@[simp] theorem State.presets_fixed (turn : Bool) (regs : List Byte) : (s.presets turn regs).fixed = s.fixed := by
  simp [State.presets]
@[simp] theorem State.takeSections_fixed (r : Reader) : (s.takeSections r).fixed = s.fixed := by simp [State.takeSections]
@[simp] theorem State.takePlan_fixed : s.takePlan.fixed = s.fixed := by simp [State.takePlan]
@[simp] theorem State.takeCopy_fixed (k : Nat) (other : Bool) : (s.takeCopy k other).fixed = s.fixed := by simp [State.takeCopy]
@[simp] theorem State.selectCopy_fixed : s.selectCopy.1.fixed = s.fixed := by simp [State.selectCopy]
@[simp] theorem State.bootSlot_fixed (b : Nat) : (s.bootSlot b).fixed = s.fixed := by simp [State.bootSlot]

@[simp] theorem State.bootFrom_fixed (n : Nat) (m : List Nat) (s : State) : (State.bootFrom n m s).1.fixed = s.fixed := by
  induction n generalizing m s with
  | zero => rfl
  | succ n ih =>
    unfold State.bootFrom
    split <;> simp [ih]

@[simp] theorem State.loaderSelect_fixed : s.loaderSelect.fixed = s.fixed := by simp [State.loaderSelect]
@[simp] theorem State.bootSelect_fixed : s.bootSelect.1.fixed = s.fixed := by simp [State.bootSelect]
@[simp] theorem State.drawNonce_fixed : s.drawNonce.fixed = s.fixed := by simp [State.drawNonce]
@[simp] theorem State.cleared_fixed (straps : BitVec 13) (feed : Bool) (kind : Nat) :
    (s.cleared straps feed kind).fixed = (s.pending, straps, feed) := rfl
@[simp] theorem State.carried_fixed (new old : State) : (new.carried old).fixed = new.fixed := by
  simp [State.carried]

@[simp] theorem State.begin_fixed (kind before : Nat) : (s.begin_ kind before).fixed = s.fixed := by
  simp only [State.begin_]
  (repeat' split) <;> simp

theorem State.powerUp_fixed (straps : BitVec 13) (feed : Bool) :
    (s.powerUp straps feed).fixed = (s.pending, straps, feed) := by
  rw [State.powerUp]
  simp

@[simp] theorem State.resetModule_fixed : s.resetModule.fixed = s.fixed := by
  rw [State.resetModule, State.begin_fixed, State.carried_fixed, State.cleared_fixed]
  rfl

@[simp] theorem State.resetQuill_fixed (v cls : Nat) : (s.resetQuill v cls).fixed = s.fixed := by simp [State.resetQuill]

@[simp] theorem State.resetCommand_fixed (v cls : Nat) : (s.resetCommand v cls).fixed = s.fixed := by
  simp only [State.resetCommand]
  (repeat' split) <;> simp

@[simp] theorem State.fillSide_fixed (a : Nat) : (s.fillSide a).fixed = s.fixed := by simp [State.fillSide]
@[simp] theorem State.fillCset_fixed : s.fillCset.fixed = s.fixed := by simp [State.fillCset]
@[simp] theorem State.memoryUp_fixed : s.memoryUp.fixed = s.fixed := by simp [State.memoryUp]
@[simp] theorem State.trialGood_fixed : s.trialGood.fixed = s.fixed := by simp [State.trialGood]
@[simp] theorem State.migrate_fixed : s.migrate.fixed = s.fixed := by simp [State.migrate]
@[simp] theorem State.eraseOld_fixed : s.eraseOld.fixed = s.fixed := by simp [State.eraseOld]

@[simp] theorem State.colophonTurn_fixed (e : Nat) : (s.colophonTurn e).fixed = s.fixed := by
  fun_cases State.colophonTurn s e
  · rfl
  · rw [State.report_fixed, State.presets_fixed, fixed_mk, State.takeSections_fixed, State.wr_fixed, State.wr_fixed,
      State.seen_fixed, State.wrb_fixed]
  · rw [State.post_fixed, State.wr_fixed, State.seen_fixed, State.wrb_fixed]

/-! ## Epoch -/

@[simp] theorem State.add64_fixed (lo hi n : Nat) : (s.add64 lo hi n).fixed = s.fixed := by simp [State.add64]

@[simp] theorem State.settle_fixed (i : Nat) : (s.settle i).fixed = s.fixed := by
  simp only [State.settle]
  (repeat' split) <;> simp

@[simp] theorem State.sheetEnergy_fixed (i qe e : Nat) : (s.sheetEnergy i qe e).fixed = s.fixed := by simp [State.sheetEnergy]
@[simp] theorem State.energyEpoch_fixed (m : EpochMeas) : (s.energyEpoch m).fixed = s.fixed := by simp [State.energyEpoch]
@[simp] theorem State.droopEpoch_fixed (e q : Nat) : (s.droopEpoch e q).fixed = s.fixed := by simp [State.droopEpoch]
@[simp] theorem State.throttleEpoch_fixed (q : Nat) : (s.throttleEpoch q).fixed = s.fixed := by simp [State.throttleEpoch]
@[simp] theorem State.ageEpoch_fixed (q count : Nat) : (s.ageEpoch q count).fixed = s.fixed := by simp [State.ageEpoch]
@[simp] theorem State.quireEpoch_fixed (e : Nat) (m : EpochMeas) (q : Nat) : (s.quireEpoch e m q).fixed = s.fixed := by
  simp [State.quireEpoch]
@[simp] theorem State.blotSlot_fixed (i p wf wb : Nat) : (s.blotSlot i p wf wb).fixed = s.fixed := by simp [State.blotSlot]
@[simp] theorem State.blotEpoch_fixed (e i : Nat) : (s.blotEpoch e i).fixed = s.fixed := by simp [State.blotEpoch]
@[simp] theorem State.busyEpoch_fixed (i : Nat) : (s.busyEpoch i).fixed = s.fixed := by simp [State.busyEpoch, -Nat.reducePow]
@[simp] theorem State.sheetEpoch_fixed (e i : Nat) : (s.sheetEpoch e i).fixed = s.fixed := by simp [State.sheetEpoch]
@[simp] theorem State.monitorEpoch_fixed (m : EpochMeas) : (s.monitorEpoch m).fixed = s.fixed := by simp [State.monitorEpoch]
@[simp] theorem State.routeTableTurn_fixed : s.routeTableTurn.fixed = s.fixed := by simp [State.routeTableTurn]
@[simp] theorem State.ductusEpoch_fixed : s.ductusEpoch.fixed = s.fixed := by simp [State.ductusEpoch]
@[simp] theorem State.beginEpoch_fixed (e : Nat) (m : EpochMeas) : (s.beginEpoch e m).fixed = s.fixed := by
  simp [State.beginEpoch]

/-! ## Received packets -/

@[simp] theorem State.perform_fixed (p : Packet) : (s.perform p).1.fixed = s.fixed := by
  simp only [State.perform]
  split <;> simp

@[simp] theorem State.serve_fixed (p : Packet) : (s.serve p).fixed = s.fixed := by simp [State.serve]
@[simp] theorem State.refuse_fixed (p : Packet) : (s.refuse p).fixed = s.fixed := by simp [State.refuse]
@[simp] theorem State.serveOrHold_fixed (p : Packet) : (s.serveOrHold p).fixed = s.fixed := by simp [State.serveOrHold]

@[simp] theorem State.rxOp_fixed (p : Packet) : (s.rxOp p).fixed = s.fixed := by
  simp only [State.rxOp]
  (repeat' split) <;> simp

@[simp] theorem State.rxPacket_fixed (p : Packet) : (s.rxPacket p).fixed = s.fixed := by
  simp only [State.rxPacket]
  (repeat' split) <;> simp

@[simp] theorem State.rxLocal_fixed (port : Nat) (p : Packet) : (s.rxLocal port p).fixed = s.fixed := by
  simp only [State.rxLocal]
  split <;> simp

@[simp] theorem State.rxBytes_fixed (port : Nat) (b : List Byte) : (s.rxBytes port b).fixed = s.fixed := by simp [State.rxBytes]
@[simp] theorem State.arrive_fixed (p : Packet) : (s.arrive p).fixed = s.fixed := by simp [State.arrive]

@[simp] theorem State.applyFlags_fixed (n : Nat) (m : BitVec 16) (s : State) : (State.applyFlags n m s).fixed = s.fixed := by
  induction n generalizing s with
  | zero => rfl
  | succ n ih =>
    rw [State.applyFlags]
    split <;> simp [ih]

@[simp] theorem State.releaseHeld_fixed (n : Nat) (m : BitVec 16) (s : State) : (State.releaseHeld n m s).fixed = s.fixed := by
  induction n generalizing s with
  | zero => rfl
  | succ n ih =>
    rw [State.releaseHeld]
    split <;> simp [ih]

/-! ## Security and updates -/

@[simp] theorem State.updStat_fixed (r : Nat) : (s.updStat r).fixed = s.fixed := by simp [State.updStat]
@[simp] theorem State.updEnd_fixed (rec_ kind outcome progress faddr abrq : Nat) :
    (s.updEnd rec_ kind outcome progress faddr abrq).fixed = s.fixed := by simp [State.updEnd]

@[simp] theorem State.updTake_fixed (resv : Bool) {f : Nat → State → State} (hf : ∀ k t, (f k t).fixed = t.fixed) :
    (s.updTake resv f).fixed = s.fixed := by
  simp [State.updTake, hf]

@[simp] theorem State.stageBegin_fixed (rec_ : Nat) (r : Reader) : (s.stageBegin rec_ r).fixed = s.fixed := by
  simp [State.stageBegin]
@[simp] theorem State.stage_fixed (resv : Bool) : (s.stage resv).fixed = s.fixed := by simp [State.stage]
@[simp] theorem State.commitUpd_fixed (resv : Bool) : (s.commitUpd resv).fixed = s.fixed := by simp [State.commitUpd]
@[simp] theorem State.discard_fixed (resv : Bool) : (s.discard resv).fixed = s.fixed := by simp [State.discard]
@[simp] theorem State.colophonWrite_fixed (resv : Bool) : (s.colophonWrite resv).fixed = s.fixed := by simp [State.colophonWrite]

@[simp] theorem State.updAbort_fixed : s.updAbort.fixed = s.fixed := by
  simp only [State.updAbort]
  (repeat' split) <;> simp

@[simp] theorem State.sectorSource_fixed (j : UpdJob) : (s.sectorSource j).1.fixed = s.fixed := by simp [State.sectorSource]
@[simp] theorem State.sectorPut_fixed (j : UpdJob) (d : List Byte) : (s.sectorPut j d).fixed = s.fixed := by
  simp [State.sectorPut]

@[simp] theorem State.placed_fixed (k : Nat) : (s.placed k).fixed = s.fixed := by
  simp only [State.placed]
  split <;> simp

@[simp] theorem State.updCommand_fixed (v cls : Nat) : (s.updCommand v cls).fixed = s.fixed := by
  simp only [State.updCommand]
  (repeat' split) <;> simp

@[simp] theorem State.showOwner_fixed : s.showOwner.fixed = s.fixed := by simp [State.showOwner]
@[simp] theorem State.ownerEnd_fixed (cmd result : Nat) : (s.ownerEnd cmd result).fixed = s.fixed := by simp [State.ownerEnd]
@[simp] theorem State.lockSet_fixed : s.lockSet.fixed = s.fixed := by simp [State.lockSet]

@[simp] theorem State.transfer_fixed (n : Nat) : (s.transfer n).1.fixed = s.fixed := by
  simp only [State.transfer]
  split <;> simp

@[simp] theorem State.enroll_fixed (t : List Byte) : (s.enroll t).1.fixed = s.fixed := by
  simp only [State.enroll]
  (repeat' split) <;> simp

@[simp] theorem State.ownerEffect_fixed (t : List Byte) : (s.ownerEffect t).1.fixed = s.fixed := by
  simp only [State.ownerEffect]
  (repeat' split) <;> simp

@[simp] theorem State.ownerCommand_fixed : s.ownerCommand.fixed = s.fixed := by simp [State.ownerCommand]
@[simp] theorem State.ownerRow_fixed (cmd : Nat) : (s.ownerRow cmd).fixed = s.fixed := by simp [State.ownerRow]

@[simp] theorem State.lockCommand_fixed (v cls : Nat) : (s.lockCommand v cls).fixed = s.fixed := by
  simp only [State.lockCommand]
  (repeat' split) <;> simp

@[simp] theorem State.attReport_fixed : s.attReport.fixed = s.fixed := by simp [State.attReport]
@[simp] theorem State.attChain_fixed : s.attChain.fixed = s.fixed := by simp [State.attChain]

@[simp] theorem State.secWrite_fixed (off v cls : Nat) : (s.secWrite off v cls).fixed = s.fixed := by
  simp only [State.secWrite]
  (repeat' split) <;> simp

/-! ## Registers -/

@[simp] theorem State.elogCfgWrite_fixed (v cls : Nat) : (s.elogCfgWrite v cls).fixed = s.fixed := by simp [State.elogCfgWrite]
@[simp] theorem State.econsWrite_fixed (v cls : Nat) : (s.econsWrite v cls).fixed = s.fixed := by simp [State.econsWrite]
@[simp] theorem State.hpop_fixed : s.hpop.fixed = s.fixed := by simp [State.hpop]
@[simp] theorem State.erlWrite_fixed (off v cls : Nat) : (s.erlWrite off v cls).fixed = s.fixed := by simp [State.erlWrite]
@[simp] theorem State.cfgWrite_fixed (off v cls : Nat) : (s.cfgWrite off v cls).fixed = s.fixed := by simp [State.cfgWrite]

@[simp] theorem State.blockWrite_fixed (off v cls : Nat) : (s.blockWrite off v cls).fixed = s.fixed := by
  simp only [State.blockWrite]
  split <;> simp

@[simp] theorem State.refuseAccess_fixed (off size : Nat) : (s.refuseAccess off size).fixed = s.fixed := by
  simp [State.refuseAccess]
@[simp] theorem State.pxyStat_fixed (k r : Nat) : (s.pxyStat k r).fixed = s.fixed := by simp [State.pxyStat]
@[simp] theorem State.proxy_fixed (k v : Nat) : (s.proxy k v).fixed = s.fixed := by simp [State.proxy]

@[simp] theorem State.regWrite_fixed (off v : Nat) : (s.regWrite off v).fixed = s.fixed := by
  simp only [State.regWrite]
  (repeat' split) <;> simp

@[simp] theorem State.regRead_fixed (off : Nat) : (s.regRead off).fixed = s.fixed := by simp [State.regRead]

end Sys2Proof.Machine
end

section
/-! SUPPORT. Every command but POWER_GOOD is a guarded action; the queue runs to its end, the straps stay (01 R24). -/

namespace Sys2Proof.Machine

/-- An outcome is that of a guarded action: well-formed operands run an action that keeps `State.fixed`, others are a fault. -/
def Guarded (wf : Bool) (s : State) (o : Host.Outcome State Fault Refusal) : Prop :=
  ∃ f : State → State, (∀ t, (f t).fixed = t.fixed) ∧ o = actIf wf s f

theorem act_guarded {s : State} {f : State → State} (hf : ∀ t, (f t).fixed = t.fixed) : Guarded true s (act s f) :=
  ⟨f, hf, rfl⟩

theorem actIf_guarded {wf : Bool} {s : State} {f : State → State} (hf : ∀ t, (f t).fixed = t.fixed) :
    Guarded wf s (actIf wf s f) :=
  ⟨f, hf, rfl⟩

theorem execLiveany_guarded (q : Fin 64) (k : Fin 8) (s : State) : Guarded true s (execLiveany q k s) := by
  refine act_guarded fun t => State.barrier_fixed _ _ _ _ _ fun r u => ?_
  have hop := u.readOp_fixed r 1 (64 * kRowblk r.d) 576
  split
  · next e =>
    rw [e] at hop
    dsimp only
    split <;> (next h => simpa [fixed_of_eq h] using hop)
  · next e => simpa [e] using hop
  · next e => simpa [e] using hop

theorem execCmp_guarded (q : Fin 64) (k : Fin 8) (s : State) : Guarded true s (execCmp q k s) := by
  refine act_guarded fun t => State.barrier_fixed _ _ _ _ _ fun r u => ?_
  have hop := u.readOp_fixed r (oSpace (kSrc0 r.d)) (oAddr r.k (kSrc0 r.d)) 8
  split <;> (next e => simpa [e] using hop)

theorem execLiveMaskSample_guarded (q : Fin 64) (k : Fin 8) (s : State) : Guarded true s (execLiveMaskSample q k s) := by
  refine act_guarded fun t => ?_
  dsimp only
  split
  · rfl
  · refine fixed_of_ite rfl ?_
    split
    · next e => simp [Got.fixed_of_wait e]
    · next e => simp [Got.fixed_of_bad e]
    · next e => split <;> (next h => simp [fixed_of_eq h, Got.fixed_of_ok e])

theorem execSyncInterval_guarded (s : State) : Guarded true s (execSyncInterval s) := by
  refine act_guarded fun t => fixed_of_ite (by simp) ?_
  extract_lets
  split <;> simp +zetaDelta

theorem execPatrolScrub_guarded (st : ScrubStore) (n : Nat) (line : Fin 1024) (read : ScrubRead) (s : State) :
    Guarded true s (execPatrolScrub st n line read s) := by
  refine act_guarded fun t => ?_
  split
  · rfl
  · extract_lets a p u l
    refine fixed_of_ite rfl ?_
    split <;> simp [u]

theorem execSectorProgrammed_guarded (ok : Bool) (s : State) : Guarded true s (execSectorProgrammed ok s) := by
  refine act_guarded fun t => ?_
  split
  · rfl
  · refine fixed_of_ite rfl (fixed_of_ite (by simp) ?_)
    split <;> (next h => simp [fixed_of_eq h])

/-- Every command but POWER_GOOD runs a guarded action, with its operands' check for a guard.  The rows are split by how they are
guarded and by whether their action starts with a match. -/
theorem exec_guarded {c : Instr} (hc : ∀ straps feed, c ≠ .powerGood straps feed) (s : State) :
    Guarded c.wellFormed s (exec c s) := by
  cases c
  case powerGood straps feed => exact absurd rfl (hc straps feed)
  case liveany q k => exact execLiveany_guarded q k s
  case cmp q k => exact execCmp_guarded q k s
  case liveMaskSample q k => exact execLiveMaskSample_guarded q k s
  case syncInterval => exact execSyncInterval_guarded s
  case patrolScrub st n line read => exact execPatrolScrub_guarded st n line read s
  case sectorProgrammed ok => exact execSectorProgrammed_guarded ok s
  case load8 | load64 | bulkr | store8 | store64 | bulkw | atomicAdd | atomicMin | atomicMax | swap | cas | flaggedStore
      | flaggedAdd | rdata | ack | refuse | bulkComplete | dispatch | poolans | close | retrow | rethdr | slip | entries
      | post | mask | header | commit | maskword | quillStore | flitReceive | ident | sync | reply | intent | tray
      | thermalSample | farEndDetect =>
    apply actIf_guarded
    intro t
    simp
  case calibrationComplete | closeComplete | gatherTimeout | pointRaiseSettled
      | portDownResend | quantumExpiry | ringmapTimeout | selftestComplete | selftestDeferredStart | strokeOverrun
      | tlostTimeout | updateComplete | vtimeout | yieldExpiry =>
    apply act_guarded
    intro t
    split <;> simp
  case descriptorComplete | e2eResend | mirrorStepComplete =>
    apply act_guarded
    intro t
    dsimp only
    split <;> simp
  all_goals
    apply act_guarded
    intro t
    simp

theorem actIf_fixed {wf : Bool} {s t : State} {f : State → State} (hf : ∀ u, (f u).fixed = u.fixed)
    (h : actIf wf s f = .next t) : t.fixed = s.fixed := by
  cases wf with
  | false => cases h
  | true =>
    cases h
    exact fixed_of_ite (hf s) rfl

/-- No command but POWER_GOOD changes the queue, the latched straps or the latched feed class. -/
theorem exec_fixed {c : Instr} {s t : State} (hc : ∀ straps feed, c ≠ .powerGood straps feed) (h : exec c s = .next t) :
    t.fixed = s.fixed := by
  obtain ⟨f, hf, he⟩ := exec_guarded hc s
  exact actIf_fixed hf (he ▸ h)

theorem exec_powerGood_fixed {straps : BitVec 13} {feed : Bool} {s t : State} (h : exec (.powerGood straps feed) s = .next t) :
    t.fixed = (s.pending, straps, feed) := by
  cases h
  exact s.powerUp_fixed straps feed

theorem exec_pending {c : Instr} {s t : State} (h : exec c s = .next t) : t.pending = s.pending := by
  by_cases hc : ∃ straps feed, c = .powerGood straps feed
  · obtain ⟨straps, feed, rfl⟩ := hc
    exact congrArg Prod.fst (exec_powerGood_fixed h)
  · exact congrArg Prod.fst (exec_fixed (fun straps feed e => hc ⟨straps, feed, e⟩) h)

theorem exec_completes {c : Instr} (hc : c.wellFormed = true) (s : State) : Completes c s := by
  by_cases hp : ∃ straps feed, c = .powerGood straps feed
  · obtain ⟨straps, feed, rfl⟩ := hp
    exact ⟨_, rfl⟩
  · obtain ⟨f, -, he⟩ := exec_guarded (fun straps feed e => hp ⟨straps, feed, e⟩) s
    exact ⟨_, by rw [he, hc, actIf, if_pos rfl, act]⟩

theorem step_of_pending {c : Instr} {rest : List Instr} {s : State} (h : s.pending = c :: rest) :
    step s = exec c { s with pending := rest } := by rw [step, h]

/-- Each step takes the command at the front, and leaves the queue's rest as it was. -/
theorem runs_of_wellFormed {q : List Instr} (hq : ∀ c ∈ q, c.wellFormed = true) {s : State} (hs : s.pending = q) :
    ∃ t, Runs q.length s t ∧ t.pending = [] := by
  induction q generalizing s with
  | nil => exact ⟨s, rfl, hs⟩
  | cons c rest ih =>
    obtain ⟨hc, hrest⟩ := List.forall_mem_cons.mp hq
    obtain ⟨u, hu⟩ := exec_completes hc { s with pending := rest }
    obtain ⟨t, hrun, ht⟩ := ih hrest (exec_pending hu)
    exact ⟨t, ⟨u, (step_of_pending hs).trans hu, hrun⟩, ht⟩

/-- Settles O6: no command changes the queue, and a well-formed one completes in any state; then by induction on the queue. -/
theorem queueRunsToEnd : Obligations.QueueRunsToEnd := by
  unfold Obligations.QueueRunsToEnd
  exact ⟨fun _ _ _ => exec_pending, fun _ hs => runs_of_wellFormed hs rfl⟩

theorem exec_strapchg_powered {s : State} (hp : s.powered = true) (straps : BitVec 13) :
    exec (.strapchg straps) s =
      .next (if straps = s.strapPins then s
        else ({ s with strapPins := straps } : State).post 0x0004 [s.straps.toNat, straps.toNat]) :=
  act_powered hp fun s =>
    if straps = s.strapPins then s else ({ s with strapPins := straps } : State).post 0x0004 [s.straps.toNat, straps.toNat]

/-- Settles O4: POWER_GOOD alone sets the latched straps; STRAPCHG sets the pins and posts an event, which reaches the log
alone. -/
theorem strapsLatched : Obligations.StrapsLatched := by
  unfold Obligations.StrapsLatched
  refine ⟨fun straps feed s t h => ?_, fun c s t hc h => ?_, fun straps s hp hne => ?_, fun s hp => ?_⟩
  · exact Prod.mk.inj (congrArg Prod.snd (exec_powerGood_fixed h))
  · exact Prod.mk.inj (congrArg Prod.snd (exec_fixed hc h))
  · exact ⟨_, rfl, (exec_strapchg_powered hp straps).trans (by rw [if_neg hne]), State.post_logOnly ..⟩
  · exact (exec_strapchg_powered hp _).trans (by rw [if_pos rfl])

end Sys2Proof.Machine
end

section
/-! SUPPORT. The engines under a boot; POWER_GOOD and MODULE_RESET (16_startup_config.md R646, R650). -/

namespace Sys2Proof.Machine

/-- What the engines hold, with what a reset keeps beside the latched straps: power, serial number and LEAVING. -/
structure Engines where
  powered : Bool
  serial : W64
  quires : Map QuireRt
  sheets : Map SheetRt
  dma : List DmaOp
  outOps : List OutOp
  gathers : List Gather
  windows : Map WinEnt
  moves : List Move
  bulks : List BulkJob
  tierCmds : List TierCmd
  freeing : Map (Nat × Nat)
  selftest : Option SelfTest
  calib : List Calib
  leaving : Bool

/-- The engines of a module. -/
def State.engines (s : State) : Engines :=
  ⟨s.powered, s.chip.serial, s.quires, s.sheets, s.dma, s.outOps, s.gathers, s.windows, s.moves, s.bulks, s.tierCmds, s.freeing,
    s.selftest, s.calib, s.power.leaving⟩

/-- The engines of a powered module with nothing in any of them. -/
def Engines.empty (serial : W64) (leaving : Bool) : Engines :=
  ⟨true, serial, [], [], [], [], [], [], [], [], [], [], none, [], leaving⟩

/-- An update of any other fields keeps what the engines hold. -/
@[simp] theorem engines_mk (s : State) x0 x1 x4 x5 x6 x7 x8 x9 x10 x11 x12 x13 x14 x15 x16 x17 x18 x20 x21 x26 x28 x29 x30 x31
    x33 x34 x36 x37 x38 x41 x42 x43 x44 x45 x46 x47 x48 x49 x51 x52 x55 x56 x57 x58 x59 x60 x61 x62 :
    (State.mk x0 x1 s.powered s.chip x4 x5 x6 x7 x8 x9 x10 x11 x12 x13 x14 x15 x16 x17 x18 s.quires x20 x21 s.sheets s.tierCmds
      s.moves s.freeing x26 s.dma x28 x29 x30 x31 s.windows x33 x34 s.outOps x36 x37 x38 s.gathers s.bulks x41 x42 x43 x44
      x45 x46 x47 x48 x49 s.power x51 x52 s.selftest s.calib x55 x56 x57 x58 x59 x60 x61 x62).engines = s.engines := by
  rw [State.engines, State.engines]

@[simp] theorem engines_ite (c : Prop) [Decidable c] (s t : State) :
    (if c then s else t).engines = if c then s.engines else t.engines := apply_ite State.engines c s t

@[simp] theorem fst_engines_ite {β : Type} (c : Prop) [Decidable c] (p q : State × β) :
    (if c then p else q).1.engines = if c then p.1.engines else q.1.engines := apply_ite (fun p => p.1.engines) c p q

theorem engines_of_ite {c : Prop} [Decidable c] {s t : State} {k : Engines} (hs : s.engines = k) (ht : t.engines = k) :
    (if c then s else t).engines = k := by
  split
  · exact hs
  · exact ht

@[simp] theorem foldl_engines {α : Type} {f : State → α → State} (hf : ∀ s x, (f s x).engines = s.engines) (l : List α)
    (s : State) : (l.foldl f s).engines = s.engines := by
  induction l generalizing s with
  | nil => rfl
  | cons x l ih => exact (ih (f s x)).trans (hf s x)

theorem LogOnly.engines {s t : State} (h : LogOnly s t) : t.engines = s.engines := by
  rw [h.rest, engines_mk]

section
variable (s : State)

@[simp] theorem State.wrw_engines (off : Nat) (w : W32) : (s.wrw off w).engines = s.engines := by rw [State.wrw, engines_mk]
@[simp] theorem State.wr_engines (off hi lo v : Nat) : (s.wr off hi lo v).engines = s.engines := s.wrw_engines ..
@[simp] theorem State.wrb_engines (off i : Nat) (b : Bool) : (s.wrb off i b).engines = s.engines := s.wr_engines ..
@[simp] theorem State.bump_engines (off n : Nat) : (s.bump off n).engines = s.engines := s.wrw_engines ..
@[simp] theorem State.bumpSat_engines (off n : Nat) : (s.bumpSat off n).engines = s.engines := s.wrw_engines ..
@[simp] theorem State.wr64_engines (lo hi v : Nat) : (s.wr64 lo hi v).engines = s.engines := by
  rw [State.wr64, State.wrw_engines, State.wrw_engines]
@[simp] theorem State.post_engines (code : Nat) (args : List Nat) : (s.post code args).engines = s.engines :=
  (s.post_logOnly code args).engines
@[simp] theorem State.logWrite_engines (off v cls : Nat) : (s.logWrite off v cls).engines = s.engines := s.post_engines ..
@[simp] theorem State.setPort_engines (p : Nat) (r : PortRt) : (s.setPort p r).engines = s.engines := by simp [State.setPort]
@[simp] theorem State.setPortStat_engines (p st width lanes : Nat) : (s.setPortStat p st width lanes).engines = s.engines := by
  simp [State.setPortStat]
@[simp] theorem State.pumpCount_engines (p : Nat) : (s.pumpCount p).1.engines = s.engines := by simp [State.pumpCount]
@[simp] theorem State.pump_engines (p : Nat) : (s.pump p).engines = s.engines := by simp [State.pump]
@[simp] theorem State.sendVl_engines (path vl : Nat) (p : Packet) : (s.sendVl path vl p).engines = s.engines := by
  simp [State.sendVl]
@[simp] theorem State.send_engines (path : Nat) (p : Packet) : (s.send path p).engines = s.engines := by simp [State.send]
@[simp] theorem State.report_engines : s.report.engines = s.engines := by simp [State.report]
@[simp] theorem State.setSvc_engines (v : Nat) : (s.setSvc v).engines = s.engines := by simp [State.setSvc]
@[simp] theorem State.portsChanged_engines : s.portsChanged.engines = s.engines := by simp [State.portsChanged]
@[simp] theorem State.sendRingmap_engines : s.sendRingmap.engines = s.engines := by simp [State.sendRingmap]
@[simp] theorem State.portChanged_engines (p : Nat) : (s.portChanged p).engines = s.engines := by simp [State.portChanged]
@[simp] theorem State.flashWrite_engines (a : Nat) (bs : List Byte) : (s.flashWrite a bs).engines = s.engines := by
  simp [State.flashWrite]
@[simp] theorem State.setSlot_engines (b seq st tries : Nat) : (s.setSlot b seq st tries).engines = s.engines := by
  simp [State.setSlot]
@[simp] theorem State.setActive_engines (k : Nat) (m : Measured) : (s.setActive k m).engines = s.engines := by
  simp [State.setActive]
@[simp] theorem State.setCapT2_engines : s.setCapT2.engines = s.engines := by simp [State.setCapT2]
@[simp] theorem State.preset_engines (turn : Bool) (s : State) (e : List Byte) : (State.preset turn s e).engines = s.engines := by
  simp [State.preset]
@[simp] theorem State.presets_engines (turn : Bool) (regs : List Byte) : (s.presets turn regs).engines = s.engines := by
  simp [State.presets]
@[simp] theorem State.takeSections_engines (r : Reader) : (s.takeSections r).engines = s.engines := by simp [State.takeSections]
@[simp] theorem State.takePlan_engines : s.takePlan.engines = s.engines := by simp [State.takePlan]
@[simp] theorem State.takeCopy_engines (k : Nat) (other : Bool) : (s.takeCopy k other).engines = s.engines := by
  simp [State.takeCopy]
@[simp] theorem State.selectCopy_engines : s.selectCopy.1.engines = s.engines := by simp [State.selectCopy]

@[simp] theorem State.bootSlot_engines (b : Nat) : (s.bootSlot b).engines = s.engines :=
  (State.wrb_engines ..).trans ((State.wrb_engines ..).trans
    ((foldl_engines (fun t k => t.setActive_engines k _) _ _).trans rfl))

@[simp] theorem State.bootFrom_engines (n : Nat) (m : List Nat) (s : State) : (State.bootFrom n m s).1.engines = s.engines := by
  induction n generalizing m s with
  | zero => rfl
  | succ n ih =>
    unfold State.bootFrom
    split <;> simp [ih]

@[simp] theorem State.loaderSelect_engines : s.loaderSelect.engines = s.engines := by simp [State.loaderSelect]
@[simp] theorem State.bootSelect_engines : s.bootSelect.1.engines = s.engines := by simp [State.bootSelect]
@[simp] theorem State.cableRefresh_engines (p : Nat) : (s.cableRefresh p).engines = s.engines := by simp [State.cableRefresh]

end

/-- Nothing is outstanding and no gather collects writes, so a lost position has nothing to end. -/
def Engines.Quiet (e : Engines) : Prop := e.outOps = [] ∧ e.gathers = []

theorem foldl_engines_eq {α : Type} {f : State → α → State} {k : Engines}
    (hf : ∀ s x, s.engines = k → (f s x).engines = k) (l : List α) {s : State} (hs : s.engines = k) :
    (l.foldl f s).engines = k := by
  induction l generalizing s with
  | nil => exact hs
  | cons x l ih => exact ih (hf s x hs)

@[simp] theorem State.releaseWaiting_engines {s : State} (hs : s.engines.Quiet) : s.releaseWaiting.engines = s.engines := by
  have h : s.outOps = [] := hs.1
  simp [State.releaseWaiting, h]

theorem State.markLost_engines {s : State} (hs : s.engines.Quiet) (pos : Nat) : (s.markLost pos).engines = s.engines := by
  have ho : s.outOps = [] := hs.1
  have hg : s.gathers = [] := hs.2
  have hclear (heldFlags heldPkts : List Packet) (peers : Map Peer) :
      ({ s with outOps := [], gathers := [], heldFlags := heldFlags, heldPkts := heldPkts, peers := peers } : State).engines =
        s.engines := by
    rw [← ho, ← hg]
    simp
  rw [State.markLost]
  refine engines_of_ite rfl ?_
  simp [State.setPeer, State.loseOps, ho, hg, hs, hclear]

theorem State.lostSince_engines (s₀ : State) {s : State} (hs : s.engines.Quiet) : (s₀.lostSince s).engines = s.engines := by
  rw [State.lostSince]
  refine foldl_engines_eq (fun t n ht => ?_) _ rfl
  have := State.markLost_engines (ht ▸ hs : t.engines.Quiet) (idxPos n)
  simp [this, ht]

theorem State.holdPort_engines {s : State} (hs : s.engines.Quiet) (p : Nat) : (s.holdPort p).engines = s.engines := by
  rw [State.holdPort]
  refine engines_of_ite ((State.lostSince_engines _ ?_).trans ?_) rfl <;> simp [hs]

@[simp] theorem State.startFails_engines {s : State} (hs : s.engines.Quiet) (code : Nat) :
    (s.startFails code).engines = s.engines := by
  have hfold (t : State) (ht : t.engines = s.engines) : ((List.range 10).foldl State.holdPort t).engines = s.engines :=
    foldl_engines_eq (fun u p hu => (State.holdPort_engines (hu ▸ hs) p).trans hu) _ ht
  rw [State.startFails]
  refine engines_of_ite (hfold _ ?_) ((State.setSvc_engines ..).trans (hfold _ ?_)) <;> simp

/-- A start-up that stops leaves what a quiet state holds. -/
theorem State.startFails_engines_eq {s t : State} (ht : t.engines = s.engines) (hs : s.engines.Quiet) (code : Nat) :
    (t.startFails code).engines = s.engines := (State.startFails_engines (ht ▸ hs) code).trans ht

theorem State.begin_engines {s : State} (hs : s.engines.Quiet) (kind before : Nat) :
    (s.begin_ kind before).engines = s.engines := by
  fun_cases State.begin_ s kind before
  · exact State.startFails_engines_eq (by simp +zetaDelta) hs 1
  · exact State.startFails_engines_eq (by simp +zetaDelta) hs 5
  · simp +zetaDelta
  · exact State.startFails_engines_eq (by simp +zetaDelta) hs 2

theorem Engines.empty_quiet (serial : W64) (leaving : Bool) : (Engines.empty serial leaving).Quiet := ⟨rfl, rfl⟩

theorem State.cleared_engines (s : State) (straps : BitVec 13) (feed : Bool) (kind : Nat) :
    (s.cleared straps feed kind).engines = .empty s.chip.serial false := rfl

theorem power_ports_engines (s : State) (p : PowerRt) (ports : Map PortRt) :
    ({ s with power := p, ports := ports } : State).engines = { s.engines with leaving := p.leaving } := rfl

theorem State.carried_engines (new old : State) :
    (new.carried old).engines = { new.engines with leaving := old.power.leaving } := by
  rw [State.carried]
  simp [power_ports_engines]

theorem State.powerUp_engines (s : State) (straps : BitVec 13) (feed : Bool) :
    (s.powerUp straps feed).engines = .empty s.chip.serial false := by
  have h : (State.wr { s.cleared straps feed 0 with strapPins := straps } Reg.SB_STAT 27 23 31).engines =
      .empty s.chip.serial false := by simp [State.cleared_engines]
  exact (State.begin_engines (h ▸ Engines.empty_quiet ..) 0 0).trans h

theorem State.resetModule_engines (s : State) : s.resetModule.engines = .empty s.chip.serial s.power.leaving := by
  have h : ((s.lostSelf.cleared s.lostSelf.straps s.lostSelf.feed 1).carried s.lostSelf).engines =
      .empty s.chip.serial s.power.leaving := by
    rw [State.carried_engines, State.cleared_engines]
    rfl
  exact (State.begin_engines (h ▸ Engines.empty_quiet ..) 1 _).trans h

/-- Settles O8: both rows clear the module and boot it; the boot changes no engine, as none holds anything. -/
theorem resetRows : Obligations.ResetRows := by
  unfold Obligations.ResetRows
  refine ⟨fun straps feed s => ⟨_, rfl, ?_⟩, fun s hp => ⟨_, act_powered hp _, ?_⟩⟩
  · have he := s.powerUp_engines straps feed
    have hf := s.powerUp_fixed straps feed
    simp only [State.engines, Engines.empty, State.fixed, Engines.mk.injEq, Prod.mk.injEq] at he hf
    simp [he, hf]
  · have he := s.resetModule_engines
    have hf := s.resetModule_fixed
    simp only [State.engines, Engines.empty, State.fixed, Engines.mk.injEq, Prod.mk.injEq] at he hf
    simp [he, hf]

end Sys2Proof.Machine
end

section
/-! SUPPORT. What the command of a stroke does, by the stroke its scribe stands at (03_scribe.md R95; 04_strokes.md R120, R157, R164,
R165). -/

namespace Sys2Proof.Machine

/-! ## A stroke -/

theorem State.stroke_idle {s : State} {q : Nat} (h : s.runsOn q = none) (k op : Nat) (sub : Nat → Bool) (f : Run → State → State) :
    s.stroke q k op sub f = s := by
  rw [State.stroke, h]

/-- The checks of a fetched stroke in their order. -/
theorem State.stroke_fetched {s : State} {q k i c : Nat} {e : Fetched} {r : Run} (hrun : s.runsOn q = some (i, c))
    (he : e = State.seek i k scriptFuel (s.scribe (8 * q + k)).pc s) (hr : r = ⟨i, c, q, k, e.pc, e.d⟩) (op : Nat)
    (sub : Nat → Bool) (f : Run → State → State) :
    s.stroke q k op sub f =
      if e.cause != 0 then e.st.strokeFault r e.cause 0
      else if !(opDefined (kOp e.d) (kSub e.d)) then e.st.strokeFault r 0x01 0
      else if kOp e.d != op || !(sub (kSub e.d)) then s
      else if fetchCause k e.d != 0 then e.st.strokeFault r (fetchCause k e.d) 0
      else if e.st.skipped q e.d then e.st.passed r (r.pc + 64) false
      else f r e.st := by
  subst hr he
  rw [State.stroke, hrun]

/-- A stroke that breaks no check runs, unless its predicate skips it. -/
theorem State.stroke_standsAt {s u : State} {q k op : Nat} {sub : Nat → Bool} {r : Run} (h : StandsAt s q k op sub r u)
    (f : Run → State → State) : s.stroke q k op sub f = if u.skipped q r.d then u.passed r (r.pc + 64) false else f r u := by
  obtain ⟨i, c, hrun, hcause, rfl, hr, hdef, hop, hsub, hfetch⟩ := h
  rw [State.stroke_fetched hrun rfl hr]
  generalize State.seek i k scriptFuel (s.scribe (8 * q + k)).pc s = e at *
  subst hr hop
  simp only [hcause, hdef, hsub, hfetch, bne_self_eq_false, Bool.not_true, Bool.or_self, Bool.false_eq_true, if_false]

theorem State.stroke_mayRun {s u : State} {q k op : Nat} {sub : Nat → Bool} {r : Run} (h : MayRun s q k op sub r u)
    (f : Run → State → State) : s.stroke q k op sub f = f r u := by
  rw [State.stroke_standsAt h.1, h.2, if_neg Bool.false_ne_true]

theorem MayRun.kSub_eq {s u : State} {q k op n : Nat} {r : Run} (h : MayRun s q k op (· == n) r u) : kSub r.d = n := by
  obtain ⟨⟨i, c, _, _, _, _, _, _, hsub, _⟩, _⟩ := h
  exact beq_iff_eq.mp hsub

/-! ## A stroke that computes -/

section Compute

variable {s u v : State} {q k op lost : Nat} {sub : Nat → Bool} {r : Run} (h : MayRun s q k op sub r u)
  {f : Run → State → Got Done}
include h

theorem State.compute_ok {x : Done} (hf : f r u = .ok v x) : s.compute q k op sub lost f = v.boundary r lost x := by
  rw [State.compute, State.stroke_mayRun h, hf]

theorem State.compute_wait (hf : f r u = .wait v) : s.compute q k op sub lost f = v := by
  rw [State.compute, State.stroke_mayRun h, hf]

theorem State.compute_bad {c a : Nat} (hf : f r u = .bad v c a) : s.compute q k op sub lost f = v.strokeFault r c a := by
  rw [State.compute, State.stroke_mayRun h, hf]

end Compute

@[simp] theorem Got.ok_bind {α β : Type} (s : State) (v : α) (f : State → α → Got β) : (Got.ok s v).bind f = f s v := rfl

/-- A block with M = 0 reads nothing more (04_strokes.md R134, R158). -/
theorem State.withRows_empty {s t : State} {r : Run} {x : Rows} (h : s.readRows r = .ok t x) (hm : x.m = 0) (d : Done)
    (f : State → Rows → Got Done) : s.withRows r d f = .ok t d := by
  rw [State.withRows, h, Got.ok_bind, if_pos hm]

theorem State.withRows_rows {s t : State} {r : Run} {x : Rows} (h : s.readRows r = .ok t x) (hm : x.m ≠ 0) (d : Done)
    (f : State → Rows → Got Done) : s.withRows r d f = f t x := by
  rw [State.withRows, h, Got.ok_bind, if_neg hm]

/-- A boundary with nothing to write and no cycles lost is passed. -/
theorem State.boundary_none (s : State) (r : Run) : s.boundary r 0 Done.none = s.passed r (r.pc + 64) true := rfl

/-! ## The commands of strokes -/

/-- A command that computes a stroke runs that stroke on a powered module. -/
theorem exec_of_mem_computeRows {row : StrokeCmd × Nat × (Nat → Bool) × (Run → State → Got Done)} (h : row ∈ computeRows)
    {s : State} (hp : s.powered = true) (q : Fin 64) (k : Fin 8) (lost : Nat) :
    exec (row.1 q k lost) s = .next (s.compute q.val k.val row.2.1 row.2.2.1 lost row.2.2.2) := by
  suffices hact : exec (row.1 q k lost) s = act s fun s => s.compute q.val k.val row.2.1 row.2.2.1 lost row.2.2.2 from
    hact.trans (act_powered hp _)
  revert row
  simp only [computeRows, vecRows, List.map_cons, List.map_nil, List.cons_append, List.nil_append, List.forall_mem_cons,
    List.not_mem_nil, false_imp_iff, implies_true, and_true]
  and_intros <;> rfl

theorem exec_of_mem_waitRows {row : (Fin 64 → Fin 8 → Instr) × Nat × (Nat → Nat → W64 → Prop)} (h : row ∈ waitRows)
    {s : State} (hp : s.powered = true) (q : Fin 64) (k : Fin 8) :
    exec (row.1 q k) s = .next (s.stroke q.val k.val 0x10 (· == row.2.1) fun r s => s.waitAt r) := by
  suffices hact : exec (row.1 q k) s = act s fun s => s.stroke q.val k.val 0x10 (· == row.2.1) fun r s => s.waitAt r from
    hact.trans (act_powered hp _)
  revert row
  simp only [waitRows, List.forall_mem_cons]
  exact ⟨rfl, rfl, rfl, rfl, List.forall_mem_nil _⟩

/-- Every command of a stroke runs something at that stroke on a powered module. -/
theorem exec_of_mem_strokeRows {row : StrokeCmd × Nat × (Nat → Bool)} (h : row ∈ strokeRows) {s : State}
    (hp : s.powered = true) (q : Fin 64) (k : Fin 8) (lost : Nat) :
    ∃ f, exec (row.1 q k lost) s = .next (s.stroke q.val k.val row.2.1 row.2.2 f) := by
  rw [strokeRows, List.mem_append, List.mem_append] at h
  rcases h with (h | h) | h
  · obtain ⟨x, hx, rfl⟩ := List.mem_map.mp h
    exact ⟨_, exec_of_mem_computeRows hx hp q k lost⟩
  · obtain ⟨x, hx, rfl⟩ := List.mem_map.mp h
    exact ⟨_, exec_of_mem_waitRows hx hp q k⟩
  · suffices hact : ∃ f, exec (row.1 q k lost) s = act s fun s => s.stroke q.val k.val row.2.1 row.2.2 f from
      hact.imp fun f hf => hf.trans (act_powered hp _)
    revert row
    simp only [List.forall_mem_cons]
    exact ⟨⟨_, rfl⟩, ⟨_, rfl⟩, ⟨_, rfl⟩, ⟨_, rfl⟩, ⟨_, rfl⟩, ⟨_, rfl⟩, ⟨_, rfl⟩, ⟨_, rfl⟩, List.forall_mem_nil _⟩

/-- A stroke of a tensor, attention or vector opcode is one with rows. -/
theorem computeRows_withRows {row : StrokeCmd × Nat × (Nat → Bool) × (Run → State → Got Done)} (h : row ∈ computeRows)
    (hop : row.2.1 ∉ [0x08, 0x09, 0x0A]) (r : Run) (s : State) : ∃ f, row.2.2.2 r s = s.withRows r Done.none f := by
  revert row
  simp only [computeRows, vecRows, List.map_cons, List.map_nil, List.cons_append, List.nil_append, List.forall_mem_cons,
    List.not_mem_nil, false_imp_iff, implies_true, and_true]
  simp only [List.mem_cons, List.not_mem_nil, Nat.reduceEqDiff, or_false, false_or, not_true_eq_false, not_false_eq_true,
    false_imp_iff, true_imp_iff, true_and]
  and_intros <;> exact ⟨_, rfl⟩

/-- Settles O15: every row is `State.stroke`, whose checks are those of the statement; one that computes ends as its operands do. -/
theorem computeStrokes : Obligations.ComputeStrokes := by
  unfold Obligations.ComputeStrokes
  refine ⟨fun row hrow q k lost s u r hp hm => ?_, fun row hrow q k lost s u r hp hs hskip => ?_,
    fun row hrow hop q k lost s u v r x hp hm hrows hx => ?_, fun row hrow q k lost s hp => ⟨fun hrun => ?_, ?_⟩,
    fun q k lost s u r hp hm => ?_⟩
  · rw [exec_of_mem_computeRows hrow hp]
    exact ⟨fun v x hf => by rw [State.compute_ok hm hf], fun v hf => by rw [State.compute_wait hm hf],
      fun v c a hf => by rw [State.compute_bad hm hf]⟩
  · obtain ⟨f, hf⟩ := exec_of_mem_strokeRows hrow hp q k lost
    rw [hf, State.stroke_standsAt hs, if_pos hskip]
  · obtain ⟨f, hf⟩ := computeRows_withRows hrow hop r u
    rw [exec_of_mem_computeRows hrow hp, State.compute_ok hm (hf.trans (State.withRows_empty hrows hx _ f))]
  · obtain ⟨f, hf⟩ := exec_of_mem_strokeRows hrow hp q k lost
    rw [hf, State.stroke_idle hrun]
  · intro i c e r hrun he hr
    obtain ⟨f, hf⟩ := exec_of_mem_strokeRows hrow hp q k lost
    rw [hf, State.stroke_fetched hrun he hr]
    refine ⟨fun hcause => ?_, fun hcause hdef => ?_, fun hcause hdef hother => ?_, fun hcause hdef hop hsub hfetch => ?_⟩
    · simp [hcause]
    · simp [hcause, hdef]
    · rcases hother with h | h <;> simp [hcause, hdef, h]
    · simp_all
  · have hnop : exec (.nop q k lost) s = .next (s.compute q.val k.val 0x00 (fun _ => true) 0 fun _ s => .ok s Done.none) :=
      act_powered hp fun s => s.compute q.val k.val 0x00 (fun _ => true) 0 fun _ s => .ok s Done.none
    rw [hnop, State.compute_ok hm rfl, State.boundary_none]

end Sys2Proof.Machine
end

section
/-! SUPPORT. What a VEC stroke makes of its operands (04_strokes.md R145). -/

namespace Sys2Proof.Machine

/-! ## The rows of R145 -/

theorem vecOp_of_mem_vecRows {row : StrokeCmd × Nat × (W32 → W32 → W32 → W32 → W32)} (h : row ∈ vecRows) :
    vecOp row.2.1 = row.2.2 := by
  revert row
  simp only [vecRows, List.forall_mem_cons, List.not_mem_nil, false_imp_iff, implies_true, and_true]
  and_intros <;> rfl

/-- A VEC command runs `vecStroke` under its own sub-operation. -/
theorem exec_of_mem_vecRows {row : StrokeCmd × Nat × (W32 → W32 → W32 → W32 → W32)} (h : row ∈ vecRows) {s : State}
    (hp : s.powered = true) (q : Fin 64) (k : Fin 8) (lost : Nat) :
    exec (row.1 q k lost) s = .next (s.compute q.val k.val 0x04 (· == row.2.1) lost vecStroke) :=
  exec_of_mem_computeRows (row := (row.1, 0x04, (· == row.2.1), vecStroke))
    (List.mem_append_right _ (List.mem_map_of_mem h)) hp q k lost

/-! ## Its operands -/

theorem vecTileB_iff (sub : Nat) : vecTileB sub = true ↔ sub ≤ 5 ∨ sub = 7 := by simp [vecTileB]

theorem vecColB_iff (sub : Nat) : vecColB sub = true ↔ sub = 12 ∨ sub = 13 := by simp [vecColB]

theorem vecTileC_iff (sub : Nat) : vecTileC sub = true ↔ sub = 3 ∨ sub = 7 := by simp [vecTileC]

/-- An operand that is read under a condition, and is empty else. -/
theorem Got.optional_ok {α : Type} {p : Prop} [Decidable p] {b : Bool} (hb : b = true ↔ p) {g : Got (List α)} {s t : State}
    {v : List α} (h : if p then g = .ok t v else t = s ∧ v = []) : (if b then g else .ok s []) = .ok t v := by
  by_cases hp : p
  · rw [if_pos hp] at h
    rw [if_pos (hb.mpr hp), h]
  · rw [if_neg hp] at h
    obtain ⟨rfl, rfl⟩ := h
    rw [if_neg fun hb' => hp (hb.mp hb')]

/-- Settles O16: the operands are read one after another, and each row's function is `vecOp` at its sub-operation. -/
theorem vecValues : Obligations.VecValues := by
  unfold Obligations.VecValues
  intro row hrow q k lost s u u1 u2 u3 u4 u5 u6 r x rc fa fb fc cb hp hm hrows hx hrc hfa hfb hcb hfc
  refine ⟨_, rfl, ?_⟩
  have hsub : kSub r.d = row.2.1 := hm.kSub_eq
  rw [exec_of_mem_vecRows hrow hp, State.compute_ok hm]
  rw [vecStroke]
  dsimp only
  rw [State.withRows_rows hrows hx, hrc, Got.ok_bind, hfa, Got.ok_bind, hsub, Got.optional_ok (vecTileB_iff _) hfb, Got.ok_bind,
    Got.optional_ok (vecColB_iff _) hcb, Got.ok_bind, Got.optional_ok (vecTileC_iff _) hfc, Got.ok_bind,
    vecOp_of_mem_vecRows hrow]
  simp only [vecColB_iff]

end Sys2Proof.Machine
end

section
/-! SUPPORT. What a passed boundary changes, and where the bytes of an output to a well go (03_scribe.md R104, R108, R116). -/

namespace Sys2Proof.Machine

/-- What every step of a fold keeps, the fold keeps. -/
theorem foldl_keeps {α β : Type} (p : State → β) {f : State → α → State} {l : List α} (hf : ∀ x ∈ l, ∀ s, p (f s x) = p s)
    (s : State) : p (l.foldl f s) = p s := by
  induction l generalizing s with
  | nil => rfl
  | cons x l ih =>
    rw [List.forall_mem_cons] at hf
    exact (ih hf.2 _).trans (hf.1 s)

/-! ## Sequencers and quires in their maps -/

@[simp] theorem State.scribe_setScribe (s : State) (n : Nat) (x : ScribeRt) : (s.setScribe n x).scribe n = x :=
  Map.getD_set_same ..

theorem State.scribe_setScribe_ne (s : State) {n m : Nat} (x : ScribeRt) (h : m ≠ n) :
    (s.setScribe n x).scribe m = s.scribe m := Map.getD_set_ne _ _ _ h

@[simp] theorem State.quire_setQuire (s : State) (q : Nat) (x : QuireRt) : (s.setQuire q x).quire q = x := Map.getD_set_same ..

theorem State.scribe_congr {s t : State} (h : t.scribes = s.scribes) (n : Nat) : t.scribe n = s.scribe n := by
  rw [State.scribe, h, State.scribe]

/-! ## The state of a quire -/

theorem State.setQuireState_word (s : State) {o q : Nat} (st : Nat) (h : o ≠ Reg.QUIRE_STAT q) :
    (s.setQuireState q st).word o = s.word o := by
  rw [State.setQuireState]
  split
  · exact s.word_wr_ne 2 0 st h
  · rfl

theorem State.setQuireState_mem (s : State) (q st : Nat) : (s.setQuireState q st).mem = s.mem := by
  rw [State.setQuireState]
  split <;> rfl

theorem State.setQuireState_scribes (s : State) (q st : Nat) : (s.setQuireState q st).scribes = s.scribes := by
  rw [State.setQuireState]
  split <;> rfl

/-- Writing the watch mask of a quire leaves the state it is in. -/
theorem State.quireUnder_wr_watch (s : State) (q w : Nat) : (s.wr (Reg.QUIRE_STAT q) 15 8 w).quireUnder q = s.quireUnder q := by
  have hstate : (s.wr (Reg.QUIRE_STAT q) 15 8 w).quireState q = s.quireState q :=
    s.rd_wr_below _ w (by decide) (by decide) (by decide) (by decide)
  rw [State.quireUnder, hstate]
  rfl

/-! ## The point of a quire that runs again (14 R588) -/

theorem State.setRails_mem (s : State) : s.setRails.mem = s.mem := by
  refine foldl_keeps State.mem (fun d _ s => ?_) s
  dsimp only
  split <;> rfl

theorem State.setRails_scribes (s : State) : s.setRails.scribes = s.scribes := by
  refine foldl_keeps State.scribes (fun d _ s => ?_) s
  dsimp only
  split <;> rfl

theorem State.setRails_word (s : State) {o : Nat} (h : ∀ d, d < 4 → o ≠ Reg.RAILV d) : s.setRails.word o = s.word o := by
  refine foldl_keeps (State.word · o) (fun d hd s => ?_) s
  dsimp only
  split
  · rfl
  · exact s.word_wr_ne _ _ _ (h d (List.mem_range.mp hd))

theorem State.resumePoint_mem (s : State) (q : Nat) : (s.resumePoint q).mem = s.mem := by
  rw [State.resumePoint, State.setClock, State.wrw_mem, State.wr_mem, State.setRails_mem, State.wr_mem]

theorem State.resumePoint_scribes (s : State) (q : Nat) : (s.resumePoint q).scribes = s.scribes := by
  rw [State.resumePoint, State.setClock, State.wrw_scribes, State.wr_scribes, State.setRails_scribes, State.wr_scribes]

theorem State.resumePoint_word (s : State) {o q : Nat} (hpt : o ≠ Reg.QPT q) (hclock : o ≠ Reg.CLOCK q)
    (hrail : ∀ d, d < 4 → o ≠ Reg.RAILV d) : (s.resumePoint q).word o = s.word o := by
  rw [State.resumePoint, State.setClock, State.word_wrw_ne _ _ hclock, State.word_wr_ne _ _ _ _ hpt,
    State.setRails_word _ hrail, State.word_wr_ne _ _ _ _ hpt]

/-! ## WATCH and STATE of a quire -/

theorem State.quireWatch_mem (s : State) (q : Nat) : (s.quireWatch q).mem = s.mem := by
  rw [State.quireWatch]
  split
  · rw [State.resumePoint_mem, State.setQuireState_mem, State.wr_mem]
  · split
    · rw [State.setQuireState_mem, State.wr_mem]
    · rfl

theorem State.quireWatch_scribes (s : State) (q : Nat) : (s.quireWatch q).scribes = s.scribes := by
  rw [State.quireWatch]
  split
  · rw [State.resumePoint_scribes, State.setQuireState_scribes, State.wr_scribes]
  · split
    · rw [State.setQuireState_scribes, State.wr_scribes]
    · rfl

/-- Only a quire that was watching gets a point. -/
theorem State.quireWatch_word (s : State) {o q : Nat} (hstat : o ≠ Reg.QUIRE_STAT q)
    (hpoint : s.quireUnder q ≠ 4 ∨ (o ≠ Reg.QPT q ∧ o ≠ Reg.CLOCK q ∧ ∀ d, d < 4 → o ≠ Reg.RAILV d)) :
    (s.quireWatch q).word o = s.word o := by
  rw [State.quireWatch, State.quireUnder_wr_watch]
  split
  next hwas =>
    rw [Bool.and_eq_true, decide_eq_true_iff] at hwas
    obtain ⟨hpt, hclock, hrail⟩ := hpoint.resolve_left (not_not_intro hwas.1)
    rw [State.resumePoint_word _ hpt hclock hrail, State.setQuireState_word _ _ hstat, State.word_wr_ne _ _ _ _ hstat]
  next =>
    split
    · rw [State.setQuireState_word _ _ hstat, State.word_wr_ne _ _ _ _ hstat]
    · rw [State.word_wr_ne _ _ _ _ hstat]

/-! ## The boundary -/

/-- A sequencer that has passed a boundary to `next`. -/
def ScribeRt.passedTo (x : ScribeRt) (d next : Nat) : ScribeRt :=
  { x with
    pc := next, ext0 := (kExt0 d).1, ext0n := (kExt0 d).2, ext1 := (kExt1 d).1, ext1n := (kExt1 d).2,
    watch := none, atBarrier := false, dropped := [], stallFrom := none, capt := [] }

theorem State.endStall_none {s : State} {r : Run} (h : (s.scribe r.scribe).stallFrom = none) : s.endStall r = s := by
  rw [State.endStall, h]

/-- What a boundary is judged by: memory, sequencers, registers, and how its quire's state is kept. -/
def State.boundaryView (s : State) (q : Nat) : List Host.Cell × Map ScribeRt × Map W32 × Option Nat :=
  (s.mem, s.scribes, s.csr, (s.quire q).testFrom)

theorem State.boundaryView_setPhase (s : State) (q : Nat) (c : Prop) [Decidable c] (p : Nat) :
    (if c then s.setQuire q { s.quire q with phase := p } else s).boundaryView q = s.boundaryView q := by
  split
  · rw [State.boundaryView, State.quire_setQuire]
    rfl
  · rfl

/-- What a scribe of a resident context does at a boundary once its stall has ended, but for its quire's WATCH and STATE. -/
theorem State.passed_resident {s : State} {r : Run} (h : (s.sheet r.i).cur = some r.c) (next : Nat) (ran : Bool) :
    ∃ t : State, s.passed r next ran = t.quireWatch r.q ∧ t.boundaryView r.q =
      (((s.endStall r).setScribe r.scribe (((s.endStall r).scribe r.scribe).passedTo r.d next)).bump
        (Reg.STROKES r.q)).boundaryView r.q := by
  have hcur : ¬((s.sheet r.i).cur != some r.c) = true := by rw [h, bne_self_eq_false]; exact Bool.false_ne_true
  rw [State.passed, if_neg hcur]
  refine ⟨_, rfl, ?_⟩
  cases ran <;> exact State.boundaryView_setPhase _ _ _ _

/-- The sequencers after a boundary. -/
theorem State.passed_scribes {s : State} {r : Run} (h : (s.sheet r.i).cur = some r.c) (next : Nat) (ran : Bool) :
    (s.passed r next ran).scribes =
      Map.set (s.endStall r).scribes r.scribe (((s.endStall r).scribe r.scribe).passedTo r.d next) := by
  obtain ⟨t, ht, hview⟩ := State.passed_resident h next ran
  simp only [State.boundaryView, Prod.mk.injEq] at hview
  obtain ⟨_, hscribes, _, _⟩ := hview
  rw [ht, State.quireWatch_scribes, hscribes]
  rfl

theorem State.passed_mem {s : State} {r : Run} (h : (s.sheet r.i).cur = some r.c) (next : Nat) (ran : Bool) :
    (s.passed r next ran).mem = (s.endStall r).mem := by
  obtain ⟨t, ht, hview⟩ := State.passed_resident h next ran
  simp only [State.boundaryView, Prod.mk.injEq] at hview
  obtain ⟨hmem, _, _, _⟩ := hview
  rw [ht, State.quireWatch_mem, hmem]
  rfl

/-- The registers after a boundary with no stall to end. -/
theorem State.passed_word {s : State} {r : Run} (h : (s.sheet r.i).cur = some r.c)
    (hstall : (s.scribe r.scribe).stallFrom = none) (next : Nat) (ran : Bool) {o : Nat} (hstat : o ≠ Reg.QUIRE_STAT r.q)
    (hpoint : s.quireUnder r.q ≠ 4 ∨ (o ≠ Reg.QPT r.q ∧ o ≠ Reg.CLOCK r.q ∧ ∀ d, d < 4 → o ≠ Reg.RAILV d)) :
    (s.passed r next ran).word o = (s.bump (Reg.STROKES r.q)).word o := by
  obtain ⟨t, ht, hview⟩ := State.passed_resident h next ran
  simp only [State.boundaryView, Prod.mk.injEq, State.endStall_none hstall] at hview
  obtain ⟨_, _, hcsr, htest⟩ := hview
  have hword : ∀ o, t.word o = (s.bump (Reg.STROKES r.q)).word o := State.word_eq_of_csr hcsr
  have hunder : t.quireUnder r.q = s.quireUnder r.q := by
    have hstate : t.quireState r.q = s.quireState r.q := by
      rw [State.quireState, State.rd, hword, State.word_bump_ne _ _ (by unfold Reg.QUIRE_STAT Reg.STROKES; omega)]
      rfl
    rw [State.quireUnder, htest, hstate]
    rfl
  rw [ht, State.quireWatch_word _ hstat (hunder ▸ hpoint), hword]

/-! ## Outputs to a well -/

theorem State.notify_mem (s : State) (a n : Nat) : (s.notify a n).mem = s.mem := by
  refine foldl_keeps State.mem (fun i _ s => ?_) s
  dsimp only
  repeat' split
  all_goals rfl

theorem State.store_mem (s : State) (a : Nat) {bs : List Byte} (h : bs ≠ []) : (s.store a bs).mem = Mem.write s.mem a bs := by
  rw [State.store, if_neg (by rwa [List.isEmpty_iff]), State.notify_mem]

theorem State.putOut_well (s : State) (r : Run) (a : Nat) (bs : List Byte) (keep : List Bool) :
    s.putOut r ⟨1, a, bs, keep⟩ = s.store (physWell r.scribe a) bs := rfl

/-- Settles O18: the boundary by the rules above; an output to a well is one write of memory. -/
theorem boundaryEffects : Obligations.BoundaryEffects := by
  unfold Obligations.BoundaryEffects
  refine ⟨fun s r next ran hcur hstall => ?_, fun s r a bs keep => ?_⟩
  · have hscribes := State.passed_scribes hcur next ran
    have hmem := State.passed_mem hcur next ran
    rw [State.endStall_none hstall] at hscribes hmem
    have hself : (s.passed r next ran).scribe r.scribe = (s.scribe r.scribe).passedTo r.d next := by
      rw [State.scribe, hscribes, Map.getD_set_same]
    refine ⟨by rw [hself]; rfl, by rw [hself]; rfl, ?_, hmem, fun n hn => ?_, fun o hstrokes hstat hpoint => ?_⟩
    · rw [State.passed_word hcur hstall next ran, State.word_bump]
      · rw [BitVec.ofNat_add, BitVec.ofNat_toNat, BitVec.setWidth_eq]; rfl
      · unfold Reg.QUIRE_STAT Reg.STROKES; omega
      · refine Or.inr ⟨?_, ?_, fun d hd => ?_⟩
        · unfold Reg.QPT Reg.STROKES; omega
        · unfold Reg.CLOCK Reg.STROKES; omega
        · unfold Reg.RAILV Reg.STROKES; omega
    · rw [State.scribe, hscribes, Map.getD_set_ne _ _ _ hn, State.scribe]
    · rw [State.passed_word hcur hstall next ran hstat hpoint, State.word_bump_ne _ _ hstrokes]
  · rw [State.putOut_well]
    rcases eq_or_ne bs [] with rfl | hbs
    · exact ⟨fun i hi => absurd hi (Nat.not_lt_zero i), fun _ _ => rfl⟩
    rw [State.store_mem _ _ hbs]
    refine ⟨fun i hi => ?_, fun x hx => Mem.read1_write_out _ _ _ _ ?_⟩
    · have haddr : physWell r.scribe (a + i) = physWell r.scribe a + i := by unfold physWell; omega
      rw [haddr, Mem.read1_write_in _ _ _ i hi, List.getD_eq_getElem _ _ hi]
    · have haddr : physWell r.scribe (a + bs.length) = physWell r.scribe a + bs.length := by unfold physWell; omega
      rwa [haddr] at hx

end Sys2Proof.Machine
end

section
/-! SUPPORT. Waits and step sequences (03_scribe.md R98 to R100; 04_strokes.md R152, R153). -/

namespace Sys2Proof.Machine

/-! ## A wait -/

theorem State.watchable_iff (s : State) (r : Run) (w : Nat) :
    s.watchable r w = true ↔ oSpace w = 2 ∧ s.pinCause r.i (oAddr r.k w) 8 = 0 := by
  rw [State.watchable, Bool.and_eq_true, beq_iff_eq, beq_iff_eq]

theorem State.waitAt_notWatchable {s : State} {r : Run} (h : s.watchable r (kSrc0 r.d) = false) :
    s.waitAt r = s.watchFault r (kSrc0 r.d) := by
  rw [State.waitAt, h, Bool.not_false, if_pos rfl]

theorem State.stepOn_step {r : Run} (h : kSub r.d = 3) (s : State) (a : Nat) :
    s.stepOn r a = s.setQuire r.q { s.quire r.q with stepAt := some a } := if_pos h

theorem State.stepOn_other {r : Run} (h : kSub r.d ≠ 3) (s : State) (a : Nat) : s.stepOn r a = s := if_neg h

theorem State.stepOn_scribe (s : State) (r : Run) (a n : Nat) : (s.stepOn r a).scribe n = s.scribe n := by
  rw [State.stepOn]
  split <;> rfl

section Wait

variable {s v : State} {r : Run} (hw : s.watchable r (kSrc0 r.d) = true)
include hw

theorem State.waitAt_bad {c a : Nat} (hread : s.readOp r 2 (oAddr r.k (kSrc0 r.d)) 8 = .bad v c a) :
    s.waitAt r = v.strokeFault r c a := by
  rw [State.waitAt, hw, Bool.not_true, if_neg Bool.false_ne_true]
  dsimp only
  rw [hread]

variable {b : List Byte} (hread : s.readOp r 2 (oAddr r.k (kSrc0 r.d)) 8 = .ok v b)
include hread

theorem State.waitAt_passes (h : waitHolds (kSub r.d) (v.scribe r.scribe).last (leNat b) (kSrc2 r.d) = true) :
    s.waitAt r = (if kSub r.d = 3 then (v.stepOn r (oAddr r.k (kSrc0 r.d))).takeStep r (leNat b) else v).passed
      r (r.pc + 64) true := by
  rw [State.waitAt, hw, Bool.not_true, if_neg Bool.false_ne_true]
  dsimp only
  rw [hread]
  dsimp only
  rw [State.stepOn_scribe, h]
  by_cases hstep : kSub r.d = 3
  · rw [if_pos rfl, if_pos hstep, if_pos hstep]
  · rw [if_pos rfl, if_neg hstep, if_neg hstep, State.stepOn_other hstep]

theorem State.waitAt_watches (h : waitHolds (kSub r.d) (v.scribe r.scribe).last (leNat b) (kSrc2 r.d) = false) :
    s.waitAt r = (v.stepOn r (oAddr r.k (kSrc0 r.d))).enterWatch r (oAddr r.k (kSrc0 r.d)) := by
  rw [State.waitAt, hw, Bool.not_true, if_neg Bool.false_ne_true]
  dsimp only
  rw [hread]
  dsimp only
  rw [State.stepOn_scribe, h, if_neg Bool.false_ne_true]

end Wait

/-- The condition of each wait stroke is the one that the sequencer judges. -/
theorem waitHolds_of_mem_waitRows {row : (Fin 64 → Fin 8 → Instr) × Nat × (Nat → Nat → W64 → Prop)} (h : row ∈ waitRows)
    (last : W64) (v ref : Nat) : waitHolds row.2.1 last v ref = true ↔ row.2.2 v ref last := by
  revert row
  simp only [waitRows, List.forall_mem_cons, List.not_mem_nil, false_imp_iff, implies_true, and_true]
  exact ⟨decide_eq_true_iff, beq_iff_eq, bne_iff_ne, beq_iff_eq⟩

/-! ## A step -/

theorem State.recipeTurn_mem (s : State) (i : Nat) : (s.recipeTurn i).mem = s.mem := by
  rw [State.recipeTurn]
  split <;> rfl

theorem State.routeTurn_mem (s : State) (i v : Nat) : (s.routeTurn i v).mem = s.mem := by
  rw [State.routeTurn]
  (repeat' split) <;> rfl

theorem State.setCtx_mem (s : State) (i c : Nat) (x : CtxRt) : (s.setCtx i c x).mem = s.mem := rfl

theorem State.routeStart_mem (s : State) (i c v : Nat) : (s.routeStart i c v).mem = s.mem := rfl

/-- A step that starts changes no byte of memory. -/
theorem State.stepStart_mem (s : State) (i c v : Nat) : (s.stepStart i c v).mem = s.mem := by
  rw [State.stepStart]
  split
  · rfl
  · rw [State.setCtx_mem, State.routeSide, State.setCtx_mem, State.routeStart_mem, State.routeTurn_mem, State.recipeTurn_mem]

/-- A quire that has begun a step: its context has started it where it is the first, and its last step sequence is the step's. -/
def State.stepBegun (s : State) (r : Run) (v : Nat) : State :=
  let t := if r.pc == (s.quire r.q).entry && s.rdb (Reg.CCFG r.i r.c) 9 then s.stepStart r.i r.c v else s
  t.setQuire r.q { t.quire r.q with lastStep := BitVec.ofNat 64 v }

/-- A scribe takes step v, and its recipe side where the script's first stroke gives it. -/
def State.stepScribe (v : Nat) (first : Bool) (side : Nat) (s : State) (n : Nat) : State :=
  s.setScribe n { s.scribe n with last := BitVec.ofNat 64 v, side := if first then side else (s.scribe n).side }

/-- The scribes that take a step: the one that waited, and with the script's first stroke those it passes over. -/
def stepTakers (r : Run) (first : Bool) : List Nat :=
  r.scribe :: if first then ((List.range 8).filter fun j => !(bit (kSmask r.d) j)).map (8 * r.q + ·) else []

theorem State.takeStep_eq (s : State) (r : Run) (v : Nat) :
    s.takeStep r v = (stepTakers r (r.pc == (s.quire r.q).entry)).foldl
      (State.stepScribe v (r.pc == (s.quire r.q).entry) ((s.stepBegun r v).ctx r.i r.c).stepSide) (s.stepBegun r v) := by
  rw [State.takeStep, State.stepBegun, stepTakers, List.foldl_cons]
  generalize (r.pc == (s.quire r.q).entry) = first
  cases first
  · rfl
  · rw [if_pos rfl, if_pos rfl, List.foldl_map]
    rfl

theorem State.stepBegun_lastStep (s : State) (r : Run) (v : Nat) :
    ((s.stepBegun r v).quire r.q).lastStep = BitVec.ofNat 64 v := by
  rw [State.stepBegun, State.quire_setQuire]

theorem State.stepBegun_mem (s : State) (r : Run) (v : Nat) : (s.stepBegun r v).mem = s.mem := by
  rw [State.stepBegun]
  dsimp only
  split
  · exact s.stepStart_mem r.i r.c v
  · rfl

/-- A scribe is in step v, with the step's recipe side where the script's first stroke gave it. -/
def State.InStep (v : Nat) (first : Bool) (side m : Nat) (s : State) : Prop :=
  (s.scribe m).last = BitVec.ofNat 64 v ∧ (first = true → (s.scribe m).side = side)

section Takers

variable (v : Nat) (first : Bool) (side : Nat)

theorem State.stepScribe_inStep (s : State) (m : Nat) : (State.stepScribe v first side s m).InStep v first side m := by
  rw [State.InStep, State.stepScribe, State.scribe_setScribe]
  exact ⟨rfl, fun hf => if_pos hf⟩

/-- A scribe stays in the step when another one takes it. -/
theorem State.InStep.stepScribe {s : State} {m : Nat} (h : s.InStep v first side m) (n : Nat) :
    (State.stepScribe v first side s n).InStep v first side m := by
  by_cases hn : m = n
  · exact hn ▸ State.stepScribe_inStep v first side s m
  · rw [State.InStep, State.stepScribe, State.scribe_setScribe_ne _ _ hn]
    exact h

/-- Every scribe of the list takes the step. -/
theorem State.foldl_stepScribe_inStep {l : List Nat} {m : Nat} (hm : m ∈ l) (s : State) :
    (l.foldl (State.stepScribe v first side) s).InStep v first side m := by
  obtain ⟨l₁, l₂, rfl⟩ := List.append_of_mem hm
  rw [List.foldl_append, List.foldl_cons]
  exact List.foldlRecOn l₂ _ (State.stepScribe_inStep v first side _ m) fun t ht n _ =>
    State.InStep.stepScribe v first side ht n

end Takers

/-- Settles O19: a wait is `State.waitAt`; the scribes that take a step are those of `stepTakers`. -/
theorem waitRows_hold : Obligations.WaitRows := by
  unfold Obligations.WaitRows
  refine ⟨fun row hrow q k s u v r b hp hm hw hread => ?_, fun s r a => ⟨fun h => State.stepOn_step h s a,
    fun h => State.stepOn_other h s a⟩, fun s r v => ?_, fun row hrow q k s u r a cause hp hm ha hcause => ?_⟩
  · rw [exec_of_mem_waitRows hrow hp, State.stroke_mayRun hm, ← waitHolds_of_mem_waitRows hrow, ← hm.kSub_eq]
    refine ⟨fun h => ?_, fun h => ?_⟩
    · rw [State.waitAt_passes hw hread h]
    · rw [State.waitAt_watches hw hread (Bool.eq_false_of_not_eq_true h)]
  · rw [State.takeStep_eq]
    generalize hfirst : (r.pc == (s.quire r.q).entry) = first
    generalize hside : ((s.stepBegun r v).ctx r.i r.c).stepSide = side
    have hkeep : ∀ {β : Type} (p : State → β), (∀ t n, p (State.stepScribe v first side t n) = p t) →
        p ((stepTakers r first).foldl (State.stepScribe v first side) (s.stepBegun r v)) = p (s.stepBegun r v) :=
      fun p hstep => foldl_keeps p (fun n _ t => hstep t n) _
    have hctx := hkeep (fun t => (t.ctx r.i r.c).stepSide) fun _ _ => rfl
    have hquire := hkeep (fun t => (t.quire r.q).lastStep) fun _ _ => rfl
    refine ⟨hquire.trans (s.stepBegun_lastStep r v), ?_, (hkeep State.mem fun _ _ => rfl).trans (s.stepBegun_mem r v), ?_⟩
    · exact (State.foldl_stepScribe_inStep v first side (List.mem_cons_self ..) _).1
    · intro hpc j hj hout
      have hfirst' : first = true := by rw [← hfirst, hpc, beq_self_eq_true]
      have hmem : 8 * r.q + j ∈ stepTakers r first := by
        rw [stepTakers, if_pos hfirst']
        rcases hout with rfl | hbit
        · exact List.mem_cons_self ..
        · exact List.mem_cons_of_mem _ (List.mem_map_of_mem (List.mem_filter.mpr ⟨List.mem_range.mpr hj, by rw [hbit]; rfl⟩))
      exact ((State.foldl_stepScribe_inStep v first side hmem _).2 hfirst').trans (hctx.trans hside).symm
  · subst ha hcause
    rw [exec_of_mem_waitRows hrow hp, State.stroke_mayRun hm]
    refine ⟨fun hspace => ?_, fun hspace hpin => ?_, fun v c f hw hread => ?_⟩
    · have hw : u.watchable r (kSrc0 r.d) = false :=
        Bool.eq_false_of_not_eq_true fun h => hspace ((u.watchable_iff r _).mp h).1
      rw [State.waitAt_notWatchable hw, State.watchFault, State.watchCause, if_neg (by rwa [beq_iff_eq])]
      rfl
    · have hw : u.watchable r (kSrc0 r.d) = false :=
        Bool.eq_false_of_not_eq_true fun h => hpin ((u.watchable_iff r _).mp h).2
      rw [State.waitAt_notWatchable hw, State.watchFault, State.watchCause, if_pos (by rwa [beq_iff_eq])]
    · rw [State.waitAt_bad hw hread]

end Sys2Proof.Machine
end

section
/-! SUPPORT. The sequencers, the sheets and the counts of overruns under the operations of memory, the descriptors and the fabric. -/

namespace Sys2Proof.Machine

/-- The sequencers, the sheets and the counts of overruns. -/
def State.seqs (s : State) : Map ScribeRt × Map SheetRt × (Fin 64 → W32) :=
  (s.scribes, s.sheets, fun q => s.word (Reg.OVERRUN q.val))

/-- A register outside the block of the quires' registers. -/
def Aside (o : Nat) : Prop := o < 0x4C000 ∨ 0x4C800 ≤ o

@[simp] theorem aside_ueCount : Aside Reg.UE_COUNT := Or.inr (by decide)
@[simp] theorem aside_ueAddrLo : Aside Reg.UE_ADDR_LO := Or.inr (by decide)
@[simp] theorem aside_ueAddrHi : Aside Reg.UE_ADDR_HI := Or.inr (by decide)
@[simp] theorem aside_ueInfo : Aside Reg.UE_INFO := Or.inr (by decide)
@[simp] theorem aside_ceCount : Aside Reg.CE_COUNT := Or.inr (by decide)
@[simp] theorem aside_bulkwSent : Aside Reg.BULKW_SENT := Or.inr (by decide)
@[simp] theorem aside_qcfg (qn : Nat) : Aside (Reg.QCFG qn) := Or.inr (by unfold Reg.QCFG; omega)
@[simp] theorem aside_qdone (qn : Nat) : Aside (Reg.QDONE qn) := Or.inr (by unfold Reg.QDONE; omega)
@[simp] theorem aside_dmaCancels (i : Nat) : Aside (Reg.DMA_CANCELS i) := Or.inr (by unfold Reg.DMA_CANCELS; omega)
@[simp] theorem aside_aborts (i : Nat) : Aside (Reg.ABORTS i) := Or.inr (by unfold Reg.ABORTS; omega)
@[simp] theorem aside_flitsTx (p : Nat) : Aside (Reg.FLITS_TX p) := Or.inr (by unfold Reg.FLITS_TX; omega)
@[simp] theorem aside_transit (p : Nat) : Aside (Reg.TRANSIT p) := Or.inr (by unfold Reg.TRANSIT; omega)

theorem aside_faults {i : Nat} (hi : i < 16) : Aside (Reg.FAULTS i) := Or.inl (by unfold Reg.FAULTS; omega)

theorem aside_cstat {i c : Nat} (hi : i < 16) (hc : c < 8) : Aside (Reg.CSTAT i c) := Or.inl (by unfold Reg.CSTAT; omega)

theorem aside_runtime {i c : Nat} (hi : i < 16) (hc : c < 8) : Aside (Reg.RUNTIME i c) :=
  Or.inl (by unfold Reg.RUNTIME; omega)

theorem Aside.ne_overrun {o : Nat} (h : Aside o) (q : Fin 64) : Reg.OVERRUN q.val ≠ o := by
  unfold Aside at h
  unfold Reg.OVERRUN
  omega

theorem le_of_mem_logRegs : ∀ o ∈ logRegs, 0x4C800 ≤ o := by decide

/-- An update of any other fields keeps the three. -/
@[simp] theorem seqs_mk (s : State) x0 x1 x2 x3 x4 x5 x6 x8 x9 x10 x11 x12 x13 x14 x15 x16 x17 x18 x19 x21 x23 x24 x25 x26 x27 x28
    x29 x30 x31 x32 x33 x34 x35 x36 x37 x38 x39 x40 x41 x42 x43 x44 x45 x46 x47 x48 x49 x50 x51 x52 x53 x54 x55 x56 x57 x58 x59
    x60 x61 x62 :
    (State.mk x0 x1 x2 x3 x4 x5 x6 s.csr x8 x9 x10 x11 x12 x13 x14 x15 x16 x17 x18 x19 s.scribes x21 s.sheets x23 x24 x25 x26
      x27 x28 x29 x30 x31 x32 x33 x34 x35 x36 x37 x38 x39 x40 x41 x42 x43 x44 x45 x46 x47 x48 x49 x50 x51 x52 x53 x54 x55 x56
      x57 x58 x59 x60 x61 x62).seqs = s.seqs := by
  rw [State.seqs, State.seqs]
  rfl

theorem State.scribe_of_seqs {s t : State} (h : t.seqs = s.seqs) (n : Nat) : t.scribe n = s.scribe n :=
  State.scribe_congr (congrArg Prod.fst h) n

theorem State.sheet_of_seqs {s t : State} (h : t.seqs = s.seqs) (i : Nat) : t.sheet i = s.sheet i :=
  congrArg (fun x : Map ScribeRt × Map SheetRt × (Fin 64 → W32) => Map.getD x.2.1 i SheetRt.zero) h

theorem State.overrun_of_seqs {s t : State} (h : t.seqs = s.seqs) (q : Fin 64) :
    t.word (Reg.OVERRUN q.val) = s.word (Reg.OVERRUN q.val) := congrFun (congrArg (fun x => x.2.2) h) q

@[simp] theorem seqs_ite (c : Prop) [Decidable c] (s t : State) :
    (if c then s else t).seqs = if c then s.seqs else t.seqs := apply_ite State.seqs c s t

@[simp] theorem fst_seqs_ite {β : Type} (c : Prop) [Decidable c] (p q : State × β) :
    (if c then p else q).1.seqs = if c then p.1.seqs else q.1.seqs := apply_ite (fun p => p.1.seqs) c p q

/-- The state of a pair that a match has taken apart. -/
theorem seqs_of_eq {β : Type} {p : State × β} {t : State} {b : β} (h : p = (t, b)) : t.seqs = p.1.seqs := by rw [h]

theorem foldl_seqs {α : Type} {f : State → α → State} (hf : ∀ s x, (f s x).seqs = s.seqs) (l : List α) (s : State) :
    (l.foldl f s).seqs = s.seqs := foldl_keeps State.seqs (fun x _ s => hf s x) s

theorem foldl_fst_seqs {α β : Type} {f : State × β → α → State × β} (hf : ∀ p x, (f p x).1.seqs = p.1.seqs) (l : List α)
    (p : State × β) : (l.foldl f p).1.seqs = p.1.seqs := by
  induction l generalizing p with
  | nil => rfl
  | cons x l ih => exact (ih (f p x)).trans (hf p x)

/-- What changes the log alone keeps the three. -/
theorem LogOnly.seqs {s t : State} (h : LogOnly s t) : t.seqs = s.seqs := by
  have hword : (fun q : Fin 64 => t.word (Reg.OVERRUN q.val)) = fun q : Fin 64 => s.word (Reg.OVERRUN q.val) :=
    funext fun q => h.regs _ fun hq => Aside.ne_overrun (Or.inr (le_of_mem_logRegs _ hq)) q rfl
  rw [State.seqs, hword, h.rest, State.seqs]

section

variable (s : State)

/-! ## Registers and memory -/

@[simp] theorem State.wrw_seqs {o : Nat} (w : W32) (h : Aside o) : (s.wrw o w).seqs = s.seqs := by
  have hword : ∀ q : Fin 64, (s.wrw o w).word (Reg.OVERRUN q.val) = s.word (Reg.OVERRUN q.val) := fun q =>
    s.word_wrw_ne w (h.ne_overrun q)
  rw [State.seqs, funext hword, State.seqs]
  rfl

@[simp] theorem State.wr_seqs {o : Nat} (hi lo v : Nat) (h : Aside o) : (s.wr o hi lo v).seqs = s.seqs := s.wrw_seqs _ h
@[simp] theorem State.wrb_seqs {o : Nat} (i : Nat) (b : Bool) (h : Aside o) : (s.wrb o i b).seqs = s.seqs := s.wr_seqs _ _ _ h
@[simp] theorem State.bump_seqs {o : Nat} (n : Nat) (h : Aside o) : (s.bump o n).seqs = s.seqs := s.wrw_seqs _ h
@[simp] theorem State.bumpSat_seqs {o : Nat} (n : Nat) (h : Aside o) : (s.bumpSat o n).seqs = s.seqs := s.wrw_seqs _ h

@[simp] theorem State.notify_seqs (a n : Nat) : (s.notify a n).seqs = s.seqs := ((LogOnly.refl s).notify a n).seqs
@[simp] theorem State.post_seqs (code : Nat) (args : List Nat) : (s.post code args).seqs = s.seqs :=
  (s.post_logOnly code args).seqs
@[simp] theorem State.postOnce_seqs (code : Nat) (args : List Nat) (k : Nat) : (s.postOnce code args k).seqs = s.seqs :=
  ((LogOnly.refl s).postOnce code args k).seqs
@[simp] theorem State.touch_seqs (g : Nat) : (s.touch g).seqs = s.seqs := by simp [State.touch, State.setTouch]
@[simp] theorem State.store_seqs (a : Nat) (bs : List Byte) : (s.store a bs).seqs = s.seqs := by simp [State.store]
@[simp] theorem State.storeTier_seqs (a : Nat) (bs : List Byte) : (s.storeTier a bs).seqs = s.seqs :=
  foldl_seqs (fun s p => by simp) _ s

/-! ## Error protection -/

@[simp] theorem State.uncorr_seqs (store addr scribe sheet : Nat) : (s.uncorr store addr scribe sheet).seqs = s.seqs := by
  simp [State.uncorr, State.wr64]

@[simp] theorem State.settleLine_seqs (line : Nat) (resid : List Byte) : (s.settleLine line resid).seqs = s.seqs := by
  simp [State.settleLine]

@[simp] theorem State.correct_seqs (line : Nat) (resid : List Byte) (addr : Nat) : (s.correct line resid addr).seqs = s.seqs := by
  simp [State.correct]

@[simp] theorem State.eccLine_seqs (line : Nat) (p : Map Byte) (addr scribe sheet : Nat) :
    (s.eccLine line p addr scribe sheet).1.seqs = s.seqs := by
  rw [State.eccLine]
  split
  · simp
  · split <;> simp

@[simp] theorem State.ecc_seqs (a n base scribe sheet : Nat) : (s.ecc a n base scribe sheet).1.seqs = s.seqs := by
  rw [State.ecc]
  split
  · rfl
  · split
    · simp
    · split
      · simp
      · exact foldl_fst_seqs (fun p x => by simp) _ _

@[simp] theorem State.eccEdges_seqs (a n base scribe sheet : Nat) : (s.eccEdges a n base scribe sheet).1.seqs = s.seqs := by
  simp [State.eccEdges]

@[simp] theorem State.seen_seqs (a n base sheet : Nat) : (s.seen a n base sheet).seqs = s.seqs := s.ecc_seqs ..

@[simp] theorem State.unitPut_seqs (a : Nat) (bs : List Byte) (base : Nat) : (s.unitPut a bs base).seqs = s.seqs := by
  rw [State.unitPut]
  split <;> next h => simp [seqs_of_eq h]

@[simp] theorem State.seenEntry_seqs (g : Nat) : (s.seenEntry g).seqs = s.seqs := by
  rw [State.seenEntry]
  split <;> simp

@[simp] theorem State.entryRead_seqs (g sheet : Nat) : (s.entryRead g sheet).1.seqs = s.seqs := by simp [State.entryRead]

@[simp] theorem State.eccTier_seqs (a n sheet : Nat) : (s.eccTier a n sheet).1.seqs = s.seqs := by
  refine foldl_fst_seqs (fun p x => ?_) _ _
  dsimp only
  split <;> simp

@[simp] theorem State.readPhys_seqs (a n base scribe sheet : Nat) : (s.readPhys a n base scribe sheet).1.seqs = s.seqs := by
  rw [State.readPhys]
  split <;> next h => exact (seqs_of_eq h).trans (s.ecc_seqs ..)

@[simp] theorem State.readTier_seqs (a n sheet : Nat) : (s.readTier a n sheet).1.seqs = s.seqs := by
  rw [State.readTier]
  split
  · next h => exact (foldl_seqs (fun s g => s.touch_seqs g) _ _).trans ((seqs_of_eq h).trans (s.eccTier_seqs ..))
  · next h => exact (seqs_of_eq h).trans (s.eccTier_seqs ..)

/-! ## Descriptors -/

@[simp] theorem State.updOp_seqs (o : DmaOp) : (s.updOp o).seqs = s.seqs := by simp [State.updOp, State.mapOp]
@[simp] theorem State.recEnd_seqs (a tag unit kind outcome progress faddr abrq base : Nat) :
    (s.recEnd a tag unit kind outcome progress faddr abrq base).seqs = s.seqs := by simp [State.recEnd]
@[simp] theorem State.recTouch_seqs (d : Nat) : (s.recTouch d).seqs = s.seqs := by simp [State.recTouch]

@[simp] theorem State.countEnd_seqs (qn outcome : Nat) : (s.countEnd qn outcome).seqs = s.seqs := by
  simp [State.countEnd]

@[simp] theorem State.writeReady_seqs (o : DmaOp) (n : Nat) : (s.writeReady o n).1.seqs = s.seqs := by
  unfold State.writeReady
  extract_lets a e
  have he : e.1.seqs = s.seqs := by simp [e]
  split
  · exact he
  · split
    · exact he
    · split <;> next h => simp [seqs_of_eq h, he]

@[simp] theorem State.dmaClose_seqs (o : DmaOp) (outcome faddr abrq : Nat) : (s.dmaClose o outcome faddr abrq).seqs = s.seqs := by
  simp [State.dmaClose]

@[simp] theorem State.endWaiters_seqs : s.endWaiters.seqs = s.seqs := foldl_seqs (fun s o => s.dmaClose_seqs o 0 0 0) _ s

@[simp] theorem State.dmaStop_seqs (o : DmaOp) (outcome faddr abrq data : Nat) :
    (s.dmaStop o outcome faddr abrq data).seqs = s.seqs := by
  rw [State.dmaStop]
  split <;> simp

/-! ## The fabric -/

@[simp] theorem State.pump_seqs (p : Nat) : (s.pump p).seqs = s.seqs := by
  simp [State.pump, State.pumpCount, State.setPort]
@[simp] theorem State.send_seqs (path : Nat) (p : Packet) : (s.send path p).seqs = s.seqs := by
  simp [State.send, State.sendVl, State.setPort]

@[simp] theorem State.launch_seqs (p : Packet) (issuers : List Issuer) (apers : List Nat) :
    (s.launch p issuers apers).seqs = s.seqs := by
  rw [State.launch]
  dsimp only
  split
  · simp [State.setPeer]
  · split <;> simp [State.draw, State.setPeer]

@[simp] theorem State.flushGather_seqs (g : Gather) : (s.flushGather g).seqs = s.seqs := by
  simp [State.flushGather]

@[simp] theorem State.flushOf_seqs (f : Issuer → Bool) : (s.flushOf f).seqs = s.seqs :=
  foldl_seqs (fun s g => s.flushGather_seqs g) _ s

/-! ## Contexts -/

@[simp] theorem State.recWr_seqs (i c o v : Nat) : (s.recWr i c o v).seqs = s.seqs := by simp [State.recWr, State.recPut]
@[simp] theorem State.setCtx_seqs (i c : Nat) (r : CtxRt) : (s.setCtx i c r).seqs = s.seqs := by simp [State.setCtx]
@[simp] theorem State.dropArrived_seqs (i c : Nat) : (s.dropArrived i c).seqs = s.seqs := by simp [State.dropArrived]

@[simp] theorem State.abortCtxDma_seqs (i c : Nat) : (s.abortCtxDma i c).seqs = s.seqs := by
  refine (foldl_seqs (fun s qn => ?_) _ _).trans (foldl_seqs (fun s o => by simp) _ s)
  simp

end

/-- Fetching reads the script alone. -/
theorem State.seek_seqs (i k n pc : Nat) (s : State) : (State.seek i k n pc s).st.seqs = s.seqs := by
  induction n generalizing pc s with
  | zero => rfl
  | succ n ih =>
    have hread := s.readTier_seqs pc 64 i
    rw [State.seek]
    split
    · rfl
    · split
      · next h => exact (seqs_of_eq h).trans hread
      · next h =>
        have ht := (seqs_of_eq h).trans hread
        dsimp only
        split
        · exact ht
        · split
          · exact ht
          · exact (ih ..).trans ht

end Sys2Proof.Machine
end

section
/-! SUPPORT. A context fault that stops a resident context: its state and the counts of overruns (03_scribe.md R97; 10_sheets.md R404,
R416). -/

namespace Sys2Proof.Machine

theorem State.runsOn_cur {s : State} {q i c : Nat} (h : s.runsOn q = some (i, c)) : (s.sheet i).cur = some c := by
  rw [State.runsOn] at h
  split at h
  · obtain ⟨d, hd, hdc⟩ := Option.map_eq_some_iff.mp h
    obtain ⟨rfl, rfl⟩ := Prod.mk.inj hdc
    exact hd
  · cases h

theorem overrun_ne_quireStat (q p : Nat) : Reg.OVERRUN q ≠ Reg.QUIRE_STAT p := by
  unfold Reg.OVERRUN Reg.QUIRE_STAT
  omega

theorem overrun_ne_cstat (q i c : Nat) : Reg.OVERRUN q ≠ Reg.CSTAT i c := by
  unfold Reg.OVERRUN Reg.CSTAT
  omega

theorem cstat_ne_quireStat (i c q : Nat) : Reg.CSTAT i c ≠ Reg.QUIRE_STAT q := by
  unfold Reg.CSTAT Reg.QUIRE_STAT
  omega

theorem cstat_ne_of_ne (i : Nat) {c d : Nat} (h : c ≠ d) : Reg.CSTAT i c ≠ Reg.CSTAT i d := by
  unfold Reg.CSTAT
  omega

theorem cstat_ne_faults (i c : Nat) {j : Nat} (h : j < 16) : Reg.CSTAT i c ≠ Reg.FAULTS j := by
  unfold Reg.CSTAT Reg.FAULTS
  omega

theorem cstat_notMem_logRegs {i c : Nat} (hi : i < 16) (hc : c < 8) : Reg.CSTAT i c ∉ logRegs := fun h => by
  have := le_of_mem_logRegs _ h
  unfold Reg.CSTAT at this
  omega

/-! ## The scheduler -/

theorem State.bestReady_some {s : State} {i d : Nat} (h : s.bestReady i = some d) : s.ctxState i d = 1 := by
  rw [State.bestReady] at h
  refine List.foldlRecOn (motive := fun b => ∀ d, b = some d → s.ctxState i d = 1) _ _ ?_ (fun b hb c _ d hd => ?_) d h
  · exact fun _ h => nomatch h
  split at hd
  · next hready =>
    split at hd
    · rwa [← Option.some.inj hd]
    · split at hd
      · rwa [← Option.some.inj hd]
      · exact hb d hd
  · exact hb d hd

theorem State.setQuires_word (s : State) {o : Nat} (h : ∀ q, o ≠ Reg.QUIRE_STAT q) (i st : Nat) :
    (s.setQuires i st).word o = s.word o :=
  foldl_keeps (State.word · o) (fun q _ s => s.setQuireState_word st (h q)) s

/-- With no resident context the scheduler changes the states of quires and of READY contexts alone. -/
theorem State.schedule_word {s : State} {i o : Nat} (hcur : (s.sheet i).cur = none) (hquire : ∀ q, o ≠ Reg.QUIRE_STAT q)
    (hctx : ∀ d, s.ctxState i d = 1 → o ≠ Reg.CSTAT i d) : (s.schedule i).word o = s.word o := by
  rw [State.schedule, hcur]
  split
  · rfl
  · cases hbest : s.bestReady i with
    | none => rfl
    | some d => exact (State.setQuires_word _ hquire i 6).trans (s.word_wr_ne 2 0 4 (hctx d (State.bestReady_some hbest)))

/-! ## A context leaves its quires -/

theorem State.leave_word (s : State) {o i c : Nat} (h : o ≠ Reg.RUNTIME i c) : (s.leave i c).word o = s.word o := by
  rw [State.leave]
  dsimp only
  split
  · rfl
  · exact s.word_bump_ne _ h

theorem State.leave_sheet (s : State) (i c j : Nat) : (s.leave i c).sheet j = s.sheet j := by
  rw [State.leave]
  dsimp only
  split <;> rfl

theorem State.stopScribes_word (s : State) (q o : Nat) : (s.stopScribes q).word o = s.word o :=
  foldl_keeps (State.word · o) (f := fun s k => s.setScribe (8 * q + k)
    { s.scribe (8 * q + k) with watch := none, atBarrier := false, dropped := [], stallFrom := none, capt := [] })
    (fun _ _ _ => rfl) s

theorem State.dropResident_word (s : State) {o i c : Nat} (hquire : ∀ q, o ≠ Reg.QUIRE_STAT q) (hrun : o ≠ Reg.RUNTIME i c) :
    (s.dropResident i c).word o = s.word o := by
  rw [State.dropResident]
  dsimp only
  split
  · refine (foldl_keeps (State.word · o) (fun q _ s => ?_) (s.leave i c)).trans (s.leave_word hrun)
    rw [State.stopScribes_word, State.word_wr_ne _ _ _ _ (hquire q), State.setQuireState_word _ _ (hquire q)]
  · exact s.leave_word hrun

theorem State.dropResident_cur {s : State} {i c : Nat} (h : (s.sheet i).cur = some c) :
    ((s.dropResident i c).sheet i).cur = none := by
  rw [State.dropResident]
  dsimp only
  have hself : (decide ((s.sheet i).cur = some c) || decide ((s.sheet i).restoring = some c) ||
      decide ((s.sheet i).saving = some c)) = true := by simp [h]
  rw [if_pos hself, State.sheet, State.setSheet, Map.getD_set_same]
  exact if_pos h

section Fault

variable {s : State} {i c : Nat} (hi : i < 16) (hc : c < 8)
include hi hc

theorem State.bumpGen_seqs (s : State) : (s.bumpGen i c).seqs = s.seqs :=
  (State.recWr_seqs ..).trans (s.wr_seqs _ _ _ (aside_cstat hi hc))

/-- Beside leaving the quires, what a context that tears down does touches neither the sheets nor the counts of overruns. -/
theorem State.tearContext_seqs (s : State) (st : Nat) :
    ∃ f, (s.tearContext i c st).seqs = ((s.flushOf f).dropResident i c).seqs :=
  ⟨_, (State.wr_seqs _ _ _ _ (aside_cstat hi hc)).trans ((State.setCtx_seqs ..).trans ((State.dropArrived_seqs ..).trans
    ((State.bumpGen_seqs hi hc _).trans (State.abortCtxDma_seqs ..))))⟩

theorem State.tearContext_overrun (st : Nat) (q : Fin 64) :
    (s.tearContext i c st).word (Reg.OVERRUN q.val) = s.word (Reg.OVERRUN q.val) := by
  obtain ⟨f, ht⟩ := State.tearContext_seqs hi hc s st
  rw [State.overrun_of_seqs ht, State.dropResident_word _ (overrun_ne_quireStat _) ((aside_runtime hi hc).ne_overrun q),
    State.overrun_of_seqs (s.flushOf_seqs f)]

theorem State.tearContext_cur (h : (s.sheet i).cur = some c) (st : Nat) : ((s.tearContext i c st).sheet i).cur = none := by
  obtain ⟨f, ht⟩ := State.tearContext_seqs hi hc s st
  rw [State.sheet_of_seqs ht, State.dropResident_cur (by rwa [State.sheet_of_seqs (s.flushOf_seqs f)])]

/-- A fault of a live resident context leaves it FAULTED, and counts no overrun. -/
theorem State.ctxFault_live (hlive : s.live i c = true) (hcur : (s.sheet i).cur = some c) (cause scribe f1 f2 : Nat) :
    (s.ctxFault i c cause scribe f1 f2).ctxState i c = 5 ∧
      ∀ q : Fin 64, (s.ctxFault i c cause scribe f1 f2).word (Reg.OVERRUN q.val) = s.word (Reg.OVERRUN q.val) := by
  rw [State.ctxFault, hlive, Bool.not_true, if_neg Bool.false_ne_true]
  extract_lets w n u v x y
  have hx : x.seqs = s.seqs := by simp [x, v, u]
  have hycur : (y.sheet i).cur = none :=
    State.tearContext_cur hi hc ((congrArg SheetRt.cur (State.sheet_of_seqs hx i)).trans hcur) 5
  have hystate : y.ctxState i c = 5 := State.rd_wr _ _ 5 (by decide) (by decide)
  have hyover (q : Fin 64) : y.word (Reg.OVERRUN q.val) = s.word (Reg.OVERRUN q.val) :=
    (State.tearContext_overrun hi hc 5 q).trans (State.overrun_of_seqs hx q)
  clear_value y
  have hlog := (y.bumpSat (Reg.FAULTS i)).post_logOnly 0x0401 [i + c * 16 + cause * 256, f1, f2]
  generalize (y.bumpSat (Reg.FAULTS i)).post 0x0401 [i + c * 16 + cause * 256, f1, f2] = z at *
  have hz : z.seqs = y.seqs := hlog.seqs.trans (y.bumpSat_seqs 1 (aside_faults hi))
  have hzcur : (z.sheet i).cur = none := (congrArg SheetRt.cur (State.sheet_of_seqs hz i)).trans hycur
  have hzstat : z.word (Reg.CSTAT i c) = y.word (Reg.CSTAT i c) :=
    (hlog.regs _ (cstat_notMem_logRegs hi hc)).trans (y.word_bumpSat_ne 1 (cstat_ne_faults i c hi))
  have hzstate : z.ctxState i c = 5 := by rwa [State.ctxState, State.rd, hzstat]
  refine ⟨?_, fun q => ?_⟩
  · have hother (d : Nat) (hd : z.ctxState i d = 1) : Reg.CSTAT i c ≠ Reg.CSTAT i d :=
      cstat_ne_of_ne i (by rintro rfl; omega)
    rwa [State.ctxState, State.rd, State.schedule_word hzcur (cstat_ne_quireStat i c) hother]
  · rw [State.schedule_word hzcur (overrun_ne_quireStat _) fun d _ => overrun_ne_cstat _ i d, State.overrun_of_seqs hz, hyover]

end Fault

end Sys2Proof.Machine
end

section
/-! SUPPORT. Overruns, and samples of the live mask (03_scribe.md R97, R104; 04_strokes.md R131). -/

namespace Sys2Proof.Machine

/-! ## Overruns -/

theorem exec_strokeOverrun (q : Fin 64) (k : Fin 8) (s : State) : exec (.strokeOverrun q k) s = execStrokeOverrun q k s := rfl

section Overrun

variable {s : State} (hp : s.powered = true) {q : Fin 64} {k : Fin 8}
include hp

theorem exec_strokeOverrun_idle (h : s.runsOn q.val = none) : exec (.strokeOverrun q k) s = .next s := by
  rw [exec_strokeOverrun, execStrokeOverrun, act_powered hp, h]

theorem exec_strokeOverrun_fetched {i c : Nat} {e : Fetched} (h : s.runsOn q.val = some (i, c))
    (he : e = State.seek i k.val scriptFuel (s.scribe (8 * q.val + k.val)).pc s) :
    exec (.strokeOverrun q k) s = .next
      (if e.cause != 0 || isWait e.d || (s.scribe (8 * q.val + k.val)).watch.isSome || (s.scribe (8 * q.val + k.val)).atBarrier
        then s
        else (e.st.bumpSat (Reg.OVERRUN q.val)).strokeFault ⟨i, c, q.val, k.val, e.pc, e.d⟩ 0x08 0) := by
  subst he
  rw [exec_strokeOverrun, execStrokeOverrun, act_powered hp, h]

end Overrun

/-- An overrun is counted, and its context is FAULTED. -/
theorem State.overrun_fault {s : State} (q : Fin 64) {i c : Nat} (k pc d : Nat) (hi : i < 16) (hc : c < 8)
    (hlive : s.live i c = true) (hcur : (s.sheet i).cur = some c) :
    ((s.bumpSat (Reg.OVERRUN q.val)).strokeFault ⟨i, c, q.val, k, pc, d⟩ 0x08 0).ctxState i c = 5 ∧
      ((s.bumpSat (Reg.OVERRUN q.val)).strokeFault ⟨i, c, q.val, k, pc, d⟩ 0x08 0).word (Reg.OVERRUN q.val) =
        BitVec.ofNat 32 (sat32 ((s.word (Reg.OVERRUN q.val)).toNat + 1)) := by
  have hstate : (s.bumpSat (Reg.OVERRUN q.val)).ctxState i c = s.ctxState i c := by
    rw [State.ctxState, State.rd, State.word_bumpSat_ne _ _ (overrun_ne_cstat q.val i c).symm]
    rfl
  have hlive' : (s.bumpSat (Reg.OVERRUN q.val)).live i c = true := by rwa [State.live, hstate]
  obtain ⟨hfault, hover⟩ := State.ctxFault_live hi hc hlive' hcur 0x08 (8 * q.val + k) pc 0
  exact ⟨hfault, (hover q).trans (s.word_bumpSat _ 1)⟩

/-! ## The row block -/

theorem State.kept_of_seqs {s t : State} (h : t.seqs = s.seqs) (r : Run) (space a n : Nat) :
    t.kept r space a n = s.kept r space a n := by
  rw [State.kept, State.scribe_of_seqs h, State.kept]

/-- What a scribe keeps that has kept nothing else for the same range. -/
theorem State.kept_keep {s : State} {r : Run} {space a n : Nat} {b : List Byte}
    (h : s.kept r space a n = none ∨ s.kept r space a n = some b) : (s.keep r space a n b).kept r space a n = some b := by
  rw [State.keep]
  rcases h with h | h
  · rw [h, Option.isSome_none, if_neg Bool.false_ne_true, State.kept, State.scribe_setScribe]
    simp
  · rw [h, Option.isSome_some, if_pos rfl, h]

theorem Got.ofRead_ok {p : ReadBytes} {v : State} {b : List Byte} (h : Got.ofRead p = .ok v b) : p = (v, .ok b) := by
  obtain ⟨t, _ | _⟩ := p <;> cases h
  rfl

/-- A first read keeps at most what it has read. -/
theorem State.readOnce_kept {s v : State} {r : Run} {space a n : Nat} {f : State → Got (List Byte)} {b : List Byte}
    (hf : ∀ v b, f s = .ok v b → v.seqs = s.seqs) (h : s.readOnce r space a n f = .ok v b) :
    v.kept r space a n = none ∨ v.kept r space a n = some b := by
  rw [State.readOnce] at h
  cases hkept : s.kept r space a n with
  | some c =>
    rw [hkept] at h
    cases h
    exact Or.inr hkept
  | none =>
    rw [hkept] at h
    cases hread : f s with
    | ok u c =>
      rw [hread] at h
      have hu : u.kept r space a n = none := (State.kept_of_seqs (hf u c hread) ..).trans hkept
      dsimp only at h
      split at h
      · cases h
        exact Or.inr (State.kept_keep (Or.inl hu))
      · cases h
        exact Or.inl hu
    | wait u => rw [hread] at h; cases h
    | bad u c a => rw [hread] at h; cases h

theorem State.readOp_well_kept {s v : State} {r : Run} {a n : Nat} {b : List Byte} (h : s.readOp r 1 a n = .ok v b) :
    v.kept r 1 a n = none ∨ v.kept r 1 a n = some b := by
  rw [State.readOp] at h
  split at h
  · cases h
  · exact State.readOnce_kept (fun _ _ hread => (seqs_of_eq (Got.ofRead_ok hread)).trans (s.readPhys_seqs ..)) h

/-- Once read, the row block stays as it is for the stroke. -/
theorem State.rowBlock_kept {s u : State} {r : Run} {b : List Byte} (h : s.rowBlock r = .ok u b) :
    u.kept r 1 (64 * kRowblk r.d) 576 = some b := by
  rw [State.rowBlock] at h
  split at h
  · next hkept =>
    cases h
    exact hkept
  · cases hread : s.readOp r 1 (64 * kRowblk r.d) 576 with
    | ok v c =>
      rw [hread] at h
      cases h
      exact State.kept_keep (State.readOp_well_kept hread)
    | wait v => rw [hread] at h; cases h
    | bad v c a => rw [hread] at h; cases h

theorem chunks_eq_map {α : Type} (n : Nat) {m fuel : Nat} {l : List α} (hn : 0 < n) (hl : l.length = n * m) (hm : m ≤ fuel) :
    chunks n fuel l = (List.range m).map fun j => (l.drop (n * j)).take n := by
  induction m generalizing fuel l with
  | zero =>
    rw [List.length_eq_zero_iff.mp hl]
    cases fuel <;> rfl
  | succ m ih =>
    obtain ⟨fuel, rfl⟩ : ∃ f, fuel = f + 1 := ⟨fuel - 1, by omega⟩
    have hne : ¬l.isEmpty = true := by
      rw [List.isEmpty_iff_length_eq_zero, hl]
      positivity
    rw [chunks, if_neg hne, ih (by rw [List.length_drop, hl, Nat.mul_succ, Nat.add_sub_cancel]) (by omega),
      List.range_succ_eq_map, List.map_cons, List.map_map]
    refine congrArg₂ _ rfl (List.map_congr_left fun j _ => ?_)
    rw [Function.comp, List.drop_drop, Nat.mul_succ, Nat.add_comm]

/-- The 64 entries of a row block. -/
theorem State.rowsOf_ent (s : State) (r : Run) {b : List Byte} (hb : b.length = 576) (sample : Bool) :
    (s.rowsOf r b sample).ent = (List.range 64).map fun m => leNat ((b.drop (64 + 8 * m)).take 8) := by
  have hlen : (b.drop 64).length = 8 * 64 := by rw [List.length_drop, hb]
  rw [State.rowsOf]
  dsimp only
  rw [chunks_eq_map 8 (by decide) hlen le_rfl, List.map_map]
  exact List.map_congr_left fun m _ => by rw [Function.comp, List.drop_drop]

/-- The rows that the live mask leaves. -/
theorem State.rowsOf_live (s : State) (r : Run) (b : List Byte) (sample : Bool) :
    (s.rowsOf r b sample).live = (List.range 64).map fun m => eValid ((s.rowsOf r b sample).entry m) &&
      (!sample || s.liveBit r.i r.c (eAct ((s.rowsOf r b sample).entry m))) && !((s.scribe r.scribe).dropped.contains m) := rfl

theorem mem_foldl_distinct (l : List Nat) (acc : List Nat) (m : Nat) :
    m ∈ l.foldl (fun a x => if a.contains x then a else a ++ [x]) acc ↔ m ∈ acc ∨ m ∈ l := by
  induction l generalizing acc with
  | nil => simp
  | cons x l ih =>
    rw [List.foldl_cons, ih, List.mem_cons]
    split
    · next h =>
      rw [List.contains_iff_mem] at h
      exact ⟨fun hm => hm.imp_right Or.inr, fun hm => hm.elim Or.inl fun hm => hm.elim (fun hx => Or.inl (hx ▸ h)) Or.inr⟩
    · rw [List.mem_append, List.mem_singleton, or_assoc]

theorem mem_distinct (l : List Nat) (m : Nat) : m ∈ distinct l ↔ m ∈ l := by
  rw [distinct, mem_foldl_distinct]
  simp

/-- A sample drops the valid rows whose slip is not live, and those dropped before. -/
theorem State.mem_dead {s : State} {r : Run} {b : List Byte} (hb : b.length = 576) {ent : Nat → Nat}
    (hent : ∀ m, ent m = leNat ((b.drop (64 + 8 * m)).take 8)) (m : Nat) :
    m ∈ (s.rowsOf r b true).dead ↔ m < 64 ∧ eValid (ent m) = true ∧
      (s.liveBit r.i r.c (eAct (ent m)) = false ∨ m ∈ (s.scribe r.scribe).dropped) := by
  rw [Rows.dead, List.mem_filter, List.mem_range]
  refine and_congr_right fun hm => ?_
  have hget {α : Type} (f : Nat → α) (d : α) : ((List.range 64).map f).getD m d = f m := by simp [hm]
  have hentry : (s.rowsOf r b true).entry m = ent m := by rw [Rows.entry, State.rowsOf_ent s r hb, hget, hent]
  rw [State.rowsOf_live, hget, hentry]
  cases eValid (ent m) <;> cases s.liveBit r.i r.c (eAct (ent m)) <;> simp

/-! ## Samples of the live mask -/

theorem exec_liveMaskSample (q : Fin 64) (k : Fin 8) (s : State) : exec (.liveMaskSample q k) s = execLiveMaskSample q k s := rfl

/-- Has a fetched stroke no rows to sample: a fault, no row block, or a stroke that does not run? -/
def State.unsampled (s : State) (q k : Nat) (e : Fetched) : Bool :=
  e.cause != 0 || !(kRbv e.d) || !(hasRows (kOp e.d)) || fetchCause k e.d != 0 || s.skipped q e.d

section Sample

variable {s : State} (hp : s.powered = true) {q : Fin 64} {k : Fin 8}
include hp

theorem exec_liveMaskSample_idle (h : s.runsOn q.val = none) : exec (.liveMaskSample q k) s = .next s := by
  rw [exec_liveMaskSample, execLiveMaskSample, act_powered hp, h]

variable {i c : Nat} {e : Fetched} (hrun : s.runsOn q.val = some (i, c))
  (he : e = State.seek i k.val scriptFuel (s.scribe (8 * q.val + k.val)).pc s)
include hrun he

theorem exec_liveMaskSample_unsampled (h : s.unsampled q.val k.val e = true) : exec (.liveMaskSample q k) s = .next s := by
  subst he
  rw [exec_liveMaskSample, execLiveMaskSample, act_powered hp, hrun]
  exact congrArg _ (if_pos h)

variable {r : Run} (hr : r = ⟨i, c, q.val, k.val, e.pc, e.d⟩) (h : s.unsampled q.val k.val e = false) {u v : State} {b : List Byte}
  (hblock : e.st.rowBlock r = .ok u b)
include hr h hblock

theorem exec_liveMaskSample_ok
    (hmask : u.sampleMask i c (((u.rowsOf r b false).ent.filter eValid).map eAct) = (v, .ok ())) :
    exec (.liveMaskSample q k) s = .next (v.setScribe r.scribe { v.scribe r.scribe with
      dropped := distinct ((v.scribe r.scribe).dropped ++ (v.rowsOf r b true).dead) }) := by
  subst he hr
  rw [exec_liveMaskSample, execLiveMaskSample, act_powered hp, hrun]
  refine congrArg _ ((if_neg (ne_true_of_eq_false h)).trans ?_)
  dsimp only
  rw [hblock]
  dsimp only
  rw [hmask]

theorem exec_liveMaskSample_bad {a : Nat}
    (hmask : u.sampleMask i c (((u.rowsOf r b false).ent.filter eValid).map eAct) = (v, .error a)) :
    exec (.liveMaskSample q k) s = .next (v.strokeFault r 0x0D a) := by
  subst he hr
  rw [exec_liveMaskSample, execLiveMaskSample, act_powered hp, hrun]
  refine congrArg _ ((if_neg (ne_true_of_eq_false h)).trans ?_)
  dsimp only
  rw [hblock]
  dsimp only
  rw [hmask]

end Sample

end Sys2Proof.Machine
end

section
/-! SUPPORT. Watch lines that wake, and the events of steps (03_scribe.md R99, R102; 04_strokes.md R153). -/

namespace Sys2Proof.Machine

/-! ## Folds that act once -/

theorem foldl_eq_self {α : Type} {f : State → α → State} {l : List α} {s : State} (h : ∀ x ∈ l, f s x = s) : l.foldl f s = s :=
  List.foldlRecOn (motive := (· = s)) l f rfl fun _ ht x hx => ht ▸ h x hx

/-- A fold that acts at one place of a list does what it does there. -/
theorem foldl_eq_of_only {α : Type} {f : State → α → State} {l : List α} {n : α} {s : State} (hl : l.Nodup) (hn : n ∈ l)
    (hbefore : ∀ m ∈ l, m ≠ n → f s m = s) (hafter : ∀ m ∈ l, m ≠ n → f (f s n) m = f s n) : l.foldl f s = f s n := by
  obtain ⟨l₁, l₂, rfl⟩ := List.append_of_mem hn
  have hl₁ : n ∉ l₁ := fun h => (List.disjoint_of_nodup_append hl) h (List.mem_cons_self ..)
  have hl₂ : n ∉ l₂ := (List.nodup_cons.mp (hl.of_append_right)).1
  rw [List.foldl_append, foldl_eq_self fun m hm => hbefore m (List.mem_append_left _ hm) (ne_of_mem_of_not_mem hm hl₁),
    List.foldl_cons, foldl_eq_self fun m hm =>
      hafter m (List.mem_append_right _ (List.mem_cons_of_mem _ hm)) (ne_of_mem_of_not_mem hm hl₂)]

/-! ## A write to a line -/

/-- What a write to a line does to the scribe n. -/
def State.wakeAt (line : Nat) (s : State) (n : Nat) : State :=
  match (s.scribe n).watch with
  | none => s
  | some a => if a / 64 == line / 64 then s.wakeScribe (n / 8) (n % 8) else s

theorem State.wakeLine_eq (s : State) (line : Nat) :
    s.wakeLine line = (List.range 512).foldl (State.wakeAt line) ((List.range 64).foldl (fun s q => s.stepEvent q line) s) := rfl

/-- A scribe that watches no word of the line goes on. -/
theorem State.wakeAt_apart {s : State} {line n : Nat} (h : ∀ a, (s.scribe n).watch = some a → a / 64 ≠ line / 64) :
    s.wakeAt line n = s := by
  rw [State.wakeAt]
  split
  · rfl
  · next a ha => rw [if_neg (by rw [beq_iff_eq]; exact h a ha)]

theorem State.wakeAt_watching {s : State} {line n a : Nat} (h : (s.scribe n).watch = some a) (ha : a / 64 = line / 64) :
    s.wakeAt line n = s.wakeScribe (n / 8) (n % 8) := by
  rw [State.wakeAt, h]
  exact if_pos (beq_iff_eq.mpr ha)

theorem State.stepEvent_apart {s : State} {line q : Nat} (h : ∀ a, (s.quire q).stepAt = some a → a / 64 ≠ line / 64) :
    s.stepEvent q line = s := by
  rw [State.stepEvent]
  split
  · next a _ ha => rw [beq_false_of_ne (h a ha), Bool.false_and, if_neg Bool.false_ne_true]
  · rfl

/-- The event of a write to the word of a quire's STEP wait (04_strokes.md R153). -/
theorem State.stepEvent_on {s : State} {q i c a line : Nat} (hrun : s.runsOn q = some (i, c)) (hstep : (s.quire q).stepAt = some a)
    (ha : a / 64 = line / 64) :
    s.stepEvent q line =
      if s.tierLe a 8 = (s.quire q).lastStep.toNat ∨ s.tierLe a 8 = ((s.quire q).lastStep.toNat + 1) % 2 ^ 64 then s
      else s.post 0x0403 [q, s.tierLe a 8] := by
  rw [State.stepEvent, hrun, hstep]
  dsimp only
  rw [ha, beq_self_eq_true, Bool.true_and, stepStray]
  by_cases h : s.tierLe a 8 = (s.quire q).lastStep.toNat ∨ s.tierLe a 8 = ((s.quire q).lastStep.toNat + 1) % 2 ^ 64
  · rw [if_pos h, if_neg (by simpa [Decidable.or_iff_not_imp_left] using h)]
  · rw [if_neg h, if_pos (by simpa using h)]

section Line

variable {s : State} {line : Nat} (hsteps : ∀ n x, n < 64 → (s.quire n).stepAt = some x → x / 64 ≠ line / 64)
include hsteps

theorem State.foldl_stepEvent : (List.range 64).foldl (fun s q => s.stepEvent q line) s = s :=
  foldl_eq_self fun q hq => State.stepEvent_apart fun a => hsteps q a (List.mem_range.mp hq)

/-- A write to a line that nothing watches wakes no one. -/
theorem State.wakeLine_unwatched (h : ∀ n x, n < 512 → (s.scribe n).watch = some x → x / 64 ≠ line / 64) : s.wakeLine line = s := by
  rw [State.wakeLine_eq, State.foldl_stepEvent hsteps]
  exact foldl_eq_self fun n hn => State.wakeAt_apart fun a => h n a (List.mem_range.mp hn)

/-- A write to a line that one scribe watches wakes that one, when its waking changes no other scribe. -/
theorem State.wakeLine_only {n a : Nat} (hn : n < 512) (hwatch : (s.scribe n).watch = some a) (ha : a / 64 = line / 64)
    (hothers : ∀ m x, m < 512 → m ≠ n → (s.scribe m).watch = some x → x / 64 ≠ line / 64)
    (hkeep : ∀ m, m ≠ n → (s.wakeScribe (n / 8) (n % 8)).scribe m = s.scribe m) :
    s.wakeLine line = s.wakeScribe (n / 8) (n % 8) := by
  rw [State.wakeLine_eq, State.foldl_stepEvent hsteps, foldl_eq_of_only (List.nodup_range ..) (List.mem_range.mpr hn),
    State.wakeAt_watching hwatch ha]
  · exact fun m hm hmn => State.wakeAt_apart fun x => hothers m x (List.mem_range.mp hm) hmn
  · rw [State.wakeAt_watching hwatch ha]
    exact fun m hm hmn => State.wakeAt_apart fun x hx => hothers m x (List.mem_range.mp hm) hmn (by rwa [hkeep m hmn] at hx)

end Line

/-! ## A scribe that wakes -/

theorem State.wakeScribe_wait {s : State} {q k i c : Nat} {e : Fetched} {r : Run} (hrun : s.runsOn q = some (i, c))
    (he : e = State.seek i k scriptFuel (s.scribe (8 * q + k)).pc s) (hr : r = ⟨i, c, q, k, e.pc, e.d⟩) (hcause : e.cause = 0)
    (hop : kOp e.d = 0x10) : s.wakeScribe q k = e.st.waitAt r := by
  rw [State.wakeScribe, hrun]
  dsimp only
  rw [← he, ← hr, hcause, hop]
  rfl

/-- A read of the tiered range by a stroke that waits for no fabric data changes no sequencer. -/
theorem State.readOp_tier_seqs {s v : State} {r : Run} {a n : Nat} {b : List Byte} (hwait : r.mayWait = false)
    (h : s.readOp r 2 a n = .ok v b) : v.seqs = s.seqs := by
  rw [State.readOp] at h
  split at h
  · cases h
  · rw [State.readOnce] at h
    split at h
    · cases h
      rfl
    · split at h
      · next hread =>
        rw [hwait, if_neg Bool.false_ne_true] at h
        cases h
        exact (seqs_of_eq (Got.ofRead_ok hread)).trans (s.readTier_seqs ..)
      · next hne => exact absurd h (hne _ _)

theorem Run.mayWait_wait {r : Run} (h : kOp r.d = 0x10) : r.mayWait = false := by
  rw [Run.mayWait, h]
  rfl

theorem State.endStall_scribes (s : State) (r : Run) : (s.endStall r).scribes = s.scribes := by
  rw [State.endStall]
  split
  · rfl
  · rw [((LogOnly.refl _).postOnce ..).rest]
    rfl

/-- A boundary moves its own scribe alone. -/
theorem State.passed_scribe_ne {s : State} {r : Run} (h : (s.sheet r.i).cur = some r.c) (next : Nat) (ran : Bool) {m : Nat}
    (hm : m ≠ r.scribe) : (s.passed r next ran).scribe m = s.scribe m := by
  rw [State.scribe, State.passed_scribes h, Map.getD_set_ne _ _ _ hm, State.endStall_scribes, State.scribe]

theorem State.enterWatch_watching {s : State} {r : Run} {a : Nat} (h : (s.scribe r.scribe).watch = some a) : s.enterWatch r a = s :=
  if_pos h

/-- The condition of a wait that compares with its reference, and no step sequence (04_strokes.md R152). -/
theorem waitHolds_iff (sub : Nat) (last : W64) (v ref : Nat) :
    sub < 3 → (waitHolds sub last v ref = true ↔ (match sub with | 0 => ref ≤ v | 1 => v = ref | _ => v ≠ ref)) := by
  intro h
  interval_cases sub
  · exact decide_eq_true_iff
  · exact beq_iff_eq
  · exact bne_iff_ne

section Wake

variable {s v : State} {q k i c : Nat} {e : Fetched} {r : Run} {b : List Byte} (hrun : s.runsOn q = some (i, c))
  (he : e = State.seek i k scriptFuel (s.scribe (8 * q + k)).pc s) (hr : r = ⟨i, c, q, k, e.pc, e.d⟩) (hcause : e.cause = 0)
  (hop : kOp e.d = 0x10) (hsub : kSub e.d < 3) (hwatchable : e.st.watchable r (kSrc0 r.d) = true)
  (hread : e.st.readOp r 2 (oAddr r.k (kSrc0 r.d)) 8 = .ok v b)
include he hr hop hread

/-- Judging a wait again changes no sequencer and no sheet. -/
theorem State.judged_seqs : v.seqs = s.seqs := by
  subst hr
  exact (State.readOp_tier_seqs (Run.mayWait_wait hop) hread).trans (he ▸ State.seek_seqs ..)

include hrun hcause hsub hwatchable

theorem State.wakeScribe_passes (h : waitHolds (kSub r.d) (v.scribe r.scribe).last (leNat b) (kSrc2 r.d) = true) :
    s.wakeScribe q k = v.passed r (r.pc + 64) true := by
  have hstep : ¬kSub r.d = 3 := by
    rw [hr]
    exact hsub.ne
  rw [State.wakeScribe_wait hrun he hr hcause hop, State.waitAt_passes hwatchable hread h, if_neg hstep]

theorem State.wakeScribe_watches (hwatch : (s.scribe (8 * q + k)).watch = some (oAddr r.k (kSrc0 r.d)))
    (h : waitHolds (kSub r.d) (v.scribe r.scribe).last (leNat b) (kSrc2 r.d) = false) : s.wakeScribe q k = v := by
  have hstep : kSub r.d ≠ 3 := by
    rw [hr]
    exact hsub.ne
  have hscribe : v.scribe r.scribe = s.scribe (8 * q + k) := by
    rw [State.scribe_of_seqs (State.judged_seqs he hr hop hread), hr, Run.scribe]
  rw [State.wakeScribe_wait hrun he hr hcause hop, State.waitAt_watches hwatchable hread h, State.stepOn_other hstep,
    State.enterWatch_watching (hscribe ▸ hwatch)]

/-- A scribe that wakes changes no other. -/
theorem State.wakeScribe_scribe_ne (hwatch : (s.scribe (8 * q + k)).watch = some (oAddr r.k (kSrc0 r.d))) {m : Nat}
    (hm : m ≠ 8 * q + k) : (s.wakeScribe q k).scribe m = s.scribe m := by
  have hv := State.judged_seqs he hr hop hread
  cases h : waitHolds (kSub r.d) (v.scribe r.scribe).last (leNat b) (kSrc2 r.d) with
  | false =>
    rw [State.wakeScribe_watches hrun he hr hcause hop hsub hwatchable hread hwatch h]
    exact State.scribe_of_seqs hv m
  | true =>
    rw [State.wakeScribe_passes hrun he hr hcause hop hsub hwatchable hread h]
    subst hr
    have hcur : (v.sheet i).cur = some c := (congrArg SheetRt.cur (State.sheet_of_seqs hv i)).trans (State.runsOn_cur hrun)
    exact (State.passed_scribe_ne hcur _ _ hm).trans (State.scribe_of_seqs hv m)

end Wake

theorem exec_watchWake {s : State} (hp : s.powered = true) (line : BitVec 42) :
    exec (.watchWake line) s = .next (s.wakeLine line.toNat) := act_powered hp fun s => s.wakeLine line.toNat

/-- Settles O22: overruns and samples are the branches of their commands; a write to a line wakes by `State.wakeLine`. -/
theorem sequencerEvents : Obligations.SequencerEvents := by
  unfold Obligations.SequencerEvents
  refine ⟨?_, ?_, ?_, ?_, ?_, ?_, ?_⟩
  · intro q k s i c e hp hrun he hcause hwait hwatch hbarrier hi hc hlive
    refine ⟨_, ?_, rfl, ?_⟩
    · rw [exec_strokeOverrun_fetched hp hrun he, if_neg (by simp [hcause, hwait, hwatch, hbarrier])]
    · have hcur : (e.st.sheet i).cur = some c := by
        rw [he, State.sheet_of_seqs (State.seek_seqs ..)]
        exact State.runsOn_cur hrun
      exact State.overrun_fault q k.val e.pc e.d hi hc hlive hcur
  · intro q k s u v i c e r b ent hp hrun he hcause hrbv hrows hfetch hskip hr hblock hb hent
    have hsampled : s.unsampled q.val k.val e = false := by simp [State.unsampled, hcause, hrbv, hrows, hfetch, hskip]
    have hents : (u.rowsOf r b false).ent = (List.range 64).map ent := by
      rw [State.rowsOf_ent u r hb, funext hent]
    refine ⟨fun hmask => ?_, fun a hmask => exec_liveMaskSample_bad hp hrun he hr hsampled hblock (hents ▸ hmask)⟩
    refine ⟨_, exec_liveMaskSample_ok hp hrun he hr hsampled hblock (hents ▸ hmask), rfl,
      fun n hn => State.scribe_setScribe_ne _ _ hn, ?_, ?_, ?_, fun m => ?_⟩
    · rw [State.kept, State.scribe_setScribe, State.kept]
    · rw [State.scribe_setScribe]
    · rw [State.scribe_setScribe]
    · have hic : r.i = i ∧ r.c = c := by rw [hr]; exact ⟨rfl, rfl⟩
      rw [State.scribe_setScribe, mem_distinct, List.mem_append, State.mem_dead hb hent, hic.1, hic.2]
      tauto
  · exact fun s u r b => State.rowBlock_kept
  · rintro line q k s v i c a e r b hp hwatch ha hothers hsteps hrun he hcause hop hsub hr rfl hwatchable hread
    have hdiv : (8 * q.val + k.val) / 8 = q.val := by omega
    have hmod : (8 * q.val + k.val) % 8 = k.val := by omega
    have hwake : exec (.watchWake line) s = .next (s.wakeScribe q.val k.val) := by
      rw [exec_watchWake hp, State.wakeLine_only hsteps (by omega) hwatch ha hothers, hdiv, hmod]
      rw [hdiv, hmod]
      exact fun m => State.wakeScribe_scribe_ne hrun he hr hcause hop hsub hwatchable hread hwatch
    have hd : r.d = e.d := by rw [hr]
    have hholds := waitHolds_iff (kSub e.d) (v.scribe r.scribe).last (leNat b) (kSrc2 e.d) hsub
    rw [hwake]
    refine ⟨fun h => ?_, fun h => ?_⟩
    · rw [State.wakeScribe_passes hrun he hr hcause hop hsub hwatchable hread (hd ▸ hholds.mpr h)]
    · rw [State.wakeScribe_watches hrun he hr hcause hop hsub hwatchable hread hwatch
        (hd ▸ Bool.eq_false_of_not_eq_true fun hw => h (hholds.mp hw))]
  · intro line s hp hwatch hsteps
    rw [exec_watchWake hp, State.wakeLine_unwatched hsteps hwatch]
  · exact fun s q i c a line => State.stepEvent_on
  · refine fun q k s hp => ⟨fun hrun => ⟨exec_strokeOverrun_idle hp hrun, exec_liveMaskSample_idle hp hrun⟩,
      fun i c e hrun he => ⟨fun h => ?_, fun h => ?_⟩⟩
    · rw [exec_strokeOverrun_fetched hp hrun he, if_pos]
      simpa [Option.ne_none_iff_isSome, or_assoc] using h
    · exact exec_liveMaskSample_unsampled hp hrun he (by simpa [State.unsampled, or_assoc] using h)

end Sys2Proof.Machine
end

section
/-! SUPPORT. What RED and MOVE make of their operands (04_strokes.md R146, R149). -/

namespace Sys2Proof.Machine

/-- The bytes of a reduced column that are written: those of every row but one of the block that is not live. -/
def Rows.redKeep (x : Rows) : List Bool := (List.range 256).map fun b => !(decide (b / 4 < x.m) && !(x.isLive (b / 4)))

theorem Rows.redKeep_length (x : Rows) : x.redKeep.length = 256 := by rw [Rows.redKeep, List.length_map, List.length_range]

theorem Rows.redKeep_getElem? (x : Rows) {b : Nat} (h : b < 256) :
    x.redKeep[b]? = some (!(decide (b / 4 < x.m) && !(x.isLive (b / 4)))) := by
  rw [Rows.redKeep, List.getElem?_map, List.getElem?_range h, Option.map_some]

theorem redStroke_rows {s t u : State} {r : Run} {x : Rows} {fa : List FolioAt} (hrows : s.readRows r = .ok t x) (hm : x.m ≠ 0)
    (hfa : State.readFolios r (oSpace (kSrc0 r.d)) (kStride0 r.d) (kNp r.d) (oAddr r.k (kSrc0 r.d)) [] t = .ok u fa) :
    redStroke r s = .ok u
      ⟨[⟨oSpace (kDst r.d), oAddr r.k (kDst r.d),
        pack 0 (((List.range 64).map fun m => if x.isLive m then
          redRow (kSub r.d) (kNp r.d) (kN r.d) (kImmf r.d) (BitVec.ofNat 32 (kImm2 r.d)) (fun t c => tileVal fa t m c) else 0).map
            BitVec.toNat), x.redKeep⟩], [], fa, id⟩ := by
  rw [redStroke]
  dsimp only
  rw [State.withRows_rows hrows hm, hfa, Got.ok_bind, Rows.redKeep]

theorem moveStroke_read {s t : State} {r : Run} {b : List Byte}
    (h : s.readOp r (oSpace (kSrc0 r.d)) (oAddr r.k (kSrc0 r.d)) (64 * (kImm2 r.d % 16384 + 1)) = .ok t b) :
    moveStroke r s = .ok t ⟨[Out.whole (oSpace (kDst r.d)) (oAddr r.k (kDst r.d)) b], [], [], id⟩ := by
  rw [moveStroke, h, Got.ok_bind]

/-- A RED command runs `redStroke` under its own sub-operation. -/
theorem exec_red {row : StrokeCmd × Nat} (h : row ∈ [((Instr.redSum : StrokeCmd), 0), (.redMax, 1), (.sumsq, 2), (.rmsr, 3)])
    {s : State} (hp : s.powered = true) (q : Fin 64) (k : Fin 8) (lost : Nat) :
    exec (row.1 q k lost) s = .next (s.compute q.val k.val 0x05 (· == row.2) lost redStroke) := by
  suffices hact : exec (row.1 q k lost) s = act s fun s => s.compute q.val k.val 0x05 (· == row.2) lost redStroke from
    hact.trans (act_powered hp _)
  revert row
  simp only [List.forall_mem_cons]
  exact ⟨rfl, rfl, rfl, rfl, List.forall_mem_nil _⟩

theorem exec_move {s : State} (hp : s.powered = true) (q : Fin 64) (k : Fin 8) (lost : Nat) :
    exec (.move q k lost) s = .next (s.compute q.val k.val 0x08 (fun _ => true) lost moveStroke) :=
  act_powered hp fun s => s.compute q.val k.val 0x08 (fun _ => true) lost moveStroke

/-- Settles O17: both strokes compute; RED reads its rows and its folios, MOVE its lines. -/
theorem redValues : Obligations.RedValues := by
  unfold Obligations.RedValues
  refine ⟨fun row hrow q k lost s u u1 u2 r x fa hp hm hrows hx hfa => ?_, fun q k lost s u v r b hp hm hread => ?_⟩
  · refine ⟨x.redKeep, x.redKeep_length, fun b hb => x.redKeep_getElem? hb, ?_⟩
    rw [exec_red hrow hp, State.compute_ok hm (redStroke_rows hrows hx hfa), hm.kSub_eq]
  · rw [exec_move hp, State.compute_ok hm (moveStroke_read hread)]

end Sys2Proof.Machine
end

section
/-! SUPPORT. Barrier strokes: FLAG and VARIANT (04_strokes.md R154, R155, R162 to R164; 11_fabric_ops.md R456). -/

namespace Sys2Proof.Machine

/-! ## A barrier -/

section Barrier

variable {s u v : State} {q k op : Nat} {sub : Nat → Bool} {r : Run} (h : MayRun s q k op sub r u)
  (hv : v = u.setScribe r.scribe { u.scribe r.scribe with pc := r.pc, atBarrier := true })
include h hv

theorem State.barrier_waits (hall : v.allAt r = false) (f : Run → State → State) : s.barrier q k op sub f = v := by
  subst hv
  rw [State.barrier, State.stroke_mayRun h]
  exact if_neg (ne_true_of_eq_false hall)

/-- The last scribe makes the stroke act, for the lowest of its mask. -/
theorem State.barrier_acts (hall : v.allAt r = true) (f : Run → State → State) :
    s.barrier q k op sub f = f { r with k := lowScribe r.d } v := by
  subst hv
  rw [State.barrier, State.stroke_mayRun h]
  exact if_pos hall

end Barrier

/-! ## FLAG -/

/-- What a FLAG writes over the word `b` it has read (04_strokes.md R155). -/
def Run.flagOut (r : Run) (b : List Byte) : Out :=
  Out.whole (oSpace (kDst r.d)) (oAddr r.k (kDst r.d))
    (leBytes 8 (if kSub r.d = 1 then (leNat b + kSrc2 r.d) % 2 ^ 64 else kSrc2 r.d))

theorem State.flagAt_plain {r : Run} (h : kImm2 r.d % 2 = 0) (s : State) : s.flagAt r = s.flagAct r := if_pos h

theorem State.flagAt_fenced {r : Run} (h : kImm2 r.d % 2 = 1) {s u : State}
    (hu : u = (s.flushOf fun x => x.kind == 0 && x.a == r.i && x.b == r.c && x.c == r.q).recSeen r.i r.c) :
    s.flagAt r = if u.fenceOpen r then u.flagAct r else u := by
  rw [hu]
  exact if_neg (by omega)

section FlagHere

variable {s v : State} {r : Run} (hspace : oSpace (kDst r.d) ≠ 3)
include hspace

theorem State.flagAct_unread {c a : Nat} (h : s.readOp r (oSpace (kDst r.d)) (oAddr r.k (kDst r.d)) 8 = .bad v c a) :
    s.flagAct r = v.strokeFault r c a := by
  rw [State.flagAct]
  dsimp only
  rw [if_neg hspace, h]

variable {w : State} {b : List Byte} (hread : s.readOp r (oSpace (kDst r.d)) (oAddr r.k (kDst r.d)) 8 = .ok v b)
include hread

theorem State.flagAct_written (hout : v.outBad r (r.flagOut b) = (w, none)) :
    s.flagAct r = (w.putOut r (r.flagOut b)).passAll r (r.pc + 64) 0 := by
  unfold Run.flagOut at hout ⊢
  rw [State.flagAct]
  dsimp only
  rw [if_neg hspace, hread]
  simp only [beq_iff_eq, hout]

theorem State.flagAct_unwritten {f : Nat × Nat} (hout : v.outBad r (r.flagOut b) = (w, some f)) :
    s.flagAct r = w.strokeFault r f.1 f.2 := by
  unfold Run.flagOut at hout
  rw [State.flagAct]
  dsimp only
  rw [if_neg hspace, hread]
  simp only [beq_iff_eq, hout]

end FlagHere

section FlagFabric

variable {s u : State} {r : Run} {a : Nat} (hspace : oSpace (kDst r.d) = 3) (ha : a = oAddr r.k (kDst r.d))
  (hu : u = s.seenImport (some r.i) a)
include hspace ha hu

theorem State.flagAct_imported
    (h : importOk (u.importEntry (some r.i) a) (a % 2 ^ 36) 8 (needPerm 0x0C (kSub r.d)) = true) (hlt : a < 2 ^ 48) :
    s.flagAct r = (u.strokeWrite r 0x0C a fun p => { p with
      atop := BitVec.ofNat 4 (kSub r.d), imm := BitVec.ofNat 64 (kSrc2 r.d) }).passAll r (r.pc + 64) 0 := by
  rw [hu, ha] at h ⊢
  rw [ha] at hlt
  rw [State.flagAct]
  dsimp only
  rw [if_pos hspace, h, if_neg (by simpa using hlt)]

theorem State.flagAct_unimported
    (h : importOk (u.importEntry (some r.i) a) (a % 2 ^ 36) 8 (needPerm 0x0C (kSub r.d)) = false) :
    s.flagAct r = u.strokeFault r 0x0B a := by
  rw [hu, ha] at h ⊢
  rw [State.flagAct]
  dsimp only
  rw [if_pos hspace, h, Bool.not_false, Bool.true_or, if_pos rfl]

end FlagFabric

/-! ## VARIANT -/

/-- A scribe may not enter a variant from inside one (04_strokes.md R163). -/
theorem State.variantAt_inside {s : State} {r : Run} (h : (s.scribe r.scribe).ret ≠ 0) : s.variantAt r = s.strokeFault r 0x0E 0 :=
  if_pos (bne_iff_ne.mpr h)

section Variant

variable {s : State} {r : Run} (hret : (s.scribe r.scribe).ret = 0)
include hret

theorem State.variantAt_notTier (hspace : oSpace (kSrc0 r.d) ≠ 2) : s.variantAt r = s.strokeFault r 0x0A 0 := by
  have hw : s.watchable r (kSrc0 r.d) = false :=
    Bool.eq_false_of_not_eq_true fun h => hspace ((s.watchable_iff r _).mp h).1
  rw [State.variantAt, hret, bne_self_eq_false, if_neg Bool.false_ne_true, hw, Bool.not_false, if_pos rfl, State.watchFault,
    State.watchCause, if_neg (by rwa [beq_iff_eq])]
  rfl

variable (hw : s.watchable r (kSrc0 r.d) = true) {v : State} {b : List Byte}
  (hread : s.readOp r 2 (oAddr r.k (kSrc0 r.d)) 8 = .ok v b)
include hw hread

/-- With no selection for the step yet, the scribes watch its word. -/
theorem State.variantAt_watches (hstep : bits (leNat b) 63 32 ≠ (v.quire r.q).lastStep.toNat % 2 ^ 32) :
    s.variantAt r = v.watchAll r (oAddr r.k (kSrc0 r.d)) := by
  rw [State.variantAt, hret, bne_self_eq_false, if_neg Bool.false_ne_true, hw, Bool.not_true, if_neg Bool.false_ne_true]
  dsimp only
  rw [hread]
  dsimp only
  rw [if_pos (bne_iff_ne.mpr hstep)]

variable (hstep : bits (leNat b) 63 32 = (v.quire r.q).lastStep.toNat % 2 ^ 32) {w : State} {tb : List Byte}
  (htable : v.readOp r (oSpace (kSrc1 r.d)) (oAddr r.k (kSrc1 r.d) + 8 * bits (leNat b) 4 0) 8 = .ok w tb)
include hstep htable

/-- A valid entry of the table names the variant that is entered. -/
theorem State.variantAt_selected :
    s.variantAt r = if bit (leNat tb) 63 = true
      then (w.setQuire r.q { w.quire r.q with variantAt := r.pc }).passAll r (leNat tb % 2 ^ 48) (r.pc + 64)
      else w.strokeFault r 0x0E 0 := by
  rw [State.variantAt, hret, bne_self_eq_false, if_neg Bool.false_ne_true, hw, Bool.not_true, if_neg Bool.false_ne_true]
  dsimp only
  rw [hread]
  dsimp only
  rw [hstep, bne_self_eq_false, if_neg Bool.false_ne_true, htable]
  dsimp only
  cases bit (leNat tb) 63 <;> rfl

end Variant

/-! ## The commands of barriers -/

theorem exec_flagStore {s : State} (hp : s.powered = true) (q : Fin 64) (k : Fin 8) :
    exec (.flagStore q k) s = .next (s.barrier q.val k.val 0x11 (· == 0) fun r s => s.flagAt r) :=
  act_powered hp fun s => s.barrier q.val k.val 0x11 (· == 0) fun r s => s.flagAt r

theorem exec_flagAdd {s : State} (hp : s.powered = true) (q : Fin 64) (k : Fin 8) :
    exec (.flagAdd q k) s = .next (s.barrier q.val k.val 0x11 (· == 1) fun r s => s.flagAt r) :=
  act_powered hp fun s => s.barrier q.val k.val 0x11 (· == 1) fun r s => s.flagAt r

theorem exec_variant {s : State} (hp : s.powered = true) (q : Fin 64) (k : Fin 8) :
    exec (.variant q k) s = .next (s.barrier q.val k.val 0x18 (fun _ => true) fun r s => s.variantAt r) :=
  act_powered hp fun s => s.barrier q.val k.val 0x18 (fun _ => true) fun r s => s.variantAt r

/-- Settles O20: the three commands are `State.barrier`; what a FLAG and a VARIANT do when they act is read off above. -/
theorem barrierRows : Obligations.BarrierRows := by
  unfold Obligations.BarrierRows
  refine ⟨?_, ?_, fun s r h => State.flagAt_plain h s, fun s u r h hu => State.flagAt_fenced h hu, ?_, ?_, ?_, ?_, ?_⟩
  · intro row hrow q k s u v r hp hm hv
    have hexec : exec (row.1 q k) s = .next (s.barrier q.val k.val row.2.1 row.2.2.1 row.2.2.2) := by
      clear hm
      revert row
      simp only [List.forall_mem_cons]
      exact ⟨exec_flagStore hp q k, exec_flagAdd hp q k, exec_variant hp q k, List.forall_mem_nil _⟩
    rw [hexec]
    exact ⟨fun hall => by rw [State.barrier_waits hm hv hall], fun hall => by rw [State.barrier_acts hm hv hall]⟩
  · exact fun s v w r b hspace hread hout => State.flagAct_written hspace hread hout
  · intro s v w r b tb hret hw hread hstep htable hvalid
    rw [State.variantAt_selected hret hw hread hstep htable, if_pos hvalid]
  · exact fun s v r b hret hw hread hstep => State.variantAt_watches hret hw hread hstep
  · exact fun s u r a hspace ha hu => ⟨fun h hlt => State.flagAct_imported hspace ha hu h hlt,
      fun h => State.flagAct_unimported hspace ha hu h⟩
  · exact fun s v w r hspace => ⟨fun c a hread => State.flagAct_unread hspace hread,
      fun b f hread hout => State.flagAct_unwritten hspace hread hout⟩
  · refine fun s r => ⟨State.variantAt_inside, State.variantAt_notTier, fun v w b tb hret hw hread hstep htable hvalid => ?_⟩
    rw [State.variantAt_selected hret hw hread hstep htable, if_neg (ne_true_of_eq_false hvalid)]

end Sys2Proof.Machine
end

section
/-! SUPPORT. Predicates, RET and END (04_strokes.md R156, R161, R163). -/

namespace Sys2Proof.Machine

/-! ## The predicates of a quire at a boundary -/

/-- The predicates of quire q. -/
def State.preds (s : State) (q : Nat) : BitVec 8 := (s.quire q).preds

theorem State.preds_congr {s t : State} (h : t.quires = s.quires) (q : Nat) : t.preds q = s.preds q := by
  rw [State.preds, State.quire, h, State.preds, State.quire]

theorem State.preds_setQuire (s : State) (q : Nat) (x : QuireRt) : (s.setQuire q x).preds q = x.preds := by
  rw [State.preds, State.quire_setQuire]

theorem State.setQuireState_preds (s : State) (q st : Nat) : (s.setQuireState q st).preds q = s.preds q := by
  rw [State.setQuireState]
  split
  · rfl
  · rw [State.preds_setQuire, State.preds]

theorem State.setRails_quires (s : State) : s.setRails.quires = s.quires := by
  refine foldl_keeps State.quires (fun d _ s => ?_) s
  dsimp only
  split <;> rfl

theorem State.resumePoint_quires (s : State) (q : Nat) : (s.resumePoint q).quires = s.quires := by
  rw [State.resumePoint, State.setClock, State.wrw_quires, State.wr_quires, State.setRails_quires, State.wr_quires]

theorem State.quireWatch_preds (s : State) (q : Nat) : (s.quireWatch q).preds q = s.preds q := by
  rw [State.quireWatch]
  split
  · rw [State.preds_congr (State.resumePoint_quires ..), State.setQuireState_preds]
    rfl
  · split
    · exact State.setQuireState_preds ..
    · rfl

theorem State.endStall_quires (s : State) (r : Run) : (s.endStall r).quires = s.quires := by
  rw [State.endStall]
  split
  · rfl
  · rw [((LogOnly.refl _).postOnce ..).rest]
    rfl

theorem State.preds_setPhase (s : State) (q : Nat) (c : Prop) [Decidable c] (p : Nat) :
    (if c then s.setQuire q { s.quire q with phase := p } else s).preds q = s.preds q := by
  split
  · exact State.preds_setQuire ..
  · rfl

theorem State.passed_preds (s : State) (r : Run) (next : Nat) (ran : Bool) : (s.passed r next ran).preds r.q = s.preds r.q := by
  rw [State.passed]
  split
  · rfl
  · rw [State.quireWatch_preds, ← State.preds_congr (State.endStall_quires s r)]
    cases ran <;> exact State.preds_setPhase ..

theorem State.passAll_preds (s : State) (r : Run) (next ret : Nat) : (s.passAll r next ret).preds r.q = s.preds r.q := by
  refine foldl_keeps (State.preds · r.q) (fun j _ s => ?_) s
  dsimp only
  split
  · exact State.passed_preds _ { r with k := j } next true
  · rfl

/-! ## PSET -/

/-- Setting or clearing one bit of eight changes it alone. -/
theorem getLsbD_setBit (p : BitVec 8) (n : Nat) (x : Bool) {j : Nat} (hj : j < 8) :
    (if x then p ||| BitVec.ofNat 8 (2 ^ n) else p &&& ~~~BitVec.ofNat 8 (2 ^ n)).getLsbD j =
      if j = n then x else p.getLsbD j := by
  have hbit : (BitVec.ofNat 8 (2 ^ n)).getLsbD j = decide (j = n) := by
    rw [BitVec.getLsbD_ofNat, Nat.testBit_two_pow, decide_eq_true hj, Bool.true_and]
    exact decide_eq_decide.mpr eq_comm
  cases x
  · rw [if_neg Bool.false_ne_true, BitVec.getLsbD_and, BitVec.getLsbD_not, hbit, decide_eq_true hj]
    by_cases h : j = n <;> simp [h]
  · rw [if_pos rfl, BitVec.getLsbD_or, hbit]
    by_cases h : j = n <;> simp [h]

theorem State.setPred_preds (s : State) (r : Run) (x : Bool) :
    (s.setPred r x).preds r.q =
      if x then s.preds r.q ||| BitVec.ofNat 8 (2 ^ bits (kImm2 r.d) 10 8)
      else s.preds r.q &&& ~~~BitVec.ofNat 8 (2 ^ bits (kImm2 r.d) 10 8) := by
  rw [State.setPred, State.passAll_preds, State.preds_setQuire, State.preds]

theorem State.setPred_getLsbD (s : State) (r : Run) (x : Bool) {j : Nat} (hj : j < 8) :
    ((s.setPred r x).quire r.q).preds.getLsbD j =
      if j = bits (kImm2 r.d) 10 8 then x else (s.quire r.q).preds.getLsbD j := by
  have h := congrArg (BitVec.getLsbD · j) (State.setPred_preds s r x)
  exact h.trans (getLsbD_setBit _ _ x hj)

/-! ## LIVEANY and CMP -/

theorem exec_liveany (q : Fin 64) (k : Fin 8) (s : State) : exec (.liveany q k) s = execLiveany q k s := rfl

theorem exec_cmp (q : Fin 64) (k : Fin 8) (s : State) : exec (.cmp q k) s = execCmp q k s := rfl

/-- The entries that a row block counts. -/
def blockEntries (b : List Byte) : List Nat :=
  (List.range (min 64 (leNat (b.take 4)))).map fun m => leNat ((b.drop (64 + 8 * m)).take 8)

section Predicate

variable {s u v w : State} (hp : s.powered = true) {q : Fin 64} {k : Fin 8} {r : Run}
  (hv : v = u.setScribe r.scribe { u.scribe r.scribe with pc := r.pc, atBarrier := true })
include hp hv

section Liveany

variable (hm : MayRun s q.val k.val 0x12 (· == 0) r u)
include hm

theorem exec_liveany_waits (hall : v.allAt r = false) : exec (.liveany q k) s = .next v := by
  rw [exec_liveany, execLiveany, act_powered hp, State.barrier_waits hm hv hall]

variable (hall : v.allAt r = true)
include hall

theorem exec_liveany_unread {c a : Nat}
    (hread : v.readOp { r with k := lowScribe r.d } 1 (64 * kRowblk r.d) 576 = .bad w c a) :
    exec (.liveany q k) s = .next (w.strokeFault { r with k := lowScribe r.d } c a) := by
  rw [exec_liveany, execLiveany, act_powered hp, State.barrier_acts hm hv hall, hread]

variable {w0 : State} {b : List Byte} (hread : v.readOp { r with k := lowScribe r.d } 1 (64 * kRowblk r.d) 576 = .ok w0 b)
include hread

theorem exec_liveany_sampled (hmask : w0.sampleMask r.i r.c (((blockEntries b).filter eValid).map eAct) = (w, .ok ())) :
    exec (.liveany q k) s = .next (w.setPred { r with k := lowScribe r.d }
      ((blockEntries b).any fun e => eValid e && w.liveBit r.i r.c (eAct e))) := by
  rw [blockEntries] at hmask
  rw [exec_liveany, execLiveany, act_powered hp, State.barrier_acts hm hv hall, hread]
  dsimp only
  rw [hmask, blockEntries]

theorem exec_liveany_unsampled {a : Nat}
    (hmask : w0.sampleMask r.i r.c (((blockEntries b).filter eValid).map eAct) = (w, .error a)) :
    exec (.liveany q k) s = .next (w.strokeFault { r with k := lowScribe r.d } 0x0D a) := by
  rw [blockEntries] at hmask
  rw [exec_liveany, execLiveany, act_powered hp, State.barrier_acts hm hv hall, hread]
  dsimp only
  rw [hmask]

end Liveany

section Cmp

variable (hm : MayRun s q.val k.val 0x12 (· == 1) r u)
include hm

theorem exec_cmp_waits (hall : v.allAt r = false) : exec (.cmp q k) s = .next v := by
  rw [exec_cmp, execCmp, act_powered hp, State.barrier_waits hm hv hall]

theorem exec_cmp_unread (hall : v.allAt r = true) {c a : Nat}
    (hread : v.readOp { r with k := lowScribe r.d } (oSpace (kSrc0 r.d)) (oAddr (lowScribe r.d) (kSrc0 r.d)) 8 = .bad w c a) :
    exec (.cmp q k) s = .next (w.strokeFault { r with k := lowScribe r.d } c a) := by
  rw [exec_cmp, execCmp, act_powered hp, State.barrier_acts hm hv hall, hread]

theorem exec_cmp_read (hall : v.allAt r = true) {b : List Byte}
    (hread : v.readOp { r with k := lowScribe r.d } (oSpace (kSrc0 r.d)) (oAddr (lowScribe r.d) (kSrc0 r.d)) 8 = .ok w b) :
    exec (.cmp q k) s = .next (w.setPred { r with k := lowScribe r.d } (cmpHolds (kImm2 r.d % 4) (leNat b) (kSrc2 r.d))) := by
  rw [exec_cmp, execCmp, act_powered hp, State.barrier_acts hm hv hall, hread]

end Cmp

end Predicate

/-! ## RET and END -/

/-- A quire whose scribes are all out of the variant is in none. -/
def State.leaveVariant (s : State) (q : Nat) : State :=
  if (List.range 8).all fun j => (s.scribe (8 * q + j)).ret == 0 then s.setQuire q { s.quire q with variantAt := 0 } else s

theorem State.leaveVariant_scribe (s : State) (q n : Nat) : (s.leaveVariant q).scribe n = s.scribe n := by
  rw [State.leaveVariant]
  split <;> rfl

theorem State.leaveVariant_mem (s : State) (q : Nat) : (s.leaveVariant q).mem = s.mem := by
  rw [State.leaveVariant]
  split <;> rfl

section Script

variable {s u : State} (hp : s.powered = true) {q : Fin 64} {k : Fin 8} {lost : Nat} {r : Run}
include hp

theorem exec_ret (hm : MayRun s q.val k.val 0x19 (fun _ => true) r u) :
    exec (.ret q k lost) s = .next
      (if (u.scribe r.scribe).ret = 0 then u.strokeFault r 0x0E 0
      else ((u.setScribe r.scribe { u.scribe r.scribe with ret := 0 }).leaveVariant r.q).passed r (u.scribe r.scribe).ret true) := by
  have hact : exec (.ret q k lost) s = act s fun s => s.stroke q.val k.val 0x19 (fun _ => true) fun r s =>
      if (s.scribe r.scribe).ret = 0 then s.strokeFault r 0x0E 0
      else ((s.setScribe r.scribe { s.scribe r.scribe with ret := 0 }).leaveVariant r.q).passed r (s.scribe r.scribe).ret true :=
    rfl
  rw [hact, act_powered hp, State.stroke_mayRun hm]

theorem exec_end (hm : MayRun s q.val k.val 0x1F (fun _ => true) r u) :
    exec (.end_ q k lost) s = .next
      (if (u.scribe r.scribe).ret != 0 then u.strokeFault r 0x0E 0 else u.passed r (u.quire r.q).entry true) := by
  have hact : exec (.end_ q k lost) s = act s fun s => s.stroke q.val k.val 0x1F (fun _ => true) fun r s =>
      if (s.scribe r.scribe).ret != 0 then s.strokeFault r 0x0E 0 else s.passed r (s.quire r.q).entry true := rfl
  rw [hact, act_powered hp, State.stroke_mayRun hm]

end Script

/-- Settles O21: LIVEANY and CMP act by `State.setPred`, and the boundary leaves the predicates; RET and END move one scribe. -/
theorem branchRows : Obligations.BranchRows := by
  unfold Obligations.BranchRows
  refine ⟨?_, ?_, fun s r x => ⟨?_, fun j hj hne => ?_⟩, ?_, ?_, ?_, ?_⟩
  · intro q k s u v w0 w r b hp hm hv hall hread hmask
    rw [exec_liveany_sampled hp hv hm hall hread hmask, blockEntries, List.any_map]
    rfl
  · intro q k s u v w r b hp hm hv hall hread
    rw [exec_cmp_read hp hv hm hall hread]
    rfl
  · rw [State.setPred_getLsbD _ _ _ (bits_lt ..), if_pos rfl]
  · rw [State.setPred_getLsbD _ _ _ hj, if_neg hne]
  · intro q k lost s u r hp hm
    rw [exec_ret hp hm]
    refine ⟨fun hret => ⟨_, by rw [if_neg hret], ?_, ?_⟩, fun hret => by rw [if_pos hret]⟩
    · rw [State.leaveVariant_scribe, State.scribe_setScribe]
    · rw [State.leaveVariant_mem]
      rfl
  · intro q k lost s u r hp hm
    rw [exec_end hp hm]
    exact ⟨fun hret => by rw [if_neg (by simpa using hret)], fun hret => by rw [if_pos (bne_iff_ne.mpr hret)]⟩
  · simp only [List.forall_mem_cons, if_true, Nat.one_ne_zero, if_false]
    exact ⟨fun q k s u v r hp hm hv =>
        ⟨exec_liveany_waits hp hv hm, fun w c a hall hread => exec_liveany_unread hp hv hm hall hread⟩,
      fun q k s u v r hp hm hv =>
        ⟨exec_cmp_waits hp hv hm, fun w c a hall hread => exec_cmp_unread hp hv hm hall hread⟩, List.forall_mem_nil _⟩
  · exact fun q k s u v w0 w r b a hp hm hv hall hread hmask => exec_liveany_unsampled hp hv hm hall hread hmask

end Sys2Proof.Machine
end

section
/-! SUPPORT. The record of an operation: its bytes, and what is read of it once it is RUNNING or terminal (06_dma_pages.md R251 to
R254). -/

namespace Sys2Proof.Machine

/-! ## A part of a written range -/

theorem Mem.read_write_part (m : List Host.Cell) (a : Nat) {bs : List Byte} {i n : Nat} (h : i + n ≤ bs.length) :
    Mem.read (Mem.write m a bs) (a + i) n = (bs.drop i).take n := by
  apply List.ext_getElem
  · rw [Mem.read, List.length_map, List.length_range, List.length_take, List.length_drop]
    omega
  · intro j hj _
    rw [Mem.read, List.length_map, List.length_range] at hj
    simp only [Mem.read, List.getElem_map, List.getElem_range, List.getElem_take, List.getElem_drop]
    rw [Nat.add_assoc, Mem.read1_write_in m a bs (i + j) (by omega)]

theorem leBytes_add (m n v : Nat) : leBytes (m + n) v = leBytes m v ++ leBytes n (v / 256 ^ m) := by
  induction m generalizing v with
  | zero => simp [leBytes]
  | succ m ih => rw [Nat.succ_add, leBytes, leBytes, ih, Nat.div_div_eq_div_mul, pow_succ', List.cons_append]

theorem leBytes_part (i n k v : Nat) : ((leBytes (i + n + k) v).drop i).take n = leBytes n (v / 256 ^ i) := by
  rw [Nat.add_assoc, leBytes_add, List.drop_left' (leBytes_length ..), leBytes_add, List.take_left' (leBytes_length ..)]

/-! ## The bytes of a record -/

section Bytes

variable (tag unit kind outcome st progress faddr tstart tend abrq : Nat)

theorem recBytes_length : (recBytes tag unit kind outcome st progress faddr tstart tend abrq).length = 64 := by
  simp [recBytes]

/-- Bytes of the first word of a record: byte 5 is KIND, byte 6 OUTCOME, byte 7 STATE (R251). -/
theorem recBytes_head (i k : Nat) (h : i + 1 + k = 8) :
    ((recBytes tag unit kind outcome st progress faddr tstart tend abrq).drop i).take 1 =
      leBytes 1 ((tag % 2 ^ 32 + unit % 256 * 2 ^ 32 + kind % 256 * 2 ^ 40 + outcome % 256 * 2 ^ 48 + st % 256 * 2 ^ 56) / 256 ^ i) := by
  rw [recBytes]
  simp only [List.append_assoc]
  rw [List.drop_append_of_le_length (by rw [leBytes_length]; omega),
    List.take_append_of_le_length (by rw [List.length_drop, leBytes_length]; omega), ← h, leBytes_part]

theorem recBytes_kind :
    leNat (((recBytes tag unit kind outcome st progress faddr tstart tend abrq).drop 5).take 1) = kind % 256 := by
  rw [recBytes_head (k := 2) (h := rfl), leNat_leBytes]
  omega

theorem recBytes_outcome :
    leNat (((recBytes tag unit kind outcome st progress faddr tstart tend abrq).drop 6).take 1) = outcome % 256 := by
  rw [recBytes_head (k := 1) (h := rfl), leNat_leBytes]
  omega

theorem recBytes_state :
    leNat (((recBytes tag unit kind outcome st progress faddr tstart tend abrq).drop 7).take 1) = st % 256 := by
  rw [recBytes_head (k := 0) (h := rfl), leNat_leBytes]
  omega

theorem recBytes_progress :
    leNat (((recBytes tag unit kind outcome st progress faddr tstart tend abrq).drop 8).take 8) = progress % 2 ^ 64 := by
  rw [recBytes]
  simp only [List.append_assoc]
  rw [List.drop_left' (leBytes_length ..), List.take_left' (leBytes_length ..), leNat_leBytes,
    show (256 : Nat) ^ 8 = 2 ^ 64 from rfl]

theorem recBytes_tstart :
    leNat (((recBytes tag unit kind outcome st progress faddr tstart tend abrq).drop 24).take 8) = tstart % 2 ^ 64 := by
  have hlen : (leBytes 8 (tag % 2 ^ 32 + unit % 256 * 2 ^ 32 + kind % 256 * 2 ^ 40 + outcome % 256 * 2 ^ 48 + st % 256 * 2 ^ 56) ++
      leBytes 8 progress ++ leBytes 8 faddr).length = 24 := by simp
  rw [recBytes, List.append_assoc, List.append_assoc, List.append_assoc, List.drop_left' hlen,
    List.take_left' (leBytes_length ..), leNat_leBytes,
    show (256 : Nat) ^ 8 = 2 ^ 64 from rfl]

end Bytes

/-! ## A line that is written whole -/

/-- A write that watch slots see changes their pending bits alone. -/
theorem State.notify_keeps {β : Type} (p : State → β) (hp : ∀ s o i b, p (s.wrb o i b) = p s) (s : State) (a n : Nat) :
    p (s.notify a n) = p s := by
  refine foldl_keeps p (fun i _ s => ?_) s
  simp only [apply_ite p, hp, ite_self]

theorem State.clean_of_no_upsets {s : State} {a n : Nat} (hf : s.failing = []) (hd : s.deadT2 a = false)
    (hu : s.upsets.filter (fun e => decide (a / 64 ≤ e.1) && decide (e.1 * 64 < a + n)) = []) : s.clean a n = true := by
  simp [State.clean, State.ecc, hf, hd, hu]

/-- A write covers its whole lines with new check bytes (05_memory.md R206). -/
theorem clearUpsets_line (u : Map (Map Byte)) {a : Nat} (ha : a % 64 = 0) :
    (clearUpsets u a 64).filter (fun e => decide (a / 64 ≤ e.1) && decide (e.1 * 64 < a + 64)) = [] := by
  rw [clearUpsets, List.filter_filter, List.filter_eq_nil_iff]
  intro e _
  simp only [Bool.and_eq_true, Bool.not_eq_true', Bool.and_eq_false_iff, decide_eq_true_eq, decide_eq_false_iff_not]
  omega

section Line

variable {s : State} {a : Nat} {bs : List Byte} (hbs : bs.length = 64)
include hbs

theorem State.store_line_mem : (s.store a bs).mem = Mem.write s.mem a bs :=
  s.store_mem a (List.ne_nil_of_length_pos (by omega))

theorem State.store_line_le (i n : Nat) (h : i + n ≤ 64) : Mem.le (s.store a bs).mem (a + i) n = leNat ((bs.drop i).take n) := by
  rw [State.store_line_mem hbs, Mem.le, Mem.read_write_part _ _ (by omega)]

theorem State.store_line_clean (ha : a % 64 = 0) (hf : s.failing = []) (hd : s.deadT2 a = false) :
    (s.store a bs).clean a 64 = true := by
  have hne : ¬ bs.isEmpty = true := by rw [List.isEmpty_iff_length_eq_zero]; omega
  have hkeep : ∀ {β : Type} (p : State → β), (∀ t o i b, p (t.wrb o i b) = p t) →
      p (s.store a bs) = p { s with mem := Mem.write s.mem a bs, upsets := clearUpsets s.upsets a 64 } := fun p hp => by
    rw [State.store, if_neg hne, hbs]
    exact State.notify_keeps p hp ..
  refine State.clean_of_no_upsets ?_ ?_ ?_
  · rw [hkeep State.failing fun _ _ _ _ => rfl]
    exact hf
  · rw [hkeep (fun t => t.deadT2 a) fun _ _ _ _ => rfl]
    exact hd
  · rw [hkeep State.upsets fun _ _ _ _ => rfl]
    exact clearUpsets_line _ ha

theorem State.recState_store (ha : a % 64 = 0) (hf : s.failing = []) (hd : s.deadT2 a = false) :
    (s.store a bs).recState a = leNat ((bs.drop 7).take 1) := by
  rw [State.recState, Nat.div_mul_cancel (Nat.dvd_of_mod_eq_zero ha), if_pos (State.store_line_clean hbs ha hf hd),
    State.store_line_le hbs 7 1 (by omega)]

end Line

/-! ## The life of a record -/

theorem State.recTake_idle {s : State} {a crec : Nat} (h : (s.seen a 64 crec 16).recState a = 0) (tag unit kind : Nat) :
    s.recTake a crec tag unit kind = ((s.seen a 64 crec 16).recRun a tag unit kind, true) := by
  simp only [State.recTake, h]

/-- A record whose STATE can be read does not lie on a root port that went down. -/
theorem State.deadT2_of_recState {s : State} {a : Nat} (ha : a % 64 = 0) (h : s.recState a < 2) : s.deadT2 a = false := by
  rw [State.recState, Nat.div_mul_cancel (Nat.dvd_of_mod_eq_zero ha)] at h
  by_contra hd
  rw [if_neg (by simp [State.clean, State.ecc, hd])] at h
  omega

theorem State.recEnd_open {s : State} {a : Nat} (ha : a % 64 = 0) (hs : Sound s) (h : s.recState a < 2)
    (tag unit kind outcome progress faddr : Nat) :
    s.recEnd a tag unit kind outcome progress faddr =
      s.store a (recBytes tag unit kind outcome (if outcome = 0 then 2 else 3) progress faddr (Mem.le s.mem (a + 24) 8) s.now 0) := by
  rw [State.recEnd, Nat.div_mul_cancel (Nat.dvd_of_mod_eq_zero ha), State.seen_sound hs (State.deadT2_of_recState ha h)]
  exact if_neg (by omega)

theorem State.recEnd_terminal {s u : State} {a : Nat} (hu : u = s.seen (a / 64 * 64) 64 (a % 2 ^ 48) 16) (h : 2 ≤ u.recState a)
    (tag unit kind outcome progress faddr : Nat) : s.recEnd a tag unit kind outcome progress faddr = u := by
  rw [State.recEnd, ← hu]
  exact if_pos h

/-- Settles O31: RUNNING and the terminal record are each one write of a whole line, which can be read again, and whose bytes are
those of `recBytes`. -/
theorem completionRecord : Obligations.CompletionRecord := by
  unfold Obligations.CompletionRecord
  refine ⟨recBytes_length, fun s a crec tag unit kind h => State.recTake_idle h tag unit kind, fun s a tag unit kind ha hf hd => ?_,
    fun s a tag unit kind outcome progress faddr ha hs h => ?_,
    fun s u a tag unit kind outcome progress faddr hu h => State.recEnd_terminal hu h ..⟩
  · have hlen := recBytes_length tag unit kind 0 1 0 0 s.now 0 0
    refine ⟨?_, ?_, ?_⟩
    · rw [State.recRun, State.recState_store hlen ha hf hd, recBytes_state]
    · rw [State.recKind, State.recRun, State.store_line_le hlen 5 1 (by omega), recBytes_kind]
    · rw [State.recRun, State.store_line_le hlen 24 8 (by omega), recBytes_tstart]
      exact Nat.mod_mod _ _
  · rw [State.recEnd_open ha hs h]
    obtain ⟨-, hf, -⟩ := hs
    have hlen := recBytes_length tag unit kind outcome (if outcome = 0 then 2 else 3) progress faddr (Mem.le s.mem (a + 24) 8) s.now 0
    refine ⟨?_, ?_, ?_⟩
    · rw [State.recState_store hlen ha hf (State.deadT2_of_recState ha h), recBytes_state]
      split <;> rfl
    · rw [State.store_line_le hlen 6 1 (by omega), recBytes_outcome]
    · rw [State.store_line_le hlen 8 8 (by omega), recBytes_progress]

end Sys2Proof.Machine
end

section
/-! SUPPORT. A queue whose ring moves while its watch line is read (05_memory.md R173, R176; 06_dma_pages.md R221). -/

namespace Sys2Proof.Machine

/-- A queue whose producer count, once its watch line has been read, shows nothing posted takes nothing. -/
theorem State.dmaTake_unposted {s : State} {qn : Nat} (hon : s.rdb (Reg.QCFG qn) 31 = true) (hstop : s.rdb (Reg.QCFG qn) 20 = false)
    (hroom : (s.dma.filter fun o => o.qn == qn).length < 64) (hring : s.qRingOk qn = true)
    (hsheet : s.sheetState (s.qSheet qn) ≠ 1)
    (h : (s.qSeen qn (s.qBase qn + 64 * s.qEntries qn)).qPosted qn = false) (op : Nat) :
    s.dmaTake qn op = s.qSeen qn (s.qBase qn + 64 * s.qEntries qn) := by
  rw [State.dmaTake, if_neg (by simp [hon, hstop, hroom]), if_neg (by simp [hring]), if_neg (by simp [State.waking, hsheet])]
  exact if_pos (by rw [h]; rfl)

/-- Queue 0 of sheet 0 has one COPY posted in its ring, which lies in granule 0, pinned to reservoir granule 0; the touch bitmap begins
where the tier table begins. -/
def sharedTables : State :=
  { State.reset with
    chip := { State.reset.chip with tbBase := State.reset.chip.ttBase }
    csr := [(Reg.QCFG 0, 2 ^ 31 + 6), (Reg.SCTL 0, 2), (Reg.TLIMIT 0, 1)]
    mem := [(0, 1), (4096, 1), (physCarve State.reset.chip.ttBase + 7, 0x82)] }

theorem sharedTables_posted : sharedTables.rdb (Reg.QCFG 0) 31 = true ∧ sharedTables.rdb (Reg.QCFG 0) 20 = false ∧
    (sharedTables.dma.filter fun o => o.qn == 0).length < 64 ∧ sharedTables.qRingOk 0 = true ∧
    sharedTables.sheetState (sharedTables.qSheet 0) ≠ 1 ∧
    sharedTables.clean (sharedTables.qPhys 0 (sharedTables.qBase 0 + 64 * sharedTables.qEntries 0)) 8 = true ∧
    sharedTables.qLe 0 (sharedTables.qBase 0 + 64 * sharedTables.qEntries 0) 8 % 2 ^ 32 ≠
      (sharedTables.word (Reg.QCONS 0)).toNat ∧
    dOp (sharedTables.qLe 0 (sharedTables.qBase 0 + 64 * ((sharedTables.word (Reg.QCONS 0)).toNat % sharedTables.qEntries 0)) 64) =
      1 := by decide +kernel

/-- The touch bit of granule 0 is bit 0 of LOC in its entry: the read of the watch line moves the ring to reservoir granule 1, where
the producer count is 0. -/
theorem sharedTables_moved :
    let t := sharedTables.qSeen 0 (sharedTables.qBase 0 + 64 * sharedTables.qEntries 0)
    entLoc (sharedTables.entry 0) = 0 ∧ entLoc (t.entry 0) = 1 ∧ t.qPosted 0 = false ∧ t.dma = [] := by decide +kernel

/-- Refutes O30: its claim that a posted descriptor is taken leaves out that the touch bitmap lies apart from the tier table (R173). In
`sharedTables` the touch bit that the read of the watch line sets changes the entry of the ring's granule, so the count that is then
read is 0, and the posted COPY is not taken. -/
theorem not_dmaRows : ¬ Obligations.DmaRows := by
  unfold Obligations.DmaRows
  rintro ⟨-, -, -, htake, -⟩
  obtain ⟨hon, hstop, hroom, hring, hsheet, hclean, hposted, hop⟩ := sharedTables_posted
  obtain ⟨-, -, hunposted, hnone⟩ := sharedTables_moved
  have h := (htake 0 1 sharedTables _ (by omega) ⟨rfl, rfl, rfl⟩ hon hstop hroom hring (.inr hsheet) hclean hposted rfl hop).1
  rw [State.dmaTake_unposted hon hstop hroom hring hsheet hunposted, hnone] at h
  exact absurd h.symm (List.append_ne_nil_of_right_ne_nil _ (List.cons_ne_nil _ _))

end Sys2Proof.Machine
end

section
/-! SUPPORT. Which experts a row chooses, and the number of its replica (08_experts.md R307 to R310). -/

namespace Sys2Proof.Machine

/-! ## The order of R307 -/

/-- The experts of a row with a finite score, each with it. -/
def finiteScores (scores : List W32) : List (Nat × W32) :=
  ((List.range scores.length).zip scores).filter fun x => finite32 x.2

theorem score_of_mem_finiteScores {scores : List W32} {x : Nat × W32} (h : x ∈ finiteScores scores) :
    scores[x.1]? = some x.2 ∧ finite32 x.2 = true := by
  obtain ⟨hzip, hfin⟩ := List.mem_filter.mp h
  obtain ⟨n, hn⟩ := List.mem_iff_getElem?.mp hzip
  obtain ⟨hrange, hscore⟩ := List.getElem?_zip_eq_some.mp hn
  obtain ⟨_, hidx⟩ := List.getElem?_eq_some_iff.mp hrange
  rw [List.getElem_range] at hidx
  exact ⟨hidx ▸ hscore, hfin⟩

theorem mem_of_topScore {sc : List (Nat × W32)} {x : Nat × W32} (h : topScore sc = some x) : x ∈ sc := by
  suffices hall : ∀ y, topScore sc = some y → y ∈ sc from hall x h
  unfold topScore
  refine List.foldlRecOn (motive := fun b => ∀ y, b = some y → y ∈ sc) sc _ nofun fun b hb z hz y hy => ?_
  cases b with
  | none => exact Option.some.inj hy ▸ hz
  | some w =>
    dsimp only at hy
    split at hy
    · exact Option.some.inj hy ▸ hz
    · exact hb y hy

theorem topScores_length_le (n : Nat) (sc : List (Nat × W32)) : (topScores n sc).length ≤ n := by
  fun_induction topScores n sc with
  | case1 => exact le_rfl
  | case2 => exact Nat.zero_le _
  | case3 n sc x hx ih => exact Nat.succ_le_succ ih

theorem topScores_subset (n : Nat) (sc : List (Nat × W32)) : topScores n sc ⊆ sc := by
  fun_induction topScores n sc with
  | case1 | case2 => exact List.nil_subset _
  | case3 n sc x hx ih => exact List.cons_subset.mpr ⟨mem_of_topScore hx, List.Subset.trans ih (List.filter_subset_self _)⟩

/-- An expert that is taken is taken out of the rest, so none is taken twice. -/
theorem topScores_nodup (n : Nat) (sc : List (Nat × W32)) : ((topScores n sc).map Prod.fst).Nodup := by
  fun_induction topScores n sc with
  | case1 | case2 => exact List.nodup_nil
  | case3 n sc x hx ih =>
    refine List.nodup_cons.mpr ⟨fun hmem => ?_, ih⟩
    obtain ⟨y, hy, hyx⟩ := List.mem_map.mp hmem
    have hne := (List.mem_filter.mp (topScores_subset n _ hy)).2
    exact absurd hyx (by simpa using hne)

/-! ## The choice of R308 -/

/-- Whatever the mode, a row's choice is part of a run of the order of R307, no longer than KMAX and a mode's own number allow. -/
theorem chooseExperts_sublist (mode w : Nat) (scores : List W32) :
    ∃ n, n ≤ rKmax w ∧ (mode ≠ 0 → n ≤ mode) ∧ (chooseExperts mode w scores).Sublist (topScores n (finiteScores scores)) := by
  by_cases hm : mode = 0
  · refine ⟨rKmax w, le_rfl, fun h => absurd hm h, ?_⟩
    simp only [chooseExperts, if_pos hm]
    split
    · exact List.take_sublist ..
    · exact List.filter_sublist
  · refine ⟨min mode (rKmax w), min_le_right .., fun _ => min_le_left .., ?_⟩
    simp only [chooseExperts, if_neg hm]
    exact List.Sublist.refl _

/-! ## The replica number of R310 -/

/-- The upper half of a 32-bit hash, as a fraction of 65536, of nrep. -/
theorem replicaOf_lt (slip pos : Nat) {nrep : Nat} (h : 0 < nrep) : replicaOf slip pos nrep < nrep := by
  simp only [replicaOf]
  generalize (_ : W32) ^^^ _ = a
  have hupper : a.toNat / 65536 < 65536 := by have := a.isLt; omega
  exact Nat.div_lt_of_lt_mul (Nat.mul_lt_mul_of_pos_right hupper h)

/-- Settles O39: the choice is part of a run of the order of R307, whose experts differ and have finite scores; the hash's upper half
is below 65536. -/
theorem expertChoice : Obligations.ExpertChoice := by
  unfold Obligations.ExpertChoice
  refine ⟨fun mode w scores => ?_, fun slip pos _ h => replicaOf_lt slip pos h⟩
  obtain ⟨n, hkmax, hmode, hsub⟩ := chooseExperts_sublist mode w scores
  have hlen := hsub.length_le.trans (topScores_length_le n _)
  exact ⟨hlen.trans hkmax, (topScores_nodup n _).sublist (hsub.map _),
    fun x hx => score_of_mem_finiteScores (topScores_subset n _ (hsub.subset hx)), fun h => hlen.trans (hmode h)⟩

end Sys2Proof.Machine
end

section
/-! SUPPORT. What a system unit's write to a sheet's tiered range leaves as it was (05_memory.md R176, R213, R215). -/

namespace Sys2Proof.Machine

/-- A state without what memory accesses change: control space, memory, its error patterns, and the event log's own fields. -/
def State.besides (s : State) : State :=
  { s with csr := [], mem := [], upsets := [], gates := [], heldEvents := [], dropCount := 0, dropSev := 0 }

@[simp] theorem besides_ite (c : Prop) [Decidable c] (s t : State) :
    (if c then s else t).besides = if c then s.besides else t.besides := apply_ite State.besides c s t

@[simp] theorem fst_besides_ite {β : Type} (c : Prop) [Decidable c] (p q : State × β) :
    (if c then p else q).1.besides = if c then p.1.besides else q.1.besides := apply_ite (fun p => p.1.besides) c p q

/-- The state of a pair that a match has taken apart. -/
theorem besides_of_eq {β : Type} {p : State × β} {t : State} {b : β} (h : p = (t, b)) : t.besides = p.1.besides := by rw [h]

/-- What changes the log alone changes nothing besides. -/
theorem LogOnly.besides {s t : State} (h : LogOnly s t) : t.besides = s.besides := by
  rw [h.rest]
  rfl

section
variable (s : State)

/-! ## Writes -/

@[simp] theorem State.wrw_besides (o : Nat) (w : W32) : (s.wrw o w).besides = s.besides := rfl
@[simp] theorem State.bumpSat_besides (o n : Nat) : (s.bumpSat o n).besides = s.besides := rfl
@[simp] theorem State.notify_besides (a n : Nat) : (s.notify a n).besides = s.besides := ((LogOnly.refl s).notify a n).besides

@[simp] theorem State.post_besides (code : Nat) (args : List Nat) : (s.post code args).besides = s.besides :=
  (s.post_logOnly code args).besides

@[simp] theorem State.touch_besides (g : Nat) : (s.touch g).besides = s.besides := by
  rw [State.touch]
  split
  · rfl
  · exact State.notify_besides ..

@[simp] theorem State.store_besides (a : Nat) (bs : List Byte) : (s.store a bs).besides = s.besides := by
  rw [State.store]
  split
  · rfl
  · exact State.notify_besides ..

@[simp] theorem State.storeTier_besides (a : Nat) (bs : List Byte) : (s.storeTier a bs).besides = s.besides :=
  foldl_keeps State.besides (fun p _ s => by rw [State.touch_besides, State.store_besides]) s

/-! ## Error protection -/

@[simp] theorem State.uncorr_besides (store addr scribe sheet : Nat) : (s.uncorr store addr scribe sheet).besides = s.besides := by
  simp [State.uncorr, State.wr64]

@[simp] theorem State.correct_besides (line : Nat) (resid : List Byte) (addr : Nat) :
    (s.correct line resid addr).besides = s.besides := ((LogOnly.refl _).postOnce ..).besides

@[simp] theorem State.eccLine_besides (line : Nat) (p : Map Byte) (addr scribe sheet : Nat) :
    (s.eccLine line p addr scribe sheet).1.besides = s.besides := by
  rw [State.eccLine]
  split
  · rfl
  · split
    · exact State.correct_besides ..
    · exact State.uncorr_besides ..

@[simp] theorem State.ecc_besides (a n base scribe sheet : Nat) : (s.ecc a n base scribe sheet).1.besides = s.besides := by
  rw [State.ecc]
  split
  · rfl
  · split
    · exact State.uncorr_besides ..
    · split
      · exact State.uncorr_besides ..
      · refine List.foldlRecOn (motive := fun p : State × _ => p.1.besides = s.besides) _ _ rfl fun p hp x _ => ?_
        split
        · exact hp
        · exact (State.eccLine_besides ..).trans hp

@[simp] theorem State.eccEdges_besides (a n base scribe sheet : Nat) :
    (s.eccEdges a n base scribe sheet).1.besides = s.besides := by
  simp [State.eccEdges]

@[simp] theorem State.entryRead_besides (g sheet : Nat) : (s.entryRead g sheet).1.besides = s.besides := by
  rw [State.entryRead, State.seenEntry]
  split
  · exact State.uncorr_besides ..
  · split
    · rfl
    · split
      · rfl
      · exact State.eccLine_besides ..

/-! ## A system unit's write -/

@[simp] theorem State.sysPut_besides (i a : Nat) (bs : List Byte) : (s.sysPut i a bs).besides = s.besides := by
  unfold State.sysPut
  extract_lets e t
  have ht : t.besides = s.besides := by
    refine List.foldlRecOn (motive := fun p : State × _ => p.1.besides = s.besides) _ _ rfl fun p hp g _ => ?_
    split
    · exact hp
    · exact (State.entryRead_besides ..).trans hp
  split
  · exact ht
  · split
    · split <;> next h => simp [besides_of_eq h, ht]
    · exact ht

@[simp] theorem State.sysPut_rulHome (i a : Nat) (bs : List Byte) : (s.sysPut i a bs).rulHome = s.rulHome :=
  (congrArg State.rulHome (s.sysPut_besides i a bs) :)

end

end Sys2Proof.Machine
end

section
/-! SUPPORT. The variant of a routed step: VSEL and its timeout (08_experts.md R323, R325, R326, R336). -/

namespace Sys2Proof.Machine

/-! ## Frames of register writes -/

theorem Only.refl (regs : List Nat) (s : State) : Only regs s s := ⟨rfl, fun _ _ => rfl⟩

theorem Only.wrw {regs : List Nat} {s t : State} (h : Only regs s t) {o : Nat} (w : W32) (ho : o ∈ regs) :
    Only regs s (t.wrw o w) := by
  obtain ⟨hrest, hregs⟩ := h
  refine ⟨?_, fun p hp => ?_⟩
  · rw [hrest]
    rfl
  · rw [State.word_wrw_ne _ _ (by rintro rfl; exact hp ho), hregs p hp]

theorem vlate_ne_vselStat (i : Nat) : Reg.VLATE i ≠ Reg.VSEL_STAT := by
  unfold Reg.VLATE Reg.VSEL_STAT
  omega

theorem State.rd_vselStat (s : State) {k : Nat} (h : k < 4) : (s.wr Reg.VSEL_STAT 1 0 k).rd Reg.VSEL_STAT 1 0 = k :=
  (s.rd_wr _ k (Nat.zero_le 1) (by decide)).trans (Nat.mod_eq_of_lt h)

/-! ## SELECT -/

theorem rDefv_lt (w : Nat) : rDefv w < 32 := bits_lt w 171 167

theorem State.writeSelect_eq (s : State) (i r w : Nat) (h : RulHome) {idx : Nat} (hidx : idx < 32) (timeout : Bool) :
    s.writeSelect i r w h idx timeout = (s.setHome i r { h with sel := 2 }).sysPut i (rCtl w)
      (leBytes 8 (h.step % 2 ^ 32 * 2 ^ 32 + (if timeout then 32768 else 0) + idx)) := by
  rw [State.writeSelect, Nat.mod_eq_of_lt hidx]

theorem State.writeSelect_rulHome (s : State) (i r w : Nat) (h : RulHome) (idx : Nat) (timeout : Bool) :
    Map.get? (s.writeSelect i r w h idx timeout).rulHome (routeKey i r) = some { h with sel := 2 } := by
  rw [State.writeSelect, State.sysPut_rulHome]
  exact Map.get?_set_same ..

/-! ## A write of VSEL -/

section Vsel
variable {s : State} {v : Nat} {h : RulHome}

theorem State.vselWrite_unheld (hr : Map.get? s.rulHome (routeKey (bits v 19 16) (bits v 15 8)) = none) :
    s.vselWrite v = s.wr Reg.VSEL_STAT 1 0 3 := by
  simp only [State.vselWrite, hr]

variable (hr : Map.get? s.rulHome (routeKey (bits v 19 16) (bits v 15 8)) = some h)
include hr

theorem State.vselWrite_otherStep (hstep : h.step % 4096 ≠ bits v 31 20) : s.vselWrite v = s.wr Reg.VSEL_STAT 1 0 3 := by
  simp [State.vselWrite, hr, hstep]

theorem State.vselWrite_open (hsel : h.sel = 0) : s.vselWrite v = s.wr Reg.VSEL_STAT 1 0 3 := by
  simp [State.vselWrite, hr, hsel]

theorem State.vselWrite_late (hstep : h.step % 4096 = bits v 31 20) (hsel : h.sel = 2) :
    s.vselWrite v = (s.bumpSat (Reg.VLATE (bits v 19 16))).wr Reg.VSEL_STAT 1 0 2 := by
  simp [State.vselWrite, hr, hstep, hsel]

theorem State.vselWrite_pending (hstep : h.step % 4096 = bits v 31 20) (hsel : h.sel = 1) {u : State}
    (hu : u = s.seenRoute (bits v 19 16) h.side (bits v 15 8)) :
    s.vselWrite v = (u.writeSelect (bits v 19 16) (bits v 15 8) (u.routeEntry (bits v 19 16) h.side (bits v 15 8)) h
      (bits v 4 0) false).wr Reg.VSEL_STAT 1 0 1 := by
  simp [State.vselWrite, hr, hstep, hsel, hu]

end Vsel

theorem exec_vsel {s : State} (hp : s.powered = true) (v : W32) : exec (.vsel v) s = .next (s.vselWrite v.toNat) :=
  act_powered hp fun s => s.vselWrite v.toNat

/-! ## The timeout -/

section Vtimeout
variable {s : State} {i : Fin 16} {r : Fin 256}

theorem exec_vtimeout_unheld (hr : Map.get? s.rulHome (routeKey i.val r.val) = none) :
    exec (.vtimeout i r) s = .next s := by
  change execVtimeout i r s = _
  simp [execVtimeout, act, hr]

variable {h : RulHome} (hr : Map.get? s.rulHome (routeKey i.val r.val) = some h)
include hr

theorem exec_vtimeout_settled (hsel : h.sel ≠ 1) : exec (.vtimeout i r) s = .next s := by
  change execVtimeout i r s = _
  simp [execVtimeout, act, hr, hsel]

theorem exec_vtimeout_pending (hp : s.powered = true) (hsel : h.sel = 1) {u : State} (hu : u = s.seenRoute i.val h.side r.val) :
    exec (.vtimeout i r) s =
      .next (((u.writeSelect i.val r.val (u.routeEntry i.val h.side r.val) h (rDefv (u.routeEntry i.val h.side r.val)) true).bumpSat
        (Reg.VTIMEOUT i.val)).post 0x0603 [i.val, r.val, h.step]) := by
  change execVtimeout i r s = _
  rw [execVtimeout, act_powered hp]
  simp [hr, hsel, hu]

end Vtimeout

/-- Settles O40: each case is one branch of the write of VSEL or of the timeout; a write of SELECT leaves the routes at the home, so the
selection reads as written. -/
theorem rulingRows : Obligations.RulingRows := by
  unfold Obligations.RulingRows
  refine ⟨fun i r s u h hp hr hu => ⟨fun v hi hv hstep => ?_, fun hsel => ?_, fun hsel => exec_vtimeout_settled hr hsel⟩,
    fun v s hp => ⟨fun hr => ?_, fun h hr hstep => ?_⟩, fun i r s _ hr => exec_vtimeout_unheld hr⟩
  · rw [exec_vsel hp]
    rw [← hi, ← hv] at hr hu ⊢
    refine ⟨fun hsel => ⟨_, rfl, ?_⟩, fun hsel => ⟨_, rfl, ?_⟩, fun hsel => ⟨_, rfl, ?_⟩⟩
    · rw [State.vselWrite_pending hr hstep hsel hu]
      rw [State.wr_rulHome, State.wr_mem]
      refine ⟨State.rd_vselStat _ (by decide), State.writeSelect_rulHome .., ?_⟩
      rw [State.writeSelect_eq _ _ _ _ _ (bits_lt _ 4 0), if_neg Bool.false_ne_true, Nat.add_zero]
    · rw [State.vselWrite_late hr hstep hsel]
      refine ⟨State.rd_vselStat _ (by decide), ?_, ((Only.refl _ s).wrw _ (by simp)).wrw _ (by simp)⟩
      rw [State.word_wr_ne _ _ _ _ (vlate_ne_vselStat _), State.word_bumpSat]
    · rw [State.vselWrite_open hr hsel]
      exact ⟨State.rd_vselStat _ (by decide), (Only.refl _ s).wrw _ (by simp)⟩
  · rw [exec_vtimeout_pending hr hp hsel hu, State.writeSelect_eq _ _ _ _ _ (rDefv_lt _), if_pos rfl]
  · rw [exec_vsel hp, State.vselWrite_unheld hr]
  · rw [exec_vsel hp, State.vselWrite_otherStep hr hstep]

end Sys2Proof.Machine
end

section
/-! SUPPORT. Fields of a number under a write of one of them, and a list taken one element at a time. -/

namespace Sys2Proof.Machine

/-! ## Fields -/

section PutBits
variable (w v : Nat) {hi lo : Nat} (h : lo ≤ hi)
include h

theorem putBits_mod : putBits w hi lo v % 2 ^ lo = w % 2 ^ lo := by
  have e : 2 ^ (hi + 1) = 2 ^ (hi + 1 - lo) * 2 ^ lo := by rw [← pow_add]; congr 1; omega
  rw [putBits, e, ← Nat.mul_assoc, ← Nat.add_mul, Nat.mul_add_mod_self_right, Nat.mod_mod]

theorem putBits_div_lo : putBits w hi lo v / 2 ^ lo = w / 2 ^ (hi + 1) * 2 ^ (hi + 1 - lo) + v % 2 ^ (hi + 1 - lo) := by
  have e : 2 ^ (hi + 1) = 2 ^ (hi + 1 - lo) * 2 ^ lo := by rw [← pow_add]; congr 1; omega
  rw [putBits]
  generalize w / 2 ^ (hi + 1) = y
  rw [e, ← Nat.mul_assoc, ← Nat.add_mul, Nat.mul_comm, Nat.mul_add_div (by positivity),
    Nat.div_eq_of_lt (Nat.mod_lt _ (by positivity)), Nat.add_zero]

theorem putBits_div_hi : putBits w hi lo v / 2 ^ (hi + 1) = w / 2 ^ (hi + 1) := by
  have e : 2 ^ (hi + 1) = 2 ^ lo * 2 ^ (hi + 1 - lo) := by rw [← pow_add]; congr 1; omega
  rw [e, ← Nat.div_div_eq_div_mul, putBits_div_lo w v h, ← e, Nat.mul_comm, Nat.mul_add_div (by positivity),
    Nat.div_eq_of_lt (Nat.mod_lt _ (by positivity)), Nat.add_zero]

theorem bits_putBits : bits (putBits w hi lo v) hi lo = v % 2 ^ (hi + 1 - lo) := by
  rw [bits, putBits_div_lo w v h, Nat.mul_add_mod_self_right, Nat.mod_mod]

/-- A field above the one written. -/
theorem bits_putBits_above {hi' lo' : Nat} (h' : hi < lo') : bits (putBits w hi lo v) hi' lo' = bits w hi' lo' := by
  have e : 2 ^ lo' = 2 ^ (hi + 1) * 2 ^ (lo' - (hi + 1)) := by rw [← pow_add]; congr 1; omega
  simp only [bits]
  rw [e, ← Nat.div_div_eq_div_mul, ← Nat.div_div_eq_div_mul, putBits_div_hi w v h]

/-- A field below the one written. -/
theorem bits_putBits_below {hi' lo' : Nat} (h' : lo' ≤ hi') (hlt : hi' < lo) :
    bits (putBits w hi lo v) hi' lo' = bits w hi' lo' := by
  have key : ∀ x : Nat, bits x hi' lo' = bits (x % 2 ^ lo) hi' lo' := fun x => by
    have e : 2 ^ lo = 2 ^ lo' * 2 ^ (lo - lo') := by rw [← pow_add]; congr 1; omega
    rw [bits, bits, e, Nat.mod_mul_right_div_self, Nat.mod_mod_of_dvd _ (pow_dvd_pow 2 (by omega))]
  rw [key, putBits_mod w v h, ← key]

end PutBits

/-! ## Folds -/

/-- Two folds agree when their steps agree at every state that the second one reaches. -/
theorem foldl_eq_foldl {α β : Type} {f g : β → α → β} {l : List α} {s : β}
    (h : ∀ pre x post, l = pre ++ x :: post → f (pre.foldl g s) x = g (pre.foldl g s) x) : l.foldl f s = l.foldl g s := by
  induction l generalizing s with
  | nil => rfl
  | cons x l ih =>
    have hx : f s x = g s x := h [] x l rfl
    rw [List.foldl_cons, List.foldl_cons, hx]
    exact ih fun pre y post hl => h (x :: pre) y post (by rw [hl, List.cons_append])

end Sys2Proof.Machine
end

section
/-! SUPPORT. A ring command of the Roll: what it does to a slip, and what becomes of its entry (09_serving.md R341, R347 to R353). -/

namespace Sys2Proof.Machine

/-! ## The command on a slip (R347, R352, R353) -/

/-- What a command with operation o and argument a0 does to slip i of slot j, once its fields, its slot, its slip and its GEN are good. -/
def State.rollSlip (s : State) (o j i a0 : Nat) : RollRes :=
  let st := slState (s.slip i)
  let dec := !(s.prefill j)
  match o with
  | 0x02 => s.transit j i (st == 1 && dec) 2
  | 0x03 => s.transit j i (st == 1) (if dec then 4 else 2)
  | 0x04 => s.transit j i (st == 2 && dec) 3
  | 0x05 => s.landed j i (a0 % 2 ^ 48)
  | 0x06 => if st == 3 && !dec then RollRes.of ((s.endSlip j i 6 7).sendSlip j i) 0 else RollRes.of s 3
  | 0x07 => s.transit j i ((st == 2 || st == 3) && dec) 1
  | 0x08 => s.pause j i
  | 0x09 => s.transit j i (st == 5) 4
  | 0x0A => s.cancelSlip j i (a0 % 16) false
  | 0x0B => s.cancelSlip j i (a0 % 16) true
  | 0x10 => s.mset j i (a0 % 2 ^ 48)
  | _ => if terminal st then s.freeSlip j i else RollRes.of s 3

/-- A ring command names slip i of slot j, with its other fields good, whatever GEN it gives (R350, R353). -/
def RollNames (s : State) (op e j i : Nat) : Prop :=
  bits e 7 0 = op ∧ rollOp op = true ∧ bits e 511 192 = 0 ∧ bits e 63 58 = 0 ∧ bits e 31 24 = 0 ∧ bits e 15 12 = 0 ∧
  bits e 11 8 = j ∧ bits e 49 32 = i ∧ s.slotOn j = true ∧ (op ≤ 0x0C → s.isLead j = true) ∧ (op = 0x11 → s.isLead j = false) ∧
  s.inRange j i = true

section Command
variable {s : State} {op e j i : Nat}

/-- The GEN of a command that names a slip decides whether it is stale. -/
theorem State.rollDo_names (h : RollNames s op e j i) (h1 : op ≠ 1) :
    s.rollDo e = if slGen (s.slip i) != bits e 57 50 then RollRes.of s 4 else s.rollSlip op j i (bits e 127 64) := by
  obtain ⟨rfl, hop, hargs, hr1, hr2, hr3, rfl, rfl, hon, hlead, hmember, hrange⟩ := h
  have hslot : (!(s.slotOn (bits e 11 8)) || (decide (bits e 7 0 ≤ 0xC) && !(s.isLead (bits e 11 8))) ||
      (bits e 7 0 == 0x11 && s.isLead (bits e 11 8))) = false := by
    by_cases hle : bits e 7 0 ≤ 0x0C
    · have hne : bits e 7 0 ≠ 0x11 := by omega
      simp [hon, hlead hle, hne]
    · by_cases heq : bits e 7 0 = 0x11
      · simp [hon, hle, hmember heq]
      · simp [hon, hle, heq]
  simp only [State.rollDo, hop, hargs, hr1, hr2, hr3, hslot, h1, hrange]
  rfl

theorem State.rollDo_stale (h : RollNames s op e j i) (h1 : op ≠ 1) (hgen : slGen (s.slip i) ≠ bits e 57 50) :
    s.rollDo e = ⟨s, some 4, 0, 0⟩ := by
  rw [State.rollDo_names h h1, if_pos (by simpa using hgen)]
  rfl

theorem State.rollDo_on (h : RollOn s op e j i) (h1 : op ≠ 1) : s.rollDo e = s.rollSlip op j i (bits e 127 64) := by
  obtain ⟨ho, hop, hargs, hr1, hr2, hr3, hj, hi, hon, hlead, hmember, hrange, hgen⟩ := h
  rw [State.rollDo_names ⟨ho, hop, hargs, hr1, hr2, hr3, hj, hi, hon, hlead, hmember, hrange⟩ h1, if_neg (by simp [hgen])]

/-- The moves of R347: a command of `rollMoves` makes its transition from the states that the table gives it for the job's role. -/
theorem State.rollSlip_of_mem_rollMoves {m : Nat × Bool × Nat × Nat} (hm : m ∈ rollMoves) (hrole : s.prefill j = m.2.1) (a0 : Nat) :
    s.rollSlip m.1 j i a0 =
      s.transit j i (rollMoves.any fun n => n.1 == m.1 && n.2.1 == m.2.1 && slState (s.slip i) == n.2.2.1) m.2.2.2 := by
  revert m
  simp only [rollMoves, List.forall_mem_cons, List.not_mem_nil, false_imp_iff, implies_true, and_true]
  and_intros <;> intro hrole <;> simp [State.rollSlip, hrole]

theorem rollMoves_op {m : Nat × Bool × Nat × Nat} (hm : m ∈ rollMoves) : m.1 ≠ 1 := by
  revert m
  decide

theorem State.rollDo_pause (h : RollOn s 0x08 e j i) (hst : slState (s.slip i) = 4) :
    s.rollDo e = if slInstep (s.slip i) then ⟨s.setSlip j i (putBits (s.slip i) 9 9 1), some 1, 0, 0⟩
      else ⟨(s.setSlip j i (putBits (s.slip i) 3 0 5)).sendSlip j i, some 0, 0, 0⟩ := by
  rw [State.rollDo_on h (by decide)]
  change s.pause j i = _
  rw [State.pause, hst]
  rfl

theorem State.rollDo_handed (h : RollOn s 0x06 e j i) (hrole : s.prefill j = true) (hst : slState (s.slip i) = 3) :
    s.rollDo e = ⟨(s.endSlip j i 6 7).sendSlip j i, some 0, 0, 0⟩ := by
  rw [State.rollDo_on h (by decide)]
  exact if_pos (by rw [hst, hrole]; rfl)

theorem State.cancelSlip_free (hstep : slInstep (s.slip i) = false) (h0 : slState (s.slip i) ≠ 0) (h5 : slState (s.slip i) ≤ 5)
    (why : Nat) (fail : Bool) :
    s.cancelSlip j i why fail = ⟨(s.endSlip j i (if fail then 8 else 7) why).sendSlip j i, some 0, 0, 0⟩ := by
  have h6 : slState (s.slip i) ≠ 6 := by omega
  have h78 : ¬ (slState (s.slip i) = 7 ∨ slState (s.slip i) = 8) := by omega
  simp only [State.cancelSlip, h6, h78, h0, hstep, if_false, Bool.false_eq_true, RollRes.of]

theorem State.rollDo_cancel (hop : op = 0x0A ∨ op = 0x0B) (h : RollOn s op e j i) (hstep : slInstep (s.slip i) = false)
    (h0 : slState (s.slip i) ≠ 0) (h5 : slState (s.slip i) ≤ 5) :
    s.rollDo e = ⟨(s.endSlip j i (if op = 0x0B then 8 else 7) (bits e 127 64 % 16)).sendSlip j i, some 0, 0, 0⟩ := by
  rcases hop with rfl | rfl <;> rw [State.rollDo_on h (by decide)] <;> exact State.cancelSlip_free hstep h0 h5 _ _

theorem State.rollDo_release (h : RollOn s 0x0C e j i ∨ RollOn s 0x11 e j i) (hst : terminal (slState (s.slip i)) = true) :
    s.rollDo e = s.freeSlip j i := by
  rcases h with h | h <;> rw [State.rollDo_on h (by decide)] <;> exact if_pos hst

theorem State.mset_res {a : Nat} (ha : s.inCarve a 32 = true) : (s.mset j i a).res = some 0 := by
  rw [State.mset, ha]
  rfl

theorem State.landed_eq {a h : Nat} (hrole : s.prefill j = false) (hst : slState (s.slip i) = 3) (ha : s.inCarve a 128 = true)
    (hh : h = s.carveLe a 128) (hslip : bits h 407 390 = i) (hgen : bits h 415 408 = slGen (s.slip i)) :
    (s.egRoom j 1 = false → s.landed j i a = ⟨s, none, 0, 0⟩) ∧ (s.egRoom j 1 = true → (s.landed j i a).res = some 0) := by
  subst hh
  constructor <;> intro hroom <;> simp [State.landed, hrole, hst, ha, hslip, hgen, hroom, RollRes.of]

/-! ## ADMIT (R352) -/

theorem State.admitSlip_first {k : Nat} (hstay : s.power.leaving = false)
    (hk : (s.slipsOf j).find? (fun i => slState (s.slip i) == 0) = some k) (img : Nat) :
    (s.admitSlip j img).res = some 0 ∧ (s.admitSlip j img).slip = k ∧ (s.admitSlip j img).gen = (slGen (s.slip k) + 1) % 256 := by
  simp [State.admitSlip, hstay, hk]

theorem State.rollDo_admit (ho : bits e 7 0 = 1) (hargs : bits e 511 192 = 0) (hr1 : bits e 63 58 = 0) (hr2 : bits e 31 24 = 0)
    (hr3 : bits e 15 12 = 0) (hj : bits e 11 8 = j) (hon : s.slotOn j = true) (hlead : s.isLead j = true)
    (ha : s.inCarve (bits e 127 64 % 2 ^ 48) 128 = true) :
    s.rollDo e = s.admitSlip j (s.carveLe (bits e 127 64 % 2 ^ 48) 128) := by
  subst hj
  simp only [State.rollDo, ho, hargs, hr1, hr2, hr3, hon, hlead, ha]
  rfl

end Command

/-! ## Slips in memory (R341; 01 R21) -/

section Slip
variable {s : State}

theorem State.clean_of_sound (h : Sound s) (a n : Nat) : s.clean a n = (n == 0 || !(s.deadT2 a)) := by
  cases hn : n == 0 <;> cases hd : s.deadT2 a <;> simp_all [State.clean, State.ecc, h.1, h.2.1]

theorem Sound.store (h : Sound s) (a : Nat) (bs : List Byte) : Sound (s.store a bs) := by
  obtain ⟨hupsets, hfailing, hentries⟩ := h
  have hrest := s.store_besides a bs
  refine ⟨?_, (congrArg State.failing hrest :).trans hfailing, (congrArg State.badEntries hrest :).trans hentries⟩
  rw [State.store]
  split
  · exact hupsets
  · rw [State.notify_keeps State.upsets fun _ _ _ _ => rfl, hupsets]
    rfl

theorem State.store_deadT2 (s : State) (a : Nat) (bs : List Byte) (x : Nat) : (s.store a bs).deadT2 x = s.deadT2 x :=
  (congrArg (State.deadT2 · x) (s.store_besides a bs) :)

/-- The line of a slip lies below every T2 port. -/
theorem physSlip_notDead (s : State) {i : Nat} (hi : i < 2 ^ 18) : s.deadT2 (physSlip i) = false :=
  s.deadT2_low (by unfold physSlip physT0; omega)

/-- With no error held, a change of a slip is one write of its 128 bytes, but for the mirror's own records. -/
theorem State.setSlip_eq (h : Sound s) (j w : Nat) {i : Nat} (hi : i < 2 ^ 18) :
    ∃ mirror, s.setSlip j i w = { s.store (physSlip i) (leBytes 128 w) with mirror := mirror } := by
  have hseen : s.seenSlip i = s := State.seen_sound h (physSlip_notDead s hi) ..
  rw [State.setSlip, hseen]
  split
  · exact ⟨_, rfl⟩
  · exact ⟨_, rfl⟩

theorem State.setSlip_mem (h : Sound s) (j w : Nat) {i : Nat} (hi : i < 2 ^ 18) :
    (s.setSlip j i w).mem = Mem.write s.mem (physSlip i) (leBytes 128 w) := by
  obtain ⟨mirror, heq⟩ := State.setSlip_eq h j w hi
  rw [heq]
  exact s.store_mem _ (List.ne_nil_of_length_pos (by rw [leBytes_length]; decide))

/-- With no error held, a slip reads as its 128 bytes unless its address lies on a dead port, before a change and after it. -/
theorem State.setSlip_slip (h : Sound s) (j w : Nat) {i : Nat} (hi : i < 2 ^ 18) (k : Nat) :
    (s.setSlip j i w).slip k =
      if s.deadT2 (physSlip k) then 0 else Mem.le (Mem.write s.mem (physSlip i) (leBytes 128 w)) (physSlip k) 128 := by
  have hmem := State.setSlip_mem h j w hi
  obtain ⟨mirror, heq⟩ := State.setSlip_eq h j w hi
  have hsound : Sound (s.setSlip j i w) := by
    rw [heq]
    exact h.store ..
  have hdead : (s.setSlip j i w).deadT2 (physSlip k) = s.deadT2 (physSlip k) := by
    rw [heq]
    exact s.store_deadT2 ..
  rw [State.slip, State.unitLe, State.clean_of_sound hsound, hdead, hmem]
  cases s.deadT2 (physSlip k) <;> rfl

theorem State.slip_of_sound (h : Sound s) (k : Nat) :
    s.slip k = if s.deadT2 (physSlip k) then 0 else Mem.le s.mem (physSlip k) 128 := by
  rw [State.slip, State.unitLe, State.clean_of_sound h]
  cases s.deadT2 (physSlip k) <;> rfl

theorem State.slip_setSlip (h : Sound s) (j w : Nat) {i : Nat} (hi : i < 2 ^ 18) : (s.setSlip j i w).slip i = w % 2 ^ 1024 := by
  rw [State.setSlip_slip h j w hi, physSlip_notDead s hi, if_neg Bool.false_ne_true, Mem.le_write, show 256 = 2 ^ 8 from rfl,
    ← pow_mul]

theorem State.slip_setSlip_ne (h : Sound s) (j w : Nat) {i k : Nat} (hi : i < 2 ^ 18) (hk : k ≠ i) :
    (s.setSlip j i w).slip k = s.slip k := by
  have hapart : physSlip k + 128 ≤ physSlip i ∨ physSlip i + 128 ≤ physSlip k := by
    unfold physSlip
    omega
  rw [State.setSlip_slip h j w hi, State.slip_of_sound h, Mem.le, Mem.read_write_out _ _ _ _ _ (by rwa [leBytes_length])]
  rfl

theorem State.setSlip_read1 (h : Sound s) (j w : Nat) {i a : Nat} (hi : i < 2 ^ 18) (ha : ¬ Within (physSlip i) 128 a) :
    Mem.read1 (s.setSlip j i w).mem a = Mem.read1 s.mem a := by
  rw [State.setSlip_mem h j w hi]
  refine Mem.read1_write_out _ _ _ _ ?_
  rw [leBytes_length]
  unfold Within at ha
  omega

end Slip

/-! ## The entry and the ring (R348, R350) -/

/-- A ring entry with its result, and for an ADMIT that is done the slip and its generation. -/
def rollEntry (e c slip gen : Nat) : Nat :=
  if bits e 7 0 = 1 ∧ c = 0 then putBits (putBits (putBits e 23 16 c) 49 32 slip) 57 50 gen else putBits e 23 16 c

section Entry
variable (e c slip gen : Nat)

/-- A field that lies below the operands' fields, in an entry with its result. -/
theorem bits_rollEntry_below {hi lo : Nat} (h : lo ≤ hi) (hlt : hi < 32) :
    bits (rollEntry e c slip gen) hi lo = bits (putBits e 23 16 c) hi lo := by
  rw [rollEntry]
  split
  · rw [bits_putBits_below _ _ (by decide) h (by omega), bits_putBits_below _ _ (by decide) h hlt]
  · rfl

theorem rollEntry_result : bits (rollEntry e c slip gen) 23 16 = c % 256 :=
  (bits_rollEntry_below _ _ _ _ (by decide) (by decide)).trans (bits_putBits _ _ (by decide))

theorem rollEntry_command : bits (rollEntry e c slip gen) 15 0 = bits e 15 0 := by
  rw [bits_rollEntry_below _ _ _ _ (by decide) (by decide), bits_putBits_below _ _ (by decide) (by decide) (by decide)]

theorem rollEntry_args : bits (rollEntry e c slip gen) 511 58 = bits e 511 58 := by
  rw [rollEntry]
  split
  · rw [bits_putBits_above _ _ (by decide) (by decide), bits_putBits_above _ _ (by decide) (by decide),
      bits_putBits_above _ _ (by decide) (by decide)]
  · rw [bits_putBits_above _ _ (by decide) (by decide)]

theorem rollEntry_admitted (h : bits e 7 0 = 1 ∧ c = 0) :
    bits (rollEntry e c slip gen) 49 32 = slip % 2 ^ 18 ∧ bits (rollEntry e c slip gen) 57 50 = gen % 256 := by
  rw [rollEntry, if_pos h]
  exact ⟨by rw [bits_putBits_below _ _ (by decide) (by decide) (by decide), bits_putBits _ _ (by decide)],
    bits_putBits _ _ (by decide)⟩

theorem rollEntry_target (h : ¬ (bits e 7 0 = 1 ∧ c = 0)) : bits (rollEntry e c slip gen) 57 24 = bits e 57 24 := by
  rw [rollEntry, if_neg h, bits_putBits_above _ _ (by decide) (by decide)]

end Entry

theorem exec_of_mem_rollRows {row : Instr × Nat} (h : row ∈ rollRows) {s : State} (hp : s.powered = true) :
    exec row.1 s = .next (s.rollTake row.2) := by
  suffices hact : exec row.1 s = act s fun s => s.rollTake row.2 from hact.trans (act_powered hp _)
  revert row
  simp only [rollRows, List.forall_mem_cons, List.not_mem_nil, false_imp_iff, implies_true, and_true]
  and_intros <;> rfl

theorem State.tryCommit_notDue {s : State} {j : Nat} (h : s.commitDue j = false) : s.tryCommit j = s := by
  rw [State.tryCommit, h]
  rfl

theorem State.rollPoint_idle {s : State} (h : ∀ j < 16, s.commitDue j = false) : s.rollPoint = s :=
  foldl_eq_self fun j hj => State.tryCommit_notDue (h j (List.mem_range.mp hj))

section Ring
variable {s h : State} {e op : Nat} (hr : RollReady s h e) (hop : bits e 7 0 = op)
include hr hop

/-- A command that is not taken yet stays in the ring. -/
theorem State.rollTake_waits (hres : (h.rollDo e).res = none) : s.rollTake op = h := by
  obtain ⟨-, hidle, hhead⟩ := hr
  simp only [State.rollTake, State.rollNext, State.rollPoint_idle hidle, hhead, hop, hres, beq_self_eq_true, Bool.true_or,
    Bool.not_true, Bool.false_eq_true, if_false]

/-- A command that is done: its entry gets the result, the count goes on, and the endpoint is told. -/
theorem State.rollTake_done {c : Nat} (hres : (h.rollDo e).res = some c) {u : State}
    (hu : u = ((h.rollDo e).st.storeCarve (s.rcqBase + 64 * ((s.word Reg.RCQ_CONS).toNat % 256))
      (leBytes 64 (rollEntry e c (h.rollDo e).slip (h.rollDo e).gen))).bump Reg.RCQ_CONS) :
    s.rollTake op = (if c = 3 ∨ c = 4 ∨ c = 7 ∨ c = 8 then u.bumpSat Reg.CMD_REJ else u).rollTold
      (s.word Reg.RCQ_CONS).toNat e c (h.rollDo e).slip (h.rollDo e).gen := by
  obtain ⟨-, hidle, hhead⟩ := hr
  have hwant : (!(bits e 7 0 == op || !(rollOp (bits e 7 0)))) = false := by rw [hop, beq_self_eq_true, Bool.true_or]; rfl
  simp only [State.rollTake, State.rollNext, State.rollPoint_idle hidle, hhead, hwant, hres, Bool.false_eq_true, if_false]
  rw [hu]
  rfl

end Ring

/-! ## The endpoint is told (R369, R375) -/

/-- With no post, no request and no order the endpoint does nothing when a command is done. -/
theorem State.rollTold_nothing {s : State} (hposts : s.posts = []) (hreq : s.requests = []) (hord : s.orders = [])
    (cons e c slip gen : Nat) : s.rollTold cons e c slip gen = s := by
  cases s
  cases hposts
  cases hreq
  cases hord
  simp only [State.rollTold]
  split_ifs <;> rfl

/-- Settles O41: a ring command by the lemmas above, its move by the table of R347, a slip's change by its one write of memory. -/
theorem rollRows_hold : Obligations.RollRows := by
  unfold Obligations.RollRows
  refine ⟨fun row hrow s h e c hr hop hres => ?_, fun row hrow s h e hr hop hres => ?_,
    fun s cons e c slip gen hp hq ho => State.rollTold_nothing hp hq ho ..,
    fun m hm s e j i h hrole hst => ?_, fun s e j i h hst => State.rollDo_pause h hst,
    fun s e j i h hrole hst => State.rollDo_handed h hrole hst,
    fun s e j i op hop h hstep h0 h5 => State.rollDo_cancel hop h hstep h0 h5,
    fun s e j i h hst => State.rollDo_release h hst, fun s e j i h ha => ?_,
    fun s e j i a h hon hrole hst ha hin hh hslip hgen => ?_,
    fun s e j k ho h1 h2 h3 h4 hj hon hlead ha hstay hk => ?_,
    fun s j i w hs hi => ⟨State.slip_setSlip hs j w hi, fun k hk => State.slip_setSlip_ne hs j w hi hk,
      fun a ha => State.setSlip_read1 hs j w hi ha⟩,
    fun s e op j i hop h1 ho h2 h3 h4 h5 hj hi hon hlead hmem hr hgen =>
      State.rollDo_stale ⟨ho, hop, h2, h3, h4, h5, hj, hi, hon, hlead, hmem, hr⟩ h1 hgen,
    fun m hm s e j i h hrole hne => ?_⟩
  · refine ⟨rollEntry e c (h.rollDo e).slip (h.rollDo e).gen, _, rfl, rollEntry_result .., rollEntry_command .., rollEntry_args ..,
      fun hc => rollEntry_admitted _ _ _ _ (by rwa [hop]), fun hc => rollEntry_target _ _ _ _ (by rwa [hop]), ?_⟩
    rw [exec_of_mem_rollRows hrow hr.1, State.rollTake_done hr hop hres rfl]
  · rw [exec_of_mem_rollRows hrow hr.1, State.rollTake_waits hr hop hres]
  · have hfrom : (rollMoves.any fun n => n.1 == m.1 && n.2.1 == m.2.1 && slState (s.slip i) == n.2.2.1) = true :=
      List.any_eq_true.mpr ⟨m, hm, by simp [hst]⟩
    rw [State.rollDo_on h (rollMoves_op hm), State.rollSlip_of_mem_rollMoves hm hrole, hfrom]
    rfl
  · rw [State.rollDo_on h (by decide)]
    exact ⟨State.mset_res ha, rfl⟩
  · rw [State.rollDo_on hon (by decide)]
    subst ha
    obtain ⟨hfull, hroom⟩ := State.landed_eq hrole hst hin hh hslip hgen
    exact ⟨hfull, fun h => ⟨hroom h, rfl⟩⟩
  · rw [State.rollDo_admit ho h1 h2 h3 h4 hj hon hlead ha]
    exact State.admitSlip_first hstay hk _
  · have hother : (rollMoves.any fun n => n.1 == m.1 && n.2.1 == m.2.1 && slState (s.slip i) == n.2.2.1) = false := by
      refine List.any_eq_false.mpr fun n hn => ?_
      simpa using hne n hn
    rw [State.rollDo_on h (rollMoves_op hm), State.rollSlip_of_mem_rollMoves hm hrole, hother]
    rfl

end Sys2Proof.Machine
end

section
/-! SUPPORT. The header action, the commit and the deadline sweep (09_serving.md R357 to R359, R362, R366, R373, R390). -/

namespace Sys2Proof.Machine

section Step
variable {s : State} {j : Nat}

/-! ## The header action (R357 to R359) -/

/-- The last writes of a header action set ACTIVE. -/
theorem State.headerAction_active (s : State) (j : Nat) {u : State} (hu : u = (s.seenJob j 0).seenSlips j) :
    ∃ v : State, s.headerAction j =
      (v.wrb (Reg.ACTIVE j) 31 true).wr (Reg.ACTIVE j) 12 0 (min (u.selectable j).length (jMaxact (u.jobRec j))) := by
  subst hu
  exact ⟨_, rfl⟩

theorem jMaxact_lt (w : Nat) : jMaxact w < 2 ^ 13 := bits_lt w 52 40

theorem exec_headerAction (hp : s.powered = true) (j : Fin 16) :
    exec (.headerAction j) s = .next (if s.headerDue j.val then s.headerAction j.val else s) :=
  act_powered hp fun s => if s.headerDue j.val then s.headerAction j.val else s

/-! ## The commit (R362, R366) -/

/-- The last writes of a commit end the step and its stall. -/
theorem State.commit_ends (s : State) (j : Nat) : ∃ v : State, s.commit j =
    (({ v with egStall := v.egStall.filter (· != j) } : State).wrb (Reg.ACTIVE j) 31 false).bump (Reg.COMMITS j) :=
  ⟨_, rfl⟩

theorem active_ne_commits (j k : Nat) : Reg.ACTIVE j ≠ Reg.COMMITS k := by
  unfold Reg.ACTIVE Reg.COMMITS
  omega

theorem State.rdb_bump_ne (s : State) {o p : Nat} (i n : Nat) (h : p ≠ o) : (s.bump o n).rdb p i = s.rdb p i := by
  rw [State.rdb, State.rd, State.word_bump_ne s n h]
  rfl

theorem State.commit_active (s : State) (j : Nat) : (s.commit j).rdb (Reg.ACTIVE j) 31 = false := by
  obtain ⟨v, hv⟩ := s.commit_ends j
  rw [hv, State.rdb_bump_ne _ _ _ (active_ne_commits j j), State.rdb_wrb _ _ _ (by decide)]

theorem State.commit_egStall (s : State) (j : Nat) : j ∉ (s.commit j).egStall := by
  obtain ⟨v, hv⟩ := s.commit_ends j
  rw [hv]
  simp

theorem State.tryCommit_room (hdue : s.commitDue j = true) (hroom : s.egRoom j (s.rd (Reg.ACTIVE j) 12 0) = true) :
    s.tryCommit j = s.commit j := by
  rw [State.tryCommit, hdue, hroom]
  rfl

/-- The first time that a commit finds no room it is counted. -/
theorem State.tryCommit_stalls (hdue : s.commitDue j = true) (hroom : s.egRoom j (s.rd (Reg.ACTIVE j) 12 0) = false)
    (hnew : j ∉ s.egStall) : s.tryCommit j = { s.bumpSat (Reg.EGSTALL j) with egStall := s.egStall ++ [j] } := by
  have hcontains : s.egStall.contains j = false := by simpa using hnew
  rw [State.tryCommit, hdue, hroom, hcontains]
  rfl

theorem exec_stepCommit (hp : s.powered = true) (j : Fin 16) : exec (.stepCommit j) s = .next (s.tryCommit j.val) :=
  act_powered hp fun s => s.tryCommit j.val

/-! ## The deadline sweep (R373, R390) -/

/-- What the sweep does at one slip. -/
def State.sweepSlip (j : Nat) (s : State) (i : Nat) : State :=
  let s := s.seenSlip i
  let w := s.slip i
  let st := slState w
  if st = 0 || terminal st || slInstep w || slDeadline w = 0 || s.now < slDeadline w then s
  else (s.endSlip j i (if st = 4 then 6 else 7) 4).sendSlip j i

theorem State.sweepDeadlines_eq (s : State) (j : Nat) : s.sweepDeadlines j = (s.slipsOf j).foldl (State.sweepSlip j) s := rfl

variable {u : State} {i : Nat} (hu : u = s.seenSlip i)
include hu

/-- A slip without a DEADLINE that has passed, or one that a step holds, stays as it is. -/
theorem State.sweepSlip_stays (h : slDeadline (u.slip i) = 0 ∨ u.now < slDeadline (u.slip i) ∨ slInstep (u.slip i) = true) :
    s.sweepSlip j i = u := by
  subst hu
  refine if_pos ?_
  simp only [Bool.or_eq_true, decide_eq_true_eq]
  tauto

theorem State.sweepSlip_ends (h0 : slState (u.slip i) ≠ 0) (h5 : slState (u.slip i) ≤ 5) (hstep : slInstep (u.slip i) = false)
    (hd : slDeadline (u.slip i) ≠ 0) (hnow : slDeadline (u.slip i) ≤ u.now) :
    State.sweepSlip j s i = (u.endSlip j i (if slState (u.slip i) = 4 then 6 else 7) 4).sendSlip j i := by
  subst hu
  refine if_neg ?_
  have hterminal : terminal (slState ((s.seenSlip i).slip i)) = false := by
    simp only [terminal, Bool.or_eq_false_iff, beq_eq_false_iff_ne]
    omega
  simp [h0, hterminal, hstep, hd, Nat.not_lt.mpr hnow]

omit hu

/-- A sweep that finds no slip to end only reads them. -/
theorem State.sweepDeadlines_stays (h : ∀ pre i post v, s.slipsOf j = pre ++ i :: post → v = (pre ++ [i]).foldl State.seenSlip s →
    slDeadline (v.slip i) = 0 ∨ v.now < slDeadline (v.slip i) ∨ slInstep (v.slip i) = true) :
    s.sweepDeadlines j = s.seenSlips j := by
  rw [State.sweepDeadlines_eq, State.seenSlips]
  refine foldl_eq_foldl fun pre i post hl => State.sweepSlip_stays rfl (h pre i post _ hl ?_)
  rw [List.foldl_append]
  rfl

theorem State.sendEnds_told (h : ∀ r ∈ s.requests, r.untold = none ∨ r.job ≠ j ∨ r.ended = true) : s.sendEnds j = s := by
  refine foldl_eq_self fun r hr => ?_
  rw [State.tellOver]
  split
  · rfl
  · next st why huntold =>
    rcases h r hr with hn | hjob | hend
    · rw [hn] at huntold
      cases huntold
    · simp [hjob]
    · simp [hend]

theorem exec_deadlineSweep (hp : s.powered = true) (j : Fin 16) : exec (.deadlineSweep j) s =
    .next (if s.slotOn j.val && s.isLead j.val then (s.sweepDeadlines j.val).sendEnds j.val else s) :=
  act_powered hp fun s => if s.slotOn j.val && s.isLead j.val then (s.sweepDeadlines j.val).sendEnds j.val else s

end Step

/-! ## The pre fields (R357, R358) -/

/-- A decode step takes up to nine positions, with a token for each: caught up ones, or NEXT and the drafts. -/
theorem preFields_decode (c w d : Nat) : 1 ≤ (preFields false c w d).tc ∧ (preFields false c w d).tc ≤ 9 ∧
    (preFields false c w d).tok.length = (preFields false c w d).tc := by
  simp only [preFields, Bool.false_eq_true, if_false]
  split
  · split
    · simp
    · simp only [List.length_append, List.length_map, List.length_range, List.length_singleton, and_true]
      omega
  · have hdrafts : (if bits d 23 0 = slClen w then min (min (bits d 27 24) (bits w 95 92)) 8 else 0) ≤ 8 := by
      split <;> omega
    simp only [List.length_cons, List.length_map, List.length_range]
    omega

/-! ## The outcome of one entry (R362) -/

section Outcome
variable {o : Outcome} {eos cmax out deadline now : Nat} {psp : Bool}

theorem endEmit_nothing (h : o.emit = []) : endEmit o eos cmax out = o := by
  rw [endEmit, h]
  rfl

/-- Tokens that hold no EOS and leave room below CMAX are emitted whole. -/
theorem endEmit_open (hne : o.emit ≠ []) (heos : o.emit.length ≤ eos) (hmax : (o.emit.getLastD (0, 0)).1 + 1 < cmax) :
    endEmit o eos cmax out = { o with next := out } := by
  have hsome : o.emit.isEmpty = false := by simpa using hne
  simp only [endEmit, hsome, Bool.false_eq_true, if_false, if_neg (Nat.not_lt.mpr heos), if_neg (Nat.not_le.mpr hmax)]

/-- A slip that is not ACTIVE ends by no rule of an ACTIVE one. -/
theorem endActive_other (h : o.pstate ≠ 4) : endActive o deadline now psp = o := by
  simp [endActive, h]

/-- The end rules of an ACTIVE slip leave what was computed and emitted. -/
theorem endActive_emit (o : Outcome) (deadline now : Nat) (psp : Bool) :
    (endActive o deadline now psp).newc = o.newc ∧ (endActive o deadline now psp).next = o.next ∧
      (endActive o deadline now psp).emit = o.emit := by
  simp only [endActive]
  split_ifs <;> exact ⟨rfl, rfl, rfl⟩

end Outcome

section Verdict
variable {fail : Bool} {w e v step now : Nat}

theorem outcome_cancelled (hcxp : slCxp w = true) (pf : Bool) :
    outcome pf fail w e v step now = ⟨if fail then 8 else 7, slReason w, teC e, slNext w, [], false⟩ := by
  have hends : (if fail then 8 else 7) ≠ 4 := by cases fail <;> decide
  simp only [outcome, hcxp, if_true]
  rw [endEmit_nothing rfl, endActive_other hends]

theorem outcome_stale (hcxp : slCxp w = false) (hcatch : bit e 38 = false) (hv : bits v 63 48 ≠ step % 65536) :
    outcome false fail w e v step now = ⟨8, 10, teC e, slNext w, [], false⟩ := by
  have hstale : (bits v 63 48 != step % 65536) = true := by simpa using hv
  simp only [outcome, hcxp, hcatch, hstale, Bool.not_false, Bool.true_or, Bool.and_true, Bool.false_eq_true,
    if_false, if_true]
  rw [endEmit_nothing rfl, endActive_other (Nat.ne_of_beq_eq_false rfl)]

/-- A decode step with its own verdict accepts the drafts before the first that differs, and then the model's own token. -/
theorem outcome_decode (hcxp : slCxp w = false) (hcatch : bit e 38 = false) (hv : bits v 63 48 = step % 65536) {a : Nat}
    (ha : a = min (bits v 35 32) (teTc e - 1)) (heos : a < bits v 39 36) (hmax : teC e + 2 + a < slCmax w) :
    (outcome false fail w e v step now).newc = teC e + 1 + a ∧ (outcome false fail w e v step now).next = bits v 31 0 ∧
      (outcome false fail w e v step now).emit =
        (List.range a).map (fun k => (teC e + 1 + k, teTok e (k + 1))) ++ [(teC e + 1 + a, bits v 31 0)] := by
  have hown : (bits v 63 48 != step % 65536) = false := by simpa using hv
  subst ha
  simp only [outcome, hcxp, hcatch, hown, Bool.not_false, Bool.true_or, Bool.true_and, Bool.false_and, Bool.and_false,
    Bool.false_eq_true, if_false]
  rw [endEmit_open (by simp) (by simpa using heos) (by simp; omega)]
  exact endActive_emit ..

/-- The last prefill step of a slip takes its verdict's token as NEXT, and the slip goes to HANDOFF (R347). -/
theorem outcome_prefilled (hcxp : slCxp w = false) (hv : bits v 63 48 = step % 65536) (hc : teC e + teTc e = slCmax w) :
    outcome true fail w e v step now = ⟨3, slReason w, slCmax w, bits v 31 0, [], false⟩ := by
  have hown : (bits v 63 48 != step % 65536) = false := by simpa using hv
  simp only [outcome, hcxp, hown, hc, Bool.and_false, Bool.false_eq_true, if_false, if_true]
  rw [endEmit_nothing rfl, endActive_other (Nat.ne_of_beq_eq_false rfl)]

end Verdict

/-- Settles O42: the actions by their last writes, the sweep slip by slip, an entry's outcome by the end rules of R362. -/
theorem stepTableRows : Obligations.StepTableRows := by
  unfold Obligations.StepTableRows
  refine ⟨fun j s u hp hdue hu => ?_, fun j s hp hdue => ?_, fun j s hp hdue hroom => ?_, fun j s hp hdue hroom hnew => ?_,
    fun j s hp hdue => ?_, fun j s hp hstay => ?_, fun j s u i hp hon hlead hl hu h0 h5 hstep hd hnow => ?_,
    fun j s h => State.sendEnds_told h, fun w d c => ?_, fun fail w e v step now => ⟨fun hcxp pf => ?_, fun hcxp hcatch hv => ?_,
      fun hcxp hcatch hv a ha heos hmax => outcome_decode hcxp hcatch hv ha heos hmax, fun pf hcxp hpf hv hc => ?_⟩⟩
  · obtain ⟨v, hv⟩ := s.headerAction_active j.val hu
    have hn := jMaxact_lt (u.jobRec j.val)
    refine ⟨_, by rw [exec_headerAction hp, hdue, if_pos rfl, hv], ?_, ?_⟩
    · rw [State.rdb, State.rd_wr_above _ _ _ (by decide) (by decide) (by decide)]
      exact State.rdb_wrb _ _ true (by decide)
    · rw [State.rd_wr _ _ _ (by decide) (by decide), Nat.mod_eq_of_lt (by omega)]
  · rw [exec_headerAction hp, hdue]
    rfl
  · refine ⟨_, by rw [exec_stepCommit hp, State.tryCommit_room hdue hroom], s.commit_active _, s.commit_egStall _⟩
  · rw [exec_stepCommit hp, State.tryCommit_stalls hdue hroom hnew]
    exact ⟨_, rfl, rfl, rfl, s.word_bumpSat .., rfl⟩
  · rw [exec_stepCommit hp, State.tryCommit_notDue hdue]
  · rw [exec_deadlineSweep hp, State.sweepDeadlines_stays hstay]
  · rw [exec_deadlineSweep hp, hon, hlead, Bool.and_self, if_pos rfl, State.sweepDeadlines_eq, hl, List.foldl_cons, List.foldl_nil,
      State.sweepSlip_ends hu h0 h5 hstep hd hnow]
  · obtain ⟨hlow, hhigh, hlen⟩ := preFields_decode c w d
    exact ⟨hlow, hhigh, hlen, rfl⟩
  · rw [outcome_cancelled hcxp]
    exact ⟨rfl, rfl, rfl⟩
  · rw [outcome_stale hcxp hcatch hv]
    exact ⟨rfl, rfl, rfl⟩
  · rw [hpf, outcome_prefilled hcxp hv hc]
    exact ⟨rfl, rfl⟩

end Sys2Proof.Machine
end

section
/-! SUPPORT. The endpoint's messages: SUBMIT with the Roll command that firmware posts for it, CANCEL, DRAFT and TOKENS (09_serving.md
R366, R369, R374 to R376, R382 to R391). -/

namespace Sys2Proof.Machine

/-! ## What reading a job slot's tables and slips leaves -/

section Reads
variable (s : State)

@[simp] theorem State.seen_besides (a n base sheet : Nat) : (s.seen a n base sheet).besides = s.besides := s.ecc_besides ..

@[simp] theorem State.eccTier_besides (a n sheet : Nat) : (s.eccTier a n sheet).1.besides = s.besides := by
  refine List.foldlRecOn (motive := fun p : State × _ => p.1.besides = s.besides) _ _ rfl fun p hp x _ => ?_
  split
  · exact hp
  · simp [hp]

@[simp] theorem State.seenTier_besides (a n sheet : Nat) : (s.seenTier a n sheet).besides = s.besides :=
  (foldl_keeps State.besides (fun g _ t => t.touch_besides g) _).trans (s.eccTier_besides a n sheet)

@[simp] theorem State.seenSheet_besides (i a n : Nat) : (s.seenSheet i a n).besides = s.besides := by
  simp [State.seenSheet]

@[simp] theorem State.seenJob_besides (j n : Nat) : (s.seenJob j n).besides = s.besides := by
  simp [State.seenJob]

@[simp] theorem State.seenSlips_besides (j : Nat) : (s.seenSlips j).besides = s.besides :=
  foldl_keeps State.besides (fun i _ t => t.seen_besides (physSlip i) 128 (bits (physSlip i) 49 0) 16) s

theorem State.seenSlips_seenJob_records (j n : Nat) : ((s.seenJob j n).seenSlips j).records = s.records :=
  (congrArg State.records (((s.seenJob j n).seenSlips_besides j).trans (s.seenJob_besides j n)) :)

end Reads

/-! ## SUBMIT that is refused (R374, R387 to R389) -/

section Submit
variable {s : State} {j : Nat} {m : List Byte} {plan : SubmitPlan} {adopt : Option (Fin 16)}

theorem exec_submit (hp : s.powered = true) (j : Fin 16) (m : List Byte) (plan : SubmitPlan) (adopt : Option (Fin 16)) :
    exec (.submit j m plan adopt) s = .next (s.submit j.val m plan adopt) :=
  act_powered hp fun s => s.submit j.val m plan adopt

theorem State.submit_refused {c : Nat} (h : s.submitRefusal j m plan.dirs = some c) : s.submit j m plan adopt =
    { s with svc := s.svc ++ [refuseBytes (mRid m) c (if c = 1 then jLead (s.jobRec j) else 0)] } := by
  rw [State.submit, h]
  rfl

theorem State.submitRefusal_form (hok : submitOk m = false) (dirs : List (BitVec 48)) : s.submitRefusal j m dirs = some 5 := by
  rw [State.submitRefusal, hok]
  rfl

theorem State.submitRefusal_slot (hok : submitOk m = true) (hslot : (s.slotOn j && s.isLead j && !(s.prefill j)) = false)
    (dirs : List (BitVec 48)) : s.submitRefusal j m dirs = some 1 := by
  have hnot : (!(s.slotOn j) || !(s.isLead j) || s.prefill j) = true := by
    rw [← Bool.not_and, ← Bool.not_not (s.prefill j), ← Bool.not_and, hslot]
    rfl
  simp only [State.submitRefusal, hok, hnot, Bool.not_true, Bool.false_eq_true, if_false, if_true]

section Lead
variable (hok : submitOk m = true) (hon : s.slotOn j = true) (hlead : s.isLead j = true) (hrole : s.prefill j = false)
include hok hon hlead hrole

theorem State.submitRefusal_long (hn : 1048567 < sbN m + sbMaxnew m) (dirs : List (BitVec 48)) :
    s.submitRefusal j m dirs = some 3 := by
  simp [State.submitRefusal, hok, hon, hlead, hrole, hn]

theorem State.submitRefusal_window (hn : sbN m + sbMaxnew m ≤ 1048567) (hw : sbW m ≠ 0)
    (hbad : sbW m % 16 ≠ 0 ∨ sbW m < 256 ∨ 32768 < sbW m) (dirs : List (BitVec 48)) : s.submitRefusal j m dirs = some 6 := by
  have hwin : (sbW m != 0 && (sbW m % 16 != 0 || decide (sbW m < 256) || decide (32768 < sbW m))) = true := by
    simpa [hw, or_assoc] using hbad
  simp [State.submitRefusal, hok, hon, hlead, hrole, Nat.not_lt.mpr hn, hwin]

section Window
variable (hn : sbN m + sbMaxnew m ≤ 1048567) (hw : sbW m = 0)
include hn hw

theorem State.submitRefusal_publish (hpub : sbFlag m 0 = true) (hbad : mLe m 40 4 % 16 ≠ 0 ∨ sbN m - 1 < mLe m 40 4)
    (dirs : List (BitVec 48)) : s.submitRefusal j m dirs = some 7 := by
  have hlen : (mLe m 40 4 % 16 != 0 || decide (sbN m - 1 < mLe m 40 4)) = true := by simpa using hbad
  simp [State.submitRefusal, hok, hon, hlead, hrole, Nat.not_lt.mpr hn, hw, hpub, hlen]

theorem State.submitRefusal_gloss (hpub : sbFlag m 0 = false) {dirs : List (BitVec 48)} (hgloss : s.glossStaged j m dirs = false) :
    s.submitRefusal j m dirs = some 4 := by
  simp [State.submitRefusal, hok, hon, hlead, hrole, Nat.not_lt.mpr hn, hw, hpub, hgloss]

theorem State.submitRefusal_none (hpub : sbFlag m 0 = false) (hgloss : sbFlag m 2 = false) (dirs : List (BitVec 48)) :
    s.submitRefusal j m dirs = none := by
  simp [State.submitRefusal, State.glossStaged, hok, hon, hlead, hrole, Nat.not_lt.mpr hn, hw, hpub, hgloss]

end Window
end Lead

/-! ## SUBMIT that is admitted (R375, R376, R383, R384) -/

/-- A state without loaded records is as it is with those of a RID taken away. -/
theorem State.filter_records (h : s.records = []) (f : SlipRecord → Bool) : ({ s with records := s.records.filter f } : State) = s := by
  cases s
  cases h
  rfl

/-- A good SUBMIT of a RID that no slip holds is a new one, once the job's tables and slips are read. -/
theorem State.submit_new (h : s.submitRefusal j m plan.dirs = none) (hrecords : s.records = []) {u : State}
    (hu : u = (s.seenJob j (s.headNact j)).seenSlips j) (hrid : u.slipOfRid j (mRid m) = none) :
    s.submit j m plan none = u.submitNew j m plan := by
  have hnone : u.records = [] := by rw [hu, State.seenSlips_seenJob_records, hrecords]
  have hdrop : u.dropRecords = u := State.filter_records hnone _
  simp only [State.submit, h, ← hu, hdrop, hrid]

section Admit
variable {pf : Nat × Nat × Nat} {w : Nat} (hpub : sbFlag m 0 = false) (hgloss : sbFlag m 2 = false) (hrecords : s.records = [])
  (hpf : pf = s.prefixOf j m) (hw : w = s.submitImage j m plan.plist.toNat plan.rlist.toNat (s.requests.length % 2 ^ 24))
include hpub hgloss hrecords hpf hw

/-- A look-up that hits gives its pages and positions to the image; the prefill job is asked only for what is left of the prompt. -/
theorem State.submitNew_hit {npg list : Nat} (hrec : s.prefixRec j pf.2.2 = (npg, list)) (hhit : pf.1 = 1) :
    s.submitNew j m plan = (s.sysPut (s.jSheet j) plan.plist.toNat
        ((List.range npg).flatMap fun k => leBytes 4 (s.sheetLe (s.jSheet j) (list + 4 * k) 4))).postAdmit j m plan
      (takePrefix w m (16 * pf.2.1) npg pf.2.2) ⟨mRid m, 0, 0, j, 0, 0, false, 1, none, none, none, 0⟩
      (if sbN m ≤ 16 * pf.2.1 + 16 then none
        else some ⟨j, 0, 0, sbN m, 16 * pf.2.1, (m.drop 56).take (4 * sbN m), none, slDeadline w⟩) := by
  have hfor : s.recordFor j (mRid m) = none := by rw [State.recordFor, hrecords]; rfl
  have hpublish : submitPublish m plan = none := by rw [submitPublish, hpub]; rfl
  simp only [State.submitNew, hfor, Option.filter_none, State.filter_records hrecords, ← hpf, ← hw, hpublish, hhit, hrec, hgloss,
    beq_self_eq_true, if_true, Bool.true_and, decide_eq_true_eq, Bool.false_eq_true, if_false]

/-- Without a hit the page list is empty, and the whole prompt is ordered from the prefill job. -/
theorem State.submitNew_miss (hmiss : pf.1 ≠ 1) :
    s.submitNew j m plan = (s.sysPut (s.jSheet j) plan.plist.toNat []).postAdmit j m plan w
      ⟨mRid m, 0, 0, j, 0, 0, false, pf.1, none, none, none, 0⟩
      (some ⟨j, 0, 0, sbN m, 0, (m.drop 56).take (4 * sbN m), none, slDeadline w⟩) := by
  have hfor : s.recordFor j (mRid m) = none := by rw [State.recordFor, hrecords]; rfl
  have hpublish : submitPublish m plan = none := by rw [submitPublish, hpub]; rfl
  have hno : (pf.1 == 1) = false := by simpa using hmiss
  simp only [State.submitNew, hfor, Option.filter_none, State.filter_records hrecords, ← hpf, ← hw, hpublish, hno, hgloss,
    Bool.false_and, Bool.false_eq_true, if_false]

end Admit
end Submit

/-! ## Commands that firmware posts (R350, R369, R375, R376) -/

section Post
variable {s : State} {p : RollPost}

/-- A post that is alone and finds room is the next entry of the ring; the Roll takes it at once when it has taken every earlier one. -/
theorem State.postCommand_alone {v u : State} (hposts : s.posts = []) (hat : p.at_ = none) (hv : v = { s with posts := [p] })
    (hroom : v.rcqRoom = true)
    (hu : u = { (v.storeCarve (v.rcqBase + 64 * (v.rcqProd % 256)) (leBytes 64 p.entry)).carvePut
        (v.rcqBase + 64 * 256) (leBytes 8 ((v.rcqProd + 1) % 2 ^ 64)) with
      posts := [{ p with at_ := some (v.rcqProd % 2 ^ 32) }] })
    (htaken : (u.word Reg.RCQ_CONS).toNat = v.rcqProd % 2 ^ 32) : s.postCommand p = u.rollNext fun _ => true := by
  have hall : ({ s with posts := s.posts ++ [p] } : State).postAll = u := by
    rw [hposts, List.nil_append, ← hv, State.postAll, show v.posts = [p] by rw [hv], List.foldl_cons, List.foldl_nil]
    simp only [State.postOne, hat, hroom, Option.isSome_none, Bool.not_true, List.any_nil, Bool.or_false, Bool.false_eq_true,
      if_false, List.nil_append]
    exact hu.symm
  have hlast : u.posts.getLast?.bind RollPost.at_ = some (u.word Reg.RCQ_CONS).toNat := by
    rw [htaken, hu]
    rfl
  simp only [State.postCommand, hall, if_pos hlast]

theorem State.wishDone_refused {r : Request} {dropped c : Nat} {order : Option PrefillOrder} (hwish : p.wish = .enter r dropped order)
    (hc : c ≠ 0) (slip gen : Nat) : s.wishDone p c slip gen = { s with svc := s.svc ++ [refuseBytes p.rid 2 0] } := by
  have hfail : (c != 0) = true := by simpa using hc
  simp only [State.wishDone, hwish, hfail, if_true]
  rfl

/-- An ADMIT that is done enters the request and its order, and is answered by ACCEPT. -/
theorem State.wishDone_admitted {r : Request} {dropped slip gen : Nat} {order : Option PrefillOrder}
    (hwish : p.wish = .enter r dropped order) (howed : r.owed = none) {u : State} (hu : u = { s with
      requests := s.requests ++ [{ r with slip := slip, gen := gen }]
      orders := s.orders ++ (order.map fun o => { o with slip := slip, gen := gen }).toList }) :
    s.wishDone p 0 slip gen = { u with svc := u.svc ++ [message 2 p.rid (leBytes 4 slip ++ leBytes 1 gen ++ leBytes 1 0 ++
      leBytes 2 dropped ++ leBytes 4 (16 * bits (u.slip slip) 124 113))] } := by
  have hentered : ({ r with slip := slip, gen := gen, owed := none } : Request) = { r with slip := slip, gen := gen } := by
    rw [← howed]
  simp only [State.wishDone, hwish, howed, bne_self_eq_false, Bool.false_eq_true, if_false, Option.map_none, Option.isSome_none,
    hentered, ← hu]
  rfl

theorem State.wishDone_cancel (hwish : p.wish = .cancel) (c slip gen : Nat) : s.wishDone p c slip gen =
    { s with svc := s.svc ++ [message 7 p.rid
      (leBytes 1 (if c ≤ 1 then 0 else if c = 5 then 1 else if c = 6 then 2 else 3) ++ leBytes 7 0)] } := by
  rw [State.wishDone, hwish]
  rfl

end Post

/-! ## CANCEL and DRAFT (R358, R369, R391) -/

section Client
variable {s : State} {j : Nat} {m : List Byte}

theorem exec_clientCancel (hp : s.powered = true) (j : Fin 16) (m : List Byte) :
    exec (.clientCancel j m) s = .next (s.clientCancel j.val m) := act_powered hp fun s => s.clientCancel j.val m

theorem State.clientCancel_unknown (hok : headOk m 6 16 = true) (hr : s.request j (mRid m) = none) :
    s.clientCancel j m = { s with svc := s.svc ++ [message 7 (mRid m) (leBytes 1 3 ++ leBytes 7 0)] } := by
  rw [State.clientCancel, hok, hr]
  rfl

theorem State.clientCancel_known {r : Request} (hok : headOk m 6 16 = true) (hr : s.request j (mRid m) = some r)
    (hon : s.slotOn j = true) (hlead : s.isLead j = true) : s.clientCancel j m = s.postCommand
      ⟨none, 0x0A + j * 2 ^ 8 + r.slip * 2 ^ 32 + r.gen * 2 ^ 50 + 5 * 2 ^ 64, j, mRid m, .cancel⟩ := by
  simp only [State.clientCancel, hok, hr, hon, hlead, Bool.not_true, Bool.or_false, Bool.false_eq_true, if_false]

theorem exec_draft (hp : s.powered = true) (j : Fin 16) (m : List Byte) : exec (.draft j m) s = .next (s.draft j.val m) :=
  act_powered hp fun s => s.draft j.val m

theorem State.draft_active {r : Request} (hn : mLe m 20 1 ≤ 8) (hok : headOk m 8 (24 + 4 * mLe m 20 1) = true)
    (hr : s.request j (mRid m) = some r) (hst : slState (s.slip r.slip) = 4) :
    s.draft j m = s.sysPut (s.jSheet j) (jAddr (s.jobRec j) 4 + 64 * (r.slip - s.rd (Reg.SBASE j) 17 0))
      (leBytes 32 (mLe m 16 4 % 2 ^ 24 + mLe m 20 1 * 2 ^ 24) ++ fit 32 0 (m.drop 24)) := by
  simp [State.draft, hok, Nat.not_lt.mpr hn, hr, hst]

/-! ## TOKENS and END (R366, R385, R387, R390) -/

theorem exec_tokens (hp : s.powered = true) (j : Fin 16) : exec (.tokens j) s = .next (s.tokens j.val) :=
  act_powered hp fun s => s.tokens j.val

/-- A record that may leave is delivered, and counted consumed. -/
theorem State.tokens_due {v : State} (hv : v = s.seenEgress j) (hon : v.slotOn j = true) (hlead : v.isLead j = true)
    (hring : v.ringOk (v.egBase j) (v.egSize j) = true) (hmore : v.egCons j ≠ v.egProd j) (hdue : v.tokensDue j = true) :
    s.tokens j = ((v.deliver j (v.egRecord j (v.egCons j))).carvePut (v.egBase j + 64 * v.egSize j + 8)
      (leBytes 8 ((v.egCons j + 1) % 2 ^ 64))).sendEnds j := by
  simp [State.tokens, ← hv, hon, hlead, hring, hmore, hdue]

theorem State.tokens_empty {v : State} (hv : v = s.seenEgress j) (hnone : v.egCons j = v.egProd j) : s.tokens j = v := by
  simp [State.tokens, ← hv, hnone]

theorem State.setRequest_self (s : State) (r : Request) : s.setRequest r r = s := by
  have hsame : (s.requests.map fun x => if x == r then r else x) = s.requests := by
    conv_rhs => rw [← List.map_id s.requests]
    refine List.map_congr_left fun x _ => ?_
    split
    · next h => exact (eq_of_beq h).symm
    · rfl
  rw [State.setRequest, hsame]

/-- A request that publishes nothing stays as it is. -/
theorem State.published_nothing {r : Request} (h : r.pub = none) (s : State) (j : Nat) : s.published j r = (s, r) := by
  rw [State.published, State.publish, h]
  exact congrArg (·, r) (s.setRequest_self r)

section Deliver
variable {e : Nat} {r : Request}

theorem State.deliver_unknown (h : (s.requests.find? fun r => r.job == j && recordOf r e && !r.ended) = none) :
    s.deliver j e = s := by
  rw [State.deliver, h]

variable (h : (s.requests.find? fun r => r.job == j && recordOf r e && !r.ended) = some r) (hpub : r.pub = none)
include h hpub

theorem State.deliver_tokens (hst : terminal (bits e 29 26) = false) (hn : bits e 37 34 ≠ 0) : s.deliver j e =
    { s.setRequest r { r with sent := r.sent + bits e 37 34, lastPos := bits e 87 64 + bits e 37 34 } with
      svc := s.svc ++ [message 4 r.rid (leBytes 4 (bits e 87 64) ++ leBytes 2 (bits e 37 34) ++
        leBytes 1 (if r.sent = 0 then r.pfx else 0) ++ leBytes 1 0 ++ leBytes 8 (bits e 191 128) ++
        leBytes (4 * bits e 37 34) (bits e 479 192))] } := by
  simp only [State.deliver, h, State.published_nothing hpub, hst, hn, Bool.false_eq_true, if_false]
  rfl

theorem State.deliver_end (hst : terminal (bits e 29 26) = true) (hn : bits e 37 34 = 0) : s.deliver j e =
    { s.setRequest r { r with ended := true } with
      svc := s.svc ++ [message 5 r.rid (leBytes 1 (bits e 29 26) ++ leBytes 1 (bits e 33 30) ++ [Config.pubCode r.pubRes, 0] ++
        leBytes 4 r.sent ++ leBytes 4 r.lastPos ++ leBytes 4 0 ++ leBytes 8 s.now)] } := by
  simp only [State.deliver, h, State.published_nothing hpub, hst, hn, if_true]
  rfl

end Deliver
end Client

/-- Settles O43: each message by the branch of its checks; a SUBMIT that passes reads the job's slips, which brings in no loaded record,
so it is a new one. -/
theorem endpointRows : Obligations.EndpointRows := by
  unfold Obligations.EndpointRows
  refine ⟨fun j m plan adopt s hp hok => ?_, fun j m plan adopt s hp hok hslot => ?_,
    fun j m plan adopt s hp hok hon hlead hrole => ⟨fun hn => ?_, fun hn hw hbad => ?_, fun hn hw hpub hbad => ?_,
      fun hn hw hpub hgloss => ?_⟩,
    fun j m plan adopt s u pf pr npg list w hp hok hon hlead hrole hn hsw hpub hgloss hadopt hrec hu hrid hpf hpr hprec hw => ?_,
    fun s v u p hposts hat hv hroom hu htaken => State.postCommand_alone hposts hat hv hroom hu htaken,
    fun s u p r order dropped c slip gen hwish hu => ⟨fun hc => State.wishDone_refused hwish hc slip gen, fun hc howed => ?_⟩,
    fun j m s hp hok hr => ?_, fun j m s r hp hok hr hon hlead => ?_,
    fun s p c slip gen hwish => State.wishDone_cancel hwish c slip gen,
    fun j m s r hp hn hok hr hst => ?_, fun j s v u hp hv hon hlead hring hmore hdue hu => ?_,
    fun j e s h => State.deliver_unknown h,
    fun j e s r h hpub => ⟨State.deliver_tokens h hpub, State.deliver_end h hpub⟩, fun j s v hp hv hnone => ?_⟩
  · rw [exec_submit hp, State.submit_refused (State.submitRefusal_form hok _)]
    rfl
  · rw [exec_submit hp, State.submit_refused (State.submitRefusal_slot hok hslot _)]
    rfl
  · rw [exec_submit hp, State.submit_refused (State.submitRefusal_long hok hon hlead hrole hn _)]
    rfl
  · rw [exec_submit hp, State.submit_refused (State.submitRefusal_window hok hon hlead hrole hn hw hbad _)]
    rfl
  · rw [exec_submit hp, State.submit_refused (State.submitRefusal_publish hok hon hlead hrole hn hw hpub hbad _)]
    rfl
  · rw [exec_submit hp, State.submit_refused (State.submitRefusal_gloss hok hon hlead hrole hn hw hpub hgloss)]
    rfl
  · have hnone := State.submitRefusal_none hok hon hlead hrole hn hsw hpub hgloss plan.dirs
    have hurec : u.records = [] := by rw [hu, State.seenSlips_seenJob_records, hrec]
    subst hadopt hpr
    rw [exec_submit hp, State.submit_new hnone hrec hu hrid]
    exact ⟨fun hhit => by rw [State.submitNew_hit hpub hgloss hurec hpf hw hprec hhit],
      fun hmiss => by rw [State.submitNew_miss hpub hgloss hurec hpf hw hmiss]⟩
  · subst hc
    rw [State.wishDone_admitted hwish howed hu, hu]
  · rw [exec_clientCancel hp, State.clientCancel_unknown hok hr]
  · rw [exec_clientCancel hp, State.clientCancel_known hok hr hon hlead]
  · rw [exec_draft hp, State.draft_active hn hok hr hst]
  · rw [exec_tokens hp, State.tokens_due hv hon hlead hring hmore hdue, hu]
  · rw [exec_tokens hp, State.tokens_empty hv hnone]

end Sys2Proof.Machine
end

section
/-! SUPPORT. The registers of the sheets and the contexts under the operations of memory, the descriptors and the fabric. -/

namespace Sys2Proof.Machine

/-- The registers that lie before those of the quires, those of the sheets and the contexts among them. -/
def State.lowRegs (s : State) : Fin 0x4C000 → W32 := fun o => s.word o.val

/-- A register that does not lie before those of the quires. -/
def High (o : Nat) : Prop := 0x4C000 ≤ o

@[simp] theorem high_ueCount : High Reg.UE_COUNT := by unfold High; decide
@[simp] theorem high_ueAddrLo : High Reg.UE_ADDR_LO := by unfold High; decide
@[simp] theorem high_ueAddrHi : High Reg.UE_ADDR_HI := by unfold High; decide
@[simp] theorem high_ueInfo : High Reg.UE_INFO := by unfold High; decide
@[simp] theorem high_ceCount : High Reg.CE_COUNT := by unfold High; decide
@[simp] theorem high_bulkwSent : High Reg.BULKW_SENT := by unfold High; decide
@[simp] theorem high_qcfg (qn : Nat) : High (Reg.QCFG qn) := by unfold High Reg.QCFG; omega
@[simp] theorem high_qdone (qn : Nat) : High (Reg.QDONE qn) := by unfold High Reg.QDONE; omega
@[simp] theorem high_dmaCancels (i : Nat) : High (Reg.DMA_CANCELS i) := by unfold High Reg.DMA_CANCELS; omega
@[simp] theorem high_aborts (i : Nat) : High (Reg.ABORTS i) := by unfold High Reg.ABORTS; omega
@[simp] theorem high_flitsTx (p : Nat) : High (Reg.FLITS_TX p) := by unfold High Reg.FLITS_TX; omega
@[simp] theorem high_transit (p : Nat) : High (Reg.TRANSIT p) := by unfold High Reg.TRANSIT; omega

theorem High.of_mem_logRegs {o : Nat} (h : o ∈ logRegs) : High o :=
  (by decide : (0x4C000 : Nat) ≤ 0x4C800).trans (le_of_mem_logRegs o h)

theorem State.word_of_lowRegs {s t : State} (h : t.lowRegs = s.lowRegs) {o : Nat} (ho : o < 0x4C000) : t.word o = s.word o :=
  congrFun h ⟨o, ho⟩

theorem State.lowRegs_eq {s t : State} (h : ∀ o, o < 0x4C000 → t.word o = s.word o) : t.lowRegs = s.lowRegs :=
  funext fun o => h o.val o.isLt

theorem State.lowRegs_of_csr {s t : State} (h : t.csr = s.csr) : t.lowRegs = s.lowRegs :=
  State.lowRegs_eq fun o _ => State.word_eq_of_csr h o

@[simp] theorem lowRegs_ite (c : Prop) [Decidable c] (s t : State) :
    (if c then s else t).lowRegs = if c then s.lowRegs else t.lowRegs := apply_ite State.lowRegs c s t

@[simp] theorem fst_lowRegs_ite {β : Type} (c : Prop) [Decidable c] (p q : State × β) :
    (if c then p else q).1.lowRegs = if c then p.1.lowRegs else q.1.lowRegs := apply_ite (fun p => p.1.lowRegs) c p q

/-- The state of a pair that a match has taken apart. -/
theorem lowRegs_of_eq {β : Type} {p : State × β} {t : State} {b : β} (h : p = (t, b)) : t.lowRegs = p.1.lowRegs := by rw [h]

theorem foldl_lowRegs {α : Type} {f : State → α → State} (hf : ∀ s x, (f s x).lowRegs = s.lowRegs) (l : List α) (s : State) :
    (l.foldl f s).lowRegs = s.lowRegs := foldl_keeps State.lowRegs (fun x _ s => hf s x) s

theorem foldl_fst_lowRegs {α β : Type} {f : State × β → α → State × β} (hf : ∀ p x, (f p x).1.lowRegs = p.1.lowRegs)
    (l : List α) (p : State × β) : (l.foldl f p).1.lowRegs = p.1.lowRegs :=
  List.foldlRecOn (motive := fun q : State × β => q.1.lowRegs = p.1.lowRegs) l f rfl fun q hq x _ => (hf q x).trans hq

theorem LogOnly.lowRegs {s t : State} (h : LogOnly s t) : t.lowRegs = s.lowRegs :=
  State.lowRegs_eq fun o ho => h.regs o fun hlog => absurd (High.of_mem_logRegs hlog) (Nat.not_le.mpr ho)

section

variable (s : State)

/-! ## Registers and memory -/

@[simp] theorem State.wrw_lowRegs {o : Nat} (w : W32) (h : High o) : (s.wrw o w).lowRegs = s.lowRegs :=
  State.lowRegs_eq fun _ hp => s.word_wrw_ne w (Nat.ne_of_lt (hp.trans_le h))

@[simp] theorem State.wrb_lowRegs {o : Nat} (i : Nat) (b : Bool) (h : High o) : (s.wrb o i b).lowRegs = s.lowRegs :=
  s.wrw_lowRegs _ h
@[simp] theorem State.bump_lowRegs {o : Nat} (n : Nat) (h : High o) : (s.bump o n).lowRegs = s.lowRegs := s.wrw_lowRegs _ h
@[simp] theorem State.bumpSat_lowRegs {o : Nat} (n : Nat) (h : High o) : (s.bumpSat o n).lowRegs = s.lowRegs := s.wrw_lowRegs _ h

@[simp] theorem State.notify_lowRegs (a n : Nat) : (s.notify a n).lowRegs = s.lowRegs := ((LogOnly.refl s).notify a n).lowRegs

@[simp] theorem State.post_lowRegs (code : Nat) (args : List Nat) : (s.post code args).lowRegs = s.lowRegs :=
  (s.post_logOnly code args).lowRegs

@[simp] theorem State.touch_lowRegs (g : Nat) : (s.touch g).lowRegs = s.lowRegs := by
  rw [State.touch]
  split
  · rfl
  · exact State.notify_lowRegs ..

@[simp] theorem State.store_lowRegs (a : Nat) (bs : List Byte) : (s.store a bs).lowRegs = s.lowRegs := by
  rw [State.store]
  split
  · rfl
  · exact State.notify_lowRegs ..

@[simp] theorem State.storeTier_lowRegs (a : Nat) (bs : List Byte) : (s.storeTier a bs).lowRegs = s.lowRegs :=
  foldl_lowRegs (fun s p => by simp) _ s

/-! ## Error protection -/

@[simp] theorem State.uncorr_lowRegs (store addr scribe sheet : Nat) :
    (s.uncorr store addr scribe sheet).lowRegs = s.lowRegs := by
  simp [State.uncorr, State.wr64]

@[simp] theorem State.correct_lowRegs (line : Nat) (resid : List Byte) (addr : Nat) :
    (s.correct line resid addr).lowRegs = s.lowRegs :=
  ((LogOnly.refl _).postOnce ..).lowRegs.trans (s.bumpSat_lowRegs 1 high_ceCount)

@[simp] theorem State.eccLine_lowRegs (line : Nat) (p : Map Byte) (addr scribe sheet : Nat) :
    (s.eccLine line p addr scribe sheet).1.lowRegs = s.lowRegs := by
  rw [State.eccLine]
  split
  · rfl
  · split
    · exact State.correct_lowRegs ..
    · exact State.uncorr_lowRegs ..

@[simp] theorem State.ecc_lowRegs (a n base scribe sheet : Nat) : (s.ecc a n base scribe sheet).1.lowRegs = s.lowRegs := by
  rw [State.ecc]
  split
  · rfl
  · split
    · exact State.uncorr_lowRegs ..
    · split
      · exact State.uncorr_lowRegs ..
      · exact foldl_fst_lowRegs (fun p x => by simp) _ _

@[simp] theorem State.eccEdges_lowRegs (a n base scribe sheet : Nat) :
    (s.eccEdges a n base scribe sheet).1.lowRegs = s.lowRegs := by
  simp [State.eccEdges]

@[simp] theorem State.unitPut_lowRegs (a : Nat) (bs : List Byte) (base : Nat) : (s.unitPut a bs base).lowRegs = s.lowRegs := by
  rw [State.unitPut]
  split <;> next h => simp [lowRegs_of_eq h]

@[simp] theorem State.entryRead_lowRegs (g sheet : Nat) : (s.entryRead g sheet).1.lowRegs = s.lowRegs := by
  rw [State.entryRead, State.seenEntry]
  split
  · exact State.uncorr_lowRegs ..
  · split
    · rfl
    · split
      · rfl
      · exact State.eccLine_lowRegs ..

@[simp] theorem State.seenTier_lowRegs (a n sheet : Nat) : (s.seenTier a n sheet).lowRegs = s.lowRegs := by
  refine (foldl_lowRegs (fun s g => s.touch_lowRegs g) _ _).trans (foldl_fst_lowRegs (fun p x => ?_) _ _)
  dsimp only
  split <;> simp

/-! ## Descriptors -/

@[simp] theorem State.updOp_lowRegs (o : DmaOp) : (s.updOp o).lowRegs = s.lowRegs := State.lowRegs_of_csr rfl

@[simp] theorem State.recEnd_lowRegs (a tag unit kind outcome progress faddr abrq base : Nat) :
    (s.recEnd a tag unit kind outcome progress faddr abrq base).lowRegs = s.lowRegs := by
  simp [State.recEnd, State.seen]

@[simp] theorem State.recTouch_lowRegs (d : Nat) : (s.recTouch d).lowRegs = s.lowRegs := by simp [State.recTouch]

@[simp] theorem State.countEnd_lowRegs (qn outcome : Nat) : (s.countEnd qn outcome).lowRegs = s.lowRegs := by
  simp [State.countEnd]

@[simp] theorem State.writeReady_lowRegs (o : DmaOp) (n : Nat) : (s.writeReady o n).1.lowRegs = s.lowRegs := by
  unfold State.writeReady
  extract_lets a e
  have he : e.1.lowRegs = s.lowRegs := by simp [e]
  split
  · exact he
  · split
    · exact he
    · split <;> next h => simp [lowRegs_of_eq h, he]

@[simp] theorem State.withDma_lowRegs (l : List DmaOp) : ({ s with dma := l } : State).lowRegs = s.lowRegs :=
  State.lowRegs_of_csr rfl

@[simp] theorem State.dmaClose_lowRegs (o : DmaOp) (outcome faddr abrq : Nat) :
    (s.dmaClose o outcome faddr abrq).lowRegs = s.lowRegs := by
  simp [State.dmaClose]

@[simp] theorem State.dmaStop_lowRegs (o : DmaOp) (outcome faddr abrq data : Nat) :
    (s.dmaStop o outcome faddr abrq data).lowRegs = s.lowRegs := by
  have hend (t : State) : t.endWaiters.lowRegs = t.lowRegs := foldl_lowRegs (fun s o => s.dmaClose_lowRegs o 0 0 0) _ t
  rw [State.dmaStop]
  split <;> simp [hend]

@[simp] theorem State.abortCtxDma_lowRegs (i c : Nat) : (s.abortCtxDma i c).lowRegs = s.lowRegs := by
  refine (foldl_lowRegs (fun s qn => ?_) _ _).trans (foldl_lowRegs (fun s o => s.dmaStop_lowRegs ..) _ s)
  simp

/-! ## The fabric -/

@[simp] theorem State.setPort_lowRegs (p : Nat) (r : PortRt) : (s.setPort p r).lowRegs = s.lowRegs := State.lowRegs_of_csr rfl

@[simp] theorem State.pump_lowRegs (p : Nat) : (s.pump p).lowRegs = s.lowRegs := by
  simp [State.pump, State.pumpCount]

@[simp] theorem State.send_lowRegs (path : Nat) (p : Packet) : (s.send path p).lowRegs = s.lowRegs := by
  rw [State.send, State.sendVl]
  split
  · exact (State.pump_lowRegs ..).trans (State.lowRegs_of_csr rfl)
  · exact State.lowRegs_of_csr rfl

theorem State.launch_lowRegs (p : Packet) (issuers : List Issuer) (apers : List Nat) :
    (s.launch p issuers apers).lowRegs = s.lowRegs := by
  rw [State.launch]
  dsimp only
  split
  · exact State.lowRegs_of_csr rfl
  · split
    · exact State.lowRegs_of_csr rfl
    · exact (State.lowRegs_of_csr rfl).trans ((State.send_lowRegs ..).trans (State.lowRegs_of_csr rfl))

theorem State.flushGather_lowRegs (g : Gather) : (s.flushGather g).lowRegs = s.lowRegs := by
  rw [State.flushGather, State.bump_lowRegs _ 1 high_bulkwSent, State.launch_lowRegs]
  exact State.lowRegs_of_csr rfl

@[simp] theorem State.flushOf_lowRegs (f : Issuer → Bool) : (s.flushOf f).lowRegs = s.lowRegs :=
  foldl_lowRegs (fun s g => s.flushGather_lowRegs g) _ s

/-! ## Contexts -/

@[simp] theorem State.recPut_lowRegs (i c o : Nat) (bs : List Byte) : (s.recPut i c o bs).lowRegs = s.lowRegs := by
  simp [State.recPut]

@[simp] theorem State.recWr_lowRegs (i c o v : Nat) : (s.recWr i c o v).lowRegs = s.lowRegs := State.recPut_lowRegs ..
@[simp] theorem State.recSeen_lowRegs (i c : Nat) : (s.recSeen i c).lowRegs = s.lowRegs := by simp [State.recSeen]
@[simp] theorem State.bindSeen_lowRegs (i c q : Nat) : (s.bindSeen i c q).lowRegs = s.lowRegs := by simp [State.bindSeen]

end

end Sys2Proof.Machine
end

section
/-! SUPPORT. The scheduler, and what START, STOP, RESET and a fault do to a context (10_sheets.md R402 to R406, R416, R745). -/

namespace Sys2Proof.Machine

/-! ## Registers that lie apart -/

theorem cstat_low {i c : Nat} (hi : i < 16) (hc : c < 8) : Reg.CSTAT i c < 0x4C000 := by unfold Reg.CSTAT; omega
theorem ccfg_low {i c : Nat} (hi : i < 16) (hc : c < 8) : Reg.CCFG i c < 0x4C000 := by unfold Reg.CCFG; omega
theorem faults_low {i : Nat} (hi : i < 16) : Reg.FAULTS i < 0x4C000 := by unfold Reg.FAULTS; omega
theorem sctl_low {i : Nat} (hi : i < 16) : Reg.SCTL i < 0x4C000 := by unfold Reg.SCTL; omega

theorem ne_quireStat_of_low {o : Nat} (h : o < 0x4C000) (q : Nat) : o ≠ Reg.QUIRE_STAT q := by
  unfold Reg.QUIRE_STAT
  omega

theorem cstat_ne_runtime (i c r : Nat) : Reg.CSTAT i c ≠ Reg.RUNTIME i r := by unfold Reg.CSTAT Reg.RUNTIME; omega
theorem ccfg_ne_runtime (i c r : Nat) : Reg.CCFG i c ≠ Reg.RUNTIME i r := by unfold Reg.CCFG Reg.RUNTIME; omega
theorem ccfg_ne_cstat (i c r : Nat) : Reg.CCFG i c ≠ Reg.CSTAT i r := by unfold Reg.CCFG Reg.CSTAT; omega

theorem faults_ne_runtime (i r : Nat) : Reg.FAULTS i ≠ Reg.RUNTIME i r := by unfold Reg.FAULTS Reg.RUNTIME; omega

theorem faults_ne_cstat {i : Nat} (hi : i < 16) (r : Nat) : Reg.FAULTS i ≠ Reg.CSTAT i r := by
  unfold Reg.FAULTS Reg.CSTAT
  omega

theorem sctl_ne_cstat (i j c : Nat) : Reg.SCTL i ≠ Reg.CSTAT j c := by unfold Reg.SCTL Reg.CSTAT; omega

theorem sctl_ne_ccfg {i j : Nat} (hi : i < 16) (c : Nat) : Reg.SCTL i ≠ Reg.CCFG j c := by
  unfold Reg.SCTL Reg.CCFG
  omega

theorem State.rd_congr {s t : State} {o : Nat} (h : t.word o = s.word o) (hi lo : Nat) : t.rd o hi lo = s.rd o hi lo := by
  rw [State.rd, h, State.rd]

theorem State.rdb_congr {s t : State} {o : Nat} (h : t.word o = s.word o) (i : Nat) : t.rdb o i = s.rdb o i := by
  rw [State.rdb, State.rd_congr h, State.rdb]

@[simp] theorem State.sheet_setSheet (s : State) (i : Nat) (r : SheetRt) : (s.setSheet i r).sheet i = r := Map.getD_set_same ..
@[simp] theorem State.ctx_setCtx (s : State) (i c : Nat) (r : CtxRt) : (s.setCtx i c r).ctx i c = r := Map.getD_set_same ..

@[simp] theorem State.setCtx_word (s : State) (i c : Nat) (r : CtxRt) (o : Nat) : (s.setCtx i c r).word o = s.word o := rfl
@[simp] theorem State.ctx_wr (s : State) (o hi lo v i c : Nat) : (s.wr o hi lo v).ctx i c = s.ctx i c := rfl
@[simp] theorem State.sheet_wr (s : State) (o hi lo v i : Nat) : (s.wr o hi lo v).sheet i = s.sheet i := rfl
@[simp] theorem State.setCtx_sheet (s : State) (i c : Nat) (r : CtxRt) (j : Nat) : (s.setCtx i c r).sheet j = s.sheet j := rfl
@[simp] theorem State.dropArrived_word (s : State) (i c o : Nat) : (s.dropArrived i c).word o = s.word o := rfl

/-! ## The choice of R404 -/

/-- One step of the scheduler's choice: the better of the context chosen so far and the next one. -/
def State.better (s : State) (i : Nat) (b : Option Nat) (c : Nat) : Option Nat :=
  if s.ctxState i c = 1 then
    match b with
    | none => some c
    | some x => if s.prio i x < s.prio i c then some c else b
  else b

/-- The order in which the scheduler meets the contexts. -/
def State.turns (s : State) (i : Nat) : List Nat := (List.range 8).map fun k => (s.rd (Reg.SCTL i) 10 8 + 1 + k) % 8

theorem State.bestReady_eq (s : State) (i : Nat) : s.bestReady i = (s.turns i).foldl (s.better i) none := rfl

theorem State.mem_turns (s : State) (i c : Nat) : c ∈ s.turns i ↔ c < 8 := by
  rw [State.turns, List.mem_map]
  refine ⟨fun ⟨k, _, hk⟩ => hk ▸ Nat.mod_lt _ (by decide), fun hc => ?_⟩
  exact ⟨(c + 8 - (s.rd (Reg.SCTL i) 10 8 + 1) % 8) % 8, List.mem_range.mpr (Nat.mod_lt _ (by decide)), by omega⟩

section Choice

variable {s : State} {i c : Nat}

theorem State.better_notReady (h : s.ctxState i c ≠ 1) (b : Option Nat) : s.better i b c = b := if_neg h

theorem State.better_same (h : s.ctxState i c = 1) {b : Option Nat} (hb : b = none ∨ b = some c) : s.better i b c = some c := by
  rcases hb with rfl | rfl
  · exact if_pos h
  · exact (if_pos h).trans (if_neg (Nat.lt_irrefl _))

/-- With no READY context there is none to choose. -/
theorem State.bestReady_none (h : ∀ d, d < 8 → s.ctxState i d ≠ 1) : s.bestReady i = none := by
  rw [State.bestReady_eq]
  exact List.foldlRecOn (motive := (· = none)) _ _ rfl fun b hb d hd => by
    rw [State.better_notReady (h d ((s.mem_turns i d).mp hd)), hb]

/-- The only READY context is chosen. -/
theorem State.bestReady_only (hc : c < 8) (hready : s.ctxState i c = 1) (h : ∀ d, d < 8 → d ≠ c → s.ctxState i d ≠ 1) :
    s.bestReady i = some c := by
  have hstep (b : Option Nat) (hb : b = none ∨ b = some c) (d : Nat) (hd : d < 8) :
      s.better i b d = some c ∨ (d ≠ c ∧ s.better i b d = b) := by
    rcases eq_or_ne d c with rfl | hne
    · exact .inl (State.better_same hready hb)
    · exact .inr ⟨hne, State.better_notReady (h d hd hne) b⟩
  have hlt (d : Nat) (hd : d ∈ s.turns i) : d < 8 := (s.mem_turns i d).mp hd
  obtain ⟨l₁, l₂, hl⟩ := List.append_of_mem ((s.mem_turns i c).mpr hc)
  rw [State.bestReady_eq, hl, List.foldl_append, List.foldl_cons]
  rw [hl] at hlt
  refine List.foldlRecOn (motive := (· = some c)) _ _ (State.better_same hready ?_) fun b hb d hd => ?_
  · refine List.foldlRecOn (motive := fun b => b = none ∨ b = some c) _ _ (.inl rfl) fun b hb d hd => ?_
    rcases hstep b hb d (hlt d (List.mem_append_left _ hd)) with hsome | ⟨-, hkeep⟩
    · exact .inr hsome
    · rwa [hkeep]
  · rcases hstep b (.inr hb) d (hlt d (List.mem_append_right _ (List.mem_cons_of_mem _ hd))) with hsome | ⟨-, hkeep⟩
    · exact hsome
    · rwa [hkeep]

end Choice

/-! ## The scheduler -/

section Schedule

variable {s : State} {i : Nat}

theorem State.schedule_noneReady (h : s.bestReady i = none) : s.schedule i = s := by
  rw [State.schedule, h]
  exact ite_self s

theorem State.schedule_stopped (h2 : s.sheetState i ≠ 2) (h3 : s.sheetState i ≠ 3) : s.schedule i = s := by
  simp [State.schedule, h2, h3]

theorem State.schedule_switching (h : (s.sheet i).saving.isSome = true ∨ (s.sheet i).restoring.isSome = true) :
    s.schedule i = s := by
  rw [State.schedule]
  refine if_pos ?_
  rcases h with h | h
  · rw [h, Bool.or_true, Bool.true_or]
  · rw [h, Bool.or_true]

/-- A sheet with no resident context begins to restore the one chosen. -/
theorem State.schedule_restores {d : Nat} (hstate : s.sheetState i = 2) (hsave : (s.sheet i).saving = none)
    (hrestore : (s.sheet i).restoring = none) (hcur : (s.sheet i).cur = none) (hbest : s.bestReady i = some d) :
    s.schedule i = s.beginRestore i d := by
  simp [State.schedule, hstate, hsave, hrestore, hcur, hbest]

/-- What the scheduler can do: nothing, begin to restore a READY context, or begin to save the resident one. -/
theorem State.schedule_cases (s : State) (i : Nat) :
    s.schedule i = s ∨ (∃ d, s.ctxState i d = 1 ∧ s.schedule i = s.beginRestore i d) ∨
      ∃ r, (s.sheet i).cur = some r ∧ s.schedule i = s.beginSave i r := by
  rw [State.schedule]
  split
  · exact .inl rfl
  · split
    · exact .inl rfl
    · next d hbest _ => exact .inr (.inl ⟨d, State.bestReady_some hbest, rfl⟩)
    · next d r hbest hcur =>
      split
      · exact .inr (.inr ⟨r, hcur, rfl⟩)
      · exact .inl rfl

theorem State.beginRestore_word (s : State) {i d o : Nat} (hquire : ∀ q, o ≠ Reg.QUIRE_STAT q) (hstat : o ≠ Reg.CSTAT i d) :
    (s.beginRestore i d).word o = s.word o :=
  (State.setQuires_word _ hquire i 6).trans (s.word_wr_ne 2 0 4 hstat)

theorem State.beginSave_word (s : State) {i r o : Nat} (hquire : ∀ q, o ≠ Reg.QUIRE_STAT q) (hstat : o ≠ Reg.CSTAT i r)
    (hrun : o ≠ Reg.RUNTIME i r) : (s.beginSave i r).word o = s.word o :=
  (State.setQuires_word _ hquire i 5).trans ((State.word_wr_ne _ 2 0 4 hstat).trans (s.leave_word hrun))

/-- The scheduler leaves a register that is of no READY context and not of the resident one. -/
theorem State.schedule_keeps {o : Nat} (ho : o < 0x4C000) (hready : ∀ d, s.ctxState i d = 1 → o ≠ Reg.CSTAT i d)
    (hcur : ∀ r, (s.sheet i).cur = some r → o ≠ Reg.CSTAT i r) (hrun : ∀ r, o ≠ Reg.RUNTIME i r) :
    (s.schedule i).word o = s.word o := by
  rcases s.schedule_cases i with h | ⟨d, hd, h⟩ | ⟨r, hr, h⟩ <;> rw [h]
  · exact s.beginRestore_word (ne_quireStat_of_low ho) (hready d hd)
  · exact s.beginSave_word (ne_quireStat_of_low ho) (hcur r hr) (hrun r)

/-- A context that is neither READY nor resident stays as it is. -/
theorem State.schedule_cstat {c : Nat} (hi : i < 16) (hc : c < 8) (hstate : s.ctxState i c ≠ 1)
    (hcur : (s.sheet i).cur ≠ some c) : (s.schedule i).word (Reg.CSTAT i c) = s.word (Reg.CSTAT i c) :=
  State.schedule_keeps (cstat_low hi hc) (fun _ hd => cstat_ne_of_ne i fun h => hstate (h ▸ hd))
    (fun _ hr => cstat_ne_of_ne i fun h => hcur (h ▸ hr)) (cstat_ne_runtime i c)

theorem State.schedule_ccfg {c : Nat} (hi : i < 16) (hc : c < 8) : (s.schedule i).word (Reg.CCFG i c) = s.word (Reg.CCFG i c) :=
  State.schedule_keeps (ccfg_low hi hc) (fun d _ => ccfg_ne_cstat i c d) (fun r _ => ccfg_ne_cstat i c r) (ccfg_ne_runtime i c)

theorem State.schedule_faults (hi : i < 16) : (s.schedule i).word (Reg.FAULTS i) = s.word (Reg.FAULTS i) :=
  State.schedule_keeps (faults_low hi) (fun d _ => faults_ne_cstat hi d) (fun r _ => faults_ne_cstat hi r) (faults_ne_runtime i)

end Schedule

/-! ## A context leaves its quires for good -/

theorem State.dropResident_cur_ne (s : State) (i c : Nat) : ((s.dropResident i c).sheet i).cur ≠ some c := by
  rw [State.dropResident]
  dsimp only
  split
  · rw [State.sheet_setSheet]
    split
    · exact nofun
    · assumption
  · next h =>
    rw [State.leave_sheet]
    exact fun hcur => h (by simp [hcur])

section Context

variable {i c : Nat} (hi : i < 16) (hc : c < 8)
include hi hc

omit hi hc in
theorem State.bumpGen_word (s : State) {o : Nat} (ho : o < 0x4C000) (hstat : o ≠ Reg.CSTAT i c) :
    (s.bumpGen i c).word o = s.word o :=
  (State.word_of_lowRegs (State.recWr_lowRegs ..) ho).trans (s.word_wr_ne 15 8 _ hstat)

theorem State.bumpGen_gen (s : State) : (s.bumpGen i c).gen i c = (s.gen i c + 1) % 256 := by
  have hkeep : (s.bumpGen i c).word (Reg.CSTAT i c) = (s.wr (Reg.CSTAT i c) 15 8 ((s.gen i c + 1) % 256)).word (Reg.CSTAT i c) :=
    State.word_of_lowRegs (State.recWr_lowRegs ..) (cstat_low hi hc)
  rw [State.gen, State.rd_congr hkeep, State.rd_wr _ _ _ (by decide) (by decide)]
  exact Nat.mod_mod _ _

omit hi hc in
theorem State.setCtxState_self (s : State) (i c : Nat) {st : Nat} (h : st < 8) : (s.setCtxState i c st).ctxState i c = st :=
  (s.rd_wr _ st (Nat.zero_le 2) (by decide)).trans (Nat.mod_eq_of_lt h)

omit hi hc in
theorem State.setCtxState_gen (s : State) (i c st : Nat) : (s.setCtxState i c st).gen i c = s.gen i c :=
  s.rd_wr_above _ st (by decide) (by decide) (by decide)

omit hi hc in
/-- What the tearing down of a context does before its GEN goes on. -/
theorem State.tearContext_eq (s : State) (i c st : Nat) : ∃ f r, s.tearContext i c st =
    (((((((s.flushOf f).dropResident i c).abortCtxDma i c).bumpGen i c).dropArrived i c).setCtx i c r).setCtxState i c st) :=
  ⟨_, _, rfl⟩

omit hi hc in
theorem State.torn_word (s : State) (f : Issuer → Bool) {o : Nat} (ho : o < 0x4C000) (hrun : o ≠ Reg.RUNTIME i c) :
    (((s.flushOf f).dropResident i c).abortCtxDma i c).word o = s.word o :=
  (State.word_of_lowRegs (State.abortCtxDma_lowRegs ..) ho).trans
    ((State.dropResident_word _ (ne_quireStat_of_low ho) hrun).trans (State.word_of_lowRegs (s.flushOf_lowRegs f) ho))

omit hi hc in
theorem State.tearContext_word (s : State) (st : Nat) {o : Nat} (ho : o < 0x4C000) (hrun : o ≠ Reg.RUNTIME i c)
    (hstat : o ≠ Reg.CSTAT i c) : (s.tearContext i c st).word o = s.word o := by
  obtain ⟨f, r, h⟩ := s.tearContext_eq i c st
  rw [h, State.setCtxState, State.word_wr_ne _ 2 0 st hstat, State.setCtx_word, State.dropArrived_word,
    State.bumpGen_word _ ho hstat, s.torn_word f ho hrun]

theorem State.tearContext_gen (s : State) (st : Nat) : (s.tearContext i c st).gen i c = (s.gen i c + 1) % 256 := by
  obtain ⟨f, r, h⟩ := s.tearContext_eq i c st
  have hkeep (t : State) : ((t.dropArrived i c).setCtx i c r).gen i c = t.gen i c :=
    State.rd_congr ((State.setCtx_word ..).trans (State.dropArrived_word ..)) 15 8
  rw [h, State.setCtxState_gen, hkeep, State.bumpGen_gen hi hc, State.gen,
    State.rd_congr (s.torn_word f (cstat_low hi hc) (cstat_ne_runtime i c c)), State.gen]

omit hi hc in
theorem State.tearContext_ctxState (s : State) {st : Nat} (h : st < 8) : (s.tearContext i c st).ctxState i c = st :=
  State.setCtxState_self _ i c h

theorem State.tearContext_cur_ne (s : State) (st : Nat) : ((s.tearContext i c st).sheet i).cur ≠ some c := by
  obtain ⟨f, h⟩ := State.tearContext_seqs hi hc s st
  rw [State.sheet_of_seqs h]
  exact State.dropResident_cur_ne _ i c

/-- A fault of a live context leaves it FAULTED with the next GEN, and is counted. -/
theorem State.ctxFault_faulted {s : State} (hlive : s.live i c = true) (cause scribe f1 f2 : Nat) :
    (s.ctxFault i c cause scribe f1 f2).ctxState i c = 5 ∧ (s.ctxFault i c cause scribe f1 f2).gen i c = (s.gen i c + 1) % 256 ∧
      (s.ctxFault i c cause scribe f1 f2).word (Reg.FAULTS i) = BitVec.ofNat 32 (sat32 ((s.word (Reg.FAULTS i)).toNat + 1)) := by
  rw [State.ctxFault, hlive, Bool.not_true, if_neg Bool.false_ne_true]
  extract_lets w n u v x y
  have hx : x.lowRegs = s.lowRegs := by simp [x, v, u]
  have hycur : (y.sheet i).cur ≠ some c := State.tearContext_cur_ne hi hc x 5
  have hystate : y.ctxState i c = 5 := x.tearContext_ctxState (by decide)
  have hygen : y.gen i c = (s.gen i c + 1) % 256 := by
    rw [State.tearContext_gen hi hc, State.gen, State.rd_congr (State.word_of_lowRegs hx (cstat_low hi hc)), State.gen]
  have hyfaults : y.word (Reg.FAULTS i) = s.word (Reg.FAULTS i) :=
    (State.tearContext_word x 5 (faults_low hi) (faults_ne_runtime i c) (faults_ne_cstat hi c)).trans
      (State.word_of_lowRegs hx (faults_low hi))
  clear_value y
  have hlog := (y.bumpSat (Reg.FAULTS i)).post_logOnly 0x0401 [i + c * 16 + cause * 256, f1, f2]
  generalize (y.bumpSat (Reg.FAULTS i)).post 0x0401 [i + c * 16 + cause * 256, f1, f2] = z at *
  have hzcur : (z.sheet i).cur ≠ some c := by
    rwa [State.sheet_of_seqs (hlog.seqs.trans (y.bumpSat_seqs 1 (aside_faults hi)))]
  have hzstat : z.word (Reg.CSTAT i c) = y.word (Reg.CSTAT i c) :=
    (State.word_of_lowRegs hlog.lowRegs (cstat_low hi hc)).trans (y.word_bumpSat_ne 1 (cstat_ne_faults i c hi))
  have hzstate : z.ctxState i c = 5 := (State.rd_congr hzstat 2 0).trans hystate
  have hend : (z.schedule i).word (Reg.CSTAT i c) = y.word (Reg.CSTAT i c) :=
    (State.schedule_cstat hi hc (by rw [hzstate]; decide) hzcur).trans hzstat
  refine ⟨(State.rd_congr hend 2 0).trans hystate, (State.rd_congr hend 15 8).trans hygen, ?_⟩
  rw [State.schedule_faults hi, State.word_of_lowRegs hlog.lowRegs (faults_low hi), State.word_bumpSat, hyfaults]

/-! ## STOP and RESET -/

omit hi hc in
theorem State.goOff_ctxState (s : State) (i c : Nat) : (s.goOff i c).ctxState i c = 0 :=
  (State.rd_congr (State.word_wrb_ne _ 31 false (ccfg_ne_cstat i c c).symm) 2 0).trans (s.setCtxState_self i c (by decide))

omit hi hc in
theorem State.goOff_enabled (s : State) (i c : Nat) : (s.goOff i c).rdb (Reg.CCFG i c) 31 = false :=
  State.rdb_wrb _ _ false (by decide)

omit hi hc in
theorem State.goOff_gen (s : State) (i c : Nat) : (s.goOff i c).gen i c = s.gen i c :=
  (State.rd_congr (State.word_wrb_ne _ 31 false (ccfg_ne_cstat i c c).symm) 15 8).trans (s.setCtxState_gen i c 0)

omit hi hc in
theorem State.goOff_sheet (s : State) (i c j : Nat) : (s.goOff i c).sheet j = s.sheet j := rfl

omit hi hc in
theorem State.goOff_only (s : State) (i c : Nat) : Only [Reg.CSTAT i c, Reg.CCFG i c] s (s.goOff i c) :=
  ((Only.refl _ s).wrw _ (by simp)).wrw _ (by simp)

/-- A context that is stopped is OFF and not enabled, whatever the scheduler does next. -/
theorem State.stopCtx_off (s : State) : ((s.stopCtx i c).schedule i).ctxState i c = 0 ∧
    ((s.stopCtx i c).schedule i).rdb (Reg.CCFG i c) 31 = false := by
  have hoff : (s.stopCtx i c).ctxState i c = 0 := State.goOff_ctxState _ i c
  have hcur : ((s.stopCtx i c).sheet i).cur ≠ some c := by
    rw [State.stopCtx, State.goOff_sheet]
    exact State.tearContext_cur_ne hi hc s 0
  have hstat := State.schedule_cstat hi hc (by rw [hoff]; decide) hcur
  exact ⟨(State.rd_congr hstat 2 0).trans hoff, (State.rdb_congr (State.schedule_ccfg hi hc) 31).trans (State.goOff_enabled _ i c)⟩

/-! ## START -/

/-- What START leaves before the scheduler acts: a context that has not begun, READY and enabled, with the next GEN, and every other
register and every sheet as it was. -/
theorem State.contextStart_ready {s : State} (hoff : s.ctxState i c = 0) (hopen : s.sheetState i = 2) (hscb : s.scbOk i = true)
    (hbind : s.bindingsOk i c = true) (hareas : s.saveAreasOk i c = true) (cls : Nat) :
    ∃ u : State, s.contextStart i c cls = u.schedule i ∧ u.ctxState i c = 1 ∧ u.rdb (Reg.CCFG i c) 31 = true ∧
      u.gen i c = (s.gen i c + 1) % 256 ∧ (u.ctx i c).begun = false ∧ u.sheet i = s.sheet i ∧
      ∀ o, o < 0x4C000 → o ≠ Reg.CSTAT i c → o ≠ Reg.CCFG i c → u.word o = s.word o := by
  rw [State.contextStart, if_pos ⟨hoff, hopen, hscb, hbind, hareas⟩]
  extract_lets v w x y x₀ z
  have hlow : y.lowRegs = s.lowRegs := by
    have hv : v.lowRegs = s.lowRegs :=
      (foldl_lowRegs (fun s q => s.bindSeen_lowRegs i c q) _ _).trans (foldl_lowRegs (fun s k => s.recSeen_lowRegs i k) _ s)
    simp [y, x, w, hv]
  have hseqs : y.seqs = s.seqs := by
    have htier (s : State) (a n k : Nat) : (s.seenTier a n k).seqs = s.seqs :=
      (foldl_seqs (fun s g => s.touch_seqs g) _ _).trans (s.eccTier_seqs a n k)
    have hv : v.seqs = s.seqs := (foldl_seqs (fun s q => by simp [State.bindSeen, htier]) _ _).trans
      (foldl_seqs (fun s k => by simp [State.recSeen, htier]) _ s)
    simp [y, x, w, State.recPut, hv]
  have hz : z.word (Reg.CSTAT i c) = (y.bumpGen i c).word (Reg.CSTAT i c) := State.setCtx_word ..
  have hgen : z.gen i c = (s.gen i c + 1) % 256 := by
    rw [State.gen, State.rd_congr hz]
    exact (State.bumpGen_gen hi hc y).trans (by
      rw [State.gen, State.rd_congr (State.word_of_lowRegs hlow (cstat_low hi hc)), State.gen])
  refine ⟨_, rfl, State.setCtxState_self _ i c (by decide), ?_, ?_, ?_, ?_, fun o ho hstat hcfg => ?_⟩
  · exact (State.rdb_congr (State.word_wr_ne _ 2 0 1 (ccfg_ne_cstat i c c)) 31).trans (State.rdb_wrb z _ true (by decide))
  · rw [State.setCtxState_gen]
    exact (State.rd_congr (State.word_wrb_ne z 31 true (ccfg_ne_cstat i c c).symm) 15 8).trans hgen
  · rw [State.setCtxState, State.ctx_wr, State.wrb, State.ctx_wr, State.ctx_setCtx]
    rfl
  · rw [State.setCtxState, State.sheet_wr, State.wrb, State.sheet_wr, State.setCtx_sheet]
    exact State.sheet_of_seqs ((State.bumpGen_seqs hi hc y).trans hseqs) i
  · rw [State.setCtxState, State.word_wr_ne _ 2 0 1 hstat, State.word_wrb_ne _ 31 true hcfg, State.setCtx_word,
      State.bumpGen_word y ho hstat, State.word_of_lowRegs hlow ho]

end Context

theorem exec_contextStart {s : State} (hp : s.powered = true) (i : Fin 16) (c : Fin 8) :
    exec (.contextStart i c) s = .next (s.contextStart i.val c.val 0) := act_powered hp fun s => s.contextStart i.val c.val 0

theorem exec_contextStop {s : State} (hp : s.powered = true) (i : Fin 16) (c : Fin 8) :
    exec (.contextStop i c) s = .next (s.contextStop i.val c.val 0) := act_powered hp fun s => s.contextStop i.val c.val 0

theorem exec_contextReset {s : State} (hp : s.powered = true) (i : Fin 16) (c : Fin 8) :
    exec (.contextReset i c) s = .next (s.contextReset i.val c.val 0) := act_powered hp fun s => s.contextReset i.val c.val 0

/-- Settles O24: START leaves its context READY for the scheduler, which restores it where nothing else is resident or READY; a stopped or
faulted context is not resident any more, so the scheduler passes it by. -/
theorem contextRows : Obligations.ContextRows := by
  unfold Obligations.ContextRows
  refine ⟨fun i c s hp hoff hopen hscb hbind hareas hswitch => ?_,
    fun i c s hp hoff hopen hscb hbind hareas hsave hrestore hcur hothers => ?_, fun i c s hp hlive => ?_, fun i c s hp hfaulted => ?_,
    fun s i c cause scribe f1 f2 hi hc hlive => State.ctxFault_faulted hi hc hlive cause scribe f1 f2,
    fun s i c cause scribe f1 f2 hlive => by rw [State.ctxFault, hlive]; rfl,
    fun i c s hp => ⟨fun hbad => ?_, fun hlive => ?_, fun hstate => ?_⟩⟩
  · obtain ⟨u, hstart, hready, hon, hgen, hbegun, hsheet, -⟩ :=
      State.contextStart_ready i.isLt c.isLt hoff hopen hscb hbind hareas 0
    rw [← hsheet] at hswitch
    rw [exec_contextStart hp, hstart, State.schedule_switching hswitch]
    exact ⟨u, rfl, hready, hon, hgen, hbegun⟩
  · obtain ⟨u, hstart, hready, hon, hgen, -, hsheet, hword⟩ :=
      State.contextStart_ready i.isLt c.isLt hoff hopen hscb hbind hareas 0
    have hustate : u.sheetState i.val = 2 :=
      (State.rd_congr (hword _ (sctl_low i.isLt) (sctl_ne_cstat _ _ _) (sctl_ne_ccfg i.isLt _)) 2 0).trans hopen
    have hbest : u.bestReady i.val = some c.val := State.bestReady_only c.isLt hready fun d hd hne => by
      rw [State.ctxState, State.rd_congr (hword _ (cstat_low i.isLt hd) (cstat_ne_of_ne _ hne) (ccfg_ne_cstat _ _ _).symm)]
      exact hothers d hd hne
    rw [← hsheet] at hsave hrestore hcur
    rw [exec_contextStart hp, hstart, State.schedule_restores hustate hsave hrestore hcur hbest]
    have hstat : (u.beginRestore i.val c.val).word (Reg.CSTAT i.val c.val) =
        (u.setCtxState i.val c.val 4).word (Reg.CSTAT i.val c.val) := State.setQuires_word _ (cstat_ne_quireStat _ _) _ 6
    refine ⟨_, rfl, (State.rd_congr hstat 2 0).trans (u.setCtxState_self _ _ (by decide)),
      congrArg SheetRt.restoring (State.sheet_setSheet ..), ?_, ?_⟩
    · exact (State.rdb_congr (u.beginRestore_word (ne_quireStat_of_low (ccfg_low i.isLt c.isLt)) (ccfg_ne_cstat _ _ _)) 31).trans hon
    · exact (State.rd_congr hstat 15 8).trans ((u.setCtxState_gen ..).trans hgen)
  · obtain ⟨hstate, hon⟩ := State.stopCtx_off i.isLt c.isLt s
    rw [exec_contextStop hp, State.contextStop, if_pos hlive]
    exact ⟨_, rfl, hstate, hon⟩
  · rw [exec_contextReset hp, State.contextReset, if_pos hfaulted]
    exact ⟨_, rfl, s.goOff_ctxState _ _, s.goOff_enabled _ _, s.goOff_gen _ _, s.goOff_only _ _⟩
  · rw [exec_contextStart hp, State.contextStart, if_neg]
    rintro ⟨hoff, hopen, hscb, hbind, hareas⟩
    simp [hoff, hopen, hscb, hbind, hareas] at hbad
  · rw [exec_contextStop hp, State.contextStop, hlive]
    rfl
  · rw [exec_contextReset hp, State.contextReset, if_neg hstate]

end Sys2Proof.Machine
end

section
/-! SUPPORT. What the states and points of quires leave as they were, and memory that a sheet gains or loses (03_scribe.md R114;
05_memory.md R202, R203). -/

namespace Sys2Proof.Machine

/-! ## Folds that act on the way -/

/-- What the step at one element of a list brings about, and the other steps keep, holds after the fold. -/
theorem foldl_reaches {α : Type} {f : State → α → State} {l : List α} {x : α} (hx : x ∈ l) (I Q : State → Prop) {s : State}
    (hs : I s) (hI : ∀ y ∈ l, ∀ s, I s → I (f s y)) (hQ : ∀ s, I s → Q (f s x)) (hkeep : ∀ y ∈ l, ∀ s, I s → Q s → Q (f s y)) :
    Q (l.foldl f s) := by
  obtain ⟨l₁, l₂, rfl⟩ := List.append_of_mem hx
  have hl₂ : ∀ y ∈ l₂, y ∈ l₁ ++ x :: l₂ := fun y hy => List.mem_append_right _ (List.mem_cons_of_mem _ hy)
  have hbefore : I (l₁.foldl f s) :=
    List.foldlRecOn (motive := I) l₁ f hs fun s hs y hy => hI y (List.mem_append_left _ hy) s hs
  rw [List.foldl_append, List.foldl_cons]
  refine (List.foldlRecOn (motive := fun s => I s ∧ Q s) l₂ f ⟨hI x hx _ hbefore, hQ _ hbefore⟩ fun s hs y hy => ?_).2
  exact ⟨hI y (hl₂ y hy) s hs.1, hkeep y (hl₂ y hy) s hs.1 hs.2⟩

/-! ## Beside the quires -/

/-- A state without control space, the quires, the scribes, memory and the security engine. -/
def State.apart (s : State) : State :=
  { s with csr := [], quires := [], scribes := [], mem := [], upsets := [], sec := SecRt.zero }

/-- A register of the sheets, or one past those of the quires. -/
def BesideQuires (o : Nat) : Prop := (0x40000 ≤ o ∧ o < 0x4C000) ∨ 0x4C800 ≤ o

theorem BesideQuires.ne_quireStat {o : Nat} (h : BesideQuires o) {q : Nat} (hq : q < 64) : o ≠ Reg.QUIRE_STAT q := by
  unfold BesideQuires at h
  unfold Reg.QUIRE_STAT
  omega

theorem BesideQuires.ne_qpt {o : Nat} (h : BesideQuires o) {q : Nat} (hq : q < 64) : o ≠ Reg.QPT q := by
  unfold BesideQuires at h
  unfold Reg.QPT
  omega

theorem BesideQuires.ne_clock {o : Nat} (h : BesideQuires o) {q : Nat} (hq : q < 64) : o ≠ Reg.CLOCK q := by
  unfold BesideQuires at h
  unfold Reg.CLOCK
  omega

theorem BesideQuires.ne_railv {o : Nat} (h : BesideQuires o) {d : Nat} (hd : d < 4) : o ≠ Reg.RAILV d := by
  unfold BesideQuires at h
  unfold Reg.RAILV
  omega

theorem besideQuires_cstat {i c : Nat} (hi : i < 16) (hc : c < 8) : BesideQuires (Reg.CSTAT i c) :=
  Or.inl ⟨by unfold Reg.CSTAT; omega, cstat_low hi hc⟩

theorem State.lt_of_mem_quiresOf {s : State} {i q : Nat} (h : q ∈ s.quiresOf i) : q < 64 := by
  have hq := List.mem_range.mp (List.mem_filter.mp h).1
  have hnq : s.nq ≤ 64 := by
    rw [State.nq]
    split <;> decide
  omega

theorem State.sheet_of_apart {s t : State} (h : t.apart = s.apart) (i : Nat) : t.sheet i = s.sheet i :=
  (congrArg (fun x : State => x.sheet i) h :)

theorem State.ctx_of_apart {s t : State} (h : t.apart = s.apart) (i c : Nat) : t.ctx i c = s.ctx i c :=
  (congrArg (fun x : State => x.ctx i c) h :)

theorem State.chip_of_apart {s t : State} (h : t.apart = s.apart) : t.chip = s.chip := (congrArg State.chip h :)
theorem State.tierCmds_of_apart {s t : State} (h : t.apart = s.apart) : t.tierCmds = s.tierCmds := (congrArg State.tierCmds h :)

theorem State.quiresOf_of_apart {s t : State} (h : t.apart = s.apart) (i : Nat) : t.quiresOf i = s.quiresOf i := by
  rw [State.quiresOf, State.sheet_of_apart h, State.nq, State.chip_of_apart h]
  rfl

theorem foldl_apart {α : Type} {f : State → α → State} (hf : ∀ s x, (f s x).apart = s.apart) (l : List α) (s : State) :
    (l.foldl f s).apart = s.apart := foldl_keeps State.apart (fun x _ s => hf s x) s

section

variable (s : State)

@[simp] theorem State.wrw_apart (o : Nat) (w : W32) : (s.wrw o w).apart = s.apart := rfl
@[simp] theorem State.wr_apart (o hi lo v : Nat) : (s.wr o hi lo v).apart = s.apart := rfl
@[simp] theorem State.wr64_apart (lo hi v : Nat) : (s.wr64 lo hi v).apart = s.apart := rfl
@[simp] theorem State.setQuire_apart (q : Nat) (x : QuireRt) : (s.setQuire q x).apart = s.apart := rfl
theorem State.withSec_apart (x : SecRt) : ({ s with sec := x } : State).apart = s.apart := rfl
theorem State.withScribes_apart (l : Map ScribeRt) : ({ s with scribes := l } : State).apart = s.apart := rfl

@[simp] theorem State.setQuireState_apart (q st : Nat) : (s.setQuireState q st).apart = s.apart := by
  rw [State.setQuireState]
  split <;> rfl

@[simp] theorem State.setQuires_apart (i st : Nat) : (s.setQuires i st).apart = s.apart :=
  foldl_apart (fun s q => s.setQuireState_apart q st) _ s

@[simp] theorem State.firstPoint_apart (q : Nat) : (s.firstPoint q).apart = s.apart := rfl
@[simp] theorem State.setClock_apart (q : Nat) : (s.setClock q).apart = s.apart := rfl

theorem State.setRails_apart : s.setRails.apart = s.apart := by
  refine foldl_apart (fun s d => ?_) _ s
  dsimp only
  split <;> rfl

@[simp] theorem State.startPoints_apart (l : List Nat) : (s.startPoints l).apart = s.apart :=
  (foldl_apart (fun s q => s.setClock_apart q) l _).trans
    ((State.setRails_apart _).trans (foldl_apart (fun s q => s.firstPoint_apart q) l s))

theorem State.firstPoint_word {q o : Nat} (h : o ≠ Reg.QPT q) : (s.firstPoint q).word o = s.word o := s.word_wr_ne 23 16 _ h

theorem State.setClock_word {q o : Nat} (hpt : o ≠ Reg.QPT q) (hclock : o ≠ Reg.CLOCK q) : (s.setClock q).word o = s.word o :=
  (State.word_wrw_ne _ _ hclock).trans (s.word_wr_ne 15 8 _ hpt)

theorem State.startPoints_word {l : List Nat} (hl : ∀ q ∈ l, q < 64) {o : Nat} (h : BesideQuires o) :
    (s.startPoints l).word o = s.word o := by
  have hclocks (s : State) : (l.foldl State.setClock s).word o = s.word o :=
    foldl_keeps (State.word · o) (fun q hq s => s.setClock_word (h.ne_qpt (hl q hq)) (h.ne_clock (hl q hq))) s
  have hpoints (s : State) : (l.foldl State.firstPoint s).word o = s.word o :=
    foldl_keeps (State.word · o) (fun q hq s => s.firstPoint_word (h.ne_qpt (hl q hq))) s
  rw [State.startPoints, hclocks, State.setRails_word _ fun d hd => h.ne_railv hd, hpoints]

theorem State.setQuires_mem (i st : Nat) : (s.setQuires i st).mem = s.mem :=
  foldl_keeps State.mem (fun q _ s => s.setQuireState_mem q st) s

theorem State.startPoints_mem (l : List Nat) : (s.startPoints l).mem = s.mem := by
  have hclocks (s : State) : (l.foldl State.setClock s).mem = s.mem := foldl_keeps State.mem (fun q _ s => by rfl) s
  have hpoints (s : State) : (l.foldl State.firstPoint s).mem = s.mem := foldl_keeps State.mem (fun q _ s => by rfl) s
  rw [State.startPoints, hclocks, State.setRails_mem, hpoints]

end

/-! ## Memory that reads zero -/

/-- An address of the reservoir or of a well. -/
def SheetMem (a : Nat) : Prop := a < physT1 0 ∨ (physWell 0 0 ≤ a ∧ a < physCarve 0)

/-- Every byte of t reads as in s, or it lies in the reservoir or a well and reads zero. -/
def Cleared (s t : State) : Prop := ∀ a, Mem.read1 t.mem a = Mem.read1 s.mem a ∨ (SheetMem a ∧ Mem.read1 t.mem a = 0)

theorem Cleared.of_mem {s t : State} (h : t.mem = s.mem) : Cleared s t := fun a => .inl (by rw [h])

theorem Cleared.trans {s t u : State} (h₁ : Cleared s t) (h₂ : Cleared t u) : Cleared s u := fun a => by
  rcases h₂ a with h | h
  · rw [h]
    exact h₁ a
  · exact .inr h

theorem Cleared.keeps_zero {s t : State} (h : Cleared s t) {a : Nat} (hzero : Mem.read1 s.mem a = 0) : Mem.read1 t.mem a = 0 :=
  (h a).elim (·.trans hzero) And.right

theorem Cleared.frame {s t : State} (h : Cleared s t) (a : Nat) (ha : physT1 0 ≤ a ∧ a < physWell 0 0 ∨ physCarve 0 ≤ a) :
    Mem.read1 t.mem a = Mem.read1 s.mem a :=
  (h a).resolve_right fun hclear => by
    have hmem := hclear.1
    unfold SheetMem physT1 physWell physCarve at hmem
    unfold physT1 physWell physCarve at ha
    omega

theorem foldl_cleared {α : Type} {f : State → α → State} {l : List α} (hf : ∀ x ∈ l, ∀ s, Cleared s (f s x)) (s : State) :
    Cleared s (l.foldl f s) :=
  List.foldlRecOn (motive := Cleared s) l f (.of_mem rfl) fun t ht x hx => ht.trans (hf x hx t)

theorem foldl_zeroes {α : Type} {f : State → α → State} {l : List α} {x : α} (hx : x ∈ l) {a : Nat}
    (hf : ∀ x ∈ l, ∀ s, Cleared s (f s x)) (hzero : ∀ s, Mem.read1 (f s x).mem a = 0) (s : State) :
    Mem.read1 (l.foldl f s).mem a = 0 :=
  foldl_reaches hx (fun _ => True) (fun s => Mem.read1 s.mem a = 0) trivial (fun _ _ _ _ => trivial) (fun s _ => hzero s)
    fun y hy s _ h => (hf y hy s).keeps_zero h

section

variable (s : State)

theorem State.zero_cleared {a n : Nat} (h : ∀ x, a ≤ x → x < a + n → SheetMem x) : Cleared s (s.zero a n) := fun x => by
  by_cases hx : a ≤ x ∧ x < a + n
  · exact .inr ⟨h x hx.1 hx.2, Mem.read1_clear_in _ _ _ _ hx.1 hx.2⟩
  · exact .inl (Mem.read1_clear_out _ _ _ _ (by omega))

theorem State.zero_reads {a n x : Nat} (h₁ : a ≤ x) (h₂ : x < a + n) : Mem.read1 (s.zero a n).mem x = 0 :=
  Mem.read1_clear_in _ _ _ _ h₁ h₂

/-! ## Wells and slices -/

theorem State.zeroWell_cleared {n : Nat} (hn : n < 512) : Cleared s (s.zero (physWell n 0) 0x180000) :=
  s.zero_cleared fun x h₁ h₂ => by
    unfold physWell at h₁ h₂
    unfold SheetMem physT1 physWell physCarve
    omega

theorem State.zeroSlice_cleared {k : Nat} (hk : k < 64) :
    Cleared s (s.zero (physT0 (sliceRange k).1) ((sliceRange k).2 * 65536)) :=
  s.zero_cleared fun x _ h => .inl (by
    have hend : (sliceRange k).1 + (sliceRange k).2 ≤ 64 * 640 := by
      rw [sliceRange]
      split <;> dsimp only <;> omega
    unfold physT0 at h
    unfold physT1
    omega)

theorem State.loseWells_cleared {q : Nat} (hq : q < 64) : Cleared s (s.loseWells q) :=
  foldl_cleared (fun k hk s => s.zeroWell_cleared (by have := List.mem_range.mp hk; omega)) s

theorem State.loseWells_zero {q k o : Nat} (hq : q < 64) (hk : k < 8) (ho : o < 0x180000) :
    Mem.read1 (s.loseWells q).mem (physWell (8 * q + k) o) = 0 :=
  foldl_zeroes (List.mem_range.mpr hk) (fun k hk s => s.zeroWell_cleared (by have := List.mem_range.mp hk; omega))
    (fun s => s.zero_reads (by unfold physWell; omega) (by unfold physWell; omega)) s

theorem State.loseWells_apart (q : Nat) : (s.loseWells q).apart = s.apart :=
  foldl_apart (f := fun s k => s.lose (physWell (8 * q + k) 0) 0x180000) (fun _ _ => rfl) _ s

theorem State.gateSlices_cleared (mask : Nat) : Cleared s (s.gateSlices mask) :=
  foldl_cleared (fun k hk s => s.zeroSlice_cleared (by have := List.mem_range.mp (List.mem_filter.mp hk).1; omega)) s

@[simp] theorem State.gateSlices_apart (mask : Nat) : (s.gateSlices mask).apart = s.apart :=
  foldl_apart (f := fun s k => s.lose (physT0 (sliceRange k).1) ((sliceRange k).2 * 65536)) (fun _ _ => rfl) _ s

/-! ## Quires that are gated or wake -/

theorem State.gateQuire_mem (q : Nat) : (s.gateQuire q).mem = (s.loseWells q).mem := by
  rw [State.gateQuire]
  generalize s.loseWells q = t
  rfl

@[simp] theorem State.gateQuire_apart (q : Nat) : (s.gateQuire q).apart = s.apart := by
  unfold State.gateQuire
  extract_lets t u x v
  exact (v.withScribes_apart _).trans ((u.setQuire_apart q _).trans ((State.wrw_apart ..).trans
    ((State.wrw_apart ..).trans (s.loseWells_apart q))))

theorem State.gateQuire_cleared {q : Nat} (hq : q < 64) : Cleared s (s.gateQuire q) :=
  (s.loseWells_cleared hq).trans (.of_mem (s.gateQuire_mem q))

theorem State.gateQuire_zero {q k o : Nat} (hq : q < 64) (hk : k < 8) (ho : o < 0x180000) :
    Mem.read1 (s.gateQuire q).mem (physWell (8 * q + k) o) = 0 := by
  rw [State.gateQuire_mem, State.loseWells_zero s hq hk ho]

theorem State.wakeQuire_mem (i q : Nat) : (s.wakeQuire i q).mem = (s.gateQuire q).mem := by
  rw [State.wakeQuire, State.setQuireState_mem, State.wr_mem]

@[simp] theorem State.wakeQuire_apart (i q : Nat) : (s.wakeQuire i q).apart = s.apart := by
  rw [State.wakeQuire, State.setQuireState_apart, State.wr_apart, State.gateQuire_apart]

theorem State.wakeQuire_cleared (i : Nat) {q : Nat} (hq : q < 64) : Cleared s (s.wakeQuire i q) :=
  (s.gateQuire_cleared hq).trans (.of_mem (s.wakeQuire_mem i q))

theorem State.wakeQuire_zero (i : Nat) {q k o : Nat} (hq : q < 64) (hk : k < 8) (ho : o < 0x180000) :
    Mem.read1 (s.wakeQuire i q).mem (physWell (8 * q + k) o) = 0 := by
  rw [State.wakeQuire_mem, State.gateQuire_zero s hq hk ho]

/-! ## The zeroing of a waking sheet -/

/-- The wells of a sheet are zeroed, then its slices. -/
theorem State.zeroSheet_eq (i : Nat) : s.zeroSheet i =
    (((s.quiresOf i).foldl State.loseWells s).slicesOf i).foldl
      (fun s k => s.zero (physT0 (sliceRange k).1) ((sliceRange k).2 * 65536)) ((s.quiresOf i).foldl State.loseWells s) := rfl

theorem State.foldl_loseWells_apart (l : List Nat) : (l.foldl State.loseWells s).apart = s.apart :=
  foldl_apart (fun s q => s.loseWells_apart q) l s

@[simp] theorem State.zeroSheet_apart (i : Nat) : (s.zeroSheet i).apart = s.apart :=
  (foldl_apart (f := fun s k => s.zero (physT0 (sliceRange k).1) ((sliceRange k).2 * 65536)) (fun _ _ => rfl) _ _).trans
    (s.foldl_loseWells_apart _)

theorem State.zeroSheet_csr (i : Nat) : (s.zeroSheet i).csr = s.csr := by
  have hwell (s : State) (q : Nat) : (s.loseWells q).csr = s.csr :=
    foldl_keeps State.csr (f := fun s k => s.lose (physWell (8 * q + k) 0) 0x180000) (fun _ _ _ => rfl) s
  exact (foldl_keeps State.csr (f := fun s k => s.zero (physT0 (sliceRange k).1) ((sliceRange k).2 * 65536))
    (fun _ _ _ => rfl) _).trans (foldl_keeps State.csr (fun q _ s => hwell s q) s)

theorem State.lt_of_mem_slicesOf {s : State} {i k : Nat} (h : k ∈ s.slicesOf i) : k < 64 :=
  List.mem_range.mp (List.mem_filter.mp h).1

theorem State.slicesOf_of_apart {s t : State} (h : t.apart = s.apart) (i : Nat) : t.slicesOf i = s.slicesOf i := by
  rw [State.slicesOf, State.sheet_of_apart h, State.slicesOf]

theorem State.zeroSlices_cleared (i : Nat) : Cleared s
    ((s.slicesOf i).foldl (fun s k => s.zero (physT0 (sliceRange k).1) ((sliceRange k).2 * 65536)) s) :=
  foldl_cleared (fun _ hk s => s.zeroSlice_cleared (State.lt_of_mem_slicesOf hk)) s

theorem State.zeroSheet_cleared (i : Nat) : Cleared s (s.zeroSheet i) := by
  rw [State.zeroSheet_eq]
  exact (foldl_cleared (fun _ hq s => s.loseWells_cleared (State.lt_of_mem_quiresOf hq)) s).trans (State.zeroSlices_cleared _ i)

theorem State.zeroSheet_well {i q k o : Nat} (hq : q ∈ s.quiresOf i) (hk : k < 8) (ho : o < 0x180000) :
    Mem.read1 (s.zeroSheet i).mem (physWell (8 * q + k) o) = 0 := by
  rw [State.zeroSheet_eq]
  exact (State.zeroSlices_cleared _ i).keeps_zero (foldl_zeroes hq (fun _ hq s => s.loseWells_cleared (State.lt_of_mem_quiresOf hq))
    (fun s => s.loseWells_zero (State.lt_of_mem_quiresOf hq) hk ho) s)

theorem State.zeroSheet_slice {i n o : Nat} (hn : n ∈ s.slicesOf i) (ho : o < 65536 * (sliceRange n).2) :
    Mem.read1 (s.zeroSheet i).mem (physT0 (sliceRange n).1 + o) = 0 := by
  rw [State.zeroSheet_eq, State.slicesOf_of_apart (s.foldl_loseWells_apart _)]
  exact foldl_zeroes hn (fun _ hk s => s.zeroSlice_cleared (State.lt_of_mem_slicesOf hk))
    (fun s => s.zero_reads (Nat.le_add_right _ _) (by omega)) _

end

end Sys2Proof.Machine
end

section
/-! SUPPORT. The sheet commands (10_sheets.md R394 to R397, R418 to R420; 05_memory.md R203). -/

namespace Sys2Proof.Machine

/-! ## SCTL and SCMD_STAT -/

section

variable (s : State) (i : Nat)

theorem State.setSheetState_self {st : Nat} (h : st < 8) : (s.setSheetState i st).sheetState i = st :=
  (s.rd_wr _ st (Nat.zero_le 2) (by decide)).trans (Nat.mod_eq_of_lt h)

theorem State.scmdStat_reads {r : Nat} (h : r < 4) : (s.scmdStat i r).rd (Reg.SCMD_STAT i) 1 0 = r :=
  (s.rd_wr _ r (Nat.zero_le 1) (by decide)).trans (Nat.mod_eq_of_lt h)

theorem State.scmdStat_word (r : Nat) {o : Nat} (h : o ≠ Reg.SCMD_STAT i) : (s.scmdStat i r).word o = s.word o :=
  s.word_wr_ne 1 0 r h

theorem State.scmdStat_sheetState (r : Nat) : (s.scmdStat i r).sheetState i = s.sheetState i :=
  State.rd_congr (s.scmdStat_word i r (by unfold Reg.SCTL Reg.SCMD_STAT; omega)) 2 0

theorem State.setSheetState_word (st : Nat) {o : Nat} (h : o ≠ Reg.SCTL i) : (s.setSheetState i st).word o = s.word o :=
  s.word_wr_ne 2 0 st h

theorem State.scmdStat_only (r : Nat) : Only [Reg.SCMD_STAT i] s (s.scmdStat i r) := (Only.refl _ s).wrw _ (by simp)

theorem State.ready_only (st r : Nat) :
    Only [Reg.SCTL i, Reg.SCMD_STAT i] s ((s.setSheetState i st).scmdStat i r) :=
  ((Only.refl _ s).wrw _ (by simp)).wrw _ (by simp)

end

theorem cstat_ne_scmdStat (i c j : Nat) : Reg.CSTAT i c ≠ Reg.SCMD_STAT j := by unfold Reg.CSTAT Reg.SCMD_STAT; omega

/-- A sheet's state and the result of its command leave the states of contexts. -/
theorem State.ready_ctxState (s : State) (i st r j c : Nat) :
    ((s.setSheetState i st).scmdStat i r).ctxState j c = s.ctxState j c :=
  State.rd_congr ((State.scmdStat_word _ i r (cstat_ne_scmdStat j c i)).trans
    (s.setSheetState_word i st (sctl_ne_cstat i j c).symm)) 2 0

/-! ## The microcode a sheet loads (17_firmware_security.md R680, R693) -/

theorem State.loadScribeCode_word (s : State) (i : Nat) {o : Nat} (h : o < Reg.RUN_VER 0) :
    (s.loadScribeCode i).word o = s.word o := by
  have hver : o ≠ Reg.RUN_VER 2 := by unfold Reg.RUN_VER at *; omega
  have hinfo : o ≠ Reg.RUN_INFO 2 := by unfold Reg.RUN_VER at h; unfold Reg.RUN_INFO; omega
  rw [State.loadScribeCode]
  split
  · rw [State.activate]
    split
    · rfl
    · exact (State.word_wr_ne _ _ _ _ hinfo).trans ((State.word_wr_ne _ _ _ _ hinfo).trans (State.word_wrw_ne _ _ hver))
  · rfl

@[simp] theorem State.loadScribeCode_apart (s : State) (i : Nat) : (s.loadScribeCode i).apart = s.apart := by
  have hactive (s : State) (k : Nat) (m : Measured) : (s.setActive k m).apart = s.apart := by
    rw [State.setActive, State.wr_apart, State.wr_apart, State.wrw_apart, State.withSec_apart]
  rw [State.loadScribeCode]
  split
  · rw [State.activate]
    split
    · exact s.withSec_apart _
    · exact (hactive ..).trans (s.withSec_apart _)
  · exact s.withSec_apart _

theorem State.loadScribeCode_mem (s : State) (i : Nat) : (s.loadScribeCode i).mem = s.mem := by
  rw [State.loadScribeCode]
  split
  · rw [State.activate]
    split
    · rfl
    · rw [State.setActive, State.wr_mem, State.wr_mem, State.wrw_mem]
  · rfl

/-- A sheet that has the newest microcode, while another has not, loads nothing. -/
theorem State.loadScribeCode_newest {s : State} {i : Nat} (hold : s.sec.scribeOld ≠ []) (hi : i ∉ s.sec.scribeOld) :
    s.loadScribeCode i = s := by
  have hkeep : s.sec.scribeOld.filter (· != i) = s.sec.scribeOld :=
    List.filter_eq_self.mpr fun x hx => bne_iff_ne.mpr (ne_of_mem_of_not_mem hx hi)
  rw [State.loadScribeCode, hkeep]
  exact if_neg fun h => hold (List.isEmpty_iff.mp h)

/-! ## ASSIGN and RESHAPE -/

section TakeShape

variable (s : State) (i qm sl after : Nat)

/-- A sheet takes masks: the quires it loses are gated, and the slices that no sheet holds lose their contents. -/
def State.reshaped : State :=
  (((s.quiresOf i).filter fun q => !(bit qm q)).foldl State.gateQuire
    (s.setSheet i { s.sheet i with qmask := qm, slices := sl, wakeTo := after, cur := none, saving := none, restoring := none,
                                   zeroed := false })).gateSlices (s.sheet i).slices

/-- Then the quires it holds wake. -/
def State.shaped : State :=
  ((s.reshaped i qm sl after).quiresOf i).foldl (fun s q => s.wakeQuire i q) (s.reshaped i qm sl after)

theorem State.takeShape_eq : s.takeShape i qm sl after =
    (((s.shaped i qm sl after).loadScribeCode i).setSheetState i 1).scmdStat i 0 := rfl

theorem State.reshaped_sheet : (s.reshaped i qm sl after).sheet i =
    { s.sheet i with qmask := qm, slices := sl, wakeTo := after, cur := none, saving := none, restoring := none, zeroed := false } := by
  have hgated (l : List Nat) (v : State) : (l.foldl State.gateQuire v).apart = v.apart :=
    foldl_apart (fun s q => s.gateQuire_apart q) l v
  rw [State.reshaped, State.sheet_of_apart ((State.gateSlices_apart ..).trans (hgated _ _)), State.sheet_setSheet]

theorem State.reshaped_cleared : Cleared s (s.reshaped i qm sl after) := by
  refine Cleared.trans ?_ (State.gateSlices_cleared _ _)
  refine Cleared.trans (Cleared.of_mem ?_) (foldl_cleared (fun q hq s => s.gateQuire_cleared ?_) _)
  · rfl
  · exact State.lt_of_mem_quiresOf (List.mem_filter.mp hq).1

theorem State.shaped_apart : (s.shaped i qm sl after).apart = (s.reshaped i qm sl after).apart :=
  foldl_apart (fun s q => s.wakeQuire_apart i q) _ _

theorem State.shaped_cleared : Cleared (s.reshaped i qm sl after) (s.shaped i qm sl after) :=
  foldl_cleared (fun _ hq s => s.wakeQuire_cleared i (State.lt_of_mem_quiresOf hq)) _

theorem State.shaped_well {q k o : Nat} (hq : q ∈ (s.reshaped i qm sl after).quiresOf i) (hk : k < 8) (ho : o < 0x180000) :
    Mem.read1 (s.shaped i qm sl after).mem (physWell (8 * q + k) o) = 0 :=
  foldl_zeroes hq (fun _ hq s => s.wakeQuire_cleared i (State.lt_of_mem_quiresOf hq))
    (fun s => s.wakeQuire_zero i (State.lt_of_mem_quiresOf hq) hk ho) _

theorem State.takeShape_apart : (s.takeShape i qm sl after).apart = (s.reshaped i qm sl after).apart := by
  rw [State.takeShape_eq, State.scmdStat, State.wr_apart, State.setSheetState, State.wr_apart, State.loadScribeCode_apart,
    State.shaped_apart]

theorem State.takeShape_mem : (s.takeShape i qm sl after).mem = (s.shaped i qm sl after).mem := by
  rw [State.takeShape_eq, State.scmdStat, State.wr_mem, State.setSheetState, State.wr_mem, State.loadScribeCode_mem]

/-- A sheet that takes masks is WAKING with them, the wells of its quires read zero, and memory that is of no well and no slice stays. -/
theorem State.takeShape_waking :
    (s.takeShape i qm sl after).sheetState i = 1 ∧ (s.takeShape i qm sl after).rd (Reg.SCMD_STAT i) 1 0 = 0 ∧
      ((s.takeShape i qm sl after).sheet i).qmask = qm ∧ ((s.takeShape i qm sl after).sheet i).slices = sl ∧
      ((s.takeShape i qm sl after).sheet i).wakeTo = after ∧
      (∀ q k o, q ∈ (s.takeShape i qm sl after).quiresOf i → k < 8 → o < 0x180000 →
        Mem.read1 (s.takeShape i qm sl after).mem (physWell (8 * q + k) o) = 0) ∧
      ∀ a, physT1 0 ≤ a → a < physWell 0 0 ∨ physCarve 0 ≤ a →
        Mem.read1 (s.takeShape i qm sl after).mem a = Mem.read1 s.mem a := by
  have hapart := s.takeShape_apart i qm sl after
  rw [State.sheet_of_apart hapart, State.reshaped_sheet, State.quiresOf_of_apart hapart, State.takeShape_mem]
  refine ⟨?_, State.scmdStat_reads _ i (by decide), rfl, rfl, rfl, fun q k o => s.shaped_well i qm sl after, fun a h₁ h₂ => ?_⟩
  · rw [State.takeShape_eq, State.scmdStat_sheetState, State.setSheetState_self _ i (by decide)]
  · exact ((s.reshaped_cleared i qm sl after).trans (s.shaped_cleared i qm sl after)).frame a (by omega)

end TakeShape

theorem State.clearCounters_mem (s : State) (i : Nat) : (s.clearCounters i).mem = s.mem := by
  unfold State.clearCounters
  extract_lets u v w
  have hw : w.mem = s.mem := foldl_keeps State.mem (f := fun s c => s.clearRegs (Reg.RUNTIME i c) 0x10) (fun _ _ _ => rfl) v
  clear_value w
  exact hw

section Rows

variable {s : State} {i : Nat}

theorem State.assign_refused (h : s.sheetState i ≠ 0) : s.assign i = s.scmdStat i 1 := by simp [State.assign, h]
theorem State.drain_refused (h : s.sheetState i ≠ 2) : s.drain i = s.scmdStat i 1 := by simp [State.drain, h]
theorem State.reopen_refused (h : s.sheetState i ≠ 4) : s.reopen i = s.scmdStat i 1 := by simp [State.reopen, h]
theorem State.reshape_refused (h : s.sheetState i ≠ 4) : s.reshape i = s.scmdStat i 1 := by simp [State.reshape, h]
theorem State.release_refused (h : s.sheetState i ≠ 4) : s.release i = s.scmdStat i 1 := by simp [State.release, h]

theorem State.teardown_refused (h₂ : s.sheetState i ≠ 2) (h₃ : s.sheetState i ≠ 3) : s.teardown i = s.scmdStat i 1 := by
  simp [State.teardown, h₂, h₃]

theorem State.assign_empty (h : s.sheetState i = 0) (hshape : s.shapeBad i (s.qmaskReg i) (s.slicesReg i) = false) :
    s.assign i = (s.clearCounters i).takeShape i (s.qmaskReg i) (s.slicesReg i) 2 := by simp [State.assign, h, hshape]

theorem State.reshape_drained (h : s.sheetState i = 4) (hshape : s.shapeBad i (s.qmaskReg i) (s.slicesReg i) = false) :
    s.reshape i = s.takeShape i (s.qmaskReg i) (s.slicesReg i) 4 := by simp [State.reshape, h, hshape]

theorem State.assign_badShape (h : s.sheetState i = 0) (hshape : s.shapeBad i (s.qmaskReg i) (s.slicesReg i) = true) :
    s.assign i = s.scmdStat i 2 := by simp [State.assign, h, hshape]

theorem State.reshape_badShape (h : s.sheetState i = 4) (hshape : s.shapeBad i (s.qmaskReg i) (s.slicesReg i) = true) :
    s.reshape i = s.scmdStat i 2 := by simp [State.reshape, h, hshape]

theorem State.drain_open (h : s.sheetState i = 2) : s.drain i = ((s.setSheetState i 3).scmdStat i 0).drainSweep i := by
  simp [State.drain, h]

theorem State.reopen_drained (h : s.sheetState i = 4) :
    s.reopen i = (((s.loadScribeCode i).setSheetState i 2).scmdStat i 0).schedule i := by simp [State.reopen, h]

theorem State.teardown_open (h : s.sheetState i = 2 ∨ s.sheetState i = 3) : s.teardown i = (s.tearSheet i).scmdStat i 0 := by
  rcases h with h | h <;> simp [State.teardown, h]

/-! ## DRAIN and REOPEN -/

/-- With every context OFF and none resident there is nothing to drain. -/
theorem State.drainSweep_idle (hoff : ∀ c, c < 8 → s.ctxState i c = 0) (hcur : (s.sheet i).cur = none) : s.drainSweep i = s := by
  have hkeep : (List.range 8).foldl (fun s c => if s.savedDrained i c then s.goOff i c else s) s = s :=
    foldl_eq_self fun c hc => by
      rw [State.savedDrained, hoff c (List.mem_range.mp hc)]
      rfl
  rw [State.drainSweep, hkeep]
  dsimp only
  rw [hcur]
  exact ite_self s

/-! ## RELEASE -/

/-- A sheet whose quires are gated. -/
def State.gated (s : State) (i : Nat) : State := (s.quiresOf i).foldl State.gateQuire s

/-- Then it holds none, and the slices that no sheet holds lose their contents. -/
def State.unshaped (s : State) (i : Nat) : State :=
  ((s.gated i).setSheet i { (s.gated i).sheet i with qmask := 0, slices := 0, cur := none }).gateSlices (s.sheet i).slices

theorem State.release_eq (h : s.sheetState i = 4) : s.release i =
    ((((((s.unshaped i).setSheetState i 0).wr64 (Reg.QMASK_LO i) (Reg.QMASK_HI i) 0).wr64 (Reg.SLICES_LO i)
      (Reg.SLICES_HI i) 0).loadScribeCode i).scmdStat i 0) := by
  rw [State.release, if_neg (by rw [h]; decide)]
  rfl

theorem State.release_word (h : s.sheetState i = 4) {o : Nat} (ho : o < Reg.RUN_VER 0) (hstat : o ≠ Reg.SCMD_STAT i) :
    (s.release i).word o = ((((s.unshaped i).setSheetState i 0).wr64 (Reg.QMASK_LO i) (Reg.QMASK_HI i) 0).wr64 (Reg.SLICES_LO i)
      (Reg.SLICES_HI i) 0).word o := by
  rw [State.release_eq h, State.scmdStat_word _ _ _ hstat, State.loadScribeCode_word _ _ ho]

theorem State.word_wr64_lo (s : State) {lo hi : Nat} (h : lo ≠ hi) : (s.wr64 lo hi 0).word lo = 0 :=
  (State.word_wrw_ne _ _ h).trans (s.word_wrw lo _)

theorem State.word_wr64_hi (s : State) (lo hi : Nat) : (s.wr64 lo hi 0).word hi = 0 := State.word_wrw ..

theorem State.word_wr64_ne (s : State) {lo hi o : Nat} (v : Nat) (hlo : o ≠ lo) (hhi : o ≠ hi) :
    (s.wr64 lo hi v).word o = s.word o := (State.word_wrw_ne _ _ hhi).trans (s.word_wrw_ne _ hlo)

/-- A sheet that is released is EMPTY and its masks read zero. -/
theorem State.release_registers (hi : i < 16) (h : s.sheetState i = 4) :
    (s.release i).sheetState i = 0 ∧ (s.release i).word (Reg.QMASK_LO i) = 0 ∧ (s.release i).word (Reg.QMASK_HI i) = 0 ∧
      (s.release i).word (Reg.SLICES_LO i) = 0 ∧ (s.release i).word (Reg.SLICES_HI i) = 0 := by
  have hsctl : (s.release i).word (Reg.SCTL i) = ((s.unshaped i).setSheetState i 0).word (Reg.SCTL i) := by
    rw [State.release_word h, State.word_wr64_ne, State.word_wr64_ne]
    all_goals simp only [Reg.SCTL, Reg.QMASK_LO, Reg.QMASK_HI, Reg.SLICES_LO, Reg.SLICES_HI, Reg.SCMD_STAT, Reg.RUN_VER]; omega
  refine ⟨(State.rd_congr hsctl 2 0).trans (State.setSheetState_self _ i (by decide)), ?_, ?_, ?_, ?_⟩
  · rw [State.release_word h, State.word_wr64_ne, State.word_wr64_lo]
    all_goals simp only [Reg.QMASK_LO, Reg.QMASK_HI, Reg.SLICES_LO, Reg.SLICES_HI, Reg.SCMD_STAT, Reg.RUN_VER]; omega
  · rw [State.release_word h, State.word_wr64_ne, State.word_wr64_hi]
    all_goals simp only [Reg.QMASK_HI, Reg.SLICES_LO, Reg.SLICES_HI, Reg.SCMD_STAT, Reg.RUN_VER]; omega
  · rw [State.release_word h, State.word_wr64_lo]
    all_goals simp only [Reg.SLICES_LO, Reg.SLICES_HI, Reg.SCMD_STAT, Reg.RUN_VER]; omega
  · rw [State.release_word h, State.word_wr64_hi]
    all_goals simp only [Reg.SLICES_HI, Reg.SCMD_STAT, Reg.RUN_VER]; omega

theorem State.release_mem (h : s.sheetState i = 4) : (s.release i).mem = (s.unshaped i).mem := by
  rw [State.release_eq h, State.scmdStat, State.wr_mem, State.loadScribeCode_mem, State.wr64_mem, State.wr64_mem,
    State.setSheetState, State.wr_mem]

theorem State.release_sheet (h : s.sheetState i = 4) :
    ((s.release i).sheet i).qmask = 0 ∧ ((s.release i).sheet i).slices = 0 := by
  have hapart : (s.release i).apart = (s.unshaped i).apart := by
    rw [State.release_eq h, State.scmdStat, State.wr_apart, State.loadScribeCode_apart, State.wr64_apart, State.wr64_apart,
      State.setSheetState, State.wr_apart]
  rw [State.sheet_of_apart hapart, State.unshaped, State.sheet_of_apart (State.gateSlices_apart ..), State.sheet_setSheet]
  exact ⟨rfl, rfl⟩

theorem State.gated_cleared (s : State) (i : Nat) : Cleared s (s.gated i) :=
  foldl_cleared (fun _ hq s => s.gateQuire_cleared (State.lt_of_mem_quiresOf hq)) s

theorem State.unshaped_cleared (s : State) (i : Nat) : Cleared (s.gated i) (s.unshaped i) := by
  refine Cleared.trans (Cleared.of_mem ?_) (State.gateSlices_cleared _ _)
  rfl

/-- The wells of a sheet that is released read zero, and memory that is of no well and no slice stays. -/
theorem State.release_wells (h : s.sheetState i = 4) :
    (∀ q k o, q ∈ s.quiresOf i → k < 8 → o < 0x180000 → Mem.read1 (s.release i).mem (physWell (8 * q + k) o) = 0) ∧
      ∀ a, physT1 0 ≤ a → a < physWell 0 0 ∨ physCarve 0 ≤ a → Mem.read1 (s.release i).mem a = Mem.read1 s.mem a := by
  rw [State.release_mem h]
  refine ⟨fun q k o hq hk ho => (s.unshaped_cleared i).keeps_zero ?_, fun a h₁ h₂ => ?_⟩
  · exact foldl_zeroes hq (fun _ hq s => s.gateQuire_cleared (State.lt_of_mem_quiresOf hq))
      (fun s => s.gateQuire_zero (State.lt_of_mem_quiresOf hq) hk ho) s
  · exact ((s.gated_cleared i).trans (s.unshaped_cleared i)).frame a (by omega)

end Rows

end Sys2Proof.Machine
end

section
/-! SUPPORT. TEARDOWN, the draining of a sheet and the end of its waking (10_sheets.md R397, R419, R420; 05_memory.md R203; 06_dma_pages.md
R748). -/

namespace Sys2Proof.Machine

/-! ## TEARDOWN -/

/-- A sheet with no descriptor under way and every context OFF or FAULTED. -/
def State.Quiet (i : Nat) (s : State) : Prop := s.dma = [] ∧ ∀ c, c < 8 → s.ctxState i c = 0 ∨ s.ctxState i c = 5

/-- A context that is OFF and not enabled. -/
def State.Off (i c : Nat) (s : State) : Prop := s.ctxState i c = 0 ∧ s.rdb (Reg.CCFG i c) 31 = false

/-- What TEARDOWN does to one context. -/
def State.tearOne (i : Nat) (s : State) (c : Nat) : State :=
  if s.live i c then s.stopCtx i c else (s.abortCtxDma i c).goOff i c

theorem State.tearSheet_eq (s : State) (i : Nat) : s.tearSheet i =
    if ((List.range 8).foldl (State.tearOne i) (s.setSheetState i 3)).drained i then
      ((List.range 8).foldl (State.tearOne i) (s.setSheetState i 3)).setSheetState i 4
    else (List.range 8).foldl (State.tearOne i) (s.setSheetState i 3) := rfl

section Teardown

variable {s : State} {i : Nat}

theorem State.drained_of_off (hdma : s.dma = []) (hoff : ∀ c, c < 8 → s.ctxState i c = 0) : s.drained i = true := by
  simp only [State.drained, hdma, List.any_nil, Bool.not_false, Bool.and_true, List.all_eq_true, List.mem_range, beq_iff_eq]
  exact hoff

theorem State.abortCtxDma_dma (h : s.dma = []) (i c : Nat) : (s.abortCtxDma i c).dma = [] := by
  rw [State.abortCtxDma, h]
  refine (foldl_keeps State.dma (fun qn _ s => ?_) _).trans h
  split <;> rfl

theorem State.tearOne_idle {c : Nat} (h : s.ctxState i c = 0 ∨ s.ctxState i c = 5) :
    State.tearOne i s c = (s.abortCtxDma i c).goOff i c := by
  rw [State.tearOne, State.live]
  rcases h with h | h <;> rw [h] <;> rfl

theorem State.tearOne_off {c : Nat} (h : s.ctxState i c = 0 ∨ s.ctxState i c = 5) : (State.tearOne i s c).Off i c := by
  rw [State.tearOne_idle h]
  exact ⟨State.goOff_ctxState .., State.goOff_enabled ..⟩

theorem State.tearOne_word {c o : Nat} (h : s.ctxState i c = 0 ∨ s.ctxState i c = 5) (ho : o < 0x4C000)
    (hstat : o ≠ Reg.CSTAT i c) (hcfg : o ≠ Reg.CCFG i c) : (State.tearOne i s c).word o = s.word o := by
  rw [State.tearOne_idle h, (State.goOff_only ..).2 o (by simp [hstat, hcfg])]
  exact State.word_of_lowRegs (State.abortCtxDma_lowRegs ..) ho

theorem State.tearOne_dma {c : Nat} (hdma : s.dma = []) (h : s.ctxState i c = 0 ∨ s.ctxState i c = 5) :
    (State.tearOne i s c).dma = [] := by
  rw [State.tearOne_idle h, State.goOff, State.wrb_dma, State.setCtxState, State.wr_dma, State.abortCtxDma_dma hdma]

theorem State.tearOne_keeps_off {c d : Nat} (hi : i < 16) (hd : d < 8) (h : s.ctxState i c = 0 ∨ s.ctxState i c = 5)
    (hoff : s.Off i d) : (State.tearOne i s c).Off i d := by
  rcases eq_or_ne d c with rfl | hne
  · exact State.tearOne_off h
  · obtain ⟨hstate, hon⟩ := hoff
    have hcfg : Reg.CCFG i d ≠ Reg.CCFG i c := by unfold Reg.CCFG; omega
    exact ⟨(State.rd_congr (State.tearOne_word h (cstat_low hi hd) (cstat_ne_of_ne i hne) (ccfg_ne_cstat i c d).symm) 2 0).trans hstate,
      (State.rdb_congr (State.tearOne_word h (ccfg_low hi hd) (ccfg_ne_cstat i d c) hcfg) 31).trans hon⟩

theorem State.tearOne_quiet {c : Nat} (hi : i < 16) (hc : c < 8) (h : s.Quiet i) : (State.tearOne i s c).Quiet i := by
  obtain ⟨hdma, hctx⟩ := h
  refine ⟨State.tearOne_dma hdma (hctx c hc), fun d hd => ?_⟩
  rcases eq_or_ne d c with rfl | hne
  · exact .inl (State.tearOne_off (hctx d hd)).1
  · have hkeep := State.tearOne_word (hctx c hc) (cstat_low hi hd) (cstat_ne_of_ne i hne) (ccfg_ne_cstat i c d).symm
    rw [State.ctxState, State.rd_congr hkeep]
    exact hctx d hd

/-- TEARDOWN of a quiet sheet puts every context to OFF, and the sheet to DRAINED. -/
theorem State.tearSheet_quiet (hi : i < 16) (h : s.Quiet i) :
    (s.tearSheet i).sheetState i = 4 ∧ ∀ c, c < 8 → (s.tearSheet i).Off i c := by
  have hquiet : (s.setSheetState i 3).Quiet i := ⟨h.1, fun c hc => by
    rw [State.ctxState, State.rd_congr (s.setSheetState_word i 3 (sctl_ne_cstat i i c).symm)]
    exact h.2 c hc⟩
  have hlt : ∀ c ∈ List.range 8, c < 8 := fun c hc => List.mem_range.mp hc
  have hall : ((List.range 8).foldl (State.tearOne i) (s.setSheetState i 3)).Quiet i :=
    List.foldlRecOn (motive := State.Quiet i) _ _ hquiet fun s hs c hc => State.tearOne_quiet hi (hlt c hc) hs
  have hoff (c : Nat) (hc : c < 8) : ((List.range 8).foldl (State.tearOne i) (s.setSheetState i 3)).Off i c :=
    foldl_reaches (List.mem_range.mpr hc) (State.Quiet i) (State.Off i c) hquiet
      (fun d hd s hs => State.tearOne_quiet hi (hlt d hd) hs) (fun s hs => State.tearOne_off (hs.2 c hc))
      (fun d hd s hs => State.tearOne_keeps_off hi hc (hs.2 d (hlt d hd)))
  rw [State.tearSheet_eq, if_pos (State.drained_of_off hall.1 fun c hc => (hoff c hc).1)]
  refine ⟨State.setSheetState_self _ i (by decide), fun c hc => ?_⟩
  obtain ⟨hstate, hon⟩ := hoff c hc
  exact ⟨(State.rd_congr (State.setSheetState_word _ i 4 (sctl_ne_cstat i i c).symm) 2 0).trans hstate,
    (State.rdb_congr (State.setSheetState_word _ i 4 (sctl_ne_ccfg hi c).symm) 31).trans hon⟩

end Teardown

/-! ## The rings of the queues (06 R748) -/

theorem Mem.le_congr {m m' : List Host.Cell} {a n : Nat} (h : ∀ x, a ≤ x → Mem.read1 m' x = Mem.read1 m x) :
    Mem.le m' a n = Mem.le m a n := by
  rw [Mem.le, Mem.le]
  exact congrArg leNat (List.map_congr_left fun k _ => h (a + k) (Nat.le_add_right a k))

/-- The rings lie where they must when the registers past the quires', the chip and the carve-out are as they were. -/
theorem RingsKept.of_kept {s t : State} (h : RingsKept s) (hword : ∀ o, 0x4C800 ≤ o → t.word o = s.word o) (hchip : t.chip = s.chip)
    (hmem : ∀ a, physCarve 0 ≤ a → Mem.read1 t.mem a = Mem.read1 s.mem a) : RingsKept t := by
  have hentry (g : Nat) : t.entry g = s.entry g := by
    rw [State.entry, State.entry, hchip]
    exact Mem.le_congr fun x hx => hmem x (by unfold physCarve at *; omega)
  have hpinned (g : Nat) : t.pinned g = s.pinned g := by rw [State.pinned, hentry, State.pinned]
  have hrun (i g : Nat) : t.inRun i g = s.inRun i g := by
    rw [State.inRun, State.rd_congr (hword _ (by unfold Reg.TBASE; omega)), State.rd_congr (hword _ (by unfold Reg.TLIMIT; omega)),
      State.inRun]
  have hrange (i a n : Nat) : t.pinnedRange i a n = s.pinnedRange i a n := by
    simp only [State.pinnedRange, hpinned, hrun]
  have hcfg (qn : Nat) : t.word (Reg.QCFG qn) = s.word (Reg.QCFG qn) := hword _ (by unfold Reg.QCFG; omega)
  have hhi (qn : Nat) : t.word (Reg.QBASE_HI qn) = s.word (Reg.QBASE_HI qn) := hword _ (by unfold Reg.QBASE_HI; omega)
  have hquill (qn : Nat) : t.qQuill qn = s.qQuill qn := State.rdb_congr (hhi qn) 31
  have hsheet (qn : Nat) : t.qSheet qn = s.qSheet qn := State.rd_congr (hcfg qn) 27 24
  have hentries (qn : Nat) : t.qEntries qn = s.qEntries qn := by rw [State.qEntries, State.rd_congr (hcfg qn), State.qEntries]
  have hbase (qn : Nat) : t.qBase qn = s.qBase qn := by
    rw [State.qBase, State.addrOf, hword (Reg.QBASE_LO qn) (by unfold Reg.QBASE_LO; omega), State.rd_congr (hhi qn), State.qBase,
      State.addrOf]
  have hcarve (a n : Nat) : t.inCarve a n = s.inCarve a n := by rw [State.inCarve, hchip, State.inCarve]
  have htables (a n : Nat) : t.hitsTables a n = s.hitsTables a n := by rw [State.hitsTables, hchip, State.hitsTables]
  intro qn hqn hon hstop
  rw [State.rdb_congr (hcfg qn)] at hon hstop
  have hring : t.qRingOk qn = s.qRingOk qn := by
    simp only [State.qRingOk, hquill, hsheet, hentries, hbase, hcarve, htables, hrange]
  rw [hring, h qn hqn hon hstop]

theorem State.ringsCheck_kept {s : State} (h : RingsKept s) : s.ringsCheck = s :=
  foldl_eq_self fun qn hqn => if_neg fun hbad => by
    simp only [Bool.and_eq_true, Bool.not_eq_true'] at hbad
    obtain ⟨⟨hon, hstop⟩, hring⟩ := hbad
    rw [h qn (List.mem_range.mp hqn) hon hstop] at hring
    exact Bool.noConfusion hring

/-- With no tier command waiting and every ring in its place the sweep changes nothing. -/
theorem State.tierSweep_idle {s : State} (hcmds : s.tierCmds = []) (h : RingsKept s) : s.tierSweep = s := by
  rw [State.tierSweep, hcmds]
  exact State.ringsCheck_kept h

/-! ## The end of the waking -/

section Wake

variable (s : State) (i : Nat)

/-- A quire of a waking sheet is IDLE at its first point. -/
def State.wokenQuire (s : State) (q : Nat) : State := ((s.setQuireState q 2).firstPoint q).setClock q

theorem State.wokenQuire_apart (q : Nat) : (s.wokenQuire q).apart = s.apart :=
  (State.setClock_apart ..).trans ((State.firstPoint_apart ..).trans (s.setQuireState_apart q 2))

theorem State.wokenQuire_mem (q : Nat) : (s.wokenQuire q).mem = s.mem := by
  rw [← s.setQuireState_mem q 2]
  rfl

theorem State.wokenQuire_word {q o : Nat} (hq : q < 64) (h : BesideQuires o) : (s.wokenQuire q).word o = s.word o := by
  rw [State.wokenQuire, State.setClock_word _ (h.ne_qpt hq) (h.ne_clock hq), State.firstPoint_word _ (h.ne_qpt hq),
    State.setQuireState_word _ _ (h.ne_quireStat hq)]

/-- A waking sheet whose memory is zero and whose quires are IDLE. -/
def State.woken : State := ((s.zeroWaking i).quiresOf i).foldl State.wokenQuire (s.zeroWaking i)

theorem State.zeroWaking_zeroed (h : (s.sheet i).zeroed = true) : s.zeroWaking i = s := by simp [State.zeroWaking, h]

theorem State.zeroWaking_open (hstate : s.sheetState i = 1) (h : (s.sheet i).zeroed = false) :
    s.zeroWaking i = (s.zeroSheet i).setSheet i { s.sheet i with zeroed := true } := by
  simp [State.zeroWaking, hstate, h]

theorem State.zeroWaking_cases : s.zeroWaking i = s ∨
    s.zeroWaking i = (s.zeroSheet i).setSheet i { s.sheet i with zeroed := true } := by
  rw [State.zeroWaking]
  split
  · exact .inr rfl
  · exact .inl rfl

theorem State.zeroWaking_cleared : Cleared s (s.zeroWaking i) := by
  rcases s.zeroWaking_cases i with h | h <;> rw [h]
  · exact .of_mem rfl
  · exact (s.zeroSheet_cleared i).trans (.of_mem rfl)

theorem State.zeroWaking_word (o : Nat) : (s.zeroWaking i).word o = s.word o := by
  rcases s.zeroWaking_cases i with h | h <;> rw [h]
  exact State.word_eq_of_csr (s.zeroSheet_csr i) o

theorem State.zeroWaking_wakeTo : ((s.zeroWaking i).sheet i).wakeTo = (s.sheet i).wakeTo := by
  rcases s.zeroWaking_cases i with h | h <;> rw [h]
  rw [State.sheet_setSheet]

theorem State.zeroWaking_chip : (s.zeroWaking i).chip = s.chip := by
  rcases s.zeroWaking_cases i with h | h <;> rw [h]
  exact State.chip_of_apart (t := s.zeroSheet i) (s.zeroSheet_apart i)

theorem State.zeroWaking_tierCmds : (s.zeroWaking i).tierCmds = s.tierCmds := by
  rcases s.zeroWaking_cases i with h | h <;> rw [h]
  exact State.tierCmds_of_apart (t := s.zeroSheet i) (s.zeroSheet_apart i)

theorem State.woken_apart : (s.woken i).apart = (s.zeroWaking i).apart := foldl_apart (fun s q => s.wokenQuire_apart q) _ _
theorem State.woken_mem : (s.woken i).mem = (s.zeroWaking i).mem := foldl_keeps State.mem (fun q _ s => s.wokenQuire_mem q) _

theorem State.woken_word {o : Nat} (h : BesideQuires o) : (s.woken i).word o = s.word o :=
  (foldl_keeps (State.word · o) (fun _ hq s => s.wokenQuire_word (State.lt_of_mem_quiresOf hq) h) _).trans (s.zeroWaking_word i o)

end Wake

theorem exec_sheetWakeComplete {s : State} (hp : s.powered = true) (i : Fin 16) : exec (.sheetWakeComplete i) s =
    .next (if s.sheetState i.val != 1 then s else
      (((s.woken i.val).setSheetState i.val ((s.woken i.val).sheet i.val).wakeTo).schedule i.val).tierSweep) :=
  act_powered hp fun s => if s.sheetState i.val != 1 then s else
    (((s.woken i.val).setSheetState i.val ((s.woken i.val).sheet i.val).wakeTo).schedule i.val).tierSweep

/-- A waking sheet with no context and no waiting tier command takes the state it wakes to, and nothing else happens. -/
theorem State.woken_settled {s : State} {i : Nat} (hi : i < 16) (hoff : ∀ c, c < 8 → s.ctxState i c = 0) (hcmds : s.tierCmds = [])
    (hrings : RingsKept s) (st : Nat) :
    (((s.woken i).setSheetState i st).schedule i).tierSweep = (s.woken i).setSheetState i st := by
  have hword (o : Nat) (h : BesideQuires o) (hne : o ≠ Reg.SCTL i) : ((s.woken i).setSheetState i st).word o = s.word o :=
    (State.setSheetState_word _ i st hne).trans (s.woken_word i h)
  have hnone : ((s.woken i).setSheetState i st).bestReady i = none := State.bestReady_none fun c hc => by
    rw [State.ctxState, State.rd_congr (hword _ (besideQuires_cstat hi hc) (sctl_ne_cstat i i c).symm)]
    exact fun h => absurd ((hoff c hc).symm.trans h) (by decide)
  rw [State.schedule_noneReady hnone]
  refine State.tierSweep_idle ?_ (hrings.of_kept (fun o ho => hword o (.inr ho) ?_) ?_ fun a ha => ?_)
  · exact (State.tierCmds_of_apart (s.woken_apart i)).trans ((s.zeroWaking_tierCmds i).trans hcmds)
  · unfold Reg.SCTL
    omega
  · exact (State.chip_of_apart (s.woken_apart i)).trans (s.zeroWaking_chip i)
  · rw [State.setSheetState, State.wr_mem, State.woken_mem]
    exact (s.zeroWaking_cleared i).frame a (.inr ha)

/-! ## The commands -/

section Commands

variable {s : State} (hp : s.powered = true) (i : Fin 16)
include hp

theorem exec_assign : exec (.assign i) s = .next (s.assign i.val) := act_powered hp fun s => s.assign i.val
theorem exec_drain : exec (.drain i) s = .next (s.drain i.val) := act_powered hp fun s => s.drain i.val
theorem exec_reopen : exec (.reopen i) s = .next (s.reopen i.val) := act_powered hp fun s => s.reopen i.val
theorem exec_reshape : exec (.reshape i) s = .next (s.reshape i.val) := act_powered hp fun s => s.reshape i.val
theorem exec_sheetRelease : exec (.sheetRelease i) s = .next (s.release i.val) := act_powered hp fun s => s.release i.val
theorem exec_teardown : exec (.teardown i) s = .next (s.teardown i.val) := act_powered hp fun s => s.teardown i.val

theorem exec_sheetDrained : exec (.sheetDrained i) s =
    .next (if s.sheetState i.val = 3 ∧ s.drained i.val then s.setSheetState i.val 4 else s) :=
  act_powered hp fun s => if s.sheetState i.val = 3 ∧ s.drained i.val then s.setSheetState i.val 4 else s

/-- A sheet command in another state than it needs answers STATE. -/
theorem exec_sheetCommand_refused {cmd : Fin 16 → Instr}
    (h : cmd = .assign ∧ s.sheetState i.val ≠ 0 ∨ cmd = .drain ∧ s.sheetState i.val ≠ 2 ∨ cmd = .reopen ∧ s.sheetState i.val ≠ 4 ∨
      cmd = .reshape ∧ s.sheetState i.val ≠ 4 ∨ cmd = .sheetRelease ∧ s.sheetState i.val ≠ 4 ∨
      cmd = .teardown ∧ s.sheetState i.val ≠ 2 ∧ s.sheetState i.val ≠ 3) :
    exec (cmd i) s = .next (s.scmdStat i.val 1) := by
  rcases h with ⟨rfl, h⟩ | ⟨rfl, h⟩ | ⟨rfl, h⟩ | ⟨rfl, h⟩ | ⟨rfl, h⟩ | ⟨rfl, h₂, h₃⟩
  · rw [exec_assign hp, State.assign_refused h]
  · rw [exec_drain hp, State.drain_refused h]
  · rw [exec_reopen hp, State.reopen_refused h]
  · rw [exec_reshape hp, State.reshape_refused h]
  · rw [exec_sheetRelease hp, State.release_refused h]
  · rw [exec_teardown hp, State.teardown_refused h₂ h₃]

end Commands

/-- Settles O23: the masks a sheet takes or gives up change memory by clearing wells and slices alone, which keeps the tier table, so the
rings of the queues stay where they are; a torn sheet with no descriptor left has every context OFF. -/
theorem sheetRows : Obligations.SheetRows := by
  unfold Obligations.SheetRows
  refine ⟨fun i s hp hstate hshape => ?_, fun i s hp hstate hshape => ?_, fun i s hp hstate hto hoff hcmds hrings => ?_,
    fun i s hp hstate hoff hcur => ?_, fun i s hp hstate => ?_, fun i s hp hstate hold hnew hoff => ?_, fun i s hp hstate => ?_,
    fun i s hp hstate => ?_, fun i s hp hstate => ?_, fun i s hp hstate hctx hdma => ?_, fun i s hp hstate hoff hdma => ?_,
    fun i s cmd hp h => ?_, fun i s hp hshape => ⟨fun hstate => ?_, fun hstate => ?_⟩,
    fun i s hp => ⟨fun hstate => ?_, fun h => ?_⟩⟩
  · have h := (s.clearCounters i.val).takeShape_waking i.val (s.qmaskReg i.val) (s.slicesReg i.val) 2
    rw [State.clearCounters_mem] at h
    rw [exec_assign hp, State.assign_empty hstate hshape]
    exact ⟨_, rfl, h⟩
  · rw [exec_reshape hp, State.reshape_drained hstate hshape]
    exact ⟨_, rfl, s.takeShape_waking i.val (s.qmaskReg i.val) (s.slicesReg i.val) 4⟩
  · have hwakeTo : ((s.woken i.val).sheet i.val).wakeTo = (s.sheet i.val).wakeTo :=
      (congrArg SheetRt.wakeTo (State.sheet_of_apart (s.woken_apart i.val) i.val)).trans (s.zeroWaking_wakeTo i.val)
    rw [exec_sheetWakeComplete hp, if_neg (by rw [hstate]; decide), State.woken_settled i.isLt hoff hcmds hrings, hwakeTo]
    refine ⟨_, rfl, State.setSheetState_self _ _ (by rcases hto with h | h <;> rw [h] <;> decide), fun hz => ?_, fun hz => ?_⟩
    · rw [State.setSheetState, State.wr_mem, State.woken_mem, State.zeroWaking_zeroed s _ hz]
    · have hmem : ((s.woken i.val).setSheetState i.val (s.sheet i.val).wakeTo).mem = (s.zeroSheet i.val).mem := by
        rw [State.setSheetState, State.wr_mem, State.woken_mem, State.zeroWaking_open s _ hstate hz]
        rfl
      rw [hmem]
      exact ⟨fun q k o hq hk ho => s.zeroSheet_well hq hk ho, fun n o hn ho => s.zeroSheet_slice hn ho,
        fun a h₁ h₂ => (s.zeroSheet_cleared i.val).frame a (by omega)⟩
  · rw [exec_drain hp, State.drain_open hstate, State.drainSweep_idle (fun c hc => (s.ready_ctxState ..).trans (hoff c hc)) hcur]
    exact ⟨_, rfl, (State.scmdStat_sheetState ..).trans (s.setSheetState_self _ (by decide)), State.scmdStat_reads _ _ (by decide),
      s.ready_only i.val 3 0⟩
  · rw [exec_drain hp, State.drain_open hstate]
  · have hnone : ((s.setSheetState i.val 2).scmdStat i.val 0).bestReady i.val = none := State.bestReady_none fun c hc => by
      rw [State.ready_ctxState, hoff c hc]
      decide
    rw [exec_reopen hp, State.reopen_drained hstate, State.loadScribeCode_newest hold hnew, State.schedule_noneReady hnone]
    exact ⟨_, rfl, (State.scmdStat_sheetState ..).trans (s.setSheetState_self _ (by decide)), State.scmdStat_reads _ _ (by decide),
      s.ready_only i.val 2 0⟩
  · rw [exec_reopen hp, State.reopen_drained hstate]
  · obtain ⟨hempty, hqlo, hqhi, hslo, hshi⟩ := State.release_registers i.isLt hstate
    obtain ⟨hqmask, hslices⟩ := State.release_sheet hstate
    obtain ⟨hwells, hframe⟩ := State.release_wells hstate
    have hread : (s.release i.val).rd (Reg.SCMD_STAT i.val) 1 0 = 0 := by
      rw [State.release_eq hstate]
      exact State.scmdStat_reads _ _ (by decide)
    rw [exec_sheetRelease hp]
    exact ⟨_, rfl, hempty, hread, hqlo, hqhi, hslo, hshi, hqmask, hslices, hwells, hframe⟩
  · rw [exec_teardown hp, State.teardown_open hstate]
  · obtain ⟨hdrained, hoff⟩ := State.tearSheet_quiet i.isLt ⟨hdma, hctx⟩
    have hword (o : Nat) (h : o ≠ Reg.SCMD_STAT i.val) : ((s.tearSheet i.val).scmdStat i.val 0).word o = (s.tearSheet i.val).word o :=
      State.scmdStat_word _ _ 0 h
    have hcfg (c : Nat) : Reg.CCFG i.val c ≠ Reg.SCMD_STAT i.val := by unfold Reg.CCFG Reg.SCMD_STAT; omega
    rw [exec_teardown hp, State.teardown_open hstate]
    exact ⟨_, rfl, (State.scmdStat_sheetState ..).trans hdrained,
      fun c hc => (State.rd_congr (hword _ (cstat_ne_scmdStat _ c _)) 2 0).trans (hoff c hc).1,
      fun c hc => (State.rdb_congr (hword _ (hcfg c)) 31).trans (hoff c hc).2, State.scmdStat_reads _ _ (by decide)⟩
  · rw [exec_sheetDrained hp, if_pos ⟨hstate, State.drained_of_off hdma hoff⟩]
    exact ⟨_, rfl, s.setSheetState_self _ (by decide), (Only.refl _ s).wrw _ (by simp)⟩
  · rw [exec_sheetCommand_refused hp i h]
    exact ⟨_, rfl, s.scmdStat_reads _ (by decide), s.scmdStat_only _ _⟩
  · rw [exec_assign hp, State.assign_badShape hstate hshape]
    rfl
  · rw [exec_reshape hp, State.reshape_badShape hstate hshape]
    rfl
  · rw [exec_sheetWakeComplete hp, if_pos (by simpa using hstate)]
  · rw [exec_sheetDrained hp, if_neg]
    rintro ⟨hstate, hdrained⟩
    exact h.elim (· hstate) fun hnot => Bool.noConfusion (hnot.symm.trans hdrained)

end Sys2Proof.Machine
end

section
/-! SUPPORT. What memory accesses and the event log do does not depend on the quires and the scribes. -/

namespace Sys2Proof.Machine

/-- A state with other quires and scribes. -/
def State.withSeqs (s : State) (x : Map QuireRt) (y : Map ScribeRt) : State := { s with quires := x, scribes := y }

/-- An operation that neither reads nor changes the quires and the scribes. -/
def Blind (f : State → State) : Prop := ∀ s x y, f (s.withSeqs x y) = (f s).withSeqs x y

/-- The same for an operation with a result. -/
def BlindFst {β : Type} (f : State → State × β) : Prop := ∀ s x y, f (s.withSeqs x y) = ((f s).1.withSeqs x y, (f s).2)

/-- A quantity that does not depend on the quires and the scribes. -/
def Unseen {ι : Sort*} (p : State → ι) : Prop := ∀ s x y, p (s.withSeqs x y) = p s

/-! ## Shapes of operations -/

section Shapes

variable {f g : State → State} {β : Type}

theorem Blind.id : Blind fun s => s := fun _ _ _ => rfl

theorem Blind.comp (hf : Blind f) (hg : Blind g) : Blind fun s => g (f s) := fun s x y =>
  (congrArg g (hf s x y)).trans (hg (f s) x y)

theorem Unseen.comp {ι : Sort*} {p : State → ι} (hp : Unseen p) (hf : Blind f) : Unseen fun s => p (f s) := fun s x y =>
  (congrArg p (hf s x y)).trans (hp (f s) x y)

/-- An operation whose operand is read from the state. -/
theorem Blind.param {ι : Type} {p : State → ι} {f : ι → State → State} (hp : Unseen p) (hf : ∀ i, Blind (f i)) :
    Blind fun s => f (p s) s := fun s x y => (congrArg (f · _) (hp s x y)).trans (hf (p s) s x y)

theorem BlindFst.param {ι : Type} {p : State → ι} {f : ι → State → State × β} (hp : Unseen p) (hf : ∀ i, BlindFst (f i)) :
    BlindFst fun s => f (p s) s := fun s x y => (congrArg (f · _) (hp s x y)).trans (hf (p s) s x y)

theorem Blind.ite {c : State → Prop} [∀ s, Decidable (c s)] (hc : Unseen c) (hf : Blind f) (hg : Blind g) :
    Blind fun s => if c s then f s else g s := fun s x y => by
  simp only [hc s x y, hf s x y, hg s x y, apply_ite (State.withSeqs · x y)]

theorem BlindFst.ite {c : State → Prop} [∀ s, Decidable (c s)] {f g : State → State × β} (hc : Unseen c) (hf : BlindFst f)
    (hg : BlindFst g) : BlindFst fun s => if c s then f s else g s := fun s x y => by
  simp only [hc s x y, hf s x y, hg s x y]
  split <;> rfl

theorem BlindFst.pair (hf : Blind f) (b : β) : BlindFst fun s => (f s, b) := fun s x y => congrArg (·, b) (hf s x y)

theorem BlindFst.fst {f : State → State × β} (hf : BlindFst f) : Blind fun s => (f s).1 := fun s x y =>
  congrArg Prod.fst (hf s x y)

theorem BlindFst.unseen {f : State → State × β} (hf : BlindFst f) : Unseen fun s => (f s).2 := fun s x y =>
  (congrArg Prod.snd (hf s x y) :)

theorem BlindFst.comp {f : State → State × β} (hg : Blind g) (hf : BlindFst f) : BlindFst fun s => f (g s) := fun s x y =>
  (congrArg f (hg s x y)).trans (hf (g s) x y)

theorem Blind.foldl {α : Type} {f : State → α → State} (hf : ∀ a, Blind (f · a)) (l : List α) : Blind fun s => l.foldl f s := by
  induction l with
  | nil => exact Blind.id
  | cons a l ih => exact (hf a).comp ih

theorem BlindFst.foldl {α : Type} {f : State × β → α → State × β} (hf : ∀ a b, BlindFst fun s => f (s, b) a) (l : List α) (b : β) :
    BlindFst fun s => l.foldl f (s, b) := by
  induction l generalizing b with
  | nil => exact .pair .id b
  | cons a l ih =>
    intro s x y
    exact (congrArg (l.foldl f) (hf a b s x y)).trans (ih (f (s, b) a).2 (f (s, b) a).1 x y)

end Shapes

/-! ## The event log -/

theorem blind_wrw (o : Nat) (w : W32) : Blind (State.wrw · o w) := fun _ _ _ => rfl
theorem blind_wr (o hi lo v : Nat) : Blind (State.wr · o hi lo v) := fun _ _ _ => rfl
theorem blind_bump (o n : Nat) : Blind (State.bump · o n) := fun _ _ _ => rfl
theorem blind_bumpSat (o n : Nat) : Blind (State.bumpSat · o n) := fun _ _ _ => rfl

theorem blind_notify (a n : Nat) : Blind (State.notify · a n) := by
  have hlo (i : Nat) : Blind (State.wrb · Reg.QW_PEND_LO i true) := fun _ _ _ => rfl
  have hhi (i : Nat) : Blind (State.wrb · Reg.QW_PEND_HI i true) := fun _ _ _ => rfl
  exact Blind.foldl (fun i => .ite (fun _ _ _ => rfl) (.ite (fun _ _ _ => rfl)
    (.ite (fun _ _ _ => rfl) (hlo i) (hhi (i - 32))) .id) .id) _

theorem blind_store (a : Nat) (bs : List Byte) : Blind (State.store · a bs) := by
  have hput : Blind fun s => { s with mem := Mem.write s.mem a bs, upsets := clearUpsets s.upsets a bs.length } := fun _ _ _ => rfl
  exact .ite (fun _ _ _ => rfl) .id (hput.comp (blind_notify a bs.length))

theorem blind_storeCarve (a : Nat) (bs : List Byte) : Blind (State.storeCarve · a bs) :=
  .ite (fun _ _ _ => rfl) .id (blind_store _ bs)

theorem blind_ringPut (r : EventRec) : Blind (State.ringPut · r) := by
  have hput (x : Nat × Nat × Nat) : Blind fun s => ((s.storeCarve x.1 r.bytes).bump Reg.EPROD).storeCarve x.2.1 (leBytes 8 x.2.2) :=
    ((blind_storeCarve x.1 r.bytes).comp (blind_bump _ _)).comp (blind_storeCarve x.2.1 (leBytes 8 x.2.2))
  exact .param (p := fun s =>
    (s.addrOf Reg.ELOG_BASE_LO Reg.ELOG_BASE_HI 64 + 64 * ((s.word Reg.EPROD).toNat % 2 ^ s.rd Reg.ELOG_CFG 3 0),
      s.addrOf Reg.ELOG_BASE_LO Reg.ELOG_BASE_HI 64 + 64 * 2 ^ s.rd Reg.ELOG_CFG 3 0, ((s.word Reg.EPROD).toNat + 1) % 2 ^ 32))
    (fun _ _ _ => rfl) hput

theorem blind_number : Blind State.number := blind_bump Reg.ESEQ 1

theorem blind_dropEvent (sev : Nat) : Blind (State.dropEvent · sev) := by
  have hcount : Blind fun s => { s with dropCount := s.dropCount + 1, dropSev := max s.dropSev sev } := fun _ _ _ => rfl
  exact ((blind_bumpSat Reg.ELOST 1).comp (blind_wr Reg.ESTAT 31 31 1)).comp hcount

theorem blind_hold (r : EventRec) : Blind (State.hold · r) := by
  have hkeep : Blind fun s => { s with heldEvents := s.heldEvents ++ [r] } := fun _ _ _ => rfl
  have hfatal (o : Option (EventRec × List EventRec)) : Blind fun s =>
      match o with
      | some (d, rest) => (({ s with heldEvents := rest ++ [r] } : State).number).dropEvent d.sev
      | none => s.dropEvent r.sev := by
    cases o with
    | none => exact blind_dropEvent r.sev
    | some x =>
      have hput : Blind fun s => { s with heldEvents := x.2 ++ [r] } := fun _ _ _ => rfl
      exact (hput.comp blind_number).comp (blind_dropEvent x.1.sev)
  exact .ite (fun _ _ _ => rfl) (hkeep.comp blind_number) (.ite (fun _ _ _ => rfl)
    (.param (p := fun s => takeNonFatal s.heldEvents) (fun _ _ _ => rfl) hfatal) (blind_dropEvent _))

theorem blind_flushSome (n : Nat) : Blind (State.flushSome n) := by
  induction n with
  | zero => exact .id
  | succ n ih =>
    have hstep (l : List EventRec) : Blind fun s =>
        match l with
        | [] => s
        | r :: t => if s.elogRoom then State.flushSome n (({ s with heldEvents := t } : State).ringPut r) else s := by
      cases l with
      | nil => exact .id
      | cons r t =>
        have hdrop : Blind fun s => ({ s with heldEvents := t } : State) := fun _ _ _ => rfl
        exact .ite (fun _ _ _ => rfl) ((hdrop.comp (blind_ringPut r)).comp ih) .id
    exact .param (p := fun s => s.heldEvents) (fun _ _ _ => rfl) hstep

theorem blind_flushHeld : Blind State.flushHeld := by
  have hzero : Blind fun s => { s with dropCount := 0, dropSev := 0 } := fun _ _ _ => rfl
  have hover (x : EventRec × Nat) : Blind fun s =>
      ({ (s.ringPut x.1).number with dropCount := 0, dropSev := 0 } : State).wr Reg.ESTAT 2 0 x.2 :=
    (((blind_ringPut x.1).comp blind_number).comp hzero).comp (blind_wr Reg.ESTAT 2 0 x.2)
  have hend : Blind fun s => if s.heldEvents.isEmpty && decide (0 < s.dropCount) && s.elogRoom then
      ({ (s.ringPut (s.mkRec 0x0C01 1 [s.dropCount, s.dropSev])).number with dropCount := 0, dropSev := 0 } : State).wr Reg.ESTAT 2 0
        (max (s.rd Reg.ESTAT 2 0) 2) else s :=
    .ite (fun _ _ _ => rfl) (.param (p := fun s => (s.mkRec 0x0C01 1 [s.dropCount, s.dropSev], max (s.rd Reg.ESTAT 2 0) 2))
      (fun _ _ _ => rfl) hover) .id
  exact (blind_flushSome 64).comp hend

/-- The place `n` bytes on in the flash log, which wraps round at its end. -/
def flogOn (n h : Nat) : Nat := if h + n ≥ 0x0FFFFFFF + 1 then 0x0C610000 else h + n

theorem blind_flogPut (r : EventRec) : Blind (State.flogPut · r) := by
  have hput (a : Nat) (bs : List Byte) : Blind (State.flashWrite · a bs) := fun _ _ _ => rfl
  have herase (a : Nat) : Blind (State.flashErase · a 65536) := fun _ _ _ => rfl
  have hcross (next ahead : Nat) : Blind fun s => if next % 65536 = 0 then s.flashErase ahead 65536 else s :=
    .ite (c := fun _ => next % 65536 = 0) (fun _ _ _ => rfl) (herase ahead) .id
  have hmove (head next ahead : Nat) : Blind fun s =>
      if next % 65536 = 0 then ((s.flashWrite head r.bytes).wrw Reg.FLOG_HEAD (BitVec.ofNat 32 next)).flashErase ahead 65536
      else (s.flashWrite head r.bytes).wrw Reg.FLOG_HEAD (BitVec.ofNat 32 next) :=
    ((hput head r.bytes).comp (blind_wrw Reg.FLOG_HEAD _)).comp (hcross next ahead)
  exact .param (p := fun s => (s.word Reg.FLOG_HEAD).toNat) (fun _ _ _ => rfl) fun head =>
    hmove head (flogOn 64 head) (flogOn 65536 (flogOn 64 head))

theorem blind_take (code count : Nat) (args : List Nat) : Blind (State.take · code count args) := by
  have hsev (r : EventRec) : Blind fun s => s.wr Reg.ESTAT 2 0 (max (s.rd Reg.ESTAT 2 0) r.sev) :=
    .param (p := fun s => max (s.rd Reg.ESTAT 2 0) r.sev) (fun _ _ _ => rfl) fun n => blind_wr Reg.ESTAT 2 0 n
  have hrec (r : EventRec) : Blind fun s => if s.elogRoom && s.heldEvents.isEmpty then (s.ringPut r).number else s.hold r :=
    .ite (fun _ _ _ => rfl) ((blind_ringPut r).comp blind_number) (blind_hold r)
  have hflash (r : EventRec) : Blind fun s => if r.sev = 4 || code = 1 then s.flogPut r else s :=
    .ite (fun _ _ _ => rfl) (blind_flogPut r) .id
  exact blind_flushHeld.comp (.param (p := fun s => s.mkRec code count args) (fun _ _ _ => rfl) fun r =>
    ((hrec r).comp (hsev r)).comp (hflash r))

theorem blind_withGates (k : Nat) (g : EventGate) : Blind fun s => { s with gates := Map.set s.gates k g } := fun _ _ _ => rfl

theorem blind_post (code : Nat) (args : List Nat) : Blind (State.post · code args) := by
  have hgate (o : Option EventGate) : Blind fun s =>
      match o with
      | none => s.take code 1 args
      | some g => ({ s with gates := Map.set s.gates (code * 2 ^ 64 + args.getD 0 0) { g with held := 0 } }).take code (g.held + 1)
          args := by
    cases o with
    | none => exact blind_take code 1 args
    | some g => exact (blind_withGates _ _).comp (blind_take code (g.held + 1) args)
  exact .param (p := fun s => Map.get? s.gates (code * 2 ^ 64 + args.getD 0 0)) (fun _ _ _ => rfl) hgate

theorem blind_postOnce (code : Nat) (args : List Nat) (k : Nat) : Blind (State.postOnce · code args k) := by
  have hopen (n : Nat) : Blind fun s =>
      ({ s with gates := Map.set s.gates (code * 2 ^ 64 + k) ⟨s.epoch, 0⟩ } : State).take code n args :=
    Blind.comp (f := fun s => { s with gates := Map.set s.gates (code * 2 ^ 64 + k) ⟨s.epoch, 0⟩ }) (fun _ _ _ => rfl)
      (blind_take code n args)
  have hgate (o : Option EventGate) : Blind fun s =>
      match o with
      | none => ({ s with gates := Map.set s.gates (code * 2 ^ 64 + k) ⟨s.epoch, 0⟩ } : State).take code 1 args
      | some g =>
        if g.epoch = s.epoch then { s with gates := Map.set s.gates (code * 2 ^ 64 + k) { g with held := g.held + 1 } }
        else ({ s with gates := Map.set s.gates (code * 2 ^ 64 + k) ⟨s.epoch, 0⟩ } : State).take code (g.held + 1) args := by
    cases o with
    | none => exact hopen 1
    | some g => exact .ite (fun _ _ _ => rfl) (blind_withGates _ _) (hopen (g.held + 1))
  exact .param (p := fun s => Map.get? s.gates (code * 2 ^ 64 + k)) (fun _ _ _ => rfl) hgate

/-! ## Error protection -/

theorem blind_uncorr (store addr scribe sheet : Nat) : Blind (State.uncorr · store addr scribe sheet) := by
  have hnote (x : Nat) : Blind fun s => if s.rdb Reg.UE_INFO 31 then s else
      (s.wr64 Reg.UE_ADDR_LO Reg.UE_ADDR_HI (addr % 2 ^ 48)).wrw Reg.UE_INFO
        (BitVec.ofNat 32 (2 ^ 31 + store % 8 * 2 ^ 28 + scribe % 1024 * 65536 + x % 16)) :=
    .ite (fun _ _ _ => rfl) .id (Blind.comp (f := (State.wr64 · Reg.UE_ADDR_LO Reg.UE_ADDR_HI (addr % 2 ^ 48)))
      ((blind_wrw _ _).comp (blind_wrw _ _)) (blind_wrw _ _))
  exact .param (p := fun s => if store = 0 then s.wellSheet scribe else sheet) (fun _ _ _ => rfl) fun x =>
    ((blind_bumpSat Reg.UE_COUNT 1).comp (hnote x)).comp (blind_post 0x0803 [store, addr, if x < 16 then x else 0xFF])

theorem blind_settleLine (line : Nat) (resid : List Byte) : Blind (State.settleLine · line resid) := fun _ _ _ => rfl

theorem blind_correct (line : Nat) (resid : List Byte) (addr : Nat) : Blind (State.correct · line resid addr) :=
  ((blind_bumpSat Reg.CE_COUNT 1).comp (blind_settleLine line resid)).comp
    (.param (p := fun s => s.ueAt (line * 64) addr) (fun _ _ _ => rfl) fun u => blind_postOnce 0x0802 [u.1, u.2] u.1)

theorem blind_eccLine (line : Nat) (p : Map Byte) (addr scribe sheet : Nat) :
    BlindFst (State.eccLine · line p addr scribe sheet) := by
  have huncorr : BlindFst fun s => (s.uncorr (s.ueAt (line * 64) addr).1 (s.ueAt (line * 64) addr).2 scribe sheet, some addr) :=
    .param (p := fun s => s.ueAt (line * 64) addr) (fun _ _ _ => rfl) fun u => .pair (blind_uncorr u.1 u.2 scribe sheet) _
  have hdecode (o : Option (List Byte)) : BlindFst fun s =>
      match o with
      | some r => (s.correct line r addr, none)
      | none => (s.uncorr (s.ueAt (line * 64) addr).1 (s.ueAt (line * 64) addr).2 scribe sheet, some addr) := by
    cases o with
    | some r => exact .pair (blind_correct line r addr) none
    | none => exact huncorr
  exact .ite (fun _ _ _ => rfl) (.pair (blind_settleLine _ _) none) (hdecode _)

theorem blind_ecc (a n base scribe sheet : Nat) : BlindFst (State.ecc · a n base scribe sheet) := by
  have hlines (l : Map (Map Byte)) : BlindFst fun s => l.foldl (fun st e =>
      if st.2.isSome then st else st.1.eccLine e.1 e.2 (base + (e.1 * 64 - a)) scribe sheet) (s, none) :=
    .foldl (fun e b => .ite (c := fun _ => b.isSome) (fun _ _ _ => rfl) (.pair .id b)
      (blind_eccLine e.1 e.2 (base + (e.1 * 64 - a)) scribe sheet)) l none
  have hfail (o : Option Nat) : BlindFst fun s =>
      match o with
      | some l => (s.uncorr (s.ueAt (l * 64) (base + (l * 64 - a))).1 (s.ueAt (l * 64) (base + (l * 64 - a))).2 scribe sheet,
          some (base + (l * 64 - a)))
      | none => (s.upsets.filter fun e => decide (a / 64 ≤ e.1) && decide (e.1 * 64 < a + n)).foldl (fun st e =>
          if st.2.isSome then st else st.1.eccLine e.1 e.2 (base + (e.1 * 64 - a)) scribe sheet) (s, none) := by
    cases o with
    | some l =>
      exact .param (p := fun s => s.ueAt (l * 64) (base + (l * 64 - a))) (fun _ _ _ => rfl) fun u =>
        .pair (blind_uncorr u.1 u.2 scribe sheet) _
    | none =>
      exact .param (p := fun s => s.upsets.filter fun e => decide (a / 64 ≤ e.1) && decide (e.1 * 64 < a + n))
        (fun _ _ _ => rfl) hlines
  exact .ite (fun _ _ _ => rfl) (.pair .id none) (.ite (fun _ _ _ => rfl) (.pair (blind_uncorr _ _ _ _) _)
    (.param (p := fun s => s.failing.find? fun l => decide (a / 64 ≤ l) && decide (l * 64 < a + n)) (fun _ _ _ => rfl) hfail))

theorem blind_seenEntry (g : Nat) : Blind (State.seenEntry · g) := by
  have hread (x : Option (Map Byte) × Nat) : Blind fun s =>
      match x.1 with
      | none => s
      | some p => if (rsDecode (patternOf p)).isNone then s else (s.eccLine x.2 p g 0 16).1 := by
    obtain ⟨o, k⟩ := x
    cases o with
    | none => exact .id
    | some p => exact .ite (fun _ _ _ => rfl) .id (blind_eccLine k p g 0 16).fst
  exact .param (p := fun s => (Map.get? s.upsets (s.entryLine g), s.entryLine g)) (fun _ _ _ => rfl) hread

theorem blind_entryRead (g sheet : Nat) : BlindFst (State.entryRead · g sheet) :=
  .ite (fun _ _ _ => rfl) (.pair (blind_uncorr 4 g 0 sheet) true) (.pair (blind_seenEntry g) false)

/-! ## Reads of a tiered range -/

theorem blind_touch (g : Nat) : Blind (State.touch · g) := by
  have hset : Blind (State.setTouch · g) := fun _ _ _ => rfl
  have hput (n : Nat) : Blind fun s => (s.setTouch g).notify (physCarve (n + g / 8)) 1 := hset.comp (blind_notify _ 1)
  exact .ite (fun _ _ _ => rfl) .id (.param (p := fun s => s.chip.tbBase) (fun _ _ _ => rfl) hput)

theorem blind_eccTier (a n sheet : Nat) : BlindFst (State.eccTier · a n sheet) := by
  have hphys (x : Nat × Nat) : BlindFst fun s => s.ecc (s.tierPhys x.1) x.2 x.1 0 sheet :=
    .param (p := fun s => s.tierPhys x.1) (fun _ _ _ => rfl) fun t => blind_ecc t x.2 x.1 0 sheet
  have hpiece (x : Nat × Nat) : BlindFst fun s =>
      if (s.entryRead (x.1 / 65536) sheet).2 then ((s.entryRead (x.1 / 65536) sheet).1, some x.1)
      else (s.entryRead (x.1 / 65536) sheet).1.ecc ((s.entryRead (x.1 / 65536) sheet).1.tierPhys x.1) x.2 x.1 0 sheet :=
    .ite (fun t u v => congrArg (· = true) ((blind_entryRead (x.1 / 65536) sheet).unseen t u v))
      (.pair (blind_entryRead _ sheet).fst _) (.comp (blind_entryRead _ sheet).fst (hphys x))
  refine .foldl (fun x b => ?_) _ none
  cases b with
  | some b => exact .pair .id (some b)
  | none => exact hpiece x

theorem blind_seenTier (a n sheet : Nat) : Blind (State.seenTier · a n sheet) :=
  (blind_eccTier a n sheet).fst.comp (.foldl blind_touch (granulesOf a n))

theorem blind_recSeen (i c : Nat) : Blind (State.recSeen · i c) :=
  .ite (fun _ _ _ => rfl) (.param (p := fun s => s.scb i + 0x3000 + 0x200 * c) (fun _ _ _ => rfl) fun a => blind_seenTier a 64 i) .id

theorem blind_bindSeen (i c q : Nat) : Blind (State.bindSeen · i c q) :=
  .ite (fun _ _ _ => rfl) (.param (p := fun s => s.scb i + 0x4000 + 0x200 * c + 8 * q) (fun _ _ _ => rfl) fun a =>
    blind_seenTier a 8 i) .id

end Sys2Proof.Machine
end

section
/-! SUPPORT. Switches of contexts (10_sheets.md R405, R409 to R411). -/

namespace Sys2Proof.Machine

/-! ## What the sheets hold -/

theorem State.setSheet_word (s : State) (i : Nat) (r : SheetRt) (o : Nat) : (s.setSheet i r).word o = s.word o := rfl
theorem State.setSheet_ctx (s : State) (i : Nat) (r : SheetRt) (j c : Nat) : (s.setSheet i r).ctx j c = s.ctx j c := rfl
theorem State.setSheet_mem (s : State) (i : Nat) (r : SheetRt) : (s.setSheet i r).mem = s.mem := rfl

/-! ## States that differ in their quires and scribes -/

/-- The second state is the first but for its quires and scribes. -/
def SameButSeqs (s t : State) : Prop := ∃ x y, t = s.withSeqs x y

theorem SameButSeqs.refl (s : State) : SameButSeqs s s := ⟨s.quires, s.scribes, rfl⟩

theorem SameButSeqs.trans {s t u : State} (h₁ : SameButSeqs s t) (h₂ : SameButSeqs t u) : SameButSeqs s u := by
  obtain ⟨_, _, rfl⟩ := h₁
  obtain ⟨x, y, rfl⟩ := h₂
  exact ⟨x, y, rfl⟩

theorem SameButSeqs.mem {s t : State} (h : SameButSeqs s t) : t.mem = s.mem := by
  obtain ⟨x, y, rfl⟩ := h
  rfl

theorem SameButSeqs.map {f : State → State} (hf : Blind f) {s t : State} (h : SameButSeqs s t) : SameButSeqs (f s) (f t) := by
  obtain ⟨x, y, rfl⟩ := h
  exact ⟨x, y, hf s x y⟩

theorem sameButSeqs_setQuire (s : State) (q : Nat) (x : QuireRt) : SameButSeqs s (s.setQuire q x) := ⟨_, s.scribes, rfl⟩
theorem sameButSeqs_setScribe (s : State) (n : Nat) (x : ScribeRt) : SameButSeqs s (s.setScribe n x) := ⟨s.quires, _, rfl⟩

theorem sameButSeqs_foldl {α : Type} {f : State → α → State} (hf : ∀ s a, SameButSeqs s (f s a)) (l : List α) {s t : State}
    (h : SameButSeqs s t) : SameButSeqs s (l.foldl f t) :=
  List.foldlRecOn (motive := SameButSeqs s) l f h fun _ ht a _ => ht.trans (hf _ a)

section Begin

variable (i c : Nat)

/-- The reads with which a quire begins at its binding entry. -/
def State.beginReads (s : State) (q : Nat) : State := (s.bindSeen i c q).recSeen i c

theorem blind_beginReads (q : Nat) : Blind (State.beginReads i c · q) :=
  ((blind_bindSeen i c q).comp (blind_recSeen i c) :)

theorem State.beginQuire_seqs (s : State) (q : Nat) : SameButSeqs (s.beginReads i c q) (s.beginQuire i c q) := by
  rw [State.beginQuire]
  exact sameButSeqs_foldl (fun s _ => sameButSeqs_setScribe s _ _) _ (sameButSeqs_setQuire _ _ _)

/-- The quires begin: each with its reads, which what another quire took does not touch. -/
theorem foldl_beginQuire_seqs {s t : State} (h : SameButSeqs s t) (l : List Nat) :
    SameButSeqs (l.foldl (State.beginReads i c) s) (l.foldl (fun s q => s.beginQuire i c q) t) := by
  induction l generalizing s t with
  | nil => exact h
  | cons q l ih =>
    rw [List.foldl_cons, List.foldl_cons]
    exact ih ((h.map (blind_beginReads i c q)).trans (t.beginQuire_seqs i c q))

end Begin

/-! ## A save begins -/

section Save

variable {s : State} (i c : Nat)

theorem State.leave_mem : (s.leave i c).mem = s.mem := by
  rw [State.leave]
  dsimp only
  split <;> rfl

theorem State.beginSave_ctxState : (s.beginSave i c).ctxState i c = 4 :=
  (State.rd_congr (State.setQuires_word _ (cstat_ne_quireStat i c) i 5) 2 0).trans (State.setCtxState_self _ i c (by decide))

theorem State.beginSave_mem : (s.beginSave i c).mem = s.mem := (State.setQuires_mem _ i 5).trans (s.leave_mem i c)

/-- The context that a save takes away is SWITCHING, and no context is resident. -/
theorem State.beginSave_switching : (s.beginSave i c).ctxState i c = 4 ∧ ((s.beginSave i c).sheet i).saving = some c ∧
    ((s.beginSave i c).sheet i).cur = none ∧ (s.beginSave i c).mem = s.mem :=
  ⟨s.beginSave_ctxState i c, by rw [State.beginSave, State.sheet_setSheet], by rw [State.beginSave, State.sheet_setSheet],
    s.beginSave_mem i c⟩

end Save

section Expiry

variable {s : State} (hp : s.powered = true) (i : Fin 16)
include hp

theorem exec_quantumExpiry {r d : Nat} (hcur : (s.sheet i.val).cur = some r) (hbest : s.bestReady i.val = some d) :
    exec (.quantumExpiry i) s = .next (if s.prio i.val r ≤ s.prio i.val d && s.savable i.val r then
      (s.waited (s.sheet i.val).curAt (s.quantumNs i.val)).beginSave i.val r else s) := by
  change execQuantumExpiry i s = _
  rw [execQuantumExpiry, act_powered hp, hcur, hbest]

theorem exec_yieldExpiry {r d : Nat} (hcur : (s.sheet i.val).cur = some r) (hbest : s.bestReady i.val = some d) :
    exec (.yieldExpiry i) s = .next (if s.allWatching i.val && s.savable i.val r then
      (s.waited (s.watchFrom i.val) (s.yieldNs i.val)).beginSave i.val r else s) := by
  change execYieldExpiry i s = _
  rw [execYieldExpiry, act_powered hp, hcur, hbest]

/-- With no resident context, or none that could come in its place, no time-out of a sheet has an effect. -/
theorem exec_expiry_idle (h : (s.sheet i.val).cur = none ∨ s.bestReady i.val = none) :
    exec (.quantumExpiry i) s = .next s ∧ exec (.yieldExpiry i) s = .next s := by
  change execQuantumExpiry i s = _ ∧ execYieldExpiry i s = _
  rw [execQuantumExpiry, execYieldExpiry, act_powered hp, act_powered hp]
  rcases h with h | h
  · rw [h]
    exact ⟨rfl, rfl⟩
  · rw [h]
    cases (s.sheet i.val).cur <;> exact ⟨rfl, rfl⟩

theorem exec_saveComplete : exec (.saveComplete i) s = .next (s.saveComplete i.val) := act_powered hp fun s => s.saveComplete i.val
theorem exec_restoreComplete : exec (.restoreComplete i) s = .next (s.restoreComplete i.val) :=
  act_powered hp fun s => s.restoreComplete i.val

omit i in
theorem exec_waitingWake (line : BitVec 42) : exec (.waitingWake line) s = .next (s.wakeWaiting line.toNat) :=
  act_powered hp fun s => s.wakeWaiting line.toNat

end Expiry

/-! ## A save completes -/

/-- The state a context has after its save: WAITING when every scribe watches and no write came early (R411). -/
def State.savedState (s : State) (i : Nat) : Nat :=
  if s.allWatching i && !(s.sheet i).early && decide ((s.watchLines i).length ≤ 16) then 3 else 1

theorem State.savedState_lt (s : State) (i : Nat) : s.savedState i < 8 := by
  rw [State.savedState]
  split <;> decide

/-- A sheet that goes on to a restore counts the switch from when its save began (R428). -/
def State.countedFrom (s : State) (i since : Nat) : State :=
  if (s.sheet i).restoring.isSome then s.setSheet i { s.sheet i with resSince := since } else s

theorem State.stopQuires_word (s : State) {o : Nat} (h : ∀ q, o ≠ Reg.QUIRE_STAT q) (l : List Nat) :
    (l.foldl (fun s q => (s.wr (Reg.QUIRE_STAT q) 15 8 0).stopScribes q) s).word o = s.word o :=
  foldl_keeps (State.word · o) (fun q _ s => (State.stopScribes_word _ q o).trans (s.word_wr_ne 15 8 0 (h q))) s

section SaveComplete

variable {s : State} {i c : Nat} (hsaving : (s.sheet i).saving = some c)

theorem State.saveComplete_none (h : (s.sheet i).saving = none) : s.saveComplete i = s := by rw [State.saveComplete, h]

include hsaving

theorem State.saveComplete_noArea (h : s.saveAreaOk i c = false) : s.saveComplete i = s.ctxFault i c 0x0A 0 0 0 := by
  rw [State.saveComplete, hsaving]
  exact if_pos (by rw [h]; rfl)

/-- A live region that cannot be read faults the context UNCORR, as the model chooses (log entry 143). -/
theorem State.saveComplete_unreadable {v : State} {a : Nat} (h : s.saveAreaOk i c = true) (hreads : s.saveReads i = (v, some a)) :
    s.saveComplete i = v.ctxFault i c 0x0D 0 0 a := by
  rw [State.saveComplete, hsaving]
  refine (if_neg (by simp [h])).trans ?_
  rw [hreads]

/-- After a save that could read the wells, the sheet looks for its next context from a state in which this one has been put away. -/
theorem State.saveComplete_read {v : State} (h : s.saveAreaOk i c = true) (hreads : s.saveReads i = (v, none)) :
    ∃ u : State, s.saveComplete i = ((u.drainSweep i).schedule i).countedFrom i (v.sheet i).resSince ∧ (u.sheet i).saving = none ∧
      (u.sheet i).early = false ∧ u.ctxState i c = v.savedState i := by
  have hsave := State.saveComplete.eq_1 s i
  simp -zeta only [hsaving, h, hreads, Bool.not_true, Bool.false_eq_true, if_false] at hsave
  extract_lets waiting drain lines early since stalls saved listed marked gone put kept shelved stopped sheet ended next nextSheet
    at hsave
  have hput : put.ctxState i c = v.savedState i := gone.setCtxState_self i c (v.savedState_lt i)
  have hshelved : shelved.word (Reg.CSTAT i c) = put.word (Reg.CSTAT i c) := put.setCtx_word i c _ _
  clear_value put shelved
  have hstopped : stopped.word (Reg.CSTAT i c) = shelved.word (Reg.CSTAT i c) :=
    shelved.stopQuires_word (cstat_ne_quireStat i c) (shelved.quiresOf i)
  clear_value stopped
  have hended : ended.word (Reg.CSTAT i c) = stopped.word (Reg.CSTAT i c) :=
    ((stopped.setQuires i 2).setSheet_word i _ _).trans (stopped.setQuires_word (cstat_ne_quireStat i c) i 2)
  have hsheet : ended.sheet i = { sheet with saving := none, early := false } := (stopped.setQuires i 2).sheet_setSheet i _
  clear_value ended
  have hcounted : s.saveComplete i = next.countedFrom i since := hsave
  have hstate : State.ctxState ended i c = put.ctxState i c := State.rd_congr (hended.trans (hstopped.trans hshelved)) 2 0
  exact ⟨ended, hcounted, congrArg SheetRt.saving hsheet, congrArg SheetRt.early hsheet, hstate.trans hput⟩

end SaveComplete

/-! ## A restore completes -/

/-- The quires of a sheet run for a context, which is RESIDENT. -/
def State.quiresRun (s : State) (i c : Nat) : State := ((s.setCtxState i c 2).setQuires i 3).startPoints (s.quiresOf i)

/-- The context counts as the sheet's last one. -/
def State.resident (s : State) (i c : Nat) : State := (s.wr (Reg.SCTL i) 10 8 c).bump (Reg.SWITCHES i)

theorem State.quiresRun_resident (s : State) {i c : Nat} (hi : i < 16) (hc : c < 8) : (s.quiresRun i c).ctxState i c = 2 ∧
    (s.quiresRun i c).ctx i c = s.ctx i c ∧ (s.quiresRun i c).mem = s.mem := by
  have hidle : ((s.setCtxState i c 2).setQuires i 3).word (Reg.CSTAT i c) = (s.setCtxState i c 2).word (Reg.CSTAT i c) :=
    State.setQuires_word _ (cstat_ne_quireStat i c) i 3
  have hstart : (s.quiresRun i c).word (Reg.CSTAT i c) = ((s.setCtxState i c 2).setQuires i 3).word (Reg.CSTAT i c) :=
    State.startPoints_word _ (fun _ hq => State.lt_of_mem_quiresOf hq) (besideQuires_cstat hi hc)
  have hapart : (s.quiresRun i c).apart = s.apart :=
    (State.startPoints_apart _ _).trans ((State.setQuires_apart _ i 3).trans (s.wr_apart _ 2 0 2))
  exact ⟨(State.rd_congr (hstart.trans hidle) 2 0).trans (s.setCtxState_self i c (by decide)), State.ctx_of_apart hapart i c,
    (State.startPoints_mem _ _).trans (State.setQuires_mem _ i 3)⟩

theorem cstat_ne_switches (i c j : Nat) : Reg.CSTAT i c ≠ Reg.SWITCHES j := by
  unfold Reg.CSTAT Reg.SWITCHES
  omega

section RestoreComplete

variable {s : State} {i c : Nat} (hrestoring : (s.sheet i).restoring = some c)

theorem State.restoreComplete_none (h : (s.sheet i).restoring = none) : s.restoreComplete i = s := by rw [State.restoreComplete, h]

include hrestoring

/-- A context that never ran begins at its binding entries. -/
theorem State.restoreComplete_begins (hi : i < 16) (hc : c < 8) (hbegun : (s.ctx i c).begun = false) : ∃ u : State,
    s.restoreComplete i = u.schedule i ∧ (u.sheet i).cur = some c ∧ (u.sheet i).restoring = none ∧ u.ctxState i c = 2 ∧
      (u.ctx i c).begun = true ∧ u.mem = ((s.quiresOf i).foldl (State.beginReads i c) s).mem := by
  have hrestore := State.restoreComplete.eq_1 s i
  simp -zeta only [hrestoring] at hrestore
  extract_lets x saved rd read loaded begun running sheet seated at hrestore
  have hfresh : saved = false := by simp [saved, x, hbegun]
  have hrd : rd = (s, none) := if_neg (by simp [hfresh])
  rw [if_neg (by simp [hrd])] at hrestore
  have hread : read = s := congrArg Prod.fst hrd
  have hmem : begun.mem = ((s.quiresOf i).foldl (State.beginReads i c) s).mem := by
    rw [← hread]
    exact (congrArg State.mem (if_neg (by simp [hfresh]))).trans
      (foldl_beginQuire_seqs i c (.refl read) (read.quiresOf i)).mem
  have hctx : (running.ctx i c).begun = true := congrArg CtxRt.begun (begun.ctx_setCtx i c _)
  have hrunning : running.mem = begun.mem := begun.setCtx_mem i c _
  clear_value running
  have hsheet : seated.sheet i = { sheet with restoring := none, cur := some c, curAt := running.now } :=
    (running.quiresRun i c).sheet_setSheet i _
  have hword (o : Nat) : seated.word o = (running.quiresRun i c).word o := (running.quiresRun i c).setSheet_word i _ o
  have hseatedCtx : seated.ctx i c = (running.quiresRun i c).ctx i c := (running.quiresRun i c).setSheet_ctx i _ i c
  have hseatedMem : seated.mem = (running.quiresRun i c).mem := (running.quiresRun i c).setSheet_mem i _
  clear_value seated
  refine ⟨seated.resident i c, hrestore, ?_⟩
  obtain ⟨hstate, hbegunCtx, hquiresMem⟩ := running.quiresRun_resident hi hc
  have hend : (seated.resident i c).word (Reg.CSTAT i c) = seated.word (Reg.CSTAT i c) :=
    (State.word_bump_ne _ 1 (cstat_ne_switches i c i)).trans (seated.word_wr_ne 10 8 c (sctl_ne_cstat i i c).symm)
  exact ⟨congrArg SheetRt.cur hsheet, congrArg SheetRt.restoring hsheet, (State.rd_congr (hend.trans (hword _)) 2 0).trans hstate,
    (congrArg CtxRt.begun (hseatedCtx.trans hbegunCtx)).trans hctx, hseatedMem.trans (hquiresMem.trans (hrunning.trans hmem))⟩

/-- A saved context faults when the reads of its restore fail (R410). -/
theorem State.restoreComplete_fault {v : State} {a : Nat} (hbegun : (s.ctx i c).begun = true)
    (hsaved : bit (s.recW i c 0x28) 16 = true)
    (hfail : (if s.saveReadable i c then s.restoreReads i c else (s, some 0)) = (v, some a)) :
    s.restoreComplete i = v.ctxFault i c 0x0A 0 0 0 := by
  have hrestore := State.restoreComplete.eq_1 s i
  simp -zeta only [hrestoring] at hrestore
  extract_lets x saved rd read loaded begun running sheet seated at hrestore
  have hrd : rd = (v, some a) := (if_pos (by simp [saved, x, hbegun, hsaved])).trans hfail
  rwa [if_pos (by rw [hrd]; rfl), hrd] at hrestore

end RestoreComplete

/-! ## A write on a line -/

/-- A write finds no context to wake on sheets that are empty and save nothing. -/
theorem State.wakeWaiting_idle {s : State} (hwaiting : ∀ i c, i < 16 → c < 8 → s.ctxState i c ≠ 3)
    (hempty : ∀ i, i < 16 → s.sheetState i = 0) (hsaving : ∀ i, i < 16 → (s.sheet i).saving = none) (line : Nat) :
    s.wakeWaiting line = s := by
  refine foldl_eq_self fun i hi => ?_
  have hi : i < 16 := List.mem_range.mp hi
  have hctxs : (List.range 8).foldl (fun t c =>
      if t.ctxState i c = 3 && (List.range (min 16 (bits (t.recW i c 0x28) 15 8))).any fun k =>
        t.recW i c (0x80 + 8 * k) == line / 64 * 64 then t.setCtxState i c 1 else t) s = s :=
    foldl_eq_self fun c hc => if_neg (by simp [hwaiting i c hi (List.mem_range.mp hc)])
  dsimp only
  rw [hctxs, if_neg (by simp [hsaving i hi])]
  exact State.schedule_stopped (by simp [hempty i hi]) (by simp [hempty i hi])

/-- Settles O25: a save and a restore are each taken apart into the stages between which nothing else touches the context's STATE;
the reads with which the quires begin do not see the quires and the scribes, so memory is that after the reads alone. -/
theorem switchRows : Obligations.SwitchRows := by
  refine ⟨fun i r d s hp hcur hbest hprio hsavable _ => ?_, fun i r d s hp hcur hbest hwatching hsavable _ => ?_,
    fun i c s hp hsaving _ => ⟨fun hok v hreads => ?_, fun hok v a hreads => ?_, fun hno => ?_⟩,
    fun i c s hp hrestoring hc hbegun => ?_, fun line s hp hwaiting hempty hsaving => ?_, fun line s hp => exec_waitingWake hp line,
    fun i s hp => ⟨exec_expiry_idle hp i, fun r d hcur hbest => ⟨fun h => ?_, fun h => ?_⟩, fun h => ?_, fun h => ?_⟩,
    fun i c s hp hrestoring hbegun hsaved => ⟨fun h => ?_, fun h v a hreads => ?_⟩⟩
  · refine ⟨_, (exec_quantumExpiry hp i hcur hbest).trans (congrArg _ (if_pos (by simp [hprio, hsavable]))), ?_⟩
    exact State.beginSave_switching i.val r
  · refine ⟨_, (exec_yieldExpiry hp i hcur hbest).trans (congrArg _ (if_pos (by simp [hwatching, hsavable]))), ?_⟩
    exact State.beginSave_switching i.val r
  · obtain ⟨u, hsave, hdone⟩ := State.saveComplete_read hsaving hok hreads
    exact ⟨u, _, rfl, (exec_saveComplete hp i).trans (congrArg _ hsave), hdone⟩
  · rw [exec_saveComplete hp, State.saveComplete_unreadable hsaving hok hreads]
  · rw [exec_saveComplete hp, State.saveComplete_noArea hsaving hno]
  · obtain ⟨u, hrestore, hdone⟩ := State.restoreComplete_begins hrestoring i.isLt hc hbegun
    exact ⟨u, (exec_restoreComplete hp i).trans (congrArg _ hrestore), hdone⟩
  · rw [exec_waitingWake hp, State.wakeWaiting_idle hwaiting hempty hsaving]
  · rw [exec_quantumExpiry hp i hcur hbest, if_neg]
    rcases h with h | h <;> simp [h]
  · rw [exec_yieldExpiry hp i hcur hbest, if_neg]
    rcases h with h | h <;> simp [h]
  · rw [exec_saveComplete hp, State.saveComplete_none h]
  · rw [exec_restoreComplete hp, State.restoreComplete_none h]
  · rw [exec_restoreComplete hp, State.restoreComplete_fault hrestoring hbegun hsaved (if_neg (by simp [h]))]
  · rw [exec_restoreComplete hp, State.restoreComplete_fault hrestoring hbegun hsaved ((if_pos h).trans hreads)]

end Sys2Proof.Machine
end

section
/-! SUPPORT. A packet that arrives: the checks before it is taken, and an operation of another module that is served, answered again or
held (11_fabric_ops.md R446, R451, R454; 12_fabric_links.md R498 to R503, R519). -/

namespace Sys2Proof.Machine

theorem actIf_powered {wf : Bool} {s : State} (hwf : wf = true) (h : s.powered = true) (f : State → State) :
    actIf wf s f = .next (f s) := by rw [actIf, if_pos hwf, act_powered h]

/-! ## The rows of one packet -/

theorem packetOk_opc {p : Packet} {opc : Nat} (h : packetOk p opc = true) : p.opc.toNat = opc := by
  simp only [packetOk, Bool.and_eq_true, beq_iff_eq] at h
  obtain ⟨⟨⟨hopc, -⟩, -⟩, -⟩ := h
  exact hopc

theorem packetOp_iff {p : Packet} {opc atop : Nat} :
    packetOp p opc atop = true ↔ packetOk p opc = true ∧ p.atop.toNat = atop := by simp [packetOp]

/-- A served row is the arrival of its packet. -/
theorem exec_servedRow : ∀ row ∈ servedRows, ∀ {p : Packet} {s : State}, s.powered = true → (row p).wellFormed = true →
    exec (row p) s = .next (s.arrive p) := by
  simp only [servedRows, List.forall_mem_cons, List.not_mem_nil, false_implies, implies_true, and_true]
  and_intros <;> exact fun hp hwf => actIf_powered hwf hp _

/-- The opcode is none of an answer: RDATA, ACK, REFUSE (12 R493). -/
def Asks (p : Packet) : Prop := p.opc.toNat ≠ 0x10 ∧ p.opc.toNat ≠ 0x11 ∧ p.opc.toNat ≠ 0x12

theorem packetOk_asks {p : Packet} {opc : Nat} (h : packetOk p opc = true) (hopc : opc ≠ 0x10 ∧ opc ≠ 0x11 ∧ opc ≠ 0x12) :
    Asks p := by
  rw [Asks, packetOk_opc h]
  exact hopc

theorem packetOp_asks {p : Packet} {opc atop : Nat} (h : packetOp p opc atop = true)
    (hopc : opc ≠ 0x10 ∧ opc ≠ 0x11 ∧ opc ≠ 0x12) : Asks p := packetOk_asks (packetOp_iff.mp h).1 hopc

theorem servedRow_asks : ∀ row ∈ servedRows, ∀ {p : Packet}, (row p).wellFormed = true → Asks p := by
  simp only [servedRows, List.forall_mem_cons, List.not_mem_nil, false_implies, implies_true, and_true]
  and_intros
  iterate 6 exact fun h => packetOk_asks h (by decide)
  iterate 7 exact fun h => packetOp_asks h (by decide)
  iterate 5 exact fun h => packetOk_asks h (by decide)
  iterate 7 exact fun h => packetOp_asks h (by decide)

/-! ## The checks on a packet (12 R503, R519) -/

section Taken
variable {s : State} {p : Packet} (f : State → State)

theorem State.taken_damaged (h : p.badGranule = true) : s.taken p f = s.badPayload := if_pos h

theorem State.taken_unknown (h : p.badGranule = false) (hver : 1 < p.pver.toNat) : s.taken p f = s.bumpSat Reg.BADVER := by
  rw [State.taken, if_neg (by simp [h]), if_pos hver]

theorem State.taken_good (h : p.badGranule = false) (hver : p.pver.toNat ≤ 1) : s.taken p f = f s := by
  rw [State.taken, if_neg (by simp [h]), if_neg (Nat.not_lt.mpr hver)]

end Taken

section Arrive
variable {s : State} {p : Packet}

theorem State.arrive_here (h : p.dst.toNat = s.pos) : s.arrive p = s.rxPacket p := if_pos h

theorem State.arrive_elsewhere (h : p.dst.toNat ≠ s.pos) : s.arrive p = s := if_neg h

/-- A packet that is no answer is an operation of another module. -/
theorem State.rxPacket_op (hopc : Asks p) : s.rxPacket p = s.taken p fun s => s.rxOp p := by
  obtain ⟨hrdata, hack, hrefuse⟩ := hopc
  rw [State.rxPacket, if_neg (by simp [hrdata])]
  congr 1
  funext u
  split
  · exact absurd ‹_› hrdata
  · exact absurd ‹_› hack
  · exact absurd ‹_› hrefuse
  · rfl

/-! ## An operation of another module (12 R498 to R501) -/

theorem State.markClosed_open (h : s.closing = none) : s.markClosed p = { p with status := 0 } := by
  rw [State.markClosed, h]

section Fresh
variable (hflags : s.heldFlags = []) (hpkts : s.heldPkts = [])

include hflags hpkts in
theorem State.isHeld_nil (p : Packet) : s.isHeld p = false := by simp [State.isHeld, hflags, hpkts]

variable (hopen : s.closing = none)
include hflags hpkts hopen

/-- A request is served or held. -/
theorem State.rxOp_request (hreq : isRequest p.opc.toNat = true) : s.rxOp p = s.serveOrHold { p with status := 0 } := by
  simp only [State.rxOp, State.markClosed_open hopen, State.isHeld_nil hflags hpkts, hreq, Bool.false_eq_true, if_true, if_false]

variable (hwrite : isRequest p.opc.toNat = false) (hnear : (s.peer p.src.toNat).ahead p.pseq.toNat < 2048)
include hwrite hnear

/-- A new write-class operation within its pair's window is served or held. -/
theorem State.rxOp_new (hnew : Map.get? (s.peer p.src.toNat).answered p.pseq.toNat = none) :
    s.rxOp p = s.serveOrHold { p with status := 0 } := by
  simp only [State.rxOp, State.markClosed_open hopen, State.isHeld_nil hflags hpkts, hwrite, hnew, Bool.false_eq_true, if_false]
  rw [if_neg (by simp [hnear]), if_neg (by omega)]

/-- A write-class operation that was answered is acknowledged again with its answer. -/
theorem State.rxOp_answered {a : Nat × Nat × List (List Byte)}
    (hdone : Map.get? (s.peer p.src.toNat).answered p.pseq.toNat = some a) :
    s.rxOp p = (s.bumpSat Reg.DUPS).sendAny (s.replyTo { p with status := 0 } true ⟨a.1, a.2.1, a.2.2⟩) := by
  simp only [State.rxOp, State.markClosed_open hopen, State.isHeld_nil hflags hpkts, hwrite, hdone, Bool.false_eq_true, if_false]
  rw [if_neg (by simp [hnear])]

end Fresh

/-! ## Serving and holding (11 R451, R452, 12 R499) -/

/-- No request is of the flag class (12 R493). -/
theorem isFlag_of_isRequest {opc : Nat} (h : isRequest opc = true) : isFlag opc = false := by
  have hopc : opc = 1 ∨ opc = 2 ∨ opc = 3 := by simpa [isRequest, or_assoc] using h
  rcases hopc with rfl | rfl | rfl <;> rfl

theorem State.waitsDep_none (h : p.dep = none) : s.waitsDep p = false := by rw [State.waitsDep, h]

theorem State.waitsDep_open {d : W32} (h : p.dep = some d) (hopen : (s.peer p.src.toNat).done d.toNat = false) :
    s.waitsDep p = true := by
  rw [State.waitsDep, h]
  exact congrArg not hopen

theorem State.serveOrHold_ready (hdep : s.waitsDep p = false)
    (hflag : isFlag p.opc.toNat = true → (s.peer p.src.toNat).low = p.pseq.toNat) : s.serveOrHold p = s.serve p := by
  refine if_pos ?_
  rw [State.mayServe_, hdep]
  cases h : isFlag p.opc.toNat
  · rfl
  · simp [hflag h]

/-- An operation that waits for another is held where its store is empty. -/
theorem State.serveOrHold_waits (hdep : s.waitsDep p = true) (hflags : s.heldFlags = []) (hpkts : s.heldPkts = []) :
    s.serveOrHold p = if isFlag p.opc.toNat then { s with heldFlags := [p] } else { s with heldPkts := [p] } := by
  rw [State.serveOrHold, if_neg (by simp [State.mayServe_, hdep]), hflags, hpkts]
  rfl

/-- A count that no reply shows leaves the reply as it is. -/
theorem State.replyTo_bumpSat_dups (ack : Bool) (r : Reply) : (s.bumpSat Reg.DUPS).replyTo p ack r = s.replyTo p ack r := by
  have hpos : (s.bumpSat Reg.DUPS).pos = s.pos := s.rd_wrw_ne _ 15 0 (by decide)
  have hold (i j : Nat) : (s.bumpSat Reg.DUPS).rdb (Reg.PEER_OLD i) j = s.rdb (Reg.PEER_OLD i) j := by
    rw [State.rdb, State.rdb, State.bumpSat, State.rd_wrw_ne]
    unfold Reg.PEER_OLD Reg.DUPS
    omega
  simp only [State.replyTo, State.pver, hpos, hold]

end Arrive

/-! ## The statements -/

section Row
variable {row : Packet → Instr} (hrow : row ∈ servedRows) {p : Packet} {s : State} (hp : s.powered = true)
  (hwf : (row p).wellFormed = true)
include hrow hp hwf

/-- A served row at the module its packet is for. -/
theorem exec_servedRow_here (h : p.dst.toNat = s.pos) : exec (row p) s = .next (s.taken p fun s => s.rxOp p) := by
  rw [exec_servedRow row hrow hp hwf, State.arrive_here h, State.rxPacket_op (servedRow_asks row hrow hwf)]

theorem exec_servedRow_forUs (h : ForUs s p) : exec (row p) s = .next (s.rxOp p) := by
  obtain ⟨hdst, hgood, hver⟩ := h
  rw [exec_servedRow_here hrow hp hwf hdst, State.taken_good _ hgood hver]

theorem exec_servedRow_ready (h : ForUs s p) (hready : MayServeNow s p) : exec (row p) s = .next (s.serve { p with status := 0 }) := by
  obtain ⟨hflags, hpkts, hopen, hdep, hnew⟩ := hready
  rw [exec_servedRow_forUs hrow hp hwf h]
  congr 1
  cases hreq : isRequest p.opc.toNat
  · obtain ⟨hnear, hunanswered, hlow⟩ := hnew hreq
    rw [State.rxOp_new hflags hpkts hopen hreq hnear hunanswered]
    exact State.serveOrHold_ready (State.waitsDep_none hdep) hlow
  · rw [State.rxOp_request hflags hpkts hopen hreq]
    exact State.serveOrHold_ready (State.waitsDep_none hdep) fun h => absurd h (by simp [isFlag_of_isRequest hreq])

end Row

section Serve
variable {p : Packet} {s u : State} {r : Reply} (h : s.perform p = (u, r))
include h

theorem State.serve_request (hreq : isRequest p.opc.toNat = true) :
    s.serve p = (u.countIn r).sendAny ((u.countIn r).replyTo p false r) := by
  simp [State.serve, h, hreq]

theorem State.serve_write (hreq : isRequest p.opc.toNat = false) :
    s.serve p = ((u.countIn r).setPeer p.src.toNat
      (((u.countIn r).peer p.src.toNat).answer p.pseq.toNat r.status r.imm r.gran)).sendAny ((u.countIn r).replyTo p true r) := by
  simp [State.serve, h, hreq]

end Serve

/-- Settles O32: a served row is the arrival of its packet, which passes every check and is served. -/
theorem packetsServed : Obligations.PacketsServed := by
  refine ⟨fun row hrow p s hp hwf h hready => exec_servedRow_ready hrow hp hwf h hready,
    fun p s u r h => ⟨fun hreq => ?_, fun hreq => ?_⟩⟩
  · exact ⟨State.serve_request h hreq, rfl, rfl⟩
  · exact ⟨State.serve_write h hreq, rfl, rfl, rfl⟩

/-- Settles O35: the checks are taken one after another, and what is held waits for the operation its DEP names. -/
theorem packetsNotTaken : Obligations.PacketsNotTaken := by
  refine ⟨fun row hrow p s hp hwf h => ?_, fun row hrow p s hp hwf h hbad => ?_, fun row hrow p s hp hwf h hgood hver => ?_,
    fun row hrow p s a hp hwf h hflags hpkts hopen hreq hnear hdone => ?_,
    fun row hrow p s d hp hwf h hflags hpkts hopen hreq hnear hnew hdep hwaits => ?_⟩
  · rw [exec_servedRow row hrow hp hwf, State.arrive_elsewhere h]
  · rw [exec_servedRow_here hrow hp hwf h, State.taken_damaged _ hbad, State.badPayload]
  · rw [exec_servedRow_here hrow hp hwf h, State.taken_unknown _ hgood hver]
  · rw [exec_servedRow_forUs hrow hp hwf h, State.rxOp_answered hflags hpkts hopen hreq hnear hdone, State.replyTo_bumpSat_dups]
  · rw [exec_servedRow_forUs hrow hp hwf h, State.rxOp_new hflags hpkts hopen hreq hnear hnew]
    have hwait : s.waitsDep { p with status := 0 } = true := State.waitsDep_open hdep hwaits
    exact congrArg _ (State.serveOrHold_waits hwait hflags hpkts)

end Sys2Proof.Machine
end

section
/-! SUPPORT. The loads, stores, atomics and flags of another module, once the window allows them (11_fabric_ops.md R446, R447;
12_fabric_links.md R494). -/

namespace Sys2Proof.Machine

theorem packetOp_opc {p : Packet} {opc atop : Nat} (h : packetOp p opc atop = true) : p.opc.toNat = opc ∧ p.atop.toNat = atop := by
  obtain ⟨hok, hatop⟩ := packetOp_iff.mp h
  exact ⟨packetOk_opc hok, hatop⟩

section
variable {p : Packet} {s u v : State} {b : List Byte}

/-! ## The operation of each opcode -/

/-- An operation that is neither a message nor marked NOWIN is a memory operation. -/
theorem State.perform_mem (hopc : p.opc.toNat < 0x20) (hst : p.status = 0) : s.perform p = s.applyOp p := by
  have happly : s.perform p = s.applyMem p := by
    rw [State.perform]
    split
    iterate 7 omega
    rfl
  rw [happly, State.applyMem, if_pos hst]

theorem State.perform_load8 (hopc : p.opc.toNat = 0x01) (hst : p.status = 0) : s.perform p = s.applyLoad p 8 := by
  rw [State.perform_mem (by omega) hst, State.applyOp, hopc]
  rfl

theorem State.perform_load64 (hopc : p.opc.toNat = 0x02) (hst : p.status = 0) : s.perform p = s.applyLoad p 64 := by
  rw [State.perform_mem (by omega) hst, State.applyOp, hopc]
  rfl

theorem State.perform_store8 (hopc : p.opc.toNat = 0x08) (hst : p.status = 0) : s.perform p = s.applyStore8 p := by
  rw [State.perform_mem (by omega) hst, State.applyOp, hopc]
  rfl

theorem State.perform_store64 (hopc : p.opc.toNat = 0x09) (hst : p.status = 0) : s.perform p =
    ((s.applyLine p.src.toNat p.win.toNat p.offset.toNat (p.gran.headD [])).1,
      ⟨(s.applyLine p.src.toNat p.win.toNat p.offset.toNat (p.gran.headD [])).2, 0, []⟩) := by
  rw [State.perform_mem (by omega) hst, State.applyOp, hopc]
  rfl

theorem State.perform_atomic (hopc : p.opc.toNat = 0x0B) (hst : p.status = 0) : s.perform p = s.applyAtomic p := by
  rw [State.perform_mem (by omega) hst, State.applyOp, hopc]
  rfl

theorem State.perform_flag (hopc : p.opc.toNat = 0x0C) (hst : p.status = 0) : s.perform p = s.applyFlag p := by
  rw [State.perform_mem (by omega) hst, State.applyOp, hopc]
  rfl

/-! ## What each does when it is allowed -/

theorem State.applyLoad_allowed {n : Nat} (hcheck : s.winCheck p.src.toNat p.win.toNat p.offset.toNat n 1 false true = (u, 0))
    (hget : u.winGet p.win.toNat p.offset.toNat n = (v, b)) :
    s.applyLoad p n = (v, if n = 8 then ⟨0, leNat b, []⟩ else ⟨0, 0, [b]⟩) := by
  simp [State.applyLoad, hcheck, hget]

theorem State.applyStore8_allowed (hcheck : s.winCheck p.src.toNat p.win.toNat p.offset.toNat 8 2 true true = (u, 0))
    (hget : u.winGet p.win.toNat p.offset.toNat 8 = (v, b)) :
    s.applyStore8 p = (v.winPut p.win.toNat p.offset.toNat (mergeBytes b (leBytes 8 p.imm.toNat) p.be.toNat), ⟨0, 0, []⟩) := by
  simp [State.applyStore8, hcheck, hget]

theorem State.applyLine_allowed {src win o : Nat} (bs : List Byte) (hcheck : s.winCheck src win o 64 2 true false = (u, 0)) :
    s.applyLine src win o bs = (u.winPut win o bs, 0) := by
  simp [State.applyLine, hcheck]

theorem State.applyAtomic_allowed {x : Nat} (hatop : p.atop.toNat ≤ 4)
    (hcheck : s.winCheck p.src.toNat p.win.toNat p.offset.toNat 8 4 true true = (u, 0))
    (hget : u.winGet p.win.toNat p.offset.toNat 8 = (v, b))
    (hvalue : atomicValue p.atop.toNat (leNat b) p.imm.toNat (leNat ((p.gran.headD []).take 8)) = some x) :
    s.applyAtomic p = (v.winPut p.win.toNat p.offset.toNat (leBytes 8 x), ⟨0, leNat b, []⟩) := by
  simp only [State.applyAtomic]
  rw [if_neg (by omega)]
  simp only [hcheck, hget, hvalue, bne_self_eq_false, Bool.false_eq_true, if_false, Option.getD_some]

/-- A flagged store writes its operand; a flagged add writes the sum. -/
theorem State.applyFlag_allowed (hatop : p.atop.toNat ≤ 1)
    (hcheck : s.winCheck p.src.toNat p.win.toNat p.offset.toNat 8 (needPerm 0x0C p.atop.toNat) true true = (u, 0))
    (hget : u.winGet p.win.toNat p.offset.toNat 8 = (v, b)) :
    s.applyFlag p = (v.winPut p.win.toNat p.offset.toNat
      (leBytes 8 (if p.atop = 0 then p.imm.toNat else (leNat b + p.imm.toNat) % 2 ^ 64)), ⟨0, 0, []⟩) := by
  simp only [State.applyFlag]
  rw [if_neg (by omega)]
  simp [hcheck, hget]

/-! ## The bytes of a word -/

theorem mergeBytes_length (old new : List Byte) (be : Nat) : (mergeBytes old new be).length = old.length := by simp [mergeBytes]

theorem bit_eq_testBit (w i : Nat) : bit w i = w.testBit i := by
  rw [bit, Nat.testBit_eq_decide_div_mod_eq]
  rfl

theorem mergeBytes_getD (old new : List Byte) (be : Nat) {i : Nat} (h : i < old.length) :
    (mergeBytes old new be).getD i 0 = if be.testBit i then new.getD i 0 else old.getD i 0 := by
  simp [mergeBytes, h, bit_eq_testBit]

/-! ## The atomics -/

/-- An atomic row stores its value of R447 and answers the old word. -/
theorem State.perform_atomicOp {op x : Nat} (hop : packetOp p 0x0B op = true) (hle : op ≤ 4) (hst : p.status = 0)
    (hcheck : s.winCheck p.src.toNat p.win.toNat p.offset.toNat 8 4 true true = (u, 0))
    (hget : u.winGet p.win.toNat p.offset.toNat 8 = (v, b))
    (hvalue : atomicValue op (leNat b) p.imm.toNat (leNat ((p.gran.headD []).take 8)) = some x) :
    s.perform p = (v.winPut p.win.toNat p.offset.toNat (leBytes 8 x), ⟨0, leNat b, []⟩) := by
  obtain ⟨hopc, rfl⟩ := packetOp_opc hop
  rw [State.perform_atomic hopc hst, State.applyAtomic_allowed hle hcheck hget hvalue]

end

/-- Settles O33: each opcode's operation once its check passed; a word's bytes are merged one by one. -/
theorem memoryOperations : Obligations.MemoryOperations := by
  refine ⟨fun p s u v b hwf hst hcheck hget => ?_, fun p s u v b hwf hst hcheck hget => ?_, fun p s u v b hwf hst hcheck hget => ?_,
    fun p s u hwf hst hcheck => ?_, fun p s u v b hwf hst hcheck hget => ?_, fun p s u v b hwf hst hcheck hget => ?_, ?_⟩
  · rw [State.perform_load8 (packetOk_opc hwf) hst, State.applyLoad_allowed hcheck hget, if_pos rfl]
  · rw [State.perform_load64 (packetOk_opc hwf) hst, State.applyLoad_allowed hcheck hget, if_neg (by decide)]
  · refine ⟨mergeBytes b (leBytes 8 p.imm.toNat) p.be.toNat, ?_, mergeBytes_length .., fun i hi => mergeBytes_getD _ _ _ hi⟩
    rw [State.perform_store8 (packetOk_opc hwf) hst, State.applyStore8_allowed hcheck hget]
  · rw [State.perform_store64 (packetOk_opc hwf) hst, State.applyLine_allowed _ hcheck]
  · obtain ⟨hopc, hatop⟩ := packetOp_opc hwf
    rw [State.perform_flag hopc hst, State.applyFlag_allowed (by omega) (by rwa [hatop]) hget, if_pos (BitVec.eq_of_toNat_eq hatop)]
  · obtain ⟨hopc, hatop⟩ := packetOp_opc hwf
    have hadd : p.atop ≠ 0 := fun h => by simp [h] at hatop
    rw [State.perform_flag hopc hst, State.applyFlag_allowed (by omega) (by rwa [hatop]) hget, if_neg hadd]
  · simp only [atomicRows, List.forall_mem_cons, List.not_mem_nil, false_implies, implies_true, and_true]
    and_intros <;> exact fun p s u v b hwf hst hcheck hget => State.perform_atomicOp hwf (by decide) hst hcheck hget rfl

end Sys2Proof.Machine
end

section
/-! SUPPORT. The checks on an access through a window, in their order (11_fabric_ops.md R439, R445; 05_memory.md R203, R215). -/

namespace Sys2Proof.Machine

section
variable {s : State} {src win o n need : Nat} {write rd : Bool}

theorem State.winCheck_noWindow (h : Map.get? s.windows win = none) : s.winCheck src win o n need write rd = (s, 1) := by
  rw [State.winCheck, h]

variable {w : WinEnt} (hwin : Map.get? s.windows win = some w)

/-- An access through a window of a waking sheet is checked once the sheet's granules are zeroed (05 R203). -/
def State.winZeroed (s : State) (w : WinEnt) : State := if w.kind = 0 then s.zeroWaking w.sheet else s

/-- What is checked of the granules and lines of an access that lies in its window: the tier-table entry, what is mapped, DRY, and
the lines read. -/
def State.linesCheck (s : State) (w : WinEnt) (o n : Nat) (write rd : Bool) : State × Nat :=
  let e := if w.kind = 0 then s.entryRead ((w.base + o) / 65536) w.sheet else (s, false)
  if e.2 then (e.1, 6)
  else if w.kind == 0 && !(e.1.tierOk w.sheet (w.base + o) n) then (e.1, 4)
  else if write && e.1.winDry w o n then (e.1, 5)
  else if rd then ((e.1.winEcc w o n).1, if (e.1.winEcc w o n).2.isSome then 6 else 0)
  else (e.1, 0)

include hwin

theorem State.winCheck_forbidden (h : src &&& w.pmask ≠ w.pmatch &&& w.pmask ∨ w.perm &&& need ≠ need) :
    s.winCheck src win o n need write rd = (s.winZeroed w, 2) := by
  simp only [State.winCheck, hwin]
  exact if_pos (by simpa using h)

variable (hmatch : src &&& w.pmask = w.pmatch &&& w.pmask) (hperm : w.perm &&& need = need)
include hmatch hperm

theorem State.winCheck_unaligned (h : o % n ≠ 0) : s.winCheck src win o n need write rd = (s.winZeroed w, 3) := by
  simp only [State.winCheck, hwin]
  rw [if_neg (by simp [hmatch, hperm]), if_pos (by simpa using h)]
  rfl

variable (halign : o % n = 0)
include halign

theorem State.winCheck_outside (h : w.len < o + n ∨ w.kind = 0 ∧ (s.winZeroed w).inRun w.sheet ((w.base + o) / 65536) = false) :
    s.winCheck src win o n need write rd = (s.winZeroed w, 4) := by
  simp only [State.winCheck, hwin]
  rw [if_neg (by simp [hmatch, hperm]), if_neg (by simp [halign]), if_pos (by simpa [State.winZeroed] using h)]
  rfl

theorem State.winCheck_inside (hlen : o + n ≤ w.len)
    (hrun : w.kind = 0 → (s.winZeroed w).inRun w.sheet ((w.base + o) / 65536) = true) :
    s.winCheck src win o n need write rd = (s.winZeroed w).linesCheck w o n write rd := by
  simp only [State.winCheck, hwin]
  rw [if_neg (by simp [hmatch, hperm]), if_neg (by simp [halign])]
  refine if_neg ?_
  simpa [State.winZeroed, Nat.not_lt.mpr hlen] using hrun

end

/-! ## The granules and the lines -/

section
variable {u : State} {w : WinEnt} {o n : Nat} {write rd : Bool}

section Tier
variable (hkind : w.kind = 0)
include hkind

/-- An entry that cannot be read is an uncorrectable line. -/
theorem State.linesCheck_badEntry (h : u.entryBad ((w.base + o) / 65536) = true) :
    u.linesCheck w o n write rd = (u.uncorr 4 ((w.base + o) / 65536) 0 w.sheet, 6) := by
  simp [State.linesCheck, hkind, State.entryRead, h]

variable {v : State} (hgood : u.entryBad ((w.base + o) / 65536) = false) (hv : v = u.seenEntry ((w.base + o) / 65536))
include hgood hv

theorem State.linesCheck_unmapped (h : v.tierOk w.sheet (w.base + o) n = false) : u.linesCheck w o n write rd = (v, 4) := by
  simp [State.linesCheck, hkind, State.entryRead, hgood, ← hv, h]

variable (hok : v.tierOk w.sheet (w.base + o) n = true)
include hok

theorem State.linesCheck_dry (h : v.winDry w o n = true) : u.linesCheck w o n true rd = (v, 5) := by
  simp [State.linesCheck, hkind, State.entryRead, hgood, ← hv, hok, h]

theorem State.linesCheck_unread (h : write = false ∨ v.winDry w o n = false) : u.linesCheck w o n write false = (v, 0) := by
  have hdry : (write && v.winDry w o n) = false := Bool.and_eq_false_iff.mpr h
  simp [State.linesCheck, hkind, State.entryRead, hgood, ← hv, hok, hdry]

end Tier

/-- A window that is not on a tiered range has no granules to check, and is never DRY. -/
theorem State.linesCheck_untiered (hkind : w.kind ≠ 0) : u.linesCheck w o n write rd =
    if rd then ((u.winEcc w o n).1, if (u.winEcc w o n).2.isSome then 6 else 0) else (u, 0) := by
  simp [State.linesCheck, hkind, State.winDry]

theorem State.winEcc_carve (hkind : w.kind = 1) (h : Sound u) : u.winEcc w o n = (u, none) := by
  rw [State.winEcc, hkind]
  exact State.ecc_sound h (u.deadT2_carve _) ..

theorem State.winGet_carve {win : Nat} (hwin : Map.get? u.windows win = some w) (hkind : w.kind = 1) :
    u.winGet win o n = (u, Mem.read u.mem (physCarve (w.base + o)) n) := by
  rw [State.winGet, hwin]
  simp [State.winRead, hkind]

end

/-- Settles O34: the first three checks speak of the window alone; the others are those of `State.linesCheck`. -/
theorem windowChecks : Obligations.WindowChecks := by
  refine fun s src win o n need write rd => ⟨State.winCheck_noWindow, fun w u hwin hu => ?_⟩
  subst hu
  refine ⟨State.winCheck_forbidden hwin, State.winCheck_unaligned hwin, State.winCheck_outside hwin,
    fun hmatch hperm halign hlen hkind hrun => ?_, fun hmatch hperm halign hlen hkind hs => ?_,
    fun hmatch hperm halign hlen hkind => ?_⟩
  · rw [State.winCheck_inside hwin hmatch hperm halign hlen fun _ => hrun]
    refine ⟨State.linesCheck_badEntry hkind, fun v hgood hv => ⟨State.linesCheck_unmapped hkind hgood hv, fun hok hwrite hdry => ?_,
      fun hok hfree hrd => ?_⟩⟩
    · subst hwrite
      exact State.linesCheck_dry hkind hgood hv hok hdry
    · subst hrd
      exact State.linesCheck_unread hkind hgood hv hok hfree
  · have hzeroed : s.winZeroed w = s := if_neg (by omega)
    rw [State.winCheck_inside hwin hmatch hperm halign hlen (by omega), hzeroed, State.linesCheck_untiered (by omega),
      State.winEcc_carve hkind hs, State.winGet_carve hwin hkind]
    simp
  · have hzeroed : s.winZeroed w = s := if_neg hkind
    rw [State.winCheck_inside hwin hmatch hperm halign hlen (absurd · hkind), hzeroed, State.linesCheck_untiered hkind]
    refine ⟨fun hrd => if_neg (by simp [hrd]), fun v x hrd hecc => ?_⟩
    rw [if_pos hrd, hecc]

end Sys2Proof.Machine
end

section
/-! SUPPORT. The answers to the module's own operations, what is held from another module, and what is sent again (11_fabric_ops.md R451,
R454, R462, R469, R475; 12_fabric_links.md R499, R502). -/

namespace Sys2Proof.Machine

/-! ## Answers -/

section Answer
variable {s : State} {p : Packet}

section Arrive
variable (h : ForUs s p)
include h

theorem State.arrive_rdata (hopc : p.opc.toNat = 0x10) : s.arrive p = s.rxRdata p := by
  obtain ⟨hdst, hgood, hver⟩ := h
  rw [State.arrive_here hdst, State.rxPacket, if_neg (by simp [hgood]), State.taken_good _ hgood hver, hopc]
  rfl

theorem State.arrive_ack (hopc : p.opc.toNat = 0x11) : s.arrive p = ((s.rxAck p).mirrorSweep).pumpDma := by
  obtain ⟨hdst, hgood, hver⟩ := h
  rw [State.arrive_here hdst, State.rxPacket, if_neg (by simp [hgood]), State.taken_good _ hgood hver, hopc]
  rfl

theorem State.arrive_refuse (hopc : p.opc.toNat = 0x12) : s.arrive p = s.rxRefuse p := by
  obtain ⟨hdst, hgood, hver⟩ := h
  rw [State.arrive_here hdst, State.rxPacket, if_neg (by simp [hgood]), State.taken_good _ hgood hver, hopc]
  rfl

variable (hp : s.powered = true)
include hp

theorem exec_ack (hwf : (Instr.ack p).wellFormed = true) : exec (.ack p) s = .next ((s.rxAck p).mirrorSweep).pumpDma :=
  (actIf_powered hwf hp fun s => s.arrive p).trans (congrArg _ (State.arrive_ack h (packetOk_opc hwf)))

theorem exec_rdata (hwf : (Instr.rdata p).wellFormed = true) : exec (.rdata p) s = .next (s.rxRdata p) :=
  (actIf_powered hwf hp fun s => s.arrive p).trans (congrArg _ (State.arrive_rdata h (packetOk_opc hwf)))

theorem exec_bulkComplete (hwf : (Instr.bulkComplete p).wellFormed = true) (hopc : p.opc = 0x10) :
    exec (.bulkComplete p) s = .next (s.rxRdata p) :=
  (actIf_powered hwf hp fun s => s.arrive p).trans (congrArg _ (State.arrive_rdata h (congrArg BitVec.toNat hopc)))

theorem exec_refuse (hwf : (Instr.refuse p).wellFormed = true) : exec (.refuse p) s = .next (s.rxRefuse p) :=
  (actIf_powered hwf hp fun s => s.arrive p).trans (congrArg _ (State.arrive_refuse h (packetOk_opc hwf)))

end Arrive

/-! ## The operation an answer names -/

variable {o : OutOp}

theorem State.rxAck_late (h : s.isLost p.src.toNat = true) : s.rxAck p = s.bumpSat Reg.LATE_REPLY := if_pos h

theorem State.rxAck_named (h : s.isLost p.src.toNat = false)
    (hnamed : (s.outOps.find? fun x => x.write && x.pkt.dst == p.src && x.pkt.pseq == p.pseq) = some o) :
    s.rxAck p = (s.finish o p.status.toNat p.imm.toNat p.gran).releaseWaiting := by
  rw [State.rxAck, if_neg (by simp [h]), hnamed]

theorem State.rxRdata_named (h : s.isLost p.src.toNat = false)
    (hnamed : (s.outOps.find? fun x => !x.write && x.path != 17 && x.pkt.dst == p.src && x.pkt.rtag == p.rtag) = some o) :
    s.rxRdata p = (s.finish o p.status.toNat p.imm.toNat p.gran).releaseWaiting := by
  rw [State.rxRdata, if_neg (by simp [h]), hnamed]

theorem State.finish_bulk {b : BulkJob} (status imm : Nat) (gran : List (List Byte))
    (h : (s.bulks.find? fun b => o.issuers == [⟨3, bits b.req 383 336, 0, 0, 0, 0, 0⟩]) = some b) :
    s.finish o status imm gran =
      State.bulkReply { s with outOps := s.outOps.filter fun x => !(x.pkt == o.pkt) } b status (imm % 65536) gran := by
  simp only [State.finish, h]

/-- An operation that no one issued is over, and no one is told. -/
theorem State.finish_unissued (status imm : Nat) (gran : List (List Byte)) (hbulks : s.bulks = []) (hissuers : o.issuers = []) :
    s.finish o status imm gran = { s with outOps := s.outOps.filter fun x => !(x.pkt == o.pkt) } := by
  simp only [State.finish, hbulks, hissuers, List.find?_nil, List.zip_nil_left, List.foldl_nil]

end Answer

/-! ## Held operations (11 R451, R453, 12 R499) -/

section Held
variable {s : State} {p : Packet} {src : BitVec 16} (n : Nat)

theorem State.applyFlags_nil (h : s.heldFlags = []) : State.applyFlags n src s = s := by
  cases n with
  | zero => rfl
  | succ n =>
    rw [State.applyFlags, h]
    rfl

theorem State.releaseHeld_nil (h : s.heldPkts = []) : State.releaseHeld n src s = s := by
  cases n with
  | zero => rfl
  | succ n =>
    rw [State.releaseHeld, h]
    rfl

/-- The one held flag of a source is served once it may be. -/
theorem State.applyFlags_one (h : s.heldFlags = [p]) (hready : s.heldReady s.heldFlags src = some p)
    (hlast : (State.serve { s with heldFlags := [] } p).heldFlags = []) :
    State.applyFlags (n + 1) src s = State.serve { s with heldFlags := [] } p := by
  have hserve : State.applyFlags (n + 1) src s = State.applyFlags n src (State.serve { s with heldFlags := s.heldFlags.erase p } p) := by
    rw [State.applyFlags, hready]
  rw [hserve, h, List.erase_cons_head, State.applyFlags_nil n hlast]

/-- The one held packet of a source is served once it may be. -/
theorem State.releaseHeld_one (h : s.heldPkts = [p]) (hready : s.heldReady s.heldPkts src = some p)
    (hlast : (State.serve { s with heldPkts := [] } p).heldPkts = []) :
    State.releaseHeld (n + 1) src s = State.serve { s with heldPkts := [] } p := by
  have hserve : State.releaseHeld (n + 1) src s = State.releaseHeld n src (State.serve { s with heldPkts := s.heldPkts.erase p } p) := by
    rw [State.releaseHeld, hready]
  rw [hserve, h, List.erase_cons_head, State.releaseHeld_nil n hlast]

end Held

/-! ## Time-outs and resends (11 R462, 12 R499, R502) -/

section Timeout
variable {s : State}

/-- After a wait, rack time is at least the moment that was waited for. -/
theorem State.le_now_waited {since ns : Nat} (hrack : s.time.rack < 2 ^ 96) (hend : since + ns < 2 ^ 64) :
    since + ns ≤ (s.waited since ns).now := by
  simp only [State.now, State.waited]
  omega

variable (hp : s.powered = true) (pos : BitVec 16)
include hp

theorem exec_refuseResend_one {o : OutOp} (hops : s.outOps = [o]) (hdst : o.pkt.dst = pos) (hrefused : o.refused = true) :
    exec (.refuseResend pos) s = .next (s.resend o false) := by
  have hexec : exec (.refuseResend pos) s = execRefuseResend pos s := rfl
  rw [hexec, execRefuseResend, act_powered hp]
  simp [hops, hdst, hrefused]

theorem exec_e2eResend_one {o : OutOp} (hops : s.outOps = [o]) (hdst : o.pkt.dst = pos) (hrefused : o.refused = false)
    (hrack : s.time.rack < 2 ^ 96) (hend : o.sentAt + s.e2eNs < 2 ^ 64) :
    exec (.e2eResend pos) s = .next ((s.waited o.sentAt s.e2eNs).resend o true) := by
  have hdue : o.sentAt + (s.waited o.sentAt s.e2eNs).e2eNs ≤ (s.waited o.sentAt s.e2eNs).now := State.le_now_waited hrack hend
  have hwaiting : (s.outOps.filter fun o => o.pkt.dst == pos && !o.refused) = [o] := by simp [hops, hdst, hrefused]
  have hexec : exec (.e2eResend pos) s = execE2eResend pos s := rfl
  rw [hexec, execE2eResend, act_powered hp]
  simp only [hwaiting, List.head?_cons, List.filter_cons, hdue, decide_true, if_true, List.filter_nil, List.foldl_cons, List.foldl_nil]

theorem exec_gatherTimeout_open {g : Gather} (hopen : (s.gathers.find? fun g => g.dst == pos.toNat) = some g) :
    exec (.gatherTimeout pos) s = .next ((s.waited g.since s.gatherNs).flushGather g) := by
  have hexec : exec (.gatherTimeout pos) s = execGatherTimeout pos s := rfl
  have hflush : (s.waited g.since s.gatherNs).flushTo pos.toNat = (s.waited g.since s.gatherNs).flushGather g := by
    simp only [State.flushTo, State.waited, hopen]
  rw [hexec, execGatherTimeout, act_powered hp]
  simp only [hopen, hflush]

end Timeout

/-- Settles O36: an answer ends the operation it names; what is held or unanswered is one operation here, and is served or sent again. -/
theorem replyRows : Obligations.ReplyRows := by
  refine ⟨fun p s o hp hwf h hlost hnamed => ?_, fun p s o hp hwf h hlost hnamed => ?_, fun p s o hp hwf hopc h hlost hnamed => ?_,
    fun p s hp hwf h => exec_refuse h hp hwf, fun p s hp hwf h hlost => ?_,
    fun s o b status imm gran h => State.finish_bulk status imm gran h,
    fun s o status imm gran hbulks hissuers => State.finish_unissued status imm gran hbulks hissuers,
    fun src s p hp h hready hlast => ?_, fun src s p hp h hready hlast => ?_,
    fun pos s o hp hops hdst hrefused => exec_refuseResend_one hp pos hops hdst hrefused,
    fun pos s o hp hops hdst hrefused hrack hend => exec_e2eResend_one hp pos hops hdst hrefused hrack hend,
    fun pos s g hp hopen => exec_gatherTimeout_open hp pos hopen⟩
  · rw [exec_ack h hp hwf, State.rxAck_named hlost hnamed]
  · rw [exec_rdata h hp hwf, State.rxRdata_named hlost hnamed]
  · rw [exec_bulkComplete h hp hwf hopc, State.rxRdata_named hlost hnamed]
  · rw [exec_ack h hp hwf, State.rxAck_late hlost]
  · exact (act_powered hp _).trans (congrArg _ (State.applyFlags_one 1023 h hready hlast))
  · exact (act_powered hp _).trans (congrArg _ (State.releaseHeld_one 1023 h hready hlast))

end Sys2Proof.Machine
end

section
/-! SUPPORT. Windows and LOST positions (11_fabric_ops.md R434 to R438, R473, R477, R481). -/

namespace Sys2Proof.Machine

/-! ## What reads of the carve-out leave as it was -/

@[simp] theorem State.seenCarve_besides (s : State) (a n : Nat) : (s.seenCarve a n).besides = s.besides := by
  rw [State.seenCarve]
  split
  · exact State.seen_besides ..
  · rfl

@[simp] theorem State.seenCarve_windows (s : State) (a n : Nat) : (s.seenCarve a n).windows = s.windows :=
  (congrArg State.windows (s.seenCarve_besides a n) :)

/-! ## Window commands (R438, R481) -/

section Window
variable {s : State} (hp : s.powered = true) (w : BitVec 12)

/-- The code of an operation and its window, as WCMD holds them. -/
theorem bits_windowCommand {op : Nat} (hop : op < 16) (w : BitVec 12) :
    bits (op * 2 ^ 28 + w.toNat) 31 28 = op ∧ bits (op * 2 ^ 28 + w.toNat) 11 0 = w.toNat := by
  have hw := w.isLt
  constructor <;> unfold bits <;> omega

theorem State.windowCommand_busy (hbusy : s.wBusy = true) (v cls : Nat) : s.windowCommand v cls = s.logWrite Reg.WCMD v cls :=
  if_pos hbusy

theorem State.windowCommand_open (hidle : s.wBusy = false) : s.windowCommand (2 ^ 28 + w.toNat) 0 = s.windowOpen w.toNat := by
  obtain ⟨hop, hwin⟩ := bits_windowCommand (op := 1) (by decide) w
  rw [Nat.one_mul] at hop hwin
  rw [State.windowCommand, if_neg (by simp [hidle]), hop, hwin]
  rfl

theorem State.windowCommand_close (hidle : s.wBusy = false) : s.windowCommand (2 * 2 ^ 28 + w.toNat) 0 = s.windowClose w.toNat := by
  obtain ⟨hop, hwin⟩ := bits_windowCommand (op := 2) (by decide) w
  rw [State.windowCommand, if_neg (by simp [hidle]), hop, hwin]
  rfl

theorem State.windowOpen_opened {w : Nat} {x : WinEnt} (h : Map.get? s.windows w = some x) :
    s.windowOpen w = s.wr Reg.WCMD_STAT 1 0 2 := if_pos (by simp [h])

section Closed
variable {w : Nat} {u : State} (h : Map.get? s.windows w = none) (hu : u = s.seenCarve (s.windowAt w) 32)
include h

theorem State.windowClose_closed : s.windowClose w = s.wr Reg.WCMD_STAT 1 0 2 := if_pos (by simp [h])

include hu

theorem State.windowOpen_fits (hfits : u.entryFits (u.windowEntry w) = true) :
    s.windowOpen w = ({ u with windows := Map.set u.windows w (entWindow (u.windowEntry w)) }).wr Reg.WCMD_STAT 1 0 0 := by
  rw [State.windowOpen, if_neg (by simp [h])]
  dsimp only
  rw [← hu, if_pos hfits]

theorem State.windowOpen_unfit (hfits : u.entryFits (u.windowEntry w) = false) : s.windowOpen w = u.wr Reg.WCMD_STAT 1 0 1 := by
  rw [State.windowOpen, if_neg (by simp [h])]
  dsimp only
  rw [← hu, if_neg (by simp [hfits])]

end Closed

theorem State.windowClose_opened {w : Nat} {x : WinEnt} (h : Map.get? s.windows w = some x) :
    s.windowClose w = (({ s with closing := some w }).wr Reg.WCMD_STAT 1 0 0).wrb Reg.WCMD_STAT 31 true := if_neg (by simp [h])

include hp

theorem exec_windowOpen_command : exec (.windowOpen w) s = .next (s.windowCommand (2 ^ 28 + w.toNat) 0) :=
  act_powered hp fun s => s.windowCommand (2 ^ 28 + w.toNat) 0

theorem exec_windowClose_command : exec (.windowClose w) s = .next (s.windowCommand (2 * 2 ^ 28 + w.toNat) 0) :=
  act_powered hp fun s => s.windowCommand (2 * 2 ^ 28 + w.toNat) 0

theorem exec_windowOpen (hidle : s.wBusy = false) : exec (.windowOpen w) s = .next (s.windowOpen w.toNat) := by
  rw [exec_windowOpen_command hp, State.windowCommand_open w hidle]

theorem exec_windowClose (hidle : s.wBusy = false) : exec (.windowClose w) s = .next (s.windowClose w.toNat) := by
  rw [exec_windowClose_command hp, State.windowCommand_close w hidle]

/-! ## The end of a CLOSE -/

theorem exec_closeComplete_none (h : s.closing = none) : exec .closeComplete s = .next s := by
  have hexec : exec .closeComplete s = execCloseComplete s := rfl
  rw [hexec, execCloseComplete, act_powered hp]
  simp only [h]

variable {x : Nat} (h : s.closing = some x)
include h

theorem exec_closeComplete_idle (hflags : s.heldFlags = []) (hpkts : s.heldPkts = []) :
    exec .closeComplete s =
      .next (({ s with windows := Map.erase s.windows x, closing := none }).wrb Reg.WCMD_STAT 31 false) := by
  have hexec : exec .closeComplete s = execCloseComplete s := rfl
  rw [hexec, execCloseComplete, act_powered hp]
  simp [h, hflags, hpkts]

/-- An operation that was admitted on the window and is held keeps it. -/
theorem exec_closeComplete_used {p : Packet} (hheld : p ∈ s.heldFlags ∨ p ∈ s.heldPkts) (hst : p.status = 0)
    (huses : ∃ l ∈ linesOf p, l.1 = x) : exec .closeComplete s = .next s := by
  have hexec : exec .closeComplete s = execCloseComplete s := rfl
  rw [hexec, execCloseComplete, act_powered hp]
  simp only [h]
  refine congrArg _ (if_pos ?_)
  have huse : (p.status == 0 && (linesOf p).any fun l => l.1 == x) = true := by simpa [hst] using huses
  rw [Bool.or_eq_true, List.any_eq_true, List.any_eq_true]
  exact hheld.imp (fun hmem => ⟨p, hmem, huse⟩) fun hmem => ⟨p, hmem, huse⟩

end Window

/-! ## LOST positions (R473, R477) -/

section Lost
variable {s : State} {pos : Nat}

theorem State.peer_setPeer (s : State) (pos : Nat) (p : Peer) : (s.setPeer pos p).peer pos = p := Map.getD_set_same ..

theorem State.peer_setPeer_ne (s : State) {pos q : Nat} (p : Peer) (h : q ≠ pos) : (s.setPeer pos p).peer q = s.peer q :=
  Map.getD_set_ne _ _ _ h

/-- What the module holds of its pairs with other positions, and what is outstanding to them. -/
def State.pairs (s : State) : Map Peer × List Packet × List Packet × List OutOp := (s.peers, s.heldFlags, s.heldPkts, s.outOps)

@[simp] theorem pairs_ite (c : Prop) [Decidable c] (s t : State) :
    (if c then s else t).pairs = if c then s.pairs else t.pairs := apply_ite State.pairs c s t

@[simp] theorem State.wr_pairs (s : State) (o hi lo v : Nat) : (s.wr o hi lo v).pairs = s.pairs := rfl
@[simp] theorem State.bumpSat_pairs (s : State) (o n : Nat) : (s.bumpSat o n).pairs = s.pairs := rfl
@[simp] theorem State.post_pairs (s : State) (code : Nat) (args : List Nat) : (s.post code args).pairs = s.pairs :=
  (congrArg State.pairs (s.post_besides code args) :)
@[simp] theorem State.report_pairs (s : State) : s.report.pairs = s.pairs := by
  rw [State.report]
  split <;> rfl

theorem State.releaseWaiting_nil (h : s.outOps = []) : s.releaseWaiting = s := by simp [State.releaseWaiting, h]

/-- A position with nothing outstanding to it becomes LOST: its mark is set, and what is held from it goes. -/
theorem State.markLost_pairs (hlost : s.isLost pos = false) (hops : s.outOps = []) (hgathers : s.gathers = []) :
    (s.markLost pos).pairs = (Map.set s.peers pos { s.peer pos with lost := true },
      s.heldFlags.filter (fun p => p.src.toNat != pos), s.heldPkts.filter (fun p => p.src.toNat != pos), []) := by
  rw [State.markLost, if_neg (by simp [hlost])]
  extract_lets pair marked ops gs nf cleared counted ended told posted mirrored
  have hops' : ops = [] := by simp [ops, marked, State.setPeer, hops]
  have hgs : gs = [] := by simp [gs, marked, State.setPeer, hgathers]
  have hcleared : cleared.pairs = (Map.set s.peers pos { s.peer pos with lost := true },
      s.heldFlags.filter (fun p => p.src.toNat != pos), s.heldPkts.filter (fun p => p.src.toNat != pos), []) := by
    simp [State.pairs, cleared, marked, pair, State.setPeer, hops]
  have htold : told = counted := by simp [told, ended, hgs, hops', State.loseOps]
  have hmirrored : mirrored.pairs = cleared.pairs := by simp [mirrored, posted, htold, counted]
  have hout : mirrored.outOps = [] := congrArg (·.2.2.2) (hmirrored.trans hcleared)
  clear_value mirrored
  rw [State.report_pairs, State.releaseWaiting_nil]
  · exact hmirrored.trans hcleared
  · exact hout

/-- A position whose mark is cleared with nothing outstanding to it starts afresh. -/
theorem State.clearLost_idle (h : ∀ o ∈ s.outOps, o.pkt.dst.toNat ≠ pos) : s.clearLost pos =
    State.setPeer { s with
      heldFlags := s.heldFlags.filter fun p => p.src.toNat != pos
      heldPkts := s.heldPkts.filter fun p => p.src.toNat != pos } pos Peer.zero := by
  have hops : (s.outOps.filter fun o => o.pkt.dst.toNat == pos) = [] := by simpa using h
  have hkept : (s.outOps.filter fun o => o.pkt.dst.toNat != pos) = s.outOps := by simpa using h
  rw [State.clearLost, hops, hkept]
  rfl

end Lost

section Timeout
variable {s : State} (hp : s.powered = true) (pos : BitVec 16)
include hp

theorem exec_reachMark : exec (.reachMark pos) s = .next (s.markLost pos.toNat) := act_powered hp fun s => s.markLost pos.toNat

theorem exec_reachClear : exec (.reachClear pos) s = .next (s.clearLost pos.toNat) := act_powered hp fun s => s.clearLost pos.toNat

theorem exec_tlostTimeout_open {o : OutOp} (h : (s.outOps.find? fun o => o.pkt.dst == pos && o.path != 17) = some o) :
    exec (.tlostTimeout pos) s = .next ((s.waited o.sentAt s.tlostNs).markLost pos.toNat) := by
  have hexec : exec (.tlostTimeout pos) s = execTlostTimeout pos s := rfl
  rw [hexec, execTlostTimeout, act_powered hp]
  simp only [h]

/-- No operation waits for an answer of the position: those that go there have not been sent. -/
theorem exec_tlostTimeout_idle (h : ∀ o ∈ s.outOps, o.pkt.dst = pos → o.path = 17) : exec (.tlostTimeout pos) s = .next s := by
  have hnone : (s.outOps.find? fun o => o.pkt.dst == pos && o.path != 17) = none := by simpa using h
  have hexec : exec (.tlostTimeout pos) s = execTlostTimeout pos s := rfl
  rw [hexec, execTlostTimeout, act_powered hp]
  simp only [hnone]

end Timeout

/-- Settles O37: the window commands by the branch of WCMD they take; a LOST position's pair by what `State.markLost` and
`State.clearLost` leave of it. -/
theorem windowAndReachRows : Obligations.WindowAndReachRows := by
  refine ⟨fun w s u hp hidle hnone hu hfits => ?_, fun w s x hp hidle hopen => ?_, fun s w hp hclosing hflags hpkts => ?_,
    fun pos s hp hlost hops hgathers => ?_, fun pos s hp => exec_reachMark hp pos, fun pos s hp hops => ?_,
    fun pos s hp => exec_reachClear hp pos, fun pos s o hp h => exec_tlostTimeout_open hp pos h,
    fun pos s hp h => exec_tlostTimeout_idle hp pos h, fun w s hp => ⟨fun hbusy => ?_, fun hidle x hopen => ?_, fun hidle hnone => ?_,
      fun u hidle hnone hu hfits => ?_⟩, fun s hp h => exec_closeComplete_none hp h,
    fun s w p hp hclosing hheld hst huses => exec_closeComplete_used hp hclosing hheld hst huses⟩
  · refine ⟨_, (exec_windowOpen hp w hidle).trans (congrArg _ (State.windowOpen_fits hnone hu hfits)), Map.get?_set_same .., ?_,
      State.rd_wr _ _ 0 (by decide) (by decide), rfl⟩
    intro v hv
    have hwindows : u.windows = s.windows := by rw [hu, State.seenCarve_windows]
    exact (Map.get?_set_ne _ _ hv).trans (by rw [hwindows])
  · refine ⟨_, (exec_windowClose hp w hidle).trans (congrArg _ (State.windowClose_opened hopen)), rfl,
      State.rdb_wrb _ _ true (by decide), ?_, rfl, rfl⟩
    exact (State.rd_wr_below _ _ _ (by decide) (by decide) (by decide) (by decide)).trans
      (State.rd_wr _ _ 0 (by decide) (by decide))
  · exact ⟨_, exec_closeComplete_idle hp hclosing hflags hpkts, rfl, (Map.get?_erase ..).trans (if_pos rfl),
      State.rdb_wrb _ _ false (by decide), rfl⟩
  · obtain ⟨hpeers, hflags, hpkts, -⟩ : _ ∧ _ ∧ _ ∧ _ := by
      simpa only [State.pairs, Prod.mk.injEq] using State.markLost_pairs hlost hops hgathers
    refine ⟨_, exec_reachMark hp pos, ?_, ?_, ?_⟩
    · rw [State.isLost, State.peer, hpeers, Map.getD_set_same]
    · rw [hpkts]
      exact fun p hmem hsrc => by simp [hsrc] at hmem
    · rw [hflags]
      exact fun p hmem hsrc => by simp [hsrc] at hmem
  · have hdst : ∀ o ∈ s.outOps, o.pkt.dst.toNat ≠ pos.toNat := fun o ho h => hops o ho (BitVec.eq_of_toNat_eq h)
    exact ⟨_, (exec_reachClear hp pos).trans (congrArg _ (State.clearLost_idle hdst)), State.peer_setPeer .., rfl, rfl, rfl,
      fun q hq => State.peer_setPeer_ne _ _ hq⟩
  · rw [exec_windowOpen_command hp, exec_windowClose_command hp, State.windowCommand_busy hbusy, State.windowCommand_busy hbusy]
    exact ⟨rfl, rfl⟩
  · rw [exec_windowOpen hp w hidle, State.windowOpen_opened hopen]
  · rw [exec_windowClose hp w hidle, State.windowClose_closed hnone]
  · rw [exec_windowOpen hp w hidle, State.windowOpen_unfit hnone hu hfits]

end Sys2Proof.Machine
end

section
/-! SUPPORT. The Quill's aperture accesses and the bulk ring (11_fabric_ops.md R442, R444, R445, R457, R467 to R471). -/

namespace Sys2Proof.Machine

/-! ## Operations at an aperture address (R442) -/

section Quill
variable {s u : State} {a n need : Nat} (hu : u = s.seenImport none a)
include hu

section Op
variable (opc : Nat) (f : State → Nat → State)

theorem State.quillOp_allowed (h : importOk (u.importEntry none a) (a % 2 ^ 36) n need = true) :
    s.quillOp a opc n need f = f u (u.importEntry none a) := by
  subst hu
  exact if_pos h

theorem State.quillOp_refused (h : importOk (u.importEntry none a) (a % 2 ^ 36) n need = false) :
    s.quillOp a opc n need f = (u.answer 2 []).post 0x0901 [a, opc] := by
  subst hu
  exact if_neg (Bool.eq_false_iff.mp h)

end Op

/-! ## The Quill's stores (R444, R457) -/

theorem State.quillStore8_allowed (be : BitVec 8) (w : List Byte)
    (h : importOk (u.importEntry none a) (a % 2 ^ 36) 8 2 = true) :
    s.quillStore8 a be w = (u.bump Reg.QF_ISSUED).issue
      { aperPacket u 0x08 (u.importEntry none a) a with be := be, imm := BitVec.ofNat 64 (leNat w) }
      ⟨2, (u.word Reg.QF_ISSUED).toNat, 0, 0, 0, 0, 0⟩ a (bits (u.importEntry none a) 99 64) (bit (u.importEntry none a) 62) :=
  State.quillOp_allowed hu 0x08 _ h

theorem State.quillStore8_refused (be : BitVec 8) (w : List Byte)
    (h : importOk (u.importEntry none a) (a % 2 ^ 36) 8 2 = false) :
    s.quillStore8 a be w = (u.answer 2 []).post 0x0901 [a, 0x08] :=
  State.quillOp_refused hu 0x08 _ h

end Quill

section Commands
variable {s : State} (hp : s.powered = true) (aper : BitVec 48)
include hp

theorem exec_quillLoad (line : Bool) : exec (.quillLoad aper line) s =
    .next (s.quillOp aper.toNat (if line then 0x02 else 0x01) (if line then 64 else 8) 1 fun s e =>
      s.issue (aperPacket s (if line then 0x02 else 0x01) e aper.toNat) ⟨2, 0, 0, 0, 0, if line then 64 else 8, 0⟩ aper.toNat
        (bits e 99 64) (bit e 62)) := by
  have hexec : exec (.quillLoad aper line) s = execQuillLoad aper line s := rfl
  rw [hexec, execQuillLoad, act_powered hp]

theorem exec_quillStore_word (be : BitVec 8) {data : List Byte} (h : data.length = 8) :
    exec (.quillStore aper be data) s = .next (s.quillStore8 aper.toNat be data) := by
  have hexec : exec (.quillStore aper be data) s = execQuillStore aper be data s := rfl
  rw [hexec, execQuillStore, actIf_powered (by simp [h]) hp, if_pos h]

theorem exec_quillStore_line (be : BitVec 8) {data : List Byte} (h : data.length = 64) :
    exec (.quillStore aper be data) s = .next ((List.range 8).foldl (fun v i =>
      v.quillStore8 (aper.toNat + 8 * i) 0xFF ((data.drop (8 * i)).take 8)) s) := by
  have hexec : exec (.quillStore aper be data) s = execQuillStore aper be data s := rfl
  rw [hexec, execQuillStore, actIf_powered (by simp [h]) hp, if_neg (by omega)]

variable {op : BitVec 4} (a b : W64)

theorem exec_quillAtomic_atomic (h8 : op ≠ 8) (h9 : op ≠ 9) : exec (.quillAtomic aper op a b) s =
    .next (s.quillOp aper.toNat 0x0B 8 4 fun s e => s.quillWrite e aper.toNat 0x0B fun p => { p with
      atop := op, imm := a, gran := if op = 4 then [leBytes 8 b.toNat ++ List.replicate 56 0] else [] }) := by
  have hexec : exec (.quillAtomic aper op a b) s = execQuillAtomic aper op a b s := rfl
  rw [hexec, execQuillAtomic, act_powered hp]
  exact congrArg _ (if_neg (not_or.mpr ⟨h8, h9⟩))

theorem exec_quillAtomic_flag (add : Bool) : exec (.quillAtomic aper (if add then 9 else 8) a b) s =
    .next (s.quillOp aper.toNat 0x0C 8 (if add then 12 else 10) fun s e => s.quillWrite e aper.toNat 0x0C fun p => { p with
      atop := if add then 1 else 0, imm := a }) := by
  have hexec : exec (.quillAtomic aper (if add then 9 else 8) a b) s = execQuillAtomic aper (if add then 9 else 8) a b s := rfl
  rw [hexec, execQuillAtomic, act_powered hp]
  cases add <;> rfl

end Commands

/-! ## The bulk ring (R467 to R471) -/

section Bulk
variable {s h u : State} {r : Nat} (hhead : s.bulkHead = ⟨h, some r⟩) (hcan : CanTake h Reg.BQ_CONS (bits r 383 336))
  (hgood : bulkBad r = false) (hu : u = takenAs h Reg.BQ_CONS (bits r 383 336) (bits r 159 128) 2)
include hhead hcan hgood hu

/-- The request at the ring's head, of the row's operation, is taken: a READ or a WRITE starts, and an ABORT that is over at once
writes its record. -/
theorem State.bulkStep_taken : s.bulkStep (bits r 7 0) =
    if bits r 7 0 = 3 then (u.bulkAbort r).2.elim (u.bulkAbort r).1 fun x => (u.bulkAbort r).1.bulkRec r x 0 0
    else u.bulkStart r := by
  obtain ⟨hrec, hidle⟩ := hcan
  rw [takenAs] at hu
  simp only [State.bulkStep, hhead, hrec, State.recTake_idle hidle, hgood, bne_self_eq_false, Bool.false_and, Bool.not_true,
    Bool.false_eq_true, if_false, ← hu]
  refine if_congr Iff.rfl ?_ rfl
  rcases u.bulkAbort r with ⟨v, _ | x⟩ <;> rfl

end Bulk

/-- Settles O38: an access is issued or refused as its import entry says; the request at the bulk ring's head is taken as any record's
operation is, and started or acted on. -/
theorem ownRequests : Obligations.OwnRequests := by
  refine ⟨fun aper line s u hp hu => ⟨fun hok => ?_, fun hok => ?_⟩,
    fun aper be data s hp => ⟨exec_quillStore_word hp aper be, exec_quillStore_line hp aper be⟩,
    fun a be w s u hu => ⟨State.quillStore8_allowed hu be w, State.quillStore8_refused hu be w⟩,
    fun aper op a b s u hp h8 h9 hu => ⟨fun hok => ?_, fun hok => ?_⟩,
    fun aper add a b s u hp hu => ⟨fun hok => ?_, fun hok => ?_⟩,
    fun s h u r hp hhead hcan hgood hu => ?_⟩
  · rw [exec_quillLoad hp, State.quillOp_allowed hu _ _ hok]
  · rw [exec_quillLoad hp, State.quillOp_refused hu _ _ hok]
  · rw [exec_quillAtomic_atomic hp aper a b h8 h9, State.quillOp_allowed hu _ _ hok]
    rfl
  · rw [exec_quillAtomic_atomic hp aper a b h8 h9, State.quillOp_refused hu _ _ hok]
  · rw [exec_quillAtomic_flag hp, State.quillOp_allowed hu _ _ hok]
    rfl
  · rw [exec_quillAtomic_flag hp, State.quillOp_refused hu _ _ hok]
  have htaken := State.bulkStep_taken hhead hcan hgood hu
  refine ⟨fun hop => ?_, fun hop => ?_, fun v x hop habort => ?_⟩
  · rw [hop, if_neg (by decide)] at htaken
    exact (act_powered hp fun s => s.bulkStep 1).trans (congrArg _ htaken)
  · rw [hop, if_neg (by decide)] at htaken
    exact (act_powered hp fun s => s.bulkStep 2).trans (congrArg _ htaken)
  · rw [hop, if_pos rfl, habort] at htaken
    refine (act_powered hp fun s => s.bulkStep 3).trans (congrArg _ (htaken.trans ?_))
    cases x <;> rfl

end Sys2Proof.Machine
end

section
/-! SUPPORT. A packet's bytes and what is read back from them (12_fabric_links.md R490 to R494). -/

namespace Sys2Proof.Machine

/-! ## The header's checksum -/

theorem crcStep_lt (n : Nat) {c : Nat} (h : c < 2 ^ 32) : crcStep n c < 2 ^ 32 := by
  induction n generalizing c with
  | zero => exact h
  | succ n ih =>
    have hhalf : c / 2 < 2 ^ 32 := Nat.lt_of_le_of_lt (Nat.div_le_self c 2) h
    rw [crcStep]
    split
    · exact ih (Nat.xor_lt_two_pow hhalf (by decide))
    · exact ih hhalf

theorem crc32c_lt (bs : List Byte) : crc32c bs < 2 ^ 32 := by
  refine Nat.xor_lt_two_pow (List.foldlRecOn (motive := (· < 2 ^ 32)) bs _ (by decide) fun c hc b _ => ?_) (by decide)
  exact crcStep_lt 8 (Nat.xor_lt_two_pow hc (b.isLt.trans (by decide)))

/-! ## Granules -/

theorem rsCheck_length (d : List Byte) : (rsCheck d).length = 4 := by
  have hrem : (rsRem [0x0F, 0x36, 0x78, 0x40] (d.map BitVec.toNat)).length = 4 :=
    List.foldlRecOn (motive := fun r : List Nat => r.length = 4) _ _ rfl fun _ _ _ _ => by rw [List.length_map, List.length_range]; rfl
  rw [rsCheck, List.length_map, hrem]

/-- A granule with its check bytes is a codeword, which is read as its data. -/
theorem granData_codeword {g : List Byte} (h : g.length = 64) : granData (g ++ rsCheck g) = some g := by
  have hcode : isCode (g ++ rsCheck g) = true := by rw [isCode, List.take_left' h, List.drop_left' h, beq_self_eq_true]
  rw [granData, rsDecode, if_pos hcode, Option.map_some, List.take_left' h]

/-- Pieces of one length are found again in what they make up. -/
theorem chunks_flatMap {α β : Type} {n : Nat} (hn : 0 < n) {f : β → List α} (l : List β) (h : ∀ x ∈ l, (f x).length = n) {fuel : Nat}
    (hfuel : l.length < fuel) : chunks n fuel (l.flatMap f) = l.map f := by
  induction l generalizing fuel with
  | nil =>
    cases fuel with
    | zero => rfl
    | succ fuel => rfl
  | cons x l ih =>
    obtain ⟨fuel, rfl⟩ := Nat.exists_eq_succ_of_ne_zero (Nat.ne_of_gt (Nat.zero_lt_of_lt hfuel))
    obtain ⟨hx, hl⟩ := List.forall_mem_cons.mp h
    have hne : (f x ++ l.flatMap f).isEmpty = false := by
      rw [← Bool.not_eq_true, List.isEmpty_iff_length_eq_zero, List.length_append]
      omega
    rw [List.flatMap_cons, chunks, hne, if_neg Bool.false_ne_true, List.take_left' hx, List.drop_left' hx,
      ih hl (Nat.lt_of_succ_lt_succ hfuel), List.map_cons]

/-! ## Fields of a header -/

/-- The bytes of fields in order, each a width and a value. -/
def fieldBytes (fs : List (Nat × Nat)) : List Byte := fs.flatMap fun f => leBytes f.1 f.2

/-- The number of n bytes at an offset. -/
abbrev readLe (b : List Byte) (i n : Nat) : Nat := leNat ((b.drop i).take n)

/-- Each field is read at the end of those before it. -/
theorem readLe_fieldBytes {fs : List (Nat × Nat)} (hfit : ∀ f ∈ fs, f.2 < 256 ^ f.1) (l : List Byte) {k : Nat} (hk : k < fs.length) :
    readLe (fieldBytes fs ++ l) ((fs.take k).map Prod.fst).sum fs[k].1 = fs[k].2 := by
  induction fs generalizing k with
  | nil => cases hk
  | cons f fs ih =>
    obtain ⟨hf, hfs⟩ := List.forall_mem_cons.mp hfit
    rw [fieldBytes, List.flatMap_cons, List.append_assoc, readLe]
    cases k with
    | zero =>
      rw [List.take_zero, List.map_nil, List.sum_nil, List.drop_zero, List.getElem_cons_zero,
        List.take_left' (leBytes_length ..), leNat_leBytes, Nat.mod_eq_of_lt hf]
    | succ k =>
      rw [List.take_succ_cons, List.map_cons, List.sum_cons, ← List.drop_drop, List.drop_left' (leBytes_length ..)]
      exact ih hfs (Nat.lt_of_succ_lt_succ hk)

/-- The flag byte of a packet's header: virtual lane, dependency, hops (R491). -/
def headFlags (p : Packet) : Nat := vlOf p.opc.toNat + (if p.dep.isSome then 8 else 0) + 16 * p.hops.toNat

/-- The size word of a packet's header: granules less one, status, payload (R491). -/
def headSize (p : Packet) : Nat := p.ngm1.toNat + 1024 * p.status.toNat + if p.gran.isEmpty then 0 else 16384

/-- The fields of a packet's header before HCHK, in order (R491). -/
def headFields (p : Packet) : List (Nat × Nat) :=
  [(1, p.opc.toNat), (1, headFlags p), (2, p.src.toNat), (2, p.dst.toNat), (2, headSize p), (4, p.pseq.toNat), (4, (p.dep.getD 0).toNat),
   (2, p.rtag.toNat + 4096 * p.atop.toNat), (1, p.issuer.toNat), (1, p.gen.toNat), (2, p.win.toNat + 4096 * p.pver.toNat),
   (5, p.offset.toNat), (1, p.be.toNat), (8, p.imm.toNat)]

/-- The bytes of a header that HCHK covers: all before it, with the hops read as zero (R492). -/
def checkedHead (p : Packet) : List Byte := (fieldBytes (headFields p)).set 1 ((fieldBytes (headFields p)).getD 1 0 &&& 0x0F)

/-- HCHK and the payload. -/
def tailBytes (p : Packet) : List Byte := leBytes 4 (crc32c (checkedHead p)) ++ p.gran.flatMap fun g => g ++ rsCheck g

theorem packetBytes_eq (p : Packet) : packetBytes p = fieldBytes (headFields p) ++ tailBytes p := by
  simp only [packetBytes, tailBytes, checkedHead, fieldBytes, headFields, headFlags, headSize, List.flatMap_cons, List.flatMap_nil,
    List.append_assoc, List.append_nil]

theorem headBytes_length (p : Packet) : (fieldBytes (headFields p)).length = 36 := by
  simp only [fieldBytes, headFields, List.flatMap_cons, List.flatMap_nil, List.length_append, leBytes_length, List.length_nil]

theorem vlOf_le (opc : Nat) : vlOf opc ≤ 4 := by
  rw [vlOf]
  split
  · exact le_refl 4
  · split <;> decide

theorem headFlags_lt (p : Packet) : headFlags p < 256 := by
  have := vlOf_le p.opc.toNat
  have := p.hops.isLt
  rw [headFlags]
  split <;> omega

theorem headSize_lt (p : Packet) : headSize p < 256 ^ 2 := by
  have := p.ngm1.isLt
  have := p.status.isLt
  rw [headSize]
  split <;> omega

/-- A tag of 12 bits and one of 4 in a word. -/
theorem tagWord_lt (a : BitVec 12) (b : BitVec 4) : a.toNat + 4096 * b.toNat < 256 ^ 2 := by
  have := a.isLt
  have := b.isLt
  omega

theorem headFields_fit (p : Packet) : ∀ f ∈ headFields p, f.2 < 256 ^ f.1 := by
  simp only [headFields, List.forall_mem_cons, List.not_mem_nil, false_implies, implies_true, and_true]
  exact ⟨p.opc.isLt, headFlags_lt p, p.src.isLt, p.dst.isLt, headSize_lt p, p.pseq.isLt, (p.dep.getD 0).isLt, tagWord_lt .., p.issuer.isLt,
    p.gen.isLt, tagWord_lt .., p.offset.isLt.trans (by decide), p.be.isLt, p.imm.isLt⟩

/-- The widths of the header's fields. -/
def headWidths : List Nat := [1, 1, 2, 2, 2, 4, 4, 2, 1, 1, 2, 5, 1, 8]

/-- Field k of the header, at the offset its widths give, as it is read from the packet's bytes. -/
theorem readLe_packetBytes (p : Packet) (k : Nat) {i n v : Nat} (hi : (headWidths.take k).sum = i)
    (hf : (headFields p)[k]? = some (n, v)) : readLe (packetBytes p) i n = v := by
  obtain ⟨hk, hget⟩ := List.getElem?_eq_some_iff.mp hf
  have hread := readLe_fieldBytes (headFields_fit p) (tailBytes p) hk
  rw [List.map_take, show (headFields p).map Prod.fst = headWidths from rfl, hi, hget] at hread
  rw [packetBytes_eq, hread]

/-! ## The packet read back -/

theorem gran_length {p : Packet} (h : ∀ g ∈ p.gran, g.length = 64) : ∀ g ∈ p.gran, (g ++ rsCheck g).length = 68 := fun g hg => by
  rw [List.length_append, h g hg, rsCheck_length]

theorem packetBytes_length {p : Packet} (h : ∀ g ∈ p.gran, g.length = 64) : (packetBytes p).length = 40 + 68 * p.gran.length := by
  rw [packetBytes_eq, tailBytes, List.length_append, List.length_append, headBytes_length, leBytes_length, List.length_flatMap,
    List.map_congr_left (gran_length h), List.map_const', List.sum_replicate, smul_eq_mul]
  omega

theorem packetBytes_drop_head (p : Packet) : (packetBytes p).drop 36 = tailBytes p := by
  rw [packetBytes_eq, List.drop_left' (headBytes_length p)]

/-- The payload of a packet is read back granule by granule. -/
theorem chunks_packetBytes {p : Packet} (h : ∀ g ∈ p.gran, g.length = 64) :
    (chunks 68 ((packetBytes p).length / 68 + 1) ((packetBytes p).drop 40)).map granData = p.gran.map some := by
  rw [show 40 = 36 + 4 from rfl, ← List.drop_drop, packetBytes_drop_head, tailBytes, List.drop_left' (leBytes_length ..),
    chunks_flatMap (by decide) _ (gran_length h) (by rw [packetBytes_length h]; omega), List.map_map]
  exact List.map_congr_left fun g hg => granData_codeword (h g hg)

theorem bits_headFlags_hops (p : Packet) : bits (headFlags p) 7 4 = p.hops.toNat := by
  have := vlOf_le p.opc.toNat
  have := p.hops.isLt
  rw [headFlags, bits]
  split <;> omega

theorem bit_headFlags_dep (p : Packet) : bit (headFlags p) 3 = p.dep.isSome := by
  have := vlOf_le p.opc.toNat
  rw [headFlags, bit, Bool.eq_iff_iff, beq_iff_eq]
  split <;> rename_i hdep <;> simp only [hdep, Bool.false_eq_true, iff_true, iff_false] <;> omega

theorem bits_headSize_ngm1 (p : Packet) : bits (headSize p) 9 0 = p.ngm1.toNat := by
  have := p.ngm1.isLt
  rw [headSize, bits]
  split <;> omega

theorem bits_headSize_status (p : Packet) : bits (headSize p) 13 10 = p.status.toNat := by
  have := p.ngm1.isLt
  have := p.status.isLt
  rw [headSize, bits]
  split <;> omega

theorem bit_headSize_payload (p : Packet) : bit (headSize p) 14 = !p.gran.isEmpty := by
  have := p.ngm1.isLt
  have := p.status.isLt
  rw [headSize, bit, Bool.eq_iff_iff, beq_iff_eq]
  split <;> rename_i hgran <;> simp only [hgran, Bool.not_true, Bool.not_false, Bool.false_eq_true, iff_true, iff_false] <;> omega

theorem tagWord_low (a : BitVec 12) (b : BitVec 4) : BitVec.ofNat 12 (a.toNat + 4096 * b.toNat) = a :=
  BitVec.eq_of_toNat_eq (by rw [BitVec.toNat_ofNat, Nat.add_mul_mod_self_left, Nat.mod_eq_of_lt a.isLt])

theorem tagWord_high (a : BitVec 12) (b : BitVec 4) : bits (a.toNat + 4096 * b.toNat) 15 12 = b.toNat := by
  have := a.isLt
  have := b.isLt
  rw [bits]
  omega

/-- Decode of encode: every field of a packet is read back. -/
theorem parsePacket_packetBytes {p : Packet} (h : ∀ g ∈ p.gran, g.length = 64) (hgood : p.badGranule = false) :
    parsePacket (packetBytes p) = p := by
  have hfield := readLe_packetBytes p
  have hopc : readLe (packetBytes p) 0 1 = p.opc.toNat := hfield 0 (by decide) rfl
  have hflags : readLe (packetBytes p) 1 1 = headFlags p := hfield 1 (by decide) rfl
  have hsrc : readLe (packetBytes p) 2 2 = p.src.toNat := hfield 2 (by decide) rfl
  have hdst : readLe (packetBytes p) 4 2 = p.dst.toNat := hfield 3 (by decide) rfl
  have hsize : readLe (packetBytes p) 6 2 = headSize p := hfield 4 (by decide) rfl
  have hpseq : readLe (packetBytes p) 8 4 = p.pseq.toNat := hfield 5 (by decide) rfl
  have hdep : readLe (packetBytes p) 12 4 = (p.dep.getD 0).toNat := hfield 6 (by decide) rfl
  have hrtag : readLe (packetBytes p) 16 2 = p.rtag.toNat + 4096 * p.atop.toNat := hfield 7 (by decide) rfl
  have hissuer : readLe (packetBytes p) 18 1 = p.issuer.toNat := hfield 8 (by decide) rfl
  have hgen : readLe (packetBytes p) 19 1 = p.gen.toNat := hfield 9 (by decide) rfl
  have hwin : readLe (packetBytes p) 20 2 = p.win.toNat + 4096 * p.pver.toNat := hfield 10 (by decide) rfl
  have hoffset : readLe (packetBytes p) 22 5 = p.offset.toNat := hfield 11 (by decide) rfl
  have hbe : readLe (packetBytes p) 27 1 = p.be.toNat := hfield 12 (by decide) rfl
  have himm : readLe (packetBytes p) 28 8 = p.imm.toNat := hfield 13 (by decide) rfl
  have hdepOf : (if p.dep.isSome then some (p.dep.getD 0) else none) = p.dep := by cases p.dep <;> rfl
  have hgran : (p.gran.map some).map (fun g => g.getD (List.replicate 64 0)) = p.gran := by rw [List.map_map]; exact List.map_id _
  have hbad : (p.gran.map some).any Option.isNone = p.badGranule := by rw [hgood, List.any_map, List.any_eq_false]; exact fun _ _ => nofun
  simp only [parsePacket, chunks_packetBytes h, hopc, hflags, hsrc, hdst, hsize, hpseq, hdep, hrtag, hissuer, hgen, hwin, hoffset, hbe, himm,
    bits_headFlags_hops, bit_headFlags_dep, bits_headSize_ngm1, bits_headSize_status, tagWord_low, tagWord_high, BitVec.ofNat_toNat,
    BitVec.setWidth_eq, hdepOf, hgran, hbad]

/-! ## A header made of a packet is good -/

/-- A number of bytes is its first byte and what follows. -/
theorem readLe_succ (b : List Byte) (i n : Nat) : readLe b i (n + 1) = (b.getD i 0).toNat + 256 * readLe b (i + 1) n := by
  rw [readLe, readLe, List.getD_eq_getElem?_getD, ← List.tail_drop, ← List.head?_drop]
  cases b.drop i with
  | nil => rw [List.tail_nil, List.take_nil, List.take_nil]; rfl
  | cons x l => rfl

theorem readLe_zero (b : List Byte) (i : Nat) : readLe b i 0 = 0 := by rw [readLe, List.take_zero, leNat]

theorem packetBytes_opc (p : Packet) : ((packetBytes p).getD 0 0).toNat = p.opc.toNat := by
  have hread : readLe (packetBytes p) 0 1 = p.opc.toNat := readLe_packetBytes p 0 (by decide) rfl
  rwa [readLe_succ, readLe_zero, Nat.mul_zero, Nat.add_zero] at hread

theorem packetBytes_flags (p : Packet) : ((packetBytes p).getD 1 0).toNat = headFlags p := by
  have hread : readLe (packetBytes p) 1 1 = headFlags p := readLe_packetBytes p 1 (by decide) rfl
  rwa [readLe_succ, readLe_zero, Nat.mul_zero, Nat.add_zero] at hread

/-- ATOP is the high nibble of byte 17 (R491). -/
theorem packetBytes_atop (p : Packet) : ((packetBytes p).getD 17 0).toNat / 16 = p.atop.toNat := by
  have hread : readLe (packetBytes p) 16 2 = p.rtag.toNat + 4096 * p.atop.toNat := readLe_packetBytes p 7 (by decide) rfl
  have := ((packetBytes p).getD 16 0).isLt
  have := p.rtag.isLt
  rw [readLe_succ, readLe_succ, readLe_zero, show 16 + 1 = 17 from rfl] at hread
  omega

theorem headFlags_vl (p : Packet) : headFlags p % 8 = vlOf p.opc.toNat := by
  have := vlOf_le p.opc.toNat
  rw [headFlags]
  split <;> omega

/-- The header of a packet of a known opcode is good: HCHK is that of the bytes it covers (R492). -/
theorem headerGood_packetBytes {p : Packet} (hopc : knownOpc p.opc.toNat = true) : headerGood (packetBytes p) = true := by
  have hhead : (packetBytes p).take 36 = fieldBytes (headFields p) := by rw [packetBytes_eq, List.take_left' (headBytes_length p)]
  have hflags : (packetBytes p).getD 1 0 = (fieldBytes (headFields p)).getD 1 0 := by rw [packetBytes_eq]; rfl
  have hcheck : leNat (((packetBytes p).drop 36).take 4) = crc32c (checkedHead p) := by
    rw [packetBytes_drop_head, tailBytes, List.take_left' (leBytes_length ..), leNat_leBytes]
    exact Nat.mod_eq_of_lt (crc32c_lt _)
  have hvl : ((packetBytes p).getD 1 0).toNat % 8 ≤ 4 := by
    rw [packetBytes_flags, headFlags_vl]
    exact vlOf_le _
  simp only [headerGood, hcheck, hhead, packetBytes_opc, hopc, hvl, decide_true, Bool.and_true, beq_iff_eq]
  rw [hflags, checkedHead]

/-- The length that the header gives is that of the bytes (R490, R494). -/
theorem packetLen_packetBytes {p : Packet} (h : ∀ g ∈ p.gran, g.length = 64) (hcount : p.gran = [] ∨ p.gran.length = payloadCount p) :
    packetLen (packetBytes p) = (packetBytes p).length := by
  have hsize : leNat (((packetBytes p).drop 6).take 2) = headSize p := readLe_packetBytes p 4 (by decide) rfl
  have hngm1 : headSize p % 1024 = p.ngm1.toNat := by
    rw [← bits_headSize_ngm1, bits, pow_zero, Nat.div_one]
    rfl
  have heach : ((p.opc.toNat == 0x0A && p.atop.toNat % 2 == 1) = true) = (p.opc.toNat = 0x0A ∧ p.atop.toNat % 2 = 1) := by
    rw [Bool.and_eq_true, beq_iff_eq, beq_iff_eq]
  simp only [packetLen, hsize, packetBytes_opc, packetBytes_atop, bit_headSize_payload, hngm1, packetBytes_length h, heach]
  rcases hcount with hnil | hcount
  · rw [hnil]
    rfl
  · cases hg : p.gran with
    | nil => rfl
    | cons g l => rw [← hg, hcount, payloadCount, hg]; rfl

/-- Settles O45: each header field is read at its offset, HCHK covers what it covered, and each granule is a codeword. -/
theorem packetRoundTrip : Obligations.PacketRoundTrip := by
  intro p hopc hgran hgood
  exact ⟨parsePacket_packetBytes hgran hgood, headerGood_packetBytes hopc, packetBytes_length hgran, packetLen_packetBytes hgran⟩

/-- A bad HCHK, a reserved opcode or a reserved virtual lane makes a header bad. -/
theorem headerGood_eq_false_iff (b : List Byte) : headerGood b = false ↔
    (crc32c ((b.take 36).set 1 (b.getD 1 0 &&& 0x0F)) ≠ leNat ((b.drop 36).take 4) ∨ knownOpc (b.getD 0 0).toNat = false ∨
      4 < (b.getD 1 0).toNat % 8) := by
  rw [headerGood, Bool.and_eq_false_iff, Bool.and_eq_false_iff, beq_eq_false_iff_ne, decide_eq_false_iff_not, Nat.not_le, or_assoc]

/-- Settles O46: the packet is counted in HDR_ERR, and nothing else is done. -/
theorem badHeaders : Obligations.BadHeaders := by
  intro port b s hbad
  have hrx : s.rxBytes port b = s.bumpSat Reg.HDR_ERR := by
    rw [State.rxBytes, (headerGood_eq_false_iff b).mpr hbad]
    rfl
  rw [hrx]
  exact ⟨s.word_bumpSat Reg.HDR_ERR 1, (Only.refl _ s).wrw _ (List.mem_singleton_self _), s.bumpSat_tx Reg.HDR_ERR 1⟩

end Sys2Proof.Machine
end

section
/-! SUPPORT. What the links change: a port's state, what sending changes, and what a change of a port's state tells (12_fabric_links.md
R487 to R489, R516, R525; 13_topology_failover.md R543). -/

namespace Sys2Proof.Machine

/-! ## Ports -/

@[simp] theorem State.port_setPort (s : State) (p : Nat) (r : PortRt) : (s.setPort p r).port p = r := Map.getD_set_same ..

theorem State.port_setPort_ne (s : State) {p q : Nat} (r : PortRt) (h : q ≠ p) : (s.setPort p r).port q = s.port q :=
  Map.getD_set_ne _ _ _ h

@[simp] theorem State.port_wrw (s : State) (o : Nat) (w : W32) (q : Nat) : (s.wrw o w).port q = s.port q := rfl
@[simp] theorem State.port_wr (s : State) (o hi lo v q : Nat) : (s.wr o hi lo v).port q = s.port q := rfl
@[simp] theorem State.port_bump (s : State) (o n q : Nat) : (s.bump o n).port q = s.port q := rfl
@[simp] theorem State.port_bumpSat (s : State) (o n q : Nat) : (s.bumpSat o n).port q = s.port q := rfl
@[simp] theorem State.port_wr64 (s : State) (lo hi v q : Nat) : (s.wr64 lo hi v).port q = s.port q := rfl
@[simp] theorem State.port_setPortStat (s : State) (p st width lanes q : Nat) : (s.setPortStat p st width lanes).port q = s.port q := rfl

@[simp] theorem State.word_setPort (s : State) (p : Nat) (r : PortRt) (o : Nat) : (s.setPort p r).word o = s.word o := rfl

theorem portStat_inj {p q : Nat} (h : q ≠ p) : Reg.PORT_STAT q ≠ Reg.PORT_STAT p := by
  unfold Reg.PORT_STAT
  omega

theorem State.word_setPortStat (s : State) {p o : Nat} (st width lanes : Nat) (h : o ≠ Reg.PORT_STAT p) :
    (s.setPortStat p st width lanes).word o = s.word o := by
  rw [State.setPortStat, State.word_wr_ne _ _ _ _ h, State.word_wr_ne _ _ _ _ h, State.word_wr_ne _ _ _ _ h]

theorem State.portState_setPortStat (s : State) (p : Nat) {st : Nat} (width lanes : Nat) (h : st < 8) :
    (s.setPortStat p st width lanes).portState p = st := by
  rw [State.portState, State.setPortStat, State.rd_wr_below, State.rd_wr_below, State.rd_wr]
  · exact Nat.mod_eq_of_lt h
  all_goals decide

theorem State.width_setPortStat (s : State) (p st width lanes : Nat) :
    (s.setPortStat p st width lanes).rd (Reg.PORT_STAT p) 15 12 = (if st = 3 then width else 0) % 16 := by
  rw [State.setPortStat, State.rd_wr_below, State.rd_wr]
  · rfl
  all_goals decide

theorem State.lanes_setPortStat (s : State) (p st width lanes : Nat) :
    (s.setPortStat p st width lanes).rd (Reg.PORT_STAT p) 23 16 = lanes % 256 := by
  rw [State.setPortStat, State.rd_wr]
  · rfl
  all_goals decide

theorem State.portState_congr {s t : State} {p : Nat} (h : t.word (Reg.PORT_STAT p) = s.word (Reg.PORT_STAT p)) :
    t.portState p = s.portState p := State.rd_congr h 2 0

theorem State.portUp_congr {s t : State} {p : Nat} (h : t.word (Reg.PORT_STAT p) = s.word (Reg.PORT_STAT p)) :
    t.portUp p = s.portUp p := by rw [State.portUp, State.portState_congr h, State.portUp]

theorem State.carriesCtl_congr {s t : State} {p : Nat} (h : t.word (Reg.PORT_STAT p) = s.word (Reg.PORT_STAT p)) :
    t.carriesCtl p = s.carriesCtl p := by rw [State.carriesCtl, State.portState_congr h, State.carriesCtl]

theorem State.carriesCtl_iff (s : State) (p : Nat) :
    s.carriesCtl p = true ↔ s.portState p = 2 ∨ s.portState p = 3 ∨ s.portState p = 4 := by simp [State.carriesCtl, or_assoc]

/-- t differs from s in control space and the link units alone. -/
def LinkOnly (s t : State) : Prop := t = { s with csr := t.csr, ports := t.ports }

theorem LinkOnly.trans {s t u : State} (h1 : LinkOnly s t) (h2 : LinkOnly t u) : LinkOnly s u := by
  unfold LinkOnly at *
  rw [h2, h1]

theorem LinkOnly.refl (s : State) : LinkOnly s s := rfl

theorem LinkOnly.setPort {s t : State} (h : LinkOnly s t) (p : Nat) (r : PortRt) : LinkOnly s (t.setPort p r) := h.trans rfl
theorem LinkOnly.wr {s t : State} (h : LinkOnly s t) (o hi lo v : Nat) : LinkOnly s (t.wr o hi lo v) := h.trans rfl
theorem LinkOnly.bump {s t : State} (h : LinkOnly s t) (o n : Nat) : LinkOnly s (t.bump o n) := h.trans rfl
theorem LinkOnly.bumpSat {s t : State} (h : LinkOnly s t) (o n : Nat) : LinkOnly s (t.bumpSat o n) := h.trans rfl

theorem LinkOnly.setPortStat {s t : State} (h : LinkOnly s t) (p st width lanes : Nat) : LinkOnly s (t.setPortStat p st width lanes) :=
  ((h.wr _ _ _ _).wr _ _ _ _).wr _ _ _ _

theorem State.word_bump_one (s : State) (o : Nat) : (s.bump o).word o = s.word o + 1 := by
  rw [State.word_bump]
  exact BitVec.eq_of_toNat_eq (by rw [BitVec.toNat_ofNat, BitVec.toNat_add]; rfl)

/-! ## Sending -/

/-- r' differs from r at most in what sending flits changes. -/
def Sends (r r' : PortRt) : Prop :=
  r' = { r with wire := r'.wire, lap := r'.lap, txSeq := r'.txSeq, unacked := r'.unacked, sendq := r'.sendq, consumed := r'.consumed,
                quiet := r'.quiet, lastT := r'.lastT }

theorem Sends.refl (r : PortRt) : Sends r r := rfl

theorem Sends.trans {r r' r'' : PortRt} (h1 : Sends r r') (h2 : Sends r' r'') : Sends r r'' := by
  unfold Sends at *
  rw [h2, h1]

theorem Sends.rxSeq {r r' : PortRt} (h : Sends r r') : r'.rxSeq = r.rxSeq := by rw [h]
theorem Sends.nak {r r' : PortRt} (h : Sends r r') : r'.nak = r.nak := by rw [h]
theorem Sends.proposed {r r' : PortRt} (h : Sends r r') : r'.proposed = r.proposed := by rw [h]
theorem Sends.mates {r r' : PortRt} (h : Sends r r') : r'.mates = r.mates := by rw [h]

theorem PortRt.putFlit_sends (r : PortRt) (p : Nat) (f : Option Flit) : Sends r (r.putFlit p f) := rfl

theorem PortRt.sendFlit_sends (r : PortRt) (p v : Nat) : Sends r (r.sendFlit p v) := rfl

theorem pumpPort_sends (p : Nat) (open_ : Nat → Bool) (fuel : Nat) (r : PortRt) (n : Nat × Nat) : Sends r (pumpPort p open_ fuel r n).1 := by
  induction fuel generalizing r n with
  | zero => exact Sends.refl r
  | succ fuel ih =>
    rw [pumpPort]
    split
    · exact Sends.refl r
    · split
      · exact Sends.refl r
      · exact Sends.trans (r.sendFlit_sends p _) (ih _ _)

/-- The counters of what ports send: FLITS_TX and TRANSIT of the ten ports (R525). -/
abbrev SendCount (o : Nat) : Prop := 0x92000 ≤ o ∧ o < 0x92280 ∧ (o % 64 = 0x1C ∨ o % 64 = 0x24)

theorem sendCount_flitsTx {p : Nat} (h : p < 10) : SendCount (Reg.FLITS_TX p) := by
  unfold SendCount Reg.FLITS_TX
  omega

theorem sendCount_transit {p : Nat} (h : p < 10) : SendCount (Reg.TRANSIT p) := by
  unfold SendCount Reg.TRANSIT
  omega

theorem portStat_not_sendCount (p : Nat) : ¬ SendCount (Reg.PORT_STAT p) := by
  unfold SendCount Reg.PORT_STAT
  omega

/-- t differs from s at most in what sending on port p changes. -/
structure SentOn (p : Nat) (s t : State) : Prop where
  rest : t = { s with csr := t.csr, ports := t.ports, tx := t.tx }
  word : ∀ o, ¬ SendCount o → t.word o = s.word o
  other : ∀ q, q ≠ p → t.port q = s.port q
  sends : Sends (s.port p) (t.port p)

theorem SentOn.refl (p : Nat) (s : State) : SentOn p s s := ⟨rfl, fun _ _ => rfl, fun _ _ => rfl, Sends.refl _⟩

theorem SentOn.trans {p : Nat} {s t u : State} (h1 : SentOn p s t) (h2 : SentOn p t u) : SentOn p s u :=
  ⟨by rw [h2.rest, h1.rest], fun o ho => (h2.word o ho).trans (h1.word o ho), fun q hq => (h2.other q hq).trans (h1.other q hq),
    h1.sends.trans h2.sends⟩

theorem SentOn.setPort {p : Nat} {s : State} {r : PortRt} (h : Sends (s.port p) r) : SentOn p s (s.setPort p r) :=
  ⟨rfl, fun _ _ => rfl, fun _ hq => s.port_setPort_ne r hq, (s.port_setPort p r).symm ▸ h⟩

theorem SentOn.bump {p o : Nat} {s t : State} (h : SentOn p s t) (n : Nat) (ho : SendCount o) : SentOn p s (t.bump o n) :=
  h.trans ⟨rfl, fun _ hx => State.word_bump_ne _ _ fun e => hx (e ▸ ho), fun _ _ => rfl, Sends.refl _⟩

theorem State.pumpCount_linkOnly (s : State) (p : Nat) : LinkOnly s (s.pumpCount p).1 := by
  rw [State.pumpCount]
  dsimp only
  split
  · rfl
  · split <;> rfl

theorem State.pumpOrNull_linkOnly (s : State) (p : Nat) : LinkOnly s (s.pumpOrNull p) := by
  rw [State.pumpOrNull]
  split
  · exact (s.pumpCount_linkOnly p).trans rfl
  · exact s.pumpCount_linkOnly p

theorem State.pumpCount_sentOn (s : State) {p : Nat} (hp : p < 10) : SentOn p s (s.pumpCount p).1 := by
  rw [State.pumpCount]
  dsimp only
  have hpump := pumpPort_sends p (s.laneOpen p) (((s.port p).sendq.map fun x => pktFlits x.pkt).foldl (· + ·) 0) (s.port p) (0, 0)
  have hsent := (SentOn.setPort hpump).bump (pumpPort p (s.laneOpen p)
    (((s.port p).sendq.map fun x => pktFlits x.pkt).foldl (· + ·) 0) (s.port p) (0, 0)).2.1 (sendCount_flitsTx hp)
  split
  · exact SentOn.refl p s
  · split
    · exact hsent
    · exact hsent.bump _ (sendCount_transit hp)

theorem State.pump_sentOn (s : State) {p : Nat} (hp : p < 10) : SentOn p s (s.pump p) := s.pumpCount_sentOn hp

theorem State.pumpOrNull_sentOn (s : State) {p : Nat} (hp : p < 10) : SentOn p s (s.pumpOrNull p) := by
  rw [State.pumpOrNull]
  split
  · exact (s.pumpCount_sentOn hp).trans (SentOn.setPort (PortRt.putFlit_sends _ p none))
  · exact s.pumpCount_sentOn hp

theorem State.sendVl_sentOn (s : State) {p : Nat} (hp : p < 10) (vl : Nat) (k : Packet) : SentOn p s (s.sendVl p vl k) := by
  rw [State.sendVl]
  rw [if_pos hp]
  refine SentOn.trans (t := ({ s with tx := s.tx ++ [(p, k)] } : State).setPort p _)
    ⟨rfl, fun _ _ => rfl, fun q hq => State.port_setPort_ne _ _ hq, ?_⟩ (State.pump_sentOn _ hp)
  rw [State.port_setPort]
  rfl

theorem State.send_sentOn (s : State) {p : Nat} (hp : p < 10) (k : Packet) : SentOn p s (s.send p k) := s.sendVl_sentOn hp _ k

/-- What is handed to the links is listed. -/
theorem State.sendVl_tx (s : State) (p vl : Nat) (k : Packet) : (s.sendVl p vl k).tx = s.tx ++ [(p, k)] := by
  rw [State.sendVl]
  split
  · rw [State.pump, State.pumpCount_linkOnly]
    rfl
  · rfl

theorem State.send_tx (s : State) (p : Nat) (k : Packet) : (s.send p k).tx = s.tx ++ [(p, k)] := s.sendVl_tx p _ k

/-! ## What a change of a port's state tells -/

/-- t differs from s at most in what a change of a port's state tells: reports, RINGMAP on ports that carry link-local packets, and the
service state. -/
structure Told (s t : State) : Prop where
  rest : t = { s with csr := t.csr, ports := t.ports, tx := t.tx, svc := t.svc }
  word : ∀ o, o ≠ Reg.TOPO_STAT → ¬ SendCount o → t.word o = s.word o
  sends : ∀ q, Sends (s.port q) (t.port q)
  silent : ∀ q, q < 10 → s.carriesCtl q = false → t.port q = s.port q
  tx : s.tx ⊆ t.tx

theorem portStat_ne_topoStat {q : Nat} (h : q < 10) : Reg.PORT_STAT q ≠ Reg.TOPO_STAT := by
  unfold Reg.PORT_STAT Reg.TOPO_STAT
  omega

theorem Told.portStat {s t : State} (h : Told s t) {q : Nat} (hq : q < 10) : t.word (Reg.PORT_STAT q) = s.word (Reg.PORT_STAT q) :=
  h.word _ (portStat_ne_topoStat hq) (portStat_not_sendCount q)

theorem Told.refl (s : State) : Told s s := ⟨rfl, fun _ _ _ => rfl, fun _ => Sends.refl _, fun _ _ _ => rfl, List.Subset.refl _⟩

theorem Told.trans {s t u : State} (h1 : Told s t) (h2 : Told t u) : Told s u := by
  refine ⟨by rw [h2.rest, h1.rest], fun o ho hc => (h2.word o ho hc).trans (h1.word o ho hc), fun q => (h1.sends q).trans (h2.sends q),
    fun q hq hs => (h2.silent q hq ?_).trans (h1.silent q hq hs), List.Subset.trans h1.tx h2.tx⟩
  rw [State.carriesCtl_congr (h1.portStat hq), hs]

theorem State.send_told (s : State) {p : Nat} (hp : p < 10) (k : Packet) (hc : s.carriesCtl p = true) : Told s (s.send p k) := by
  have hsent := s.send_sentOn hp k
  refine ⟨by rw [hsent.rest], fun o _ => hsent.word o, fun q => ?_, fun q _ hq => hsent.other q ?_, ?_⟩
  · by_cases hqp : q = p
    · rw [hqp]
      exact hsent.sends
    · rw [hsent.other q hqp]
      exact Sends.refl _
  · rintro rfl
    rw [hc] at hq
    exact Bool.noConfusion hq
  · rw [State.send_tx]
    exact List.subset_append_left _ _

theorem State.report_told (s : State) : Told s s.report := by
  rw [State.report]
  split
  · exact ⟨rfl, fun _ _ _ => rfl, fun _ => Sends.refl _, fun _ _ _ => rfl, List.Subset.refl _⟩
  · exact Told.refl s

theorem State.wr_topoStat_told (s : State) (hi lo v : Nat) : Told s (s.wr Reg.TOPO_STAT hi lo v) :=
  ⟨rfl, fun _ ho _ => s.word_wr_ne _ _ _ ho, fun _ => Sends.refl _, fun _ _ _ => rfl, List.Subset.refl _⟩

theorem State.setSvc_told (s : State) (v : Nat) : Told s (s.setSvc v) := (s.wr_topoStat_told 2 0 v).trans (State.report_told _)

theorem State.portsChanged_told (s : State) : Told s s.portsChanged := (s.wr_topoStat_told _ _ _).trans (State.setSvc_told _ _)

theorem State.ringPort_lt (s : State) (east : Bool) : s.ringPort east < 10 := by
  rw [State.ringPort]
  split <;> split <;> decide

/-- A packet for a port that carries link-local packets is sent, and no other. -/
theorem State.sendCarried_told (s : State) {p : Nat} (hp : p < 10) (k : Packet) : Told s (if s.carriesCtl p then s.send p k else s) := by
  split
  · rename_i hc
    exact s.send_told hp k hc
  · exact Told.refl s

theorem State.sendRingmap_told (s : State) : Told s s.sendRingmap :=
  (s.sendCarried_told (s.ringPort_lt false) _).trans (State.sendCarried_told _ (State.ringPort_lt _ true) _)

theorem State.portChanged_told (s : State) (p : Nat) : Told s (s.portChanged p) := by
  rw [State.portChanged]
  split
  · exact s.portsChanged_told.trans (State.sendRingmap_told _)
  · exact s.portsChanged_told

/-! ## Events -/

/-- The registers of the links and of rack time are not the log's. -/
theorem not_mem_logRegs {o : Nat} (hlo : 0x90068 ≤ o) (hhi : o < 0xC0000) : o ∉ logRegs := by
  have hlog : ∀ o ∈ logRegs, o < 0x90068 ∨ 0xC0000 ≤ o := by decide
  intro ho
  have := hlog o ho
  omega

theorem State.word_post (s : State) {o : Nat} (code : Nat) (args : List Nat) (h : o ∉ logRegs) : (s.post code args).word o = s.word o :=
  (s.post_logOnly code args).regs o h

theorem State.port_post (s : State) (code : Nat) (args : List Nat) (p : Nat) : (s.post code args).port p = s.port p := by
  rw [State.port, (s.post_logOnly code args).rest, State.port]

end Sys2Proof.Machine
end

section
/-! SUPPORT. When no position loses its last path (11_fabric_ops.md R473; 12_fabric_links.md R505 to R507). -/

namespace Sys2Proof.Machine

/-! ## Nothing becomes LOST -/

/-- With every position either without a path before or with the same paths after, nothing is marked. -/
theorem lostSince_of_paths {s t : State} (h : ∀ n, n < 256 → s.paths (idxPos n) = [] ∨ t.paths (idxPos n) = s.paths (idxPos n)) :
    State.lostSince s t = t := by
  refine foldl_eq_self fun n hn => if_neg ?_
  rcases h n (List.mem_range.mp hn) with h | h
  · simp [h]
  · simp [h]

theorem lostSince_of_no_paths {s : State} (t : State) (h : ∀ n, n < 256 → s.paths (idxPos n) = []) : State.lostSince s t = t :=
  lostSince_of_paths fun n hn => Or.inl (h n hn)

theorem lostSince_self (s : State) : State.lostSince s s = s := lostSince_of_paths fun _ _ => Or.inr rfl

/-! ## What the paths to a position depend on -/

/-- Whether the code corrects a line does not depend on control space. -/
theorem State.eccLine_snd (s t : State) (line : Nat) (p : Map Byte) (addr scribe sheet : Nat) :
    (s.eccLine line p addr scribe sheet).2 = (t.eccLine line p addr scribe sheet).2 := by
  rw [State.eccLine, State.eccLine]
  split
  · rfl
  · split <;> rfl

theorem State.clean_congr {s t : State} (h : t = { s with csr := t.csr, ports := t.ports }) (a n : Nat) : t.clean a n = s.clean a n := by
  have hfold : ∀ (l : Map (Map Byte)) (x : Option Nat) (u v : State),
      (l.foldl (fun st e => if st.2.isSome then st else st.1.eccLine e.1 e.2 (0 + (e.1 * 64 - a)) 0 16) (u, x)).2 =
      (l.foldl (fun st e => if st.2.isSome then st else st.1.eccLine e.1 e.2 (0 + (e.1 * 64 - a)) 0 16) (v, x)).2 := by
    intro l
    induction l with
    | nil => exact fun _ _ _ => rfl
    | cons e l ih =>
      intro x u v
      rw [List.foldl_cons, List.foldl_cons]
      cases x with
      | some y => exact ih (some y) u v
      | none =>
        have hsnd := u.eccLine_snd v e.1 e.2 (0 + (e.1 * 64 - a)) 0 16
        rw [if_neg (by simp), if_neg (by simp), ← Prod.mk.eta (p := u.eccLine _ _ _ _ _), ← Prod.mk.eta (p := v.eccLine _ _ _ _ _), hsnd]
        exact ih _ _ _
  have hdead : t.deadT2 a = s.deadT2 a := by rw [h]; rfl
  have hfailing : t.failing = s.failing := by rw [h]
  have hupsets : t.upsets = s.upsets := by rw [h]
  rw [State.clean, State.clean, State.ecc, State.ecc, hdead, hfailing, hupsets]
  congr 1
  split
  · rfl
  · split
    · rfl
    · split
      · rfl
      · exact hfold _ none t s

/-- The registers that decide which ports and routes lead to a position (R505 to R507, R516). -/
def pathRegs : List Nat := [Reg.POSITION, Reg.PLANE_MAP, Reg.TOPO_CFG, Reg.RTAB_LO, Reg.RTAB_HI, Reg.RTCTL]

/-- A change that keeps the routes, which ports are UP and what their leaves cannot reach keeps the paths. -/
theorem State.paths_congr {s t : State} (h : t = { s with csr := t.csr, ports := t.ports }) (hregs : ∀ o ∈ pathRegs, t.word o = s.word o)
    (hup : ∀ q, t.portUp q = s.portUp q) (hunreach : ∀ q, (t.port q).unreach = (s.port q).unreach) (pos : Nat) :
    t.paths pos = s.paths pos := by
  simp only [pathRegs, List.forall_mem_cons, List.not_mem_nil, false_implies, implies_true, and_true] at hregs
  obtain ⟨hposition, hplanes, htopo, hlo, hhi, hctl⟩ := hregs
  have hpos : t.pos = s.pos := State.rd_congr hposition 15 0
  have hplane : ∀ n, t.planePort n = s.planePort n := fun n => State.rd_congr hplanes _ _
  have hring : ∀ east, t.ringPort east = s.ringPort east := fun east => by rw [State.ringPort, State.rdb_congr htopo, State.ringPort]
  have hmem : t.mem = s.mem := by rw [h]
  have hchip : t.chip = s.chip := by rw [h]
  have hmap : t.ringMap = s.ringMap := by rw [h]
  have hcarve : ∀ a n, t.carveLe a n = s.carveLe a n := fun a n => by
    rw [State.carveLe, State.carveLe, State.unitLe, State.unitLe, State.clean_congr h, State.inCarve, State.inCarve, hmem, hchip]
  have hroute : t.route pos = s.route pos := by
    rw [State.route, State.route, hcarve, State.addrOf, State.addrOf, hlo, State.rd_congr hhi, State.rd_congr hctl]
  have hstate : ∀ slot, t.ringState slot = s.ringState slot := fun slot => by
    rw [State.ringState, State.ringState, hpos, hmap, hring, hring, hup, hup]
  have hseg : ∀ a, t.segUp a = s.segUp a := fun a => by rw [State.segUp, State.segUp, hstate, hstate]
  have hplaneUsable : ∀ n, t.planeUsable n pos = s.planeUsable n pos := fun n => by
    rw [State.planeUsable, State.planeUsable, hplane, hroute, hup, hunreach]
  have hringUsable : t.ringUsable pos = s.ringUsable pos := by
    simp only [State.ringUsable, hroute, hpos, hseg]
  rw [State.paths, State.paths, hringUsable, hroute, hring, funext hplaneUsable, funext hplane]

end Sys2Proof.Machine
end

section
/-! SUPPORT. Flits, replays, forwarding and ports that go down (12_fabric_links.md R486, R487, R504, R512, R513). -/

namespace Sys2Proof.Machine

/-! ## The rows as functions of the state -/

section Rows
variable {s : State} (hp : s.powered = true)
include hp

theorem exec_replayTimeout (p : Fin 10) : exec (.replayTimeout p) s = .next (s.replay p.val) := act_powered hp fun s => s.replay p.val

theorem exec_forward (p : Fin 10) (k : Packet) : exec (.forward p k) s = .next (s.forward p.val k) :=
  act_powered hp fun s => s.forward p.val k

theorem exec_portDown (p : Fin 10) : exec (.portDown p) s = .next (s.portGoesDown p.val) :=
  act_powered hp fun s => s.portGoesDown p.val

theorem exec_portDownResend_down (p : Fin 10) {t : Nat} (h : (s.port p.val).downAt = some t) :
    exec (.portDownResend p) s = .next ((s.outOps.filter fun o => o.path == p.val && decide (o.sentAt ≤ t)).foldl
      (fun u o => u.resend o true) (s.waited t 20000)) := by
  change execPortDownResend p s = _
  rw [execPortDownResend, act_powered hp, h]

theorem exec_portDownResend_idle (p : Fin 10) (h : (s.port p.val).downAt = none) : exec (.portDownResend p) s = .next s := by
  change execPortDownResend p s = _
  rw [execPortDownResend, act_powered hp, h]

variable {f : List Byte} (hf : f.length = 256) {p : Fin 10} (corr unc : Nat)
include hf

theorem exec_flitReceive_dark (h : s.portState p.val = 0 ∨ s.portState p.val = 1 ∨ s.portState p.val = 5) :
    exec (.flitReceive p f corr unc) s = .next s := by
  refine (actIf_powered (beq_iff_eq.mpr hf) hp _).trans ?_
  rw [if_pos h]

theorem exec_flitReceive_trained (h : s.portState p.val = 2 ∨ s.portState p.val = 3 ∨ s.portState p.val = 4) :
    exec (.flitReceive p f corr unc) s =
      .next ((s.flitIn p.val f corr unc).2.foldl (fun u b => u.rxBytes p.val b) (s.flitIn p.val f corr unc).1) := by
  refine (actIf_powered (beq_iff_eq.mpr hf) hp _).trans ?_
  rw [if_neg (by omega)]

/-- A flit that completes no packet changes the link unit alone. -/
theorem exec_flitReceive_alone (h : s.portState p.val = 2 ∨ s.portState p.val = 3 ∨ s.portState p.val = 4) {u : State}
    (hin : s.flitIn p.val f corr unc = (u, [])) : exec (.flitReceive p f corr unc) s = .next u := by
  rw [exec_flitReceive_trained hp hf corr unc h, hin, List.foldl_nil]

end Rows

/-! ## A flit that arrives (R486, R487) -/

/-- The lane error counts of a flit (R525). -/
def State.laneCounts (s : State) (p corr unc : Nat) : State := (s.bumpSat (Reg.LFEC_CORR p) corr).bumpSat (Reg.LFEC_UNC p) unc

/-- A link unit with what a flit acknowledges and grants (R486, R488). -/
def PortRt.told (r : PortRt) (f : List Byte) : PortRt :=
  { r.ackTo (leNat ((f.drop 2).take 2)) with
    granted := (r.ackTo (leNat ((f.drop 2).take 2))).granted.set ((f.getD 5 0).toNat % 8) (leNat ((f.drop 6).take 2)) }

/-- A link unit that took a flit of its lane, with the bytes of an unfinished packet of the lane. -/
def PortRt.took (r : PortRt) (f rest : List Byte) : PortRt :=
  { r with rxSeq := leNat (f.take 2), nak := false, stream := r.stream.set ((f.getD 4 0).toNat % 8) rest,
           heard := r.heard.set ((f.getD 4 0).toNat % 8) (r.heard.getD ((f.getD 4 0).toNat % 8) 0 + 1) }

theorem PortRt.told_rxSeq (r : PortRt) (f : List Byte) : (r.told f).rxSeq = r.rxSeq := by
  rw [PortRt.told, PortRt.ackTo]
  split <;> rfl

theorem PortRt.told_stream (r : PortRt) (f : List Byte) : (r.told f).stream = r.stream := by
  rw [PortRt.told, PortRt.ackTo]
  split <;> rfl

section FlitIn
variable (s : State) (p : Nat) {f : List Byte} (corr unc : Nat)

theorem State.flitIn_badCrc (hcrc : crc32c (f.take 252) ≠ leNat (f.drop 252)) : s.flitIn p f corr unc =
    (((s.laneCounts p corr unc).setPort p (PortRt.putFlit { s.port p with nak := true } p none)).bumpSat (Reg.CRC_ERR p), []) := by
  rw [State.flitIn]
  exact if_pos (bne_iff_ne.mpr hcrc)

/-- The next good flit of a lane in sequence gives the packets that its bytes and those before them make up. -/
theorem State.flitIn_inSequence (hcrc : crc32c (f.take 252) = leNat (f.drop 252)) (hnull : bit (f.getD 4 0).toNat 3 = false)
    (hnak : bit (f.getD 4 0).toNat 4 = false) (hseq : leNat (f.take 2) = ((s.port p).rxSeq + 1) % 65536) {c : List (List Byte) × List Byte}
    (hcut : cutPackets 8 ((s.port p).stream.getD ((f.getD 4 0).toNat % 8) [] ++ (f.drop 8).take 244) [] = c) : s.flitIn p f corr unc =
      (((((s.laneCounts p corr unc).setPort p ((s.port p).told f)).setPort p (((s.port p).told f).took f c.2)).bump
        (Reg.FLITS_RX p)).pumpOrNull p, c.1) := by
  rw [State.flitIn, if_neg (bne_iff_ne.not_left.mpr hcrc)]
  extract_lets acked granted credited replayed r v c' filled
  have hreplayed : replayed = (s.laneCounts p corr unc).setPort p ((s.port p).told f) := if_neg (by rw [hnak]; exact Bool.false_ne_true)
  have hr : r = (s.port p).told f := (congrArg (State.port · p) hreplayed).trans (State.port_setPort ..)
  have hc : c' = c := by rw [← hcut, ← PortRt.told_stream _ f, ← hr]
  have hfilled : filled = replayed.setPort p (((s.port p).told f).took f c.2) := by rw [← hr, ← hc]; rfl
  have hnext : ¬ (leNat (f.take 2) != (r.rxSeq + 1) % 65536) = true := by rw [hr, PortRt.told_rxSeq, hseq, bne_self_eq_false]; decide
  rw [if_neg (by rw [hnull]; exact Bool.false_ne_true)]
  refine (if_neg hnext).trans ?_
  rw [hfilled, hreplayed, hc]

/-- A lane with nothing to deliver, whose flit begins with fill, gives no packet. -/
theorem cutPackets_fill (n : Nat) (bs : List Byte) (h : bs.headD 0 = 0) : cutPackets (n + 1) bs [] = ([], []) := by
  rw [cutPackets, if_pos h]

end FlitIn

/-! ## The counts of a flit -/

section Counts
variable (s : State) (p corr unc : Nat)

theorem State.laneCounts_word {o : Nat} (hcorr : o ≠ Reg.LFEC_CORR p) (hunc : o ≠ Reg.LFEC_UNC p) :
    (s.laneCounts p corr unc).word o = s.word o := by
  rw [State.laneCounts, State.word_bumpSat_ne _ _ hunc, State.word_bumpSat_ne _ _ hcorr]

theorem State.laneCounts_linkOnly : LinkOnly s (s.laneCounts p corr unc) := ((LinkOnly.refl s).bumpSat _ _).bumpSat _ _

theorem lfecCorr_ne_lfecUnc : Reg.LFEC_CORR p ≠ Reg.LFEC_UNC p := by
  unfold Reg.LFEC_CORR Reg.LFEC_UNC
  omega

theorem State.laneCounts_corr : (s.laneCounts p corr unc).word (Reg.LFEC_CORR p) =
    BitVec.ofNat 32 (sat32 ((s.word (Reg.LFEC_CORR p)).toNat + corr)) := by
  rw [State.laneCounts, State.word_bumpSat_ne _ _ (lfecCorr_ne_lfecUnc p), State.word_bumpSat]

theorem State.laneCounts_unc : (s.laneCounts p corr unc).word (Reg.LFEC_UNC p) =
    BitVec.ofNat 32 (sat32 ((s.word (Reg.LFEC_UNC p)).toNat + unc)) := by
  rw [State.laneCounts, State.word_bumpSat, State.word_bumpSat_ne _ _ (lfecCorr_ne_lfecUnc p).symm]

end Counts

/-- A flit with a bad CRC is counted and asks for a replay (R486, R487). -/
theorem flitReceive_badCrc {p : Fin 10} {f : List Byte} (corr unc : Nat) {s : State} (hp : s.powered = true) (hf : f.length = 256)
    (hst : s.portState p.val = 2 ∨ s.portState p.val = 3 ∨ s.portState p.val = 4) (hcrc : crc32c (f.take 252) ≠ leNat (f.drop 252)) :
    ∃ t, exec (.flitReceive p f corr unc) s = .next t ∧ (t.port p.val).nak = true ∧
      t.word (Reg.CRC_ERR p.val) = BitVec.ofNat 32 (sat32 ((s.word (Reg.CRC_ERR p.val)).toNat + 1)) ∧
      t.word (Reg.LFEC_CORR p.val) = BitVec.ofNat 32 (sat32 ((s.word (Reg.LFEC_CORR p.val)).toNat + corr)) ∧
      t.word (Reg.LFEC_UNC p.val) = BitVec.ofNat 32 (sat32 ((s.word (Reg.LFEC_UNC p.val)).toNat + unc)) ∧
      t = { s with csr := t.csr, ports := t.ports } := by
  have hcorr : Reg.LFEC_CORR p.val ≠ Reg.CRC_ERR p.val := by unfold Reg.LFEC_CORR Reg.CRC_ERR; omega
  have hunc : Reg.LFEC_UNC p.val ≠ Reg.CRC_ERR p.val := by unfold Reg.LFEC_UNC Reg.CRC_ERR; omega
  refine ⟨_, exec_flitReceive_alone hp hf corr unc hst (s.flitIn_badCrc p.val corr unc hcrc), ?_, ?_, ?_, ?_,
    ((s.laneCounts_linkOnly p.val corr unc).setPort _ _).bumpSat _ 1⟩
  · exact congrArg PortRt.nak (State.port_setPort ..)
  · rw [State.word_bumpSat, State.word_setPort, State.laneCounts_word _ _ _ _ hcorr.symm hunc.symm]
  · rw [State.word_bumpSat_ne _ _ hcorr, State.word_setPort, State.laneCounts_corr]
  · rw [State.word_bumpSat_ne _ _ hunc, State.word_setPort, State.laneCounts_unc]

/-- The next good flit in sequence of a lane with nothing to deliver is counted and sets the number expected (R486). -/
theorem flitReceive_fill {p : Fin 10} {f : List Byte} (corr unc : Nat) {s : State} (hp : s.powered = true) (hf : f.length = 256)
    (hst : s.portState p.val = 2 ∨ s.portState p.val = 3 ∨ s.portState p.val = 4) (hcrc : crc32c (f.take 252) = leNat (f.drop 252))
    (hnull : bit (f.getD 4 0).toNat 3 = false) (hnak : bit (f.getD 4 0).toNat 4 = false)
    (hseq : leNat (f.take 2) = ((s.port p.val).rxSeq + 1) % 65536)
    (hlane : (s.port p.val).stream.getD ((f.getD 4 0).toNat % 8) [] = []) (hfill : f.getD 8 0 = 0) :
    ∃ t, exec (.flitReceive p f corr unc) s = .next t ∧ (t.port p.val).rxSeq = leNat (f.take 2) ∧ (t.port p.val).nak = false ∧
      t.word (Reg.FLITS_RX p.val) = s.word (Reg.FLITS_RX p.val) + 1 ∧ t = { s with csr := t.csr, ports := t.ports } := by
  have hcut : cutPackets 8 ((s.port p.val).stream.getD ((f.getD 4 0).toNat % 8) [] ++ (f.drop 8).take 244) [] = ([], []) := by
    refine cutPackets_fill 7 _ ?_
    rw [hlane, List.nil_append, List.headD_eq_head?_getD, List.head?_take, if_neg (by decide), List.head?_drop,
      ← List.getD_eq_getElem?_getD, hfill]
  have hin := s.flitIn_inSequence p.val corr unc hcrc hnull hnak hseq hcut
  have hsent := State.pumpOrNull_sentOn (((((s.laneCounts p.val corr unc).setPort p.val ((s.port p.val).told f)).setPort p.val
    (((s.port p.val).told f).took f [])).bump (Reg.FLITS_RX p.val))) p.isLt
  have hcount : ¬ SendCount (Reg.FLITS_RX p.val) := by unfold SendCount Reg.FLITS_RX; omega
  have hcorr : Reg.FLITS_RX p.val ≠ Reg.LFEC_CORR p.val := by unfold Reg.LFEC_CORR Reg.FLITS_RX; omega
  have hunc : Reg.FLITS_RX p.val ≠ Reg.LFEC_UNC p.val := by unfold Reg.LFEC_UNC Reg.FLITS_RX; omega
  refine ⟨_, exec_flitReceive_alone hp hf corr unc hst hin, ?_, ?_, ?_, ?_⟩
  · exact hsent.sends.rxSeq.trans (congrArg PortRt.rxSeq (State.port_setPort ..))
  · exact hsent.sends.nak.trans (congrArg PortRt.nak (State.port_setPort ..))
  · rw [hsent.word _ hcount, State.word_bump_one, State.word_setPort, State.word_setPort, State.laneCounts_word _ _ _ _ hcorr hunc]
  · change LinkOnly s _
    exact ((((s.laneCounts_linkOnly p.val corr unc).setPort _ _).setPort _ _).bump _ 1).trans (State.pumpOrNull_linkOnly _ _)

/-! ## A replay (R487) -/

/-- Every unacknowledged flit leaves again. -/
theorem PortRt.again_wire_length (r : PortRt) (p : Nat) : (r.again p).wire.length = r.wire.length + r.unacked.length := by
  have hfold : ∀ (l : List Flit) (x : PortRt), (l.foldl (fun r f => r.putFlit p (some f)) x).wire.length = x.wire.length + l.length := by
    intro l
    induction l with
    | nil => exact fun _ => rfl
    | cons f l ih =>
      intro x
      rw [List.foldl_cons, ih, PortRt.putFlit, List.length_append, List.length_cons, List.length_nil, List.length_cons]
      omega
  exact hfold _ r

section Replay
variable {s : State} {p : Nat}

theorem State.replay_nothing (h : (s.port p).unacked = []) : s.replay p = s := by
  rw [State.replay, h]
  rfl

theorem State.replay_some (h : (s.port p).unacked ≠ []) : s.replay p =
    ((s.setPort p { (s.port p).again p with replays := (s.port p).replays + 1
                                            laneCheck := (s.port p).laneCheck || decide (8 ≤ (s.port p).replays + 1) }).bumpSat
      (Reg.REPLAYS p)).bump (Reg.FLITS_TX p) (s.port p).unacked.length :=
  if_neg (by rwa [List.isEmpty_iff])

end Replay

theorem replayTimeout_row (p : Fin 10) (s : State) (hp : s.powered = true) :
    ((s.port p.val).unacked = [] → exec (.replayTimeout p) s = .next s) ∧
    ((s.port p.val).unacked ≠ [] → ∃ t, exec (.replayTimeout p) s = .next t ∧
      t.port p.val = { (s.port p.val).again p.val with
        replays := (s.port p.val).replays + 1
        laneCheck := (s.port p.val).laneCheck || decide (8 ≤ (s.port p.val).replays + 1) } ∧
      (t.port p.val).wire.length = (s.port p.val).wire.length + (s.port p.val).unacked.length ∧
      t.word (Reg.FLITS_TX p.val) =
        BitVec.ofNat 32 ((s.word (Reg.FLITS_TX p.val)).toNat + (s.port p.val).unacked.length) ∧
      t.word (Reg.REPLAYS p.val) = BitVec.ofNat 32 (sat32 ((s.word (Reg.REPLAYS p.val)).toNat + 1)) ∧
      t = { s with csr := t.csr, ports := t.ports }) := by
  have hne : Reg.FLITS_TX p.val ≠ Reg.REPLAYS p.val := by unfold Reg.FLITS_TX Reg.REPLAYS; omega
  rw [exec_replayTimeout hp]
  refine ⟨fun h => by rw [State.replay_nothing h], fun h => ?_⟩
  rw [State.replay_some h]
  refine ⟨_, rfl, State.port_setPort .., ?_, ?_, ?_, (((LinkOnly.refl s).setPort _ _).bumpSat _ 1).bump _ _⟩
  · exact (congrArg (fun r : PortRt => r.wire.length) (State.port_setPort ..)).trans (PortRt.again_wire_length _ _)
  · rw [State.word_bump, State.word_bumpSat_ne _ _ hne, State.word_setPort]
  · rw [State.word_bump_ne _ _ hne.symm, State.word_bumpSat, State.word_setPort]

/-! ## A packet forwarded on the ring (R512, R513) -/

section Forward
variable {s : State} {p : Nat} {k : Packet}

theorem State.forward_damaged (h : k.badGranule = true) : s.forward p k = s.badPayload := if_pos h

theorem State.forward_stays (h : k.badGranule = false) (hstay : p < 8 ∨ k.dst.toNat = s.pos ∨ vlOf k.opc.toNat = 4 ∨ 7 ≤ k.hops.toNat ∨
    s.ringCarries (if p = 8 then 9 else 8) = false) : s.forward p k = s := by
  rw [State.forward, h, if_neg Bool.false_ne_true]
  refine if_pos ?_
  simpa [or_assoc] using hstay

theorem State.forward_on (h : k.badGranule = false) (hring : 8 ≤ p) (hdst : k.dst.toNat ≠ s.pos) (hvl : vlOf k.opc.toNat ≠ 4)
    (hhops : k.hops.toNat < 7) (hcarries : s.ringCarries (if p = 8 then 9 else 8) = true) : s.forward p k =
      s.sendVl (if p = 8 then 9 else 8) (2 + vlOf k.opc.toNat) { k with hops := k.hops + 1 } := by
  rw [State.forward, h, if_neg Bool.false_ne_true]
  refine if_neg ?_
  simp [hdst, hvl, hcarries]
  omega

end Forward

theorem forward_row (p : Fin 10) (k : Packet) (s : State) (out : Nat) (hp : s.powered = true) (hout : out = (if p.val = 8 then 9 else 8)) :
    (k.badGranule = true → exec (.forward p k) s = .next s.badPayload) ∧
    (k.badGranule = false → 8 ≤ p.val → k.dst.toNat ≠ s.pos → vlOf k.opc.toNat ≠ 4 → k.hops.toNat < 7 → s.ringCarries out = true →
      ∃ t, exec (.forward p k) s = .next t ∧ t.tx = s.tx ++ [(out, { k with hops := k.hops + 1 })] ∧
        t = { s with csr := t.csr, ports := t.ports, tx := t.tx }) ∧
    (k.badGranule = false → (p.val < 8 ∨ k.dst.toNat = s.pos ∨ vlOf k.opc.toNat = 4 ∨ 7 ≤ k.hops.toNat ∨ s.ringCarries out = false) →
      exec (.forward p k) s = .next s) := by
  subst hout
  rw [exec_forward hp]
  refine ⟨fun h => by rw [State.forward_damaged h], fun h hring hdst hvl hhops hcarries => ?_, fun h hstay => by
    rw [State.forward_stays h hstay]⟩
  rw [State.forward_on h hring hdst hvl hhops hcarries]
  exact ⟨_, rfl, s.sendVl_tx .., (s.sendVl_sentOn (by split <;> decide) ..).rest⟩

/-! ## A port that goes down (R504) -/

/-- A port that has gone down: its flits and partial packets are gone. -/
def State.portDark (s : State) (p : Nat) : State :=
  (s.setPort p { s.port p with
    unacked := [], sendq := [], replays := 0, stream := [[], [], [], [], []], borrowed := none, laneCheck := false, nak := false, rxSeq := 0,
    txSeq := 0, downAt := some s.now }).setPortStat p 5 0 0

theorem State.portGoesDown_eq (s : State) (p : Nat) : s.portGoesDown p = State.lostSince s ((s.portDark p).portChanged p) := rfl

theorem State.portDark_state (s : State) (p : Nat) : (s.portDark p).portState p = 5 :=
  State.portState_setPortStat _ p 0 0 (by decide)

theorem portDown_cleared (p : Fin 10) (s : State) (hp : s.powered = true) (hpaths : ∀ n, n < 256 → s.paths (idxPos n) = []) :
    ∃ t, exec (.portDown p) s = .next t ∧ t.portState p.val = 5 ∧ t.rd (Reg.PORT_STAT p.val) 15 12 = 0 ∧
      (t.port p.val).unacked = [] ∧ (t.port p.val).sendq = [] ∧ (t.port p.val).borrowed = none ∧ t.mem = s.mem := by
  rw [exec_portDown hp, State.portGoesDown_eq, lostSince_of_no_paths _ hpaths]
  have htold := (s.portDark p.val).portChanged_told p.val
  have hstat := htold.portStat p.isLt
  have hsilent : (s.portDark p.val).carriesCtl p.val = false := by
    rw [State.carriesCtl, State.portDark_state]
    rfl
  have hport : ((s.portDark p.val).portChanged p.val).port p.val = _ := (htold.silent _ p.isLt hsilent).trans (State.port_setPort ..)
  refine ⟨_, rfl, (State.portState_congr hstat).trans (s.portDark_state _), ?_, congrArg PortRt.unacked hport,
    congrArg PortRt.sendq hport, congrArg PortRt.borrowed hport, ?_⟩
  · rw [State.rd_congr hstat, State.portDark, State.width_setPortStat]
    rfl
  · rw [htold.rest]
    rfl

/-- Settles O47: a flit goes through `flitIn`, a replay sends again what is unacknowledged, a packet is forwarded by `sendVl`, and a port
that goes down is told of. -/
theorem portRows : Obligations.PortRows :=
  ⟨fun _ _ corr unc _ hp hf hst hcrc => flitReceive_badCrc corr unc hp hf hst hcrc,
    fun _ _ corr unc _ hp hf hst hcrc hnull hnak hseq hlane hfill => flitReceive_fill corr unc hp hf hst hcrc hnull hnak hseq hlane hfill,
    fun _ _ corr unc _ hp hf hst => exec_flitReceive_trained hp hf corr unc hst,
    fun _ _ corr unc _ hp hf hst => exec_flitReceive_dark hp hf corr unc hst,
    replayTimeout_row, forward_row, portDown_cleared, fun p _ hp => exec_portDown hp p,
    fun p _ _ hp hdown => exec_portDownResend_down hp p hdown, fun p _ hp hdown => exec_portDownResend_idle hp p hdown⟩

end Sys2Proof.Machine
end

section
/-! SUPPORT. Lane sets, and the messages that put them to use (12_fabric_links.md R508 to R511, R517, R518). -/

namespace Sys2Proof.Machine

/-! ## Lane sets (R508) -/

section Sets

theorem laneSets_ordered : laneSets.Pairwise fun a b => widthOf b ≤ widthOf a := by decide

/-- The first set of good lanes of a list is made of good lanes. -/
theorem firstGood_and (good : Nat) (l : List Nat) :
    (l.find? fun m => good &&& m == m).getD 0 &&& good = (l.find? fun m => good &&& m == m).getD 0 := by
  cases h : l.find? fun m => good &&& m == m with
  | none => exact Nat.zero_and good
  | some m => rw [Option.getD_some, Nat.and_comm, beq_iff_eq.mp (List.find?_some (p := fun m => good &&& m == m) h)]

/-- In a list from the widest on, no set of good lanes is wider than the first. -/
theorem width_le_firstGood {good m : Nat} {l : List Nat} (hl : l.Pairwise fun a b => widthOf b ≤ widthOf a) (hm : m ∈ l)
    (hgood : good &&& m = m) : widthOf m ≤ widthOf ((l.find? fun m => good &&& m == m).getD 0) := by
  induction l with
  | nil => cases hm
  | cons a l ih =>
    obtain ⟨ha, hl⟩ := List.pairwise_cons.mp hl
    rw [List.find?_cons]
    split
    · rcases List.mem_cons.mp hm with rfl | hm
      · exact le_refl _
      · exact ha m hm
    · rename_i hbad
      rcases List.mem_cons.mp hm with rfl | hm
      · exact absurd (beq_iff_eq.mpr hgood) (ne_true_of_eq_false hbad)
      · exact ih hl hm

/-- In a list from the widest on, the narrower sets than one of it come after it. -/
theorem mem_after_of_narrower {far m : Nat} {l : List Nat} (hl : l.Pairwise fun a b => widthOf b ≤ widthOf a) (hfar : far ∈ l) (hm : m ∈ l)
    (hw : widthOf m < widthOf far) : m ∈ (l.dropWhile (· != far)).drop 1 := by
  induction l with
  | nil => cases hm
  | cons a l ih =>
    obtain ⟨ha, hl⟩ := List.pairwise_cons.mp hl
    rw [List.dropWhile_cons]
    split
    · rename_i hne
      have hfar' : far ∈ l := (List.mem_cons.mp hfar).resolve_left (bne_iff_ne.mp hne).symm
      refine ih hl hfar' ((List.mem_cons.mp hm).resolve_left ?_)
      rintro rfl
      exact absurd hw (Nat.not_lt.mpr (ha far hfar'))
    · rename_i heq
      obtain rfl : a = far := by simpa using heq
      refine (List.mem_cons.mp hm).resolve_left ?_
      rintro rfl
      exact lt_irrefl _ hw

/-- No lane set is good exactly when no pair of R508 is. -/
theorem bestSet_eq_zero_iff (good : Nat) :
    bestSet good = 0 ↔ good &&& 3 ≠ 3 ∧ good &&& 12 ≠ 12 ∧ good &&& 48 ≠ 48 ∧ good &&& 192 ≠ 192 := by
  have hnonzero : ∀ m ∈ laneSets, m ≠ 0 := by decide
  have hpair : ∀ m ∈ laneSets, ∃ q ∈ [3, 12, 48, 192], m &&& q = q := by decide
  have hnone : bestSet good = 0 ↔ ∀ m ∈ laneSets, good &&& m ≠ m := by
    rw [bestSet]
    constructor
    · intro h m hm hgood
      cases hfind : laneSets.find? fun m => good &&& m == m with
      | none => exact List.find?_eq_none.mp hfind m hm (beq_iff_eq.mpr hgood)
      | some x =>
        rw [hfind, Option.getD_some] at h
        exact hnonzero x (List.mem_of_find?_eq_some hfind) h
    · intro h
      rw [List.find?_eq_none.mpr fun m hm => by simpa using h m hm]
      rfl
  rw [hnone]
  refine ⟨fun h => ⟨h 3 (by decide), h 12 (by decide), h 48 (by decide), h 192 (by decide)⟩, fun ⟨h3, h12, h48, h192⟩ m hm hgood => ?_⟩
  obtain ⟨q, hq, hmq⟩ := hpair m hm
  have hgoodq : good &&& q = q := by
    calc good &&& q = (good &&& m) &&& q := by rw [Nat.and_assoc, hmq]
      _ = q := by rw [hgood, hmq]
  simp only [List.mem_cons, List.not_mem_nil, or_false] at hq
  rcases hq with rfl | rfl | rfl | rfl <;> contradiction

/-- A set of the list answered by the next one that is good here. -/
theorem nextSet_of_mem (good : Nat) {far : Nat} (h : far ∈ laneSets) :
    nextSet good far = (((laneSets.dropWhile (· != far)).drop 1).find? fun m => good &&& m == m).getD 0 :=
  if_pos (List.contains_iff_mem.mpr h)

theorem width_le_nextSet {good far m : Nat} (hfar : far ∈ laneSets) (hm : m ∈ laneSets) (hgood : good &&& m = m)
    (hw : widthOf m < widthOf far) : widthOf m ≤ widthOf (nextSet good far) := by
  rw [nextSet_of_mem good hfar]
  refine width_le_firstGood (laneSets_ordered.sublist ?_) (mem_after_of_narrower laneSets_ordered hfar hm hw) hgood
  exact (List.drop_sublist ..).trans (List.dropWhile_sublist _)

end Sets

/-! ## The rows as functions of the state -/

section Rows
variable {s : State} (hp : s.powered = true) (p : Fin 10)
include hp

theorem exec_laneFail (lane : Fin 8) : exec (.laneFail p lane) s = .next (s.laneFails p.val lane.val) :=
  act_powered hp fun s => s.laneFails p.val lane.val

theorem exec_flitLock (lanes : BitVec 8) : exec (.flitLock p lanes) s = .next (s.flitLock p.val lanes.toNat) :=
  act_powered hp fun s => s.flitLock p.val lanes.toNat

variable (imm : W64)

theorem exec_version : exec (.version p imm) s = .next (s.rxVersion p.val imm.toNat) := act_powered hp fun s => s.rxVersion p.val imm.toNat
theorem exec_width : exec (.width p imm) s = .next (s.rxWidth p.val imm.toNat) := act_powered hp fun s => s.rxWidth p.val imm.toNat
theorem exec_borrow : exec (.borrow p imm) s = .next (s.rxBorrow p.val imm.toNat) := act_powered hp fun s => s.rxBorrow p.val imm.toNat

end Rows

/-! ## A lane that fails (R509, R511) -/

section LaneFails
variable {s u : State} {p lane : Nat} (hu : u = s.wrb (Reg.LANE_FAIL p) lane true)
include hu

theorem laneFail_state : u.portState p = s.portState p := by
  rw [hu]
  refine State.portState_congr (State.word_wrb_ne _ _ _ ?_)
  unfold Reg.PORT_STAT Reg.LANE_FAIL
  omega

/-- The link unit proposes the widest good set, and has no lane borrowed. -/
def State.proposes (s : State) (p best : Nat) : State :=
  s.setPort p { s.port p with borrowed := none, proposed := best, laneCheck := false }

theorem State.laneFails_eq : s.laneFails p lane =
    if s.portState p = 0 ∨ s.portState p = 5 then u.proposes p (bestSet (u.goodLanes p))
    else if bestSet (u.goodLanes p) = 0 then (u.proposes p (bestSet (u.goodLanes p))).portGoesDown p
    else (u.proposes p (bestSet (u.goodLanes p))).sendLink p 1 (bestSet (u.goodLanes p)) := by
  rw [← laneFail_state hu]
  subst hu
  exact if_congr (by rw [Bool.or_eq_true, decide_eq_true_eq, decide_eq_true_eq]; rfl) rfl rfl

end LaneFails

theorem laneFail_row (p : Fin 10) (lane : Fin 8) (s : State) (hp : s.powered = true) : ∃ t, exec (.laneFail p lane) s = .next t ∧
    ((s.portState p.val = 0 ∨ s.portState p.val = 5) → t.rdb (Reg.LANE_FAIL p.val) lane.val = true ∧
      t = { s with csr := t.csr, ports := t.ports }) := by
  refine ⟨_, exec_laneFail hp p lane, fun hdark => ?_⟩
  rw [State.laneFails_eq rfl, if_pos hdark]
  exact ⟨State.rdb_wrb s _ true (lane.isLt.trans (by decide)), ((LinkOnly.refl s).wr _ _ _ _).setPort _ _⟩

/-! ## Training ends (R517, R518) -/

/-- The link unit of a port whose training ended. -/
def PortRt.locked (r : PortRt) : PortRt :=
  { PortRt.zero with
    mates := r.mates, hours := r.hours, hoursFrom := r.hoursFrom, noid := r.noid, wornAt := r.wornAt, wire := r.wire,
    retrained := r.retrained, reload := r.reload, unreach := r.unreach, downAt := r.downAt, frame := r.frame, frameKind := r.frameKind,
    framePlane := r.framePlane, frameFlags := r.frameFlags, lastMatch := r.lastMatch }

/-- The state in which training of port p ended with these lanes. -/
def State.locked (s : State) (p lanes : Nat) : State :=
  (((s.wr (Reg.LANE_FAIL p) 7 0 (255 - lanes)).setPort p (s.port p).locked).setPortStat p 2 (widthOf (bestSet lanes)) (bestSet lanes)).wr
    (Reg.PORT_STAT p) 11 8 0

/-- Link bring-up begins with the first port that locks (16_startup_config.md R646). -/
def State.linksBegin (s : State) : State := if s.start.linksFrom = 0 then { s with start := { s.start with linksFrom := s.now } } else s

section Lock
variable (s : State) {p lanes : Nat}

theorem State.flitLock_eq (h : bestSet lanes ≠ 0) : s.flitLock p lanes =
    (((State.lostSince s (s.locked p lanes)).linksBegin.sendLink p 0
      ((State.lostSince s (s.locked p lanes)).linksBegin.word Reg.LINK_CAP).toNat).portChanged p) := if_neg h

theorem State.locked_linkOnly : LinkOnly s (s.locked p lanes) :=
  ((((LinkOnly.refl s).wr _ _ _ _).setPort _ _).setPortStat _ _ _ _).wr _ _ _ _

theorem State.locked_word {o : Nat} (hlane : o ≠ Reg.LANE_FAIL p) (hstat : o ≠ Reg.PORT_STAT p) : (s.locked p lanes).word o = s.word o := by
  rw [State.locked, State.word_wr_ne _ _ _ _ hstat, State.word_setPortStat _ _ _ _ hstat, State.word_setPort, State.word_wr_ne _ _ _ _ hlane]

theorem State.locked_state : (s.locked p lanes).portState p = 2 := by
  rw [State.portState, State.locked, State.rd_wr_below]
  · exact State.portState_setPortStat _ p _ _ (by decide)
  all_goals decide

theorem State.locked_port : (s.locked p lanes).port p = (s.port p).locked := by
  rw [State.locked, State.port_wr, State.port_setPortStat, State.port_setPort]

/-- Training of a port that was not UP changes no path. -/
theorem State.locked_paths (hp : p < 10) (h : s.portUp p = false) (pos : Nat) : (s.locked p lanes).paths pos = s.paths pos := by
  have hstat : ∀ q, q ≠ p → (s.locked p lanes).word (Reg.PORT_STAT q) = s.word (Reg.PORT_STAT q) := fun q hq =>
    s.locked_word (by unfold Reg.PORT_STAT Reg.LANE_FAIL; omega) (portStat_inj hq)
  refine State.paths_congr s.locked_linkOnly (fun o ho => ?_) (fun q => ?_) (fun q => ?_) pos
  · have hblock : ∀ o ∈ pathRegs, o < 0x92000 ∨ 0x93000 ≤ o := by decide
    have := hblock o ho
    exact s.locked_word (by unfold Reg.LANE_FAIL; omega) (by unfold Reg.PORT_STAT; omega)
  · by_cases hq : q = p
    · rw [hq, h, State.portUp, s.locked_state]
      rfl
    · exact State.portUp_congr (hstat q hq)
  · by_cases hq : q = p
    · rw [hq, s.locked_port]
      rfl
    · rw [State.locked, State.port_wr, State.port_setPortStat, State.port_setPort_ne _ _ hq, State.port_wr]

theorem State.linksBegin_rest : s.linksBegin = { s with start := s.linksBegin.start } := by
  rw [State.linksBegin]
  split <;> rfl

theorem State.word_linksBegin (o : Nat) : s.linksBegin.word o = s.word o := by rw [State.linksBegin_rest]; rfl
theorem State.port_linksBegin (q : Nat) : s.linksBegin.port q = s.port q := by rw [State.linksBegin_rest]; rfl

end Lock

theorem linkCap_ne (p : Nat) : Reg.LINK_CAP ≠ Reg.LANE_FAIL p ∧ Reg.LINK_CAP ≠ Reg.PORT_STAT p := by
  unfold Reg.LINK_CAP Reg.LANE_FAIL Reg.PORT_STAT
  omega

/-- The VERSION that a port sends carries LINK_CAP (R518). -/
theorem linkPacket_imm (s : State) (w : W32) : (linkPacket s 0 w.toNat).imm.toNat = w.toNat :=
  (BitVec.toNat_ofNat ..).trans (Nat.mod_eq_of_lt (w.isLt.trans (by decide)))

theorem bestSet_le (good : Nat) : bestSet good ≤ good := by
  rw [bestSet, ← firstGood_and]
  exact Nat.and_le_right

/-- A trained port sends its VERSION, and its change of state is told. -/
theorem State.sendLink_told (s : State) {p : Nat} (hp : p < 10) (h : s.portState p = 2) (atop imm : Nat) :
    Told s ((s.sendLink p atop imm).portChanged p) ∧ (p, linkPacket s atop imm) ∈ ((s.sendLink p atop imm).portChanged p).tx := by
  have hsent := s.send_told hp (linkPacket s atop imm) ((s.carriesCtl_iff p).mpr (Or.inl h))
  have hchanged := (s.send p (linkPacket s atop imm)).portChanged_told p
  refine ⟨hsent.trans hchanged, hchanged.tx ?_⟩
  rw [State.send_tx]
  exact List.mem_append_right _ (List.mem_singleton_self _)

theorem flitLock_row (p : Fin 10) (lanes : BitVec 8) (s : State) (hp : s.powered = true) (hbest : bestSet lanes.toNat ≠ 0)
    (h : s.portUp p.val = false ∨ ∀ n, n < 256 → s.paths (idxPos n) = []) :
    ∃ t, exec (.flitLock p lanes) s = .next t ∧ t.portState p.val = 2 ∧
      t.rd (Reg.PORT_STAT p.val) 23 16 = bestSet lanes.toNat ∧ t.rd (Reg.PORT_STAT p.val) 11 8 = 0 ∧
      t.rd (Reg.LANE_FAIL p.val) 7 0 = 255 - lanes.toNat ∧ (t.port p.val).rxSeq = 0 ∧
      (∃ x ∈ t.tx, x.1 = p.val ∧ x.2.opc = 0x41 ∧ x.2.atop = 0 ∧ x.2.imm.toNat = (s.word Reg.LINK_CAP).toNat) ∧ t.mem = s.mem := by
  have hlost : State.lostSince s (s.locked p.val lanes.toNat) = s.locked p.val lanes.toNat := by
    rcases h with h | h
    · exact lostSince_of_paths fun n _ => Or.inr (s.locked_paths p.isLt h _)
    · exact lostSince_of_no_paths _ h
  have hstate : (s.locked p.val lanes.toNat).linksBegin.portState p.val = 2 :=
    (State.portState_congr (State.word_linksBegin _ _)).trans s.locked_state
  have hcap : (s.locked p.val lanes.toNat).linksBegin.word Reg.LINK_CAP = s.word Reg.LINK_CAP :=
    (State.word_linksBegin _ _).trans (s.locked_word (linkCap_ne _).1 (linkCap_ne _).2)
  have hbest8 : bestSet lanes.toNat < 2 ^ 8 := (bestSet_le _).trans_lt lanes.isLt
  obtain ⟨htold, hversion⟩ := State.sendLink_told _ p.isLt hstate 0 (s.word Reg.LINK_CAP).toNat
  have hstat := (htold.portStat p.isLt).trans (State.word_linksBegin _ _)
  refine ⟨_, exec_flitLock hp p lanes, ?_⟩
  rw [s.flitLock_eq hbest, hlost, hcap]
  refine ⟨(State.portState_congr hstat).trans s.locked_state, ?_, ?_, ?_, ?_, ⟨_, hversion, rfl, rfl, rfl, linkPacket_imm _ _⟩, ?_⟩
  · refine (State.rd_congr hstat 23 16).trans ?_
    rw [State.locked, State.rd_wr_above, State.lanes_setPortStat]
    · exact Nat.mod_eq_of_lt hbest8
    all_goals decide
  · refine (State.rd_congr hstat 11 8).trans ?_
    rw [State.locked, State.rd_wr]
    all_goals decide
  · have hne : Reg.LANE_FAIL p.val ≠ Reg.TOPO_STAT := by unfold Reg.LANE_FAIL Reg.TOPO_STAT; omega
    have hcount : ¬ SendCount (Reg.LANE_FAIL p.val) := by unfold SendCount Reg.LANE_FAIL; omega
    have hlane : Reg.LANE_FAIL p.val ≠ Reg.PORT_STAT p.val := by unfold Reg.LANE_FAIL Reg.PORT_STAT; omega
    refine (State.rd_congr ((htold.word _ hne hcount).trans (State.word_linksBegin _ _)) 7 0).trans ?_
    rw [State.locked, State.rd_wr_ne _ _ _ _ _ _ hlane, State.rd_congr (State.word_setPortStat _ _ _ _ hlane)]
    refine (State.rd_wr s _ _ (by decide) (by decide)).trans (Nat.mod_eq_of_lt ?_)
    exact Nat.lt_of_le_of_lt (Nat.sub_le ..) (by decide)
  · rw [(htold.sends p.val).rxSeq, State.port_linksBegin, s.locked_port]
    rfl
  · rw [htold.rest, State.linksBegin_rest, s.locked_linkOnly]

end Sys2Proof.Machine
end

section
/-! SUPPORT. Versions, widths and borrowed lanes (12_fabric_links.md R509, R511, R518), and the statement about lanes. -/

namespace Sys2Proof.Machine

/-! ## VERSION (R518) -/

section Version
variable {s : State} {p imm : Nat}

theorem State.rxVersion_dark (h : s.portState p = 0 ∨ s.portState p = 1 ∨ s.portState p = 5) : s.rxVersion p imm = s := by
  refine if_neg ?_
  simp only [Bool.or_eq_true, decide_eq_true_eq]
  omega

theorem State.rxVersion_agreed (h : s.portState p = 2 ∨ s.portState p = 3 ∨ s.portState p = 4)
    (hfar : bits imm 7 0 ≤ min (bits imm 15 8) (s.rd Reg.LINK_CAP 15 8))
    (hown : s.rd Reg.LINK_CAP 7 0 ≤ min (bits imm 15 8) (s.rd Reg.LINK_CAP 15 8)) : s.rxVersion p imm =
      (s.setPort p { s.port p with farVer := some imm }).wr (Reg.PORT_STAT p) 11 8 (min (bits imm 15 8) (s.rd Reg.LINK_CAP 15 8)) :=
  (if_pos (by simpa only [Bool.or_eq_true, decide_eq_true_eq, or_assoc] using h)).trans
    (if_pos (by rw [Bool.and_eq_true, decide_eq_true_eq, decide_eq_true_eq]; exact ⟨hfar, hown⟩))

theorem State.rxVersion_none (h : s.portState p = 2 ∨ s.portState p = 3 ∨ s.portState p = 4) {u v : State}
    (hnone : min (bits imm 15 8) (s.rd Reg.LINK_CAP 15 8) < bits imm 7 0 ∨
      min (bits imm 15 8) (s.rd Reg.LINK_CAP 15 8) < s.rd Reg.LINK_CAP 7 0)
    (hu : u = s.setPort p { s.port p with farVer := some imm })
    (hv : v = (u.wr (Reg.PORT_STAT p) 11 8 0).setPortStat p 4 0 (u.rd (Reg.PORT_STAT p) 23 16)) :
    s.rxVersion p imm = ((State.lostSince u v).post 0x0903 [p, imm]).portChanged p := by
  subst hu hv
  refine (if_pos (by simpa only [Bool.or_eq_true, decide_eq_true_eq, or_assoc] using h)).trans (if_neg ?_)
  rw [Bool.and_eq_true, decide_eq_true_eq, decide_eq_true_eq]
  change ¬ (_ ∧ s.rd Reg.LINK_CAP 7 0 ≤ _)
  omega

end Version

theorem version_row (p : Fin 10) (imm : W64) (s : State) (v : Nat) (hp : s.powered = true)
    (h : s.portState p.val = 2 ∨ s.portState p.val = 3 ∨ s.portState p.val = 4)
    (hv : v = min (bits imm.toNat 15 8) (s.rd Reg.LINK_CAP 15 8)) (hfar : bits imm.toNat 7 0 ≤ v) (hown : s.rd Reg.LINK_CAP 7 0 ≤ v) :
    ∃ t, exec (.version p imm) s = .next t ∧ t.rd (Reg.PORT_STAT p.val) 11 8 = v % 16 ∧
      (t.port p.val).farVer = some imm.toNat ∧ t = { s with csr := t.csr, ports := t.ports } ∧
      (∀ o, o ≠ Reg.PORT_STAT p.val → t.word o = s.word o) := by
  subst hv
  rw [exec_version hp, State.rxVersion_agreed h hfar hown]
  exact ⟨_, rfl, State.rd_wr _ _ _ (by decide) (by decide), congrArg PortRt.farVer (State.port_setPort ..),
    ((LinkOnly.refl s).setPort _ _).wr _ _ _ _, fun o ho => State.word_wr_ne _ _ _ _ ho⟩

/-! ## WIDTH (R509, R525) -/

section Replay
variable (s : State) (p : Nat)

theorem State.replay_word {o : Nat} (hreplays : o ≠ Reg.REPLAYS p) (hflits : o ≠ Reg.FLITS_TX p) : (s.replay p).word o = s.word o := by
  by_cases h : (s.port p).unacked = []
  · rw [State.replay_nothing h]
  · rw [State.replay_some h, State.word_bump_ne _ _ hflits, State.word_bumpSat_ne _ _ hreplays, State.word_setPort]

theorem PortRt.again_sends (r : PortRt) : Sends r (r.again p) :=
  List.foldlRecOn (motive := Sends r) r.unacked _ (Sends.refl r) fun _ h _ _ => h.trans (PortRt.putFlit_sends _ p _)

theorem State.replay_proposed : ((s.replay p).port p).proposed = (s.port p).proposed := by
  by_cases h : (s.port p).unacked = []
  · rw [State.replay_nothing h]
  · rw [State.replay_some h, State.port_bump, State.port_bumpSat, State.port_setPort]
    exact (PortRt.again_sends p (s.port p)).proposed

end Replay

section Take
variable (s : State) {p lanes : Nat}

theorem State.takeLanes_same (h : s.rd (Reg.PORT_STAT p) 23 16 = lanes) : s.takeLanes p lanes = s.proposes p 0 :=
  if_pos (beq_iff_eq.mpr h)

theorem State.takeLanes_new (h : s.rd (Reg.PORT_STAT p) 23 16 ≠ lanes) : s.takeLanes p lanes =
    (((((s.proposes p 0).setPortStat p ((s.proposes p 0).portState p) (widthOf lanes) lanes).bumpSat (Reg.WIDTH_CHG p)).replay p).post 0x0906
      [p, widthOf lanes, 0]) := if_neg (by rwa [beq_iff_eq])

end Take

theorem takeLanes_spec (s : State) {p lanes : Nat} (hp : p < 10) (hl : lanes < 256) :
    (s.takeLanes p lanes).rd (Reg.PORT_STAT p) 23 16 = lanes ∧ ((s.takeLanes p lanes).port p).proposed = 0 ∧
      (s.takeLanes p lanes).word (Reg.WIDTH_CHG p) = (if s.rd (Reg.PORT_STAT p) 23 16 = lanes then s.word (Reg.WIDTH_CHG p)
        else BitVec.ofNat 32 (sat32 ((s.word (Reg.WIDTH_CHG p)).toNat + 1))) := by
  by_cases h : s.rd (Reg.PORT_STAT p) 23 16 = lanes
  · rw [s.takeLanes_same h, if_pos h]
    exact ⟨h, congrArg PortRt.proposed (State.port_setPort ..), rfl⟩
  · rw [s.takeLanes_new h, if_neg h]
    have hstat : Reg.PORT_STAT p ∉ logRegs := by apply not_mem_logRegs <;> unfold Reg.PORT_STAT <;> omega
    have hchg : Reg.WIDTH_CHG p ∉ logRegs := by apply not_mem_logRegs <;> unfold Reg.WIDTH_CHG <;> omega
    have hne : Reg.PORT_STAT p ≠ Reg.WIDTH_CHG p := by unfold Reg.PORT_STAT Reg.WIDTH_CHG; omega
    refine ⟨?_, ?_, ?_⟩
    · rw [State.rd_congr (State.word_post _ _ _ hstat), State.rd_congr (State.replay_word _ _ ?_ ?_),
        State.rd_congr (State.word_bumpSat_ne _ _ hne), State.lanes_setPortStat, Nat.mod_eq_of_lt hl]
      · unfold Reg.PORT_STAT Reg.REPLAYS; omega
      · unfold Reg.PORT_STAT Reg.FLITS_TX; omega
    · rw [State.port_post, State.replay_proposed, State.port_bumpSat, State.port_setPortStat, State.proposes, State.port_setPort]
    · rw [State.word_post _ _ _ hchg, State.replay_word _ _ ?_ ?_, State.word_bumpSat, State.word_setPortStat _ _ _ _ hne.symm]
      · rfl
      · unfold Reg.WIDTH_CHG Reg.REPLAYS; omega
      · unfold Reg.WIDTH_CHG Reg.FLITS_TX; omega

section Width
variable {s : State} {p imm : Nat}

theorem State.rxWidth_agreed (hbit : bit imm 8 = true) (heq : bits imm 7 0 = (s.port p).proposed) (hne : bits imm 7 0 ≠ 0) :
    s.rxWidth p imm = s.takeLanes p (bits imm 7 0) :=
  (if_pos hbit).trans (if_pos (by rw [Bool.and_eq_true, decide_eq_true_eq, bne_iff_ne]; exact ⟨heq, hne⟩))

variable (hbit : bit imm 8 = false) (hne : bits imm 7 0 ≠ 0) (h0 : s.portState p ≠ 0) (h5 : s.portState p ≠ 5)
include hbit hne h0 h5

theorem State.rxWidth_proposed : s.rxWidth p imm =
    if laneSets.contains (bits imm 7 0) = true ∧ bits imm 7 0 &&& s.goodLanes p = bits imm 7 0 then
      (s.takeLanes p (bits imm 7 0)).sendLink p 1 (bits imm 7 0 + 256)
    else if nextSet (s.goodLanes p) (bits imm 7 0) = 0 then s.portGoesDown p
    else (s.setPort p { s.port p with proposed := nextSet (s.goodLanes p) (bits imm 7 0) }).sendLink p 1
      (nextSet (s.goodLanes p) (bits imm 7 0)) := by
  refine ((if_neg (by rw [hbit]; exact Bool.false_ne_true)).trans (if_neg ?_)).trans (if_congr ?_ rfl rfl)
  · simp only [Bool.or_eq_true, decide_eq_true_eq]
    omega
  · rw [Bool.and_eq_true, beq_iff_eq]

end Width

/-! ## BORROW (R511) -/

section Borrow
variable {s : State} {p imm : Nat}

theorem State.rxBorrow_taken (hbit : bit imm 8 = false) (hup : s.portUp p = true) (hw : s.rd (Reg.PORT_STAT p) 15 12 = 8) : s.rxBorrow p imm =
    ((s.setPort p { s.port p with borrowed := some (bits imm 2 0) }).setPortStat p 3 7 (255 - 2 ^ bits imm 2 0)).bump (Reg.BORROWS p) :=
  (if_neg (by rw [hbit]; exact Bool.false_ne_true)).trans (if_pos (by rw [hup, hw]; rfl))

theorem State.rxBorrow_refused (hbit : bit imm 8 = false) (h : s.portUp p = false ∨ s.rd (Reg.PORT_STAT p) 15 12 ≠ 8) :
    s.rxBorrow p imm = s := by
  refine (if_neg (by rw [hbit]; exact Bool.false_ne_true)).trans (if_neg ?_)
  rw [Bool.and_eq_true, beq_iff_eq]
  rintro ⟨hup, hw⟩
  rcases h with h | h
  · rw [hup] at h
    exact Bool.noConfusion h
  · exact h hw

theorem State.rxBorrow_returned (hbit : bit imm 8 = true) (h : (s.port p).borrowed = some (bits imm 2 0)) : s.rxBorrow p imm =
    (s.setPort p { s.port p with borrowed := none }).setPortStat p (s.portState p) 8 255 := (if_pos hbit).trans (if_pos h)

theorem State.rxBorrow_notReturned (hbit : bit imm 8 = true) (h : (s.port p).borrowed ≠ some (bits imm 2 0)) : s.rxBorrow p imm = s :=
  (if_pos hbit).trans (if_neg h)

end Borrow

theorem borrow_row (p : Fin 10) (imm : W64) (s : State) (hp : s.powered = true) (hbit : bit imm.toNat 8 = false)
    (hup : s.portUp p.val = true) (hw : s.rd (Reg.PORT_STAT p.val) 15 12 = 8) :
    ∃ t, exec (.borrow p imm) s = .next t ∧ (t.port p.val).borrowed = some (bits imm.toNat 2 0) ∧
      t.rd (Reg.PORT_STAT p.val) 15 12 = 7 ∧ t.rd (Reg.PORT_STAT p.val) 23 16 = 255 - 2 ^ bits imm.toNat 2 0 ∧
      t.word (Reg.BORROWS p.val) = s.word (Reg.BORROWS p.val) + 1 ∧ t = { s with csr := t.csr, ports := t.ports } := by
  have hne : Reg.PORT_STAT p.val ≠ Reg.BORROWS p.val := by unfold Reg.PORT_STAT Reg.BORROWS; omega
  rw [exec_borrow hp, State.rxBorrow_taken hbit hup hw]
  refine ⟨_, rfl, congrArg PortRt.borrowed (State.port_setPort ..), ?_, ?_, ?_, (((LinkOnly.refl s).setPort _ _).setPortStat _ _ _ _).bump _ 1⟩
  · rw [State.rd_congr (State.word_bump_ne _ _ hne), State.width_setPortStat]
    rfl
  · rw [State.rd_congr (State.word_bump_ne _ _ hne), State.lanes_setPortStat]
    exact Nat.mod_eq_of_lt (Nat.lt_of_le_of_lt (Nat.sub_le ..) (by decide))
  · rw [State.word_bump_one, State.word_setPortStat _ _ _ _ hne.symm, State.word_setPort]

theorem return_row (p : Fin 10) (imm : W64) (s : State) (hp : s.powered = true) (hbit : bit imm.toNat 8 = true)
    (hup : s.portUp p.val = true) (hlane : (s.port p.val).borrowed = some (bits imm.toNat 2 0)) :
    ∃ t, exec (.borrow p imm) s = .next t ∧ (t.port p.val).borrowed = none ∧ t.rd (Reg.PORT_STAT p.val) 15 12 = 8 ∧
      t.rd (Reg.PORT_STAT p.val) 23 16 = 255 ∧ t = { s with csr := t.csr, ports := t.ports } := by
  rw [exec_borrow hp, State.rxBorrow_returned hbit hlane]
  refine ⟨_, rfl, congrArg PortRt.borrowed (State.port_setPort ..), ?_, State.lanes_setPortStat .., ((LinkOnly.refl s).setPort _ _).setPortStat _ _ _ _⟩
  rw [State.width_setPortStat, if_pos (beq_iff_eq.mp hup)]

/-! ## The statement about lanes -/

theorem bestSet_spec (good : Nat) (_ : good < 256) : bestSet good &&& good = bestSet good ∧
    (bestSet good = 0 ↔ good &&& 3 ≠ 3 ∧ good &&& 12 ≠ 12 ∧ good &&& 48 ≠ 48 ∧ good &&& 192 ≠ 192) ∧
    (∀ m ∈ [0xFF, 0x0F, 0xF0, 0x03, 0x0C, 0x30, 0xC0], good &&& m = m → widthOf m ≤ widthOf (bestSet good)) :=
  ⟨firstGood_and good laneSets, bestSet_eq_zero_iff good, fun _ hm hgood => width_le_firstGood laneSets_ordered hm hgood⟩

/-- Settles O48: the lists of lane sets run from the widest on, and each message acts as its branch of the model says. -/
theorem laneRows : Obligations.LaneRows := by
  refine ⟨bestSet_spec, fun p lane s u hp hu h0 h5 hbest => ?_, laneFail_row, flitLock_row, version_row,
    fun p imm s hp hbit heq hne => ?_, fun p imm s b hp hbit hne h0 h5 hb => ?_, fun good far _ hfar => ?_, borrow_row, return_row,
    fun p lane s u hp hu h0 h5 hbest => ?_, fun p lanes s hp hbest => ?_, fun p imm s u v top hp htop => ?_, fun p imm s hp => ?_⟩
  · rw [exec_laneFail hp, State.laneFails_eq hu, if_neg (not_or.mpr ⟨h0, h5⟩), if_neg hbest]
    rfl
  · rw [exec_width hp, State.rxWidth_agreed hbit heq hne]
    exact ⟨_, rfl, takeLanes_spec s p.isLt (bits_lt _ 7 0)⟩
  · subst hb
    rw [exec_width hp, State.rxWidth_proposed hbit hne h0 h5]
    refine ⟨fun hset hgood => by rw [if_pos ⟨hset, hgood⟩], fun hbad => ?_⟩
    rw [if_neg fun h => hbad.elim (fun h' => absurd (h.1.symm.trans h') Bool.noConfusion) fun h' => h' h.2]
  · have hfar := List.contains_iff_mem.mp hfar
    refine ⟨?_, fun m hm hgood hw => width_le_nextSet hfar hm hgood hw⟩
    rw [nextSet_of_mem good hfar]
    exact firstGood_and good _
  · rw [exec_laneFail hp, State.laneFails_eq hu, if_neg (not_or.mpr ⟨h0, h5⟩), if_pos hbest, hbest]
    rfl
  · rw [exec_flitLock hp]
    exact congrArg _ (if_pos hbest)
  · subst htop
    rw [exec_version hp]
    exact ⟨fun h => by rw [State.rxVersion_dark h], fun h hnone hu hv => by rw [State.rxVersion_none h hnone hu hv]⟩
  · rw [exec_borrow hp]
    exact ⟨fun hbit h => by rw [State.rxBorrow_refused hbit h], fun hbit h => by rw [State.rxBorrow_notReturned hbit h]⟩

end Sys2Proof.Machine
end

section
/-! SUPPORT. Reach, identity frames and the match of ports (12_fabric_links.md R505, R506, R516; 13_topology_failover.md R527 to R537). -/

namespace Sys2Proof.Machine

/-! ## The rows as functions of the state -/

section Rows
variable {s : State} (hp : s.powered = true) (p : Fin 10) (imm : W64)
include hp

theorem exec_unreach : exec (.unreach p imm) s = .next (s.rxUnreach p.val (imm.toNat % 65536)) :=
  act_powered hp fun s => s.rxUnreach p.val (imm.toNat % 65536)

theorem exec_reachable : exec (.reachable p imm) s = .next (s.rxReachable p.val (imm.toNat % 65536)) :=
  act_powered hp fun s => s.rxReachable p.val (imm.toNat % 65536)

theorem exec_ringmap : exec (.ringmap p imm) s = .next (s.rxRingmap p.val imm.toNat) := act_powered hp fun s => s.rxRingmap p.val imm.toNat

theorem exec_ident {f : List Byte} (hf : f.length = 64) : exec (.ident p f) s = .next (s.rxIdent p.val f) :=
  actIf_powered (beq_iff_eq.mpr hf) hp fun s => s.rxIdent p.val f

theorem exec_ringmapTimeout_known {pos : BitVec 16} {e : Bool × Bool × Nat} (h : Map.get? s.ringMap pos.toNat = some e) :
    exec (.ringmapTimeout pos) s = .next (State.lostSince s
      { s.waited (100000 * e.2.2) 300000 with ringMap := Map.erase s.ringMap pos.toNat }) := by
  change execRingmapTimeout pos s = _
  rw [execRingmapTimeout, act_powered hp, h]

theorem exec_ringmapTimeout_unknown {pos : BitVec 16} (h : Map.get? s.ringMap pos.toNat = none) :
    exec (.ringmapTimeout pos) s = .next s := by
  change execRingmapTimeout pos s = _
  rw [execRingmapTimeout, act_powered hp, h]

theorem exec_identTimer_trained (h : s.portState p.val = 2 ∨ s.portState p.val = 3 ∨ s.portState p.val = 4) :
    exec (.identTimer p) s = .next (s.send p.val { mkPacket 0x42 s.pos 0 with gran := [s.ownFrame p.val] }) := by
  change execIdentTimer p s = _
  rw [execIdentTimer, act_powered hp, if_pos h]

theorem exec_identTimer_dark (h : s.portState p.val = 0 ∨ s.portState p.val = 1 ∨ s.portState p.val = 5) :
    exec (.identTimer p) s = .next s := by
  change execIdentTimer p s = _
  rw [execIdentTimer, act_powered hp, if_neg (by omega)]

theorem exec_absentDeadline : exec .absentDeadline s = .next (State.report (State.checkMatched
    ((List.range 10).foldl State.absent { s with start := { s.start with deadline := true } }))) :=
  act_powered hp fun s => State.report (State.checkMatched
    ((List.range 10).foldl State.absent { s with start := { s.start with deadline := true } }))

end Rows

/-! ## RINGMAP (R516) -/

section Ringmap
variable {s : State} {p imm : Nat}

theorem State.rxRingmap_none (h : p < 8 ∨ bits imm 15 0 = s.pos) : s.rxRingmap p imm = s :=
  if_pos (by rwa [Bool.or_eq_true, decide_eq_true_eq, beq_iff_eq])

theorem State.rxRingmap_passed (hp : 8 ≤ p) (hpos : bits imm 15 0 ≠ s.pos) {u : State}
    (hu : u = { s with ringMap := Map.set s.ringMap (bits imm 15 0) (bit imm 16, bit imm 17, s.epoch) }) : s.rxRingmap p imm =
      State.lostSince s (if u.carriesCtl (if p = 8 then 9 else 8) then u.sendLink (if p = 8 then 9 else 8) 5 (imm % 2 ^ 18) else u) := by
  subst hu
  refine if_neg ?_
  rw [Bool.or_eq_true, decide_eq_true_eq, beq_iff_eq]
  omega

end Ringmap

/-! ## The match of a port (R534, R535) -/

section Settle
variable (s : State) (p : Nat)

/-- May the port go UP: an accepted code, and nothing that holds it? -/
def State.accepted : Bool := (s.rd (Reg.IDM p) 31 28 == 1 || s.rd (Reg.IDM p) 31 28 == 2) && s.mayCarry p

/-- The planes, or the ring, as the port's far end asks (R535). -/
def State.swapped : State :=
  if !(s.accepted p) then s
  else if s.servedPlane p < 8 then s.mapPlane (s.servedPlane p) p
  else if p < 8 then s
  else s.wrb Reg.TOPO_CFG 1 (s.ringSwapped p)

/-- The port UP or HELD. -/
def State.settled : State :=
  (s.swapped p).setPortStat p (if s.accepted p then 3 else 4) (widthOf (s.rd (Reg.PORT_STAT p) 23 16)) (s.rd (Reg.PORT_STAT p) 23 16)

theorem State.settlePort_eq : s.settlePort p = ((State.lostSince s (s.settled p)).portChanged p).checkMatched := rfl

theorem State.swapped_start : (s.swapped p).start = s.start := by
  rw [State.swapped]
  repeat' split
  all_goals rfl

theorem State.settled_start : (s.settled p).start = s.start := s.swapped_start p

theorem State.checkMatched_matched (h : s.start.matched = true) : s.checkMatched = s := if_pos (by rw [h]; rfl)

/-- A port whose ports were first matched before goes UP or HELD by its code. -/
theorem settlePort_state (hp : p < 10) (hmatched : s.start.matched = true) (hpaths : ∀ n, n < 256 → s.paths (idxPos n) = []) :
    (s.settlePort p).portState p = if s.accepted p then 3 else 4 := by
  have htold := (s.settled p).portChanged_told p
  have hstart : ((s.settled p).portChanged p).start = s.start := by
    rw [htold.rest]
    exact s.settled_start p
  rw [State.settlePort_eq, lostSince_of_no_paths _ hpaths, State.checkMatched_matched _ (by rw [hstart, hmatched]),
    State.portState_congr (htold.portStat hp)]
  exact State.portState_setPortStat _ _ _ _ (by split <;> decide)

theorem State.accepted_iff : s.accepted p = true ↔
    (s.rd (Reg.IDM p) 31 28 = 1 ∨ s.rd (Reg.IDM p) 31 28 = 2) ∧ s.mayCarry p = true := by
  rw [State.accepted, Bool.and_eq_true, Bool.or_eq_true, beq_iff_eq, beq_iff_eq]

end Settle

/-! ## An identity frame (R527, R532, R535) -/

section Ident
variable (s : State) (p : Nat) (f : List Byte)

/-- The code that a frame gives, after SWAPOK (R532, R535). -/
def State.frameCode : Nat := if s.matchCode p f = 5 ∧ s.swapOk p f = true then 2 else s.matchCode p f

theorem State.matchCode_le : s.matchCode p f ≤ 7 := by
  rw [State.matchCode]
  repeat' split
  all_goals decide

theorem State.frameCode_lt : s.frameCode p f < 16 := by
  have := s.matchCode_le p f
  rw [State.frameCode]
  split <;> omega

/-- The word of IDM for a frame: code, port and position of the far end (R574). -/
def idmWord (code : Nat) (f : List Byte) : Nat := code * 2 ^ 28 + (f.getD 11 0).toNat * 65536 + leNat ((f.drop 8).take 2)

/-- The link unit and the registers of a port that took a frame. -/
def State.framed : State :=
  ((s.setPort p { s.port p with
    frame := some (leNat (f.take 8), leNat ((f.drop 8).take 2), (f.getD 11 0).toNat), frameKind := (f.getD 10 0).toNat,
    framePlane := (f.getD 12 0).toNat, frameFlags := (f.getD 13 0).toNat, lastMatch := (f.getD 15 0).toNat }).wrw
      (Reg.IDM p) (BitVec.ofNat 32 (idmWord (s.frameCode p f) f))).wr64 (Reg.FAR_SER_LO p) (Reg.FAR_SER_HI p) (leNat (f.take 8))

/-- As `framed`, with the event of a code other than 1. -/
def State.frameNoted : State := if s.frameCode p f != 1 then (s.framed p f).post 0x0904 [p, s.frameCode p f] else s.framed p f

theorem State.frameNoted_logOnly : LogOnly (s.framed p f) (s.frameNoted p f) := by
  rw [State.frameNoted]
  split
  · exact State.post_logOnly _ _ _
  · exact LogOnly.refl _

variable {s p f}

/-- A port in IDENT takes a frame and is matched by it. -/
theorem State.rxIdent_fresh (hst : s.portState p = 2) (hkind : (f.getD 10 0).toNat ≤ 1) (hnoted : (s.frameNoted p f).portState p = 2) :
    s.rxIdent p f = (s.frameNoted p f).settlePort p := by
  rw [State.rxIdent]
  extract_lets key r changed note s1 c0 code old s2 s3 s4
  have h1 : s1 = s := if_neg (by rw [hst, bne_self_eq_false, Bool.and_false]; exact Bool.false_ne_true)
  have hcode : code = s.frameCode p f := by
    simp only [code, c0, h1, State.frameCode, Bool.and_eq_true, decide_eq_true_eq]
  have h3 : s3 = s.framed p f := by
    simp only [s3, s2, hcode, h1]
    rfl
  have h4 : s4 = s.frameNoted p f := by
    simp only [s4, hcode, h3, hst, beq_self_eq_true, Bool.true_or, Bool.and_true]
    rfl
  rw [if_neg (by rw [hst]; simpa using hkind), if_neg (by rw [hst]; simp), if_pos (by rw [h4, hnoted]; rfl), h4]

theorem State.framed_word {o : Nat} (hidm : o ≠ Reg.IDM p) (hlo : o ≠ Reg.FAR_SER_LO p) (hhi : o ≠ Reg.FAR_SER_HI p) :
    (s.framed p f).word o = s.word o := by
  rw [State.framed, State.word_wr64_ne _ _ hlo hhi, State.word_wrw_ne _ _ hidm, State.word_setPort]

theorem leNat_lt (l : List Byte) : leNat l < 256 ^ l.length := by
  induction l with
  | nil => exact Nat.one_pos
  | cons b l ih =>
    have := b.isLt
    rw [leNat, List.length_cons, pow_succ]
    omega

theorem leNat_take_lt (l : List Byte) (n : Nat) : leNat (l.take n) < 256 ^ n :=
  (leNat_lt _).trans_le (Nat.pow_le_pow_right (by decide) (List.length_take_le ..))

theorem State.framed_idm : ((s.framed p f).word (Reg.IDM p)).toNat = idmWord (s.frameCode p f) f := by
  have hlo : Reg.IDM p ≠ Reg.FAR_SER_LO p := by unfold Reg.IDM Reg.FAR_SER_LO; omega
  have hhi : Reg.IDM p ≠ Reg.FAR_SER_HI p := by unfold Reg.IDM Reg.FAR_SER_HI; omega
  have hcode := s.frameCode_lt p f
  have hport := (f.getD 11 0).isLt
  have hpos := leNat_take_lt (f.drop 8) 2
  rw [State.framed, State.word_wr64_ne _ _ hlo hhi, State.word_wrw, BitVec.toNat_ofNat]
  refine Nat.mod_eq_of_lt ?_
  rw [idmWord]
  omega

theorem idmWord_code {code : Nat} (hcode : code < 16) : bits (idmWord code f) 31 28 = code := by
  have hport := (f.getD 11 0).isLt
  have hpos := leNat_take_lt (f.drop 8) 2
  rw [idmWord, bits]
  omega

theorem idmWord_pos (code : Nat) : bits (idmWord code f) 15 0 = leNat ((f.drop 8).take 2) := by
  have hpos := leNat_take_lt (f.drop 8) 2
  rw [idmWord, bits]
  omega

theorem State.rd64_wr64 (s : State) {lo hi v : Nat} (h : lo ≠ hi) (hv : v < 2 ^ 64) : (s.wr64 lo hi v).rd64 lo hi = v := by
  rw [State.rd64, State.wr64, State.word_wrw, State.word_wrw_ne _ _ h, State.word_wrw, BitVec.toNat_ofNat, BitVec.toNat_ofNat]
  omega

end Ident

/-- The registers of identity frames are not the log's. -/
theorem idmBlock_not_log {p k : Nat} (hp : p < 10) (hk : k < 0x20) : 0x93400 + k + 0x40 * p ∉ logRegs :=
  not_mem_logRegs (by omega) (by omega)

theorem ident_row (p : Fin 10) (f : List Byte) (s : State) (code : Nat) (hp : s.powered = true) (hf : f.length = 64)
    (hkind : (f.getD 10 0).toNat ≤ 1) (hst : s.portState p.val = 2)
    (hcode : code = (if s.matchCode p.val f = 5 ∧ s.swapOk p.val f = true then 2 else s.matchCode p.val f)) :
    ∃ u, exec (.ident p f) s = .next (State.settlePort u p.val) ∧ u.rd (Reg.IDM p.val) 31 28 = code ∧
      u.rd (Reg.IDM p.val) 15 0 = leNat ((f.drop 8).take 2) ∧
      u.rd64 (Reg.FAR_SER_LO p.val) (Reg.FAR_SER_HI p.val) = leNat (f.take 8) := by
  have hlog := s.frameNoted_logOnly p.val f
  have hidm : (s.frameNoted p.val f).word (Reg.IDM p.val) = _ := hlog.regs _ (idmBlock_not_log (k := 0) p.isLt (by decide))
  have hstat : (s.frameNoted p.val f).portState p.val = 2 := by
    rw [State.portState_congr (hlog.regs _ (not_mem_logRegs ?_ ?_)), State.portState_congr (State.framed_word ?_ ?_ ?_), hst]
    all_goals simp only [Reg.PORT_STAT, Reg.IDM, Reg.FAR_SER_LO, Reg.FAR_SER_HI]
    all_goals omega
  refine ⟨s.frameNoted p.val f, ?_, ?_, ?_, ?_⟩
  · rw [exec_ident hp p hf, State.rxIdent_fresh hst hkind hstat]
  · rw [State.rd, hidm, State.framed_idm, idmWord_code (s.frameCode_lt _ _), State.frameCode, hcode]
  · rw [State.rd, hidm, State.framed_idm, idmWord_pos]
  · have hlo := hlog.regs _ (idmBlock_not_log (k := 4) p.isLt (by decide))
    have hhi := hlog.regs _ (idmBlock_not_log (k := 8) p.isLt (by decide))
    refine Eq.trans (congrArg₂ (fun lo hi : W32 => lo.toNat + 2 ^ 32 * hi.toNat) hlo hhi) ?_
    exact State.rd64_wr64 _ (by unfold Reg.FAR_SER_LO Reg.FAR_SER_HI; omega) (leNat_take_lt f 8)

end Sys2Proof.Machine
end

section
/-! SUPPORT. The deadline for identity frames (13_topology_failover.md R533, R536; 16_startup_config.md R649). -/

namespace Sys2Proof.Machine

/-! ## A deadline with no port trained -/

/-- t keeps the state and the match of every port, what the plan says of them, and the deadline. -/
structure PortsKept (s t : State) : Prop where
  stat : ∀ p, p < 10 → t.word (Reg.PORT_STAT p) = s.word (Reg.PORT_STAT p)
  idm : ∀ p, p < 10 → t.word (Reg.IDM p) = s.word (Reg.IDM p)
  deadline : t.start.deadline = s.start.deadline

theorem PortsKept.refl (s : State) : PortsKept s s := ⟨fun _ _ => rfl, fun _ _ => rfl, rfl⟩

theorem PortsKept.trans {s t u : State} (h1 : PortsKept s t) (h2 : PortsKept t u) : PortsKept s u :=
  ⟨fun p hp => (h2.stat p hp).trans (h1.stat p hp), fun p hp => (h2.idm p hp).trans (h1.idm p hp), h2.deadline.trans h1.deadline⟩

theorem Told.portsKept {s t : State} (h : Told s t) : PortsKept s t := by
  refine ⟨fun p hp => h.portStat hp, fun p hp => h.word _ ?_ ?_, by rw [h.rest]⟩
  · unfold Reg.IDM Reg.TOPO_STAT
    omega
  · unfold SendCount Reg.IDM
    omega

theorem State.wr_startStat_portsKept (s : State) (hi lo v : Nat) : PortsKept s (s.wr Reg.START_STAT hi lo v) := by
  refine ⟨fun p _ => s.word_wr_ne _ _ _ ?_, fun p _ => s.word_wr_ne _ _ _ ?_, rfl⟩
  · unfold Reg.PORT_STAT Reg.START_STAT
    omega
  · unfold Reg.IDM Reg.START_STAT
    omega

/-- With no port UP, a start-up that stops holds none. -/
theorem State.startFails_portsKept (s : State) (code : Nat) (h : ∀ p, p < 10 → s.portUp p = false) : PortsKept s (s.startFails code) := by
  have hcode : PortsKept s (if s.rd Reg.START_STAT 7 4 = 0 then s.wr Reg.START_STAT 7 4 code else s) := by
    split
    · exact s.wr_startStat_portsKept _ _ _
    · exact PortsKept.refl s
  rw [State.startFails]
  generalize (if s.rd Reg.START_STAT 7 4 = 0 then s.wr Reg.START_STAT 7 4 code else s) = t at *
  have hheld : (List.range 10).foldl State.holdPort t = t := foldl_eq_self fun p hp => by
    have hp := List.mem_range.mp hp
    rw [State.holdPort, State.portUp_congr (hcode.stat p hp), h p hp, if_neg Bool.false_ne_true]
  rw [hheld]
  split
  · exact hcode
  · exact hcode.trans (t.setSvc_told 3).portsKept

/-- The ports have been first matched. -/
def State.asMatched (s : State) : State := { s with start := { s.start with matched := true } }

/-- What the first match of the ports can do (R536). -/
theorem State.checkMatched_cases (s : State) : s.checkMatched = s ∨ s.checkMatched = s.asMatched.startFails 6 ∨
    ∃ v, s.checkMatched = (s.asMatched.wr Reg.START_STAT 3 0 v).report := by
  rw [State.checkMatched]
  split
  · exact Or.inl rfl
  · split
    · by_cases hup : s.asMatched.upPlanes < 6
      · exact Or.inr (Or.inl (if_pos hup))
      · exact Or.inr (Or.inr ⟨_, if_neg hup⟩)
    · exact Or.inl rfl

theorem State.checkMatched_portsKept (s : State) (h : ∀ p, p < 10 → s.portUp p = false) : PortsKept s s.checkMatched := by
  have hmatched : PortsKept s s.asMatched := ⟨fun _ _ => rfl, fun _ _ => rfl, rfl⟩
  rcases s.checkMatched_cases with hsame | hfails | ⟨v, hstarts⟩
  · rw [hsame]
    exact PortsKept.refl s
  · rw [hfails]
    exact hmatched.trans (s.asMatched.startFails_portsKept 6 h)
  · rw [hstarts]
    exact hmatched.trans ((s.asMatched.wr_startStat_portsKept 3 0 v).trans (State.report_told _).portsKept)

/-! ## The fold over the ports -/

/-- A planned port without a frame is ABSENT, and one that has not trained is left as it is. -/
theorem State.absent_planned (s : State) {p : Nat} {u : State} (hu : u = (s.wr (Reg.IDM p) 31 28 3).post 0x0904 [p, 3])
    (hplan : bit (s.planPort p) 31 = true) (hidm : s.rd (Reg.IDM p) 31 28 = 0) :
    s.absent p = if u.portState p = 2 ∨ u.portState p = 3 then u.settlePort p else u := by
  subst hu
  exact if_pos (by rw [hplan, hidm]; rfl)

theorem State.absent_other (s : State) {p : Nat} (h : bit (s.planPort p) 31 = false ∨ s.rd (Reg.IDM p) 31 28 ≠ 0) : s.absent p = s := by
  refine if_neg ?_
  rw [Bool.and_eq_true, beq_iff_eq]
  rintro ⟨hplan, hidm⟩
  rcases h with h | h
  · rw [hplan] at h
    exact Bool.noConfusion h
  · exact h hidm

theorem State.post_start (s : State) (code : Nat) (args : List Nat) : (s.post code args).start = s.start := by
  rw [(s.post_logOnly code args).rest]

theorem portStat_not_log {p : Nat} (hp : p < 10) : Reg.PORT_STAT p ∉ logRegs := by
  apply not_mem_logRegs <;> unfold Reg.PORT_STAT <;> omega

theorem idm_not_log {p : Nat} (hp : p < 10) : Reg.IDM p ∉ logRegs := idmBlock_not_log (k := 0) hp (by decide)

/-- The state with port p marked ABSENT (R532). -/
def State.absentMark (s : State) (p : Nat) : State := (s.wr (Reg.IDM p) 31 28 3).post 0x0904 [p, 3]

section Mark
variable (s : State) (p : Nat)

theorem State.absentMark_word {o : Nat} (hlog : o ∉ logRegs) (hne : o ≠ Reg.IDM p) : (s.absentMark p).word o = s.word o := by
  rw [State.absentMark, State.word_post _ _ _ hlog, State.word_wr_ne _ _ _ _ hne]

theorem State.absentMark_code (hp : p < 10) : (s.absentMark p).rd (Reg.IDM p) 31 28 = 3 := by
  rw [State.absentMark, State.rd_congr (State.word_post _ _ _ (idm_not_log hp)), State.rd_wr]
  all_goals decide

theorem State.absentMark_code_ne {q : Nat} (hq : q < 10) (hne : q ≠ p) : (s.absentMark p).rd (Reg.IDM q) 31 28 = s.rd (Reg.IDM q) 31 28 :=
  State.rd_congr (s.absentMark_word p (idm_not_log hq) (by unfold Reg.IDM; omega)) 31 28

theorem State.absentMark_portState {q : Nat} (hq : q < 10) : (s.absentMark p).portState q = s.portState q :=
  State.portState_congr (s.absentMark_word p (portStat_not_log hq) (by unfold Reg.PORT_STAT Reg.IDM; omega))

theorem State.absentMark_start : (s.absentMark p).start = s.start := by rw [State.absentMark, State.post_start]; rfl

theorem State.absentMark_planPort (q : Nat) : (s.absentMark p).planPort q = s.planPort q := by
  have hpos : (s.absentMark p).pos = s.pos :=
    State.rd_congr (s.absentMark_word p (by decide) (by unfold Reg.POSITION Reg.IDM; omega)) 15 0
  rw [State.planPort, State.planLe, State.absentMark_start, hpos, State.planPort, State.planLe]

end Mark

/-- What the deadline's pass over the ports keeps: no port has trained, the plan is as it was, and port q has the code it had
or is ABSENT. -/
structure Waiting (s : State) (q : Nat) (t : State) : Prop where
  dark : ∀ p, p < 10 → t.portState p ≠ 2 ∧ t.portState p ≠ 3
  plan : ∀ p, t.planPort p = s.planPort p
  deadline : t.start.deadline = s.start.deadline
  code : t.rd (Reg.IDM q) 31 28 = s.rd (Reg.IDM q) 31 28 ∨ t.rd (Reg.IDM q) 31 28 = 3

section Pass
variable {s t : State} {p q : Nat} (hp : p < 10) (hq : q < 10) (h : Waiting s q t)
include hp h

/-- A port that has not trained is marked or left as it is. -/
theorem Waiting.absent_cases : (t.absent p = t ∧ (bit (t.planPort p) 31 = false ∨ t.rd (Reg.IDM p) 31 28 ≠ 0)) ∨
    t.absent p = t.absentMark p := by
  by_cases hcond : bit (t.planPort p) 31 = true ∧ t.rd (Reg.IDM p) 31 28 = 0
  · refine Or.inr ((t.absent_planned rfl hcond.1 hcond.2).trans (if_neg ?_))
    change ¬ ((t.absentMark p).portState p = 2 ∨ (t.absentMark p).portState p = 3)
    rw [State.absentMark_portState _ _ hp]
    exact not_or.mpr (h.dark p hp)
  · rw [not_and_or, Bool.not_eq_true] at hcond
    exact Or.inl ⟨t.absent_other hcond, hcond⟩

include hq

theorem Waiting.absent : Waiting s q (t.absent p) := by
  rcases h.absent_cases hp with ⟨hsame, -⟩ | hmark
  · rw [hsame]
    exact h
  · rw [hmark]
    refine ⟨fun x hx => ?_, fun x => ?_, ?_, ?_⟩
    · rw [State.absentMark_portState _ _ hx]
      exact h.dark x hx
    · rw [State.absentMark_planPort, h.plan]
    · rw [State.absentMark_start, h.deadline]
    · by_cases hqp : q = p
      · exact Or.inr (hqp ▸ State.absentMark_code t p hp)
      · rw [t.absentMark_code_ne p hq hqp]
        exact h.code

theorem Waiting.absent_keeps (hcode : t.rd (Reg.IDM q) 31 28 = 3) : (t.absent p).rd (Reg.IDM q) 31 28 = 3 := by
  rcases h.absent_cases hp with ⟨hsame, -⟩ | hmark
  · rw [hsame, hcode]
  · rw [hmark]
    by_cases hqp : q = p
    · exact hqp ▸ State.absentMark_code t p hp
    · rw [t.absentMark_code_ne p hq hqp, hcode]

end Pass

theorem Waiting.absent_self {s t : State} {q : Nat} (hq : q < 10) (h : Waiting s q t) (hplan : bit (s.planPort q) 31 = true)
    (hcode : s.rd (Reg.IDM q) 31 28 = 0) : (t.absent q).rd (Reg.IDM q) 31 28 = 3 := by
  rcases h.absent_cases hq with ⟨hsame, hcond⟩ | hmark
  · rw [hsame]
    rcases hcond with hcond | hcond
    · rw [h.plan, hplan] at hcond
      exact Bool.noConfusion hcond
    · exact h.code.resolve_left (hcode ▸ hcond)
  · rw [hmark, State.absentMark_code t q hq]

/-- The pass of the deadline over the ports keeps what `Waiting` says. -/
theorem foldl_absent_waiting {s : State} {q : Nat} (hq : q < 10) (h : Waiting s q s) :
    Waiting s q ((List.range 10).foldl State.absent s) :=
  List.foldlRecOn (motive := Waiting s q) _ _ h fun _ ht _ hp => ht.absent (List.mem_range.mp hp) hq

/-- The pass marks every planned port without a frame. -/
theorem foldl_absent_code {s : State} {q : Nat} (hq : q < 10) (h : Waiting s q s) (hplan : bit (s.planPort q) 31 = true)
    (hcode : s.rd (Reg.IDM q) 31 28 = 0) : ((List.range 10).foldl State.absent s).rd (Reg.IDM q) 31 28 = 3 :=
  foldl_reaches (List.mem_range.mpr hq) (Waiting s q) (fun t => t.rd (Reg.IDM q) 31 28 = 3) h
    (fun _ hp _ ht => ht.absent (List.mem_range.mp hp) hq) (fun _ ht => ht.absent_self hq hplan hcode)
    (fun _ hp _ ht hcode => ht.absent_keeps (List.mem_range.mp hp) hq hcode)

/-- The deadline for identity frames has come. -/
def State.atDeadline (s : State) : State := { s with start := { s.start with deadline := true } }

theorem absentDeadline_row (s : State) (hp : s.powered = true) (hdark : ∀ p, p < 10 → s.portState p ≠ 2 ∧ s.portState p ≠ 3) :
    ∃ t, exec .absentDeadline s = .next t ∧ t.start.deadline = true ∧
      ∀ p, p < 10 → bit (s.planPort p) 31 = true → s.rd (Reg.IDM p) 31 28 = 0 → t.rd (Reg.IDM p) 31 28 = 3 := by
  have hwaiting : ∀ q, Waiting s.atDeadline q s.atDeadline := fun q => ⟨hdark, fun _ => rfl, rfl, Or.inl rfl⟩
  have hpass := fun q hq => foldl_absent_waiting hq (hwaiting q)
  have hdown : ∀ p, p < 10 → ((List.range 10).foldl State.absent s.atDeadline).portUp p = false := fun p hp =>
    beq_eq_false_iff_ne.mpr ((hpass p hp).dark p hp).2
  have hkept := ((List.range 10).foldl State.absent s.atDeadline).checkMatched_portsKept hdown
  have hreport := hkept.trans (State.report_told _).portsKept
  refine ⟨_, exec_absentDeadline hp, hreport.deadline.trans (hpass 0 (by decide)).deadline, fun p hp hplan hcode => ?_⟩
  exact (State.rd_congr (hreport.idm p hp) 31 28).trans (foldl_absent_code hp (hwaiting p) hplan hcode)

end Sys2Proof.Machine
end

section
/-! SUPPORT. Cables (13_topology_failover.md R539 to R542; 18_module_interfaces.md R717), and the statement about what the fabric says. -/

namespace Sys2Proof.Machine

/-! ## The registers of a cable (R542) -/

/-- The cable registers of a port. -/
abbrev CableReg (p o : Nat) : Prop := 0x9340C + 0x40 * p ≤ o ∧ o ≤ 0x9341C + 0x40 * p

/-- The cable registers of a port set to a state, a life, the counts and a serial number. -/
def State.showCable (s : State) (p st life mates hours ser : Nat) : State :=
  (((s.wrw (Reg.CBL_STAT p) (BitVec.ofNat 32 (st * 65536 + life))).wrw (Reg.CBL_MATES p) (BitVec.ofNat 32 mates)).wrw (Reg.CBL_HOURS p)
    (BitVec.ofNat 32 hours)).wr64 (Reg.CBL_SER_LO p) (Reg.CBL_SER_HI p) ser

/-- As `showCable`, with the event of a new state. -/
def State.tellCable (s : State) (p st life mates hours ser : Nat) : State :=
  (((s.showCable p st life mates hours ser).setPort p { (s.showCable p st life mates hours ser).port p with
    wornAt := (s.showCable p st life mates hours ser).now }).post 0x0905 [p, st, life]).report

section Refresh
variable (s : State) (p : Nat)

/-- What a refresh of the cable registers can do; a cable whose memory did not answer is NOID. -/
theorem State.cableRefresh_cases : ∃ st life mates hours ser, ((s.port p).noid = true → st = 3 ∧ life = 0) ∧
    (s.cableRefresh p = s.showCable p st life mates hours ser ∨ s.cableRefresh p = s.tellCable p st life mates hours ser) := by
  generalize hrefresh : s.cableRefresh p = t
  unfold State.cableRefresh at hrefresh
  extract_lets r mates hours rm rh life0 st life old s1 s2 s3 at hrefresh
  refine ⟨st, life, mates, hours, if st = 3 then 0 else Mem.le s1.mem (physCable p 4) 8, fun hnoid => ?_, ?_⟩
  · have hst : st = 3 := if_pos (by rw [State.cableId, hnoid]; rfl)
    exact ⟨hst, if_pos hst⟩
  · rw [← hrefresh]
    split
    · exact Or.inl rfl
    · exact Or.inr rfl

variable {s p}

theorem State.showCable_word (st life mates hours ser : Nat) {o : Nat} (h : ¬ CableReg p o) :
    (s.showCable p st life mates hours ser).word o = s.word o := by
  rw [State.showCable, State.word_wr64_ne, State.word_wrw_ne, State.word_wrw_ne, State.word_wrw_ne]
  all_goals
    rintro rfl
    refine h ?_
    simp only [CableReg, Reg.CBL_STAT, Reg.CBL_MATES, Reg.CBL_HOURS, Reg.CBL_SER_LO, Reg.CBL_SER_HI]
    omega

theorem State.showCable_port (st life mates hours ser q : Nat) : (s.showCable p st life mates hours ser).port q = s.port q := by
  rw [State.showCable, State.port_wr64, State.port_wrw, State.port_wrw, State.port_wrw]

theorem State.showCable_stat {st life : Nat} (mates hours ser : Nat) (hst : st < 4) (hlife : life < 1024) :
    (s.showCable p st life mates hours ser).rd (Reg.CBL_STAT p) 17 16 = st := by
  have hword : (s.showCable p st life mates hours ser).word (Reg.CBL_STAT p) = BitVec.ofNat 32 (st * 65536 + life) := by
    rw [State.showCable, State.word_wr64_ne, State.word_wrw_ne, State.word_wrw_ne, State.word_wrw]
    all_goals
      simp only [Reg.CBL_STAT, Reg.CBL_MATES, Reg.CBL_HOURS, Reg.CBL_SER_LO, Reg.CBL_SER_HI]
      omega
  rw [State.rd, hword, BitVec.toNat_ofNat, bits]
  omega

theorem State.tellCable_word (st life mates hours ser : Nat) {o : Nat} (hlog : o ∉ logRegs) (htopo : o ≠ Reg.TOPO_STAT)
    (hcount : ¬ SendCount o) :
    (s.tellCable p st life mates hours ser).word o = (s.showCable p st life mates hours ser).word o := by
  rw [State.tellCable, (State.report_told _).word o htopo hcount, State.word_post _ _ _ hlog, State.word_setPort]

theorem State.tellCable_mates (st life mates hours ser : Nat) :
    ((s.tellCable p st life mates hours ser).port p).mates = (s.port p).mates := by
  rw [State.tellCable, ((State.report_told _).sends p).mates, State.port_post, State.port_setPort, State.showCable_port]

theorem State.cableRefresh_word {o : Nat} (h : ¬ CableReg p o) (hlog : o ∉ logRegs) (htopo : o ≠ Reg.TOPO_STAT) (hcount : ¬ SendCount o) :
    (s.cableRefresh p).word o = s.word o := by
  obtain ⟨st, life, mates, hours, ser, -, hshow | htell⟩ := s.cableRefresh_cases p
  · rw [hshow, State.showCable_word _ _ _ _ _ h]
  · rw [htell, State.tellCable_word _ _ _ _ _ hlog htopo hcount, State.showCable_word _ _ _ _ _ h]

theorem State.cableRefresh_mates : ((s.cableRefresh p).port p).mates = (s.port p).mates := by
  obtain ⟨st, life, mates, hours, ser, -, hshow | htell⟩ := s.cableRefresh_cases p
  · rw [hshow, State.showCable_port]
  · rw [htell, State.tellCable_mates]

theorem cblStat_not_log (hp : p < 10) : Reg.CBL_STAT p ∉ logRegs := idmBlock_not_log (k := 0xC) hp (by decide)

theorem cblStat_ne_topoStat : Reg.CBL_STAT p ≠ Reg.TOPO_STAT := by
  unfold Reg.CBL_STAT Reg.TOPO_STAT
  omega

theorem cblStat_not_sendCount : ¬ SendCount (Reg.CBL_STAT p) := by
  unfold SendCount Reg.CBL_STAT
  omega

/-- A cable whose memory does not answer is NOID. -/
theorem State.cableRefresh_noid (hp : p < 10) (h : (s.port p).noid = true) : (s.cableRefresh p).rd (Reg.CBL_STAT p) 17 16 = 3 := by
  obtain ⟨st, life, mates, hours, ser, hnoid, hcases⟩ := s.cableRefresh_cases p
  obtain ⟨rfl, rfl⟩ := hnoid h
  rcases hcases with hshow | htell
  · rw [hshow, State.showCable_stat _ _ _ (by decide) (by decide)]
  · rw [htell, State.rd_congr (State.tellCable_word _ _ _ _ _ (cblStat_not_log hp) cblStat_ne_topoStat cblStat_not_sendCount),
      State.showCable_stat _ _ _ (by decide) (by decide)]

end Refresh

/-! ## A cable is read (R539, R540; 18 R717) -/

section Try
variable (s : State) (p : Nat) (gap silent : Bool)

/-- A cable that is read: a mating is counted or not, and its registers are refreshed. -/
theorem State.cableRead_cases : ∃ u : State, s.cableRead p gap = u.cableRefresh p ∧ (∀ o, u.word o = s.word o) ∧
    (p = s.ringPort false → (u.port p).mates = (s.port p).mates) ∧
    (p ≠ s.ringPort false → gap = true → (u.port p).mates = (s.port p).mates + 1) := by
  refine ⟨_, rfl, fun o => ?_, fun hring => ?_, fun hring hgap => ?_⟩
  · split <;> rfl
  · rw [if_neg (by rw [Bool.and_eq_true, bne_iff_ne]; exact fun h => h.2 hring)]
  · rw [if_pos (by rw [hgap, Bool.or_true, Bool.true_and, bne_iff_ne]; exact hring), State.port_setPort]

/-- A cable whose memory was asked: NOID until it answers. -/
def State.asked : State := s.setPort p { s.port p with noid := silent }

theorem State.cableTry_eq : s.cableTry p gap silent =
    if silent then (s.asked p silent).cableRefresh p else (s.asked p silent).cableRead p gap := rfl

end Try

/-- Reading a cable, or trying to, writes its registers alone, and counts a mating as R540 says. -/
theorem cableTry_spec (s : State) (p : Nat) (gap silent : Bool) :
    (∀ o, ¬ CableReg p o → o ∉ logRegs → o ≠ Reg.TOPO_STAT → ¬ SendCount o → (s.cableTry p gap silent).word o = s.word o) ∧
    (p = s.ringPort false ∨ silent = true → ((s.cableTry p gap silent).port p).mates = (s.port p).mates) ∧
    (p ≠ s.ringPort false → gap = true → silent = false → ((s.cableTry p gap silent).port p).mates = (s.port p).mates + 1) := by
  cases silent with
  | true =>
    rw [State.cableTry_eq, if_pos rfl]
    refine ⟨fun o h hlog htopo hcount => ?_, fun _ => ?_, fun _ _ h => Bool.noConfusion h⟩
    · rw [State.cableRefresh_word h hlog htopo hcount, State.asked, State.word_setPort]
    · rw [State.cableRefresh_mates, State.asked, State.port_setPort]
  | false =>
    rw [State.cableTry_eq, if_neg Bool.false_ne_true]
    obtain ⟨u, hread, hword, hring, hgap⟩ := (s.asked p false).cableRead_cases p gap
    have hmates : ((s.asked p false).port p).mates = (s.port p).mates := by
      rw [State.asked, State.port_setPort]
    rw [hread]
    refine ⟨fun o h hlog htopo hcount => ?_, fun hno => ?_, fun hne hgap' _ => ?_⟩
    · rw [State.cableRefresh_word h hlog htopo hcount, hword, State.asked, State.word_setPort]
    · rw [State.cableRefresh_mates, hring (hno.resolve_right Bool.false_ne_true), hmates]
    · rw [State.cableRefresh_mates, hgap hne hgap', hmates]


/-! ## A far end is there (R526, R540; 18 R717) -/

/-- The state of a port that begins to train on a cable. -/
def State.trains (s : State) (p : Nat) (cable : List Byte) : State :=
  (({ (if s.portState p = 0 then s.setPort p { s.port p with hoursFrom := s.now } else s) with
      mem := Mem.write (if s.portState p = 0 then s.setPort p { s.port p with hoursFrom := s.now } else s).mem (physCable p 0) cable } :
    State)).setPortStat p 1 0 0

section Trains
variable (s : State) (p : Nat) (cable : List Byte)

theorem State.trains_state : (s.trains p cable).portState p = 1 := State.portState_setPortStat _ p 0 0 (by decide)

theorem State.trains_word {o : Nat} (h : o ≠ Reg.PORT_STAT p) : (s.trains p cable).word o = s.word o := by
  rw [State.trains, State.word_setPortStat _ _ _ _ h]
  split <;> rfl

theorem State.trains_mates : ((s.trains p cable).port p).mates = (s.port p).mates := by
  have hport : (s.trains p cable).port p =
      (if s.portState p = 0 then s.setPort p { s.port p with hoursFrom := s.now } else s).port p := rfl
  rw [hport]
  split
  · rw [State.port_setPort]
  · rfl

theorem State.trains_ringPort : (s.trains p cable).ringPort false = s.ringPort false := by
  rw [State.ringPort, State.rdb_congr (s.trains_word p cable (by unfold Reg.TOPO_CFG Reg.PORT_STAT; omega)), State.ringPort]

end Trains

section FarEnd
variable {s : State} (hp : s.powered = true) (p : Fin 10) (gap silent : Bool) {cable : List Byte} (hc : cable = [] ∨ cable.length = 192)
include hp hc

omit hp in
theorem farEnd_wellFormed : (cable.isEmpty || cable.length == 192) = true := by
  rcases hc with rfl | hc
  · rfl
  · rw [hc, beq_self_eq_true, Bool.or_true]

theorem exec_farEndDetect_dark (h : s.portState p.val = 0 ∨ s.portState p.val = 5) : exec (.farEndDetect ⟨p, gap, silent, cable⟩) s =
    .next (((s.trains p.val cable).cableTry p.val gap silent).portChanged p.val) := by
  change execFarEndDetect ⟨p, gap, silent, cable⟩ s = _
  rw [execFarEndDetect, actIf_powered (farEnd_wellFormed hc) hp]
  exact congrArg _ (if_pos h)

theorem exec_farEndDetect_trained (h0 : s.portState p.val ≠ 0) (h5 : s.portState p.val ≠ 5) :
    exec (.farEndDetect ⟨p, gap, silent, cable⟩) s =
      .next (State.cableTry { s with mem := Mem.write s.mem (physCable p.val 0) cable } p.val gap silent) := by
  change execFarEndDetect ⟨p, gap, silent, cable⟩ s = _
  rw [execFarEndDetect, actIf_powered (farEnd_wellFormed hc) hp]
  exact congrArg _ (if_neg (not_or.mpr ⟨h0, h5⟩))

theorem farEndDetect_dark (h : s.portState p.val = 0 ∨ s.portState p.val = 5) :
    ∃ t, exec (.farEndDetect ⟨p, gap, silent, cable⟩) s = .next t ∧ t.portState p.val = 1 ∧
      ((p.val = s.ringPort false ∨ silent = true) → (t.port p.val).mates = (s.port p.val).mates) ∧
      (silent = true → t.rd (Reg.CBL_STAT p.val) 17 16 = 3) ∧
      (p.val ≠ s.ringPort false → gap = true → silent = false → (t.port p.val).mates = (s.port p.val).mates + 1) := by
  obtain ⟨hword, hsame, hcounted⟩ := cableTry_spec (s.trains p.val cable) p.val gap silent
  rw [State.trains_ringPort, State.trains_mates] at hsame hcounted
  have htold := ((s.trains p.val cable).cableTry p.val gap silent).portChanged_told p.val
  have hcable : ¬ CableReg p.val (Reg.PORT_STAT p.val) := by unfold CableReg Reg.PORT_STAT; omega
  have hstat := (htold.portStat p.isLt).trans
    (hword _ hcable (portStat_not_log p.isLt) (portStat_ne_topoStat p.isLt) (portStat_not_sendCount _))
  refine ⟨_, exec_farEndDetect_dark hp p gap silent hc h, (State.portState_congr hstat).trans (s.trains_state _ _), fun hno => ?_,
    fun hsilent => ?_, fun hne hgap hanswers => ?_⟩
  · rw [(htold.sends p.val).mates, hsame hno]
  · subst hsilent
    rw [State.rd_congr (htold.word _ cblStat_ne_topoStat cblStat_not_sendCount), State.cableTry_eq, if_pos rfl]
    exact State.cableRefresh_noid p.isLt (congrArg PortRt.noid (State.port_setPort ..))
  · rw [(htold.sends p.val).mates, hcounted hne hgap hanswers]

end FarEnd

theorem exec_farEndDetect_malformed (p : Fin 10) (gap silent : Bool) {cable : List Byte} (s : State) (hne : cable ≠ [])
    (hlen : cable.length ≠ 192) : exec (.farEndDetect ⟨p, gap, silent, cable⟩) s = .fault .malformed := by
  change execFarEndDetect ⟨p, gap, silent, cable⟩ s = _
  rw [execFarEndDetect, actIf, if_neg]
  rw [Bool.or_eq_true, List.isEmpty_iff, beq_iff_eq]
  exact not_or.mpr ⟨hne, hlen⟩

/-! ## The usage record (R539, R541) -/

section Usage
variable {s v : State} {p : Nat} (hdark : s.portState p = 0) (hv : v = s.cableRefresh p)
include hdark hv

theorem State.cableWrite_ring (ok : Bool) (h : p = v.ringPort false) : s.cableWrite p ok = v := by
  subst hv
  rw [State.cableWrite, if_pos hdark]
  exact if_pos h

theorem State.cableWrite_fails (h : p ≠ v.ringPort false) :
    s.cableWrite p false = v.post 0x0905 [p, v.rd (Reg.CBL_STAT p) 17 16, v.rd (Reg.CBL_STAT p) 9 0] := by
  subst hv
  rw [State.cableWrite, if_pos hdark]
  exact (if_neg h).trans (if_pos rfl)

theorem State.cableWrite_record (h : p ≠ v.ringPort false) {r : PortRt} (hr : r = v.port p) {o : Nat}
    (ho : o = (if v.usageAt p = some 64 then 128 else 64)) {b : List Byte}
    (hb : b = leBytes 4 (v.usageWord p 0 4 + 1) ++ leBytes 4 (v.usageWord p 4 4 + r.mates) ++
      leBytes 4 (v.usageWord p 8 4 + r.hours) ++ leBytes 8 (v.rd64 Reg.SERIAL_LO Reg.SERIAL_HI) ++ List.replicate 40 0) :
    s.cableWrite p true = State.cableRefresh
      (State.setPort { v with mem := Mem.write v.mem (physCable p o) (b ++ leBytes 4 (crc32c b)) } p
        { r with mates := 0, hours := 0 }) p := by
  subst hv hr hb ho
  unfold State.cableWrite
  rw [if_pos hdark]
  extract_lets s0 v r o b u
  refine (if_neg h).trans ((if_neg (by decide)).trans ?_)
  have ho : o = if v.usageAt p = some 64 then 128 else 64 := by
    simp only [o]
    split
    · rename_i h64
      rw [if_pos h64]
    · rename_i hother
      rw [if_neg hother]
  rw [← ho]

end Usage

theorem exec_cableUsageWrite {s : State} (hp : s.powered = true) (p : Fin 10) (ok : Bool) :
    exec (.cableUsageWrite p ok) s = .next (s.cableWrite p.val ok) := act_powered hp fun s => s.cableWrite p.val ok

/-! ## The statement about reach, identity and cables -/

theorem reachable_row (p : Fin 10) (imm : W64) (s : State) (hp : s.powered = true) : ∃ t, exec (.reachable p imm) s = .next t ∧
    (imm.toNat % 65536) ∉ (t.port p.val).unreach ∧ t = { s with ports := t.ports } := by
  refine ⟨_, exec_reachable hp p imm, ?_, rfl⟩
  rw [State.rxReachable, State.port_setPort]
  exact fun hmem => by simpa using (List.mem_filter.mp hmem).2

/-- Settles O49: each row is its branch of the model, and the reads after it go through what `settlePort`, `absent` and `cableTry` keep. -/
theorem discoveryRows : Obligations.DiscoveryRows := by
  refine ⟨fun p imm s hp => ?_, reachable_row, fun p imm s u out hp hring hpos hout hu => ?_,
    fun pos s e hp h => exec_ringmapTimeout_known hp h, fun pos s hp h => exec_ringmapTimeout_unknown hp h, lostSince_self,
    ident_row, fun p s hmatched hpaths => ?_, fun p s hp hst => ?_, fun p s hp hst => exec_identTimer_dark hp p hst,
    fun s hp => exec_absentDeadline hp, fun p s u hu hplan hidm => s.absent_planned hu hplan hidm, absentDeadline_row,
    fun p gap silent cable s hc hp => ⟨fun h => farEndDetect_dark hp p gap silent hc h,
      fun h0 h5 => exec_farEndDetect_trained hp p gap silent hc h0 h5⟩,
    fun p gap silent cable s hne hlen => exec_farEndDetect_malformed p gap silent s hne hlen,
    fun p ok s v hp hdark hv => ⟨fun h => ?_, fun h hok => ?_⟩, fun p s v r o b hp hdark hv h hr ho hb => ?_, fun p imm s hp h => ?_⟩
  · rw [exec_unreach hp, State.rxUnreach]
  · subst hout
    rw [exec_ringmap hp, State.rxRingmap_passed hring hpos hu]
  · rw [settlePort_state s p.val p.isLt hmatched hpaths]
    exact if_congr (s.accepted_iff p.val) rfl rfl
  · exact ⟨_, exec_identTimer_trained hp p hst, s.send_tx .., (s.send_sentOn p.isLt _).rest⟩
  · rw [exec_cableUsageWrite hp, State.cableWrite_ring hdark hv ok h]
  · subst hok
    rw [exec_cableUsageWrite hp, State.cableWrite_fails hdark hv h]
  · rw [exec_cableUsageWrite hp, State.cableWrite_record hdark hv h hr ho hb]
  · rw [exec_ringmap hp, State.rxRingmap_none h]

end Sys2Proof.Machine
end

section
/-! SUPPORT. The SYNC interval and the time messages of a master (12_fabric_links.md R520, R521; 15_clocks_time.md R629). -/

namespace Sys2Proof.Machine

variable (s : State)

/-! ## LOCK -/

/-- LOCK set, and start-up taken from TIME to BASELINE. -/
def State.aligned : State :=
  if s.rd Reg.START_STAT 3 0 = 5 then (s.wrb Reg.TIM_STAT 31 true).wr Reg.START_STAT 3 0 6 else s.wrb Reg.TIM_STAT 31 true

/-- A module in service that had no LOCK may report ready again. -/
theorem State.setLock_eq : s.setLock =
    if s.rdb Reg.TIM_STAT 31 = false ∧ (s.rd Reg.TOPO_STAT 2 0 = 1 ∨ s.rd Reg.TOPO_STAT 2 0 = 2) then s.aligned.portsChanged
    else s.aligned := by
  have hstart : (s.wrb Reg.TIM_STAT 31 true).rd Reg.START_STAT 3 0 = s.rd Reg.START_STAT 3 0 := s.rd_wr_ne _ _ _ _ _ (by decide)
  rw [State.setLock, hstart, State.aligned]
  refine if_congr ?_ rfl rfl
  simp only [Bool.and_eq_true, Bool.not_eq_true', Bool.or_eq_true, beq_iff_eq]

theorem State.aligned_linkOnly : LinkOnly s s.aligned := by
  rw [State.aligned]
  split
  · exact ((LinkOnly.refl s).wr ..).wr ..
  · exact (LinkOnly.refl s).wr ..

/-- Every other bit of TIM_STAT keeps its value. -/
theorem State.aligned_timStat {i : Nat} (h : i ≠ 31) : s.aligned.rdb Reg.TIM_STAT i = s.rdb Reg.TIM_STAT i := by
  have hbit := s.rdb_wrb_bit Reg.TIM_STAT true (show 31 < 32 by decide) h
  rw [State.aligned]
  split
  · rw [State.rdb_congr (State.word_wr_ne _ 3 0 6 (by decide)), hbit]
  · exact hbit

theorem State.setLock_timStat {i : Nat} (h : i ≠ 31) : s.setLock.rdb Reg.TIM_STAT i = s.rdb Reg.TIM_STAT i := by
  rw [State.setLock_eq]
  split
  · rw [State.rdb_congr (s.aligned.portsChanged_told.word Reg.TIM_STAT (by decide) (by decide)), s.aligned_timStat h]
  · exact s.aligned_timStat h

theorem State.setLock_rest :
    s.setLock = { s with csr := s.setLock.csr, ports := s.setLock.ports, tx := s.setLock.tx, svc := s.setLock.svc } := by
  rw [State.setLock_eq]
  split
  · rw [s.aligned.portsChanged_told.rest, s.aligned_linkOnly]
  · rw [s.aligned_linkOnly]

/-! ## A master that does not answer -/

/-- The other of the two masters of MCFG. -/
def State.otherMaster : Nat :=
  if s.rd Reg.TIM_STAT 15 0 = s.rd Reg.MCFG 15 0 then s.rd Reg.MCFG 31 16 else s.rd Reg.MCFG 15 0

/-- HOLD without LOCK, and the master in use. -/
def State.holdFor (m : Nat) : State := ((s.wrb Reg.TIM_STAT 30 true).wrb Reg.TIM_STAT 31 false).wr Reg.TIM_STAT 15 0 m

theorem State.masterLost_word {o : Nat} (h : o ∉ logRegs) :
    s.masterLost.word o = ((s.holdFor s.otherMaster).bumpSat Reg.MSWITCH).word o := State.word_post _ _ _ h

theorem State.masterLost_timStat : s.masterLost.word Reg.TIM_STAT = (s.holdFor s.otherMaster).word Reg.TIM_STAT :=
  (s.masterLost_word (by decide)).trans (State.word_bumpSat_ne _ _ (by decide))

theorem State.holdFor_word (m : Nat) {o : Nat} (h : o ≠ Reg.TIM_STAT) : (s.holdFor m).word o = s.word o := by
  rw [State.holdFor, State.word_wr_ne _ _ _ _ h, State.word_wrb_ne _ _ _ h, State.word_wrb_ne _ _ _ h]

theorem State.masterLost_word_kept {o : Nat} (htim : o ≠ Reg.TIM_STAT) (hsw : o ≠ Reg.MSWITCH) (h : o ∉ logRegs) :
    s.masterLost.word o = s.word o := by
  rw [s.masterLost_word h, State.word_bumpSat_ne _ _ hsw, s.holdFor_word _ htim]

theorem State.masterLost_hold : s.masterLost.rdb Reg.TIM_STAT 30 = true := by
  rw [State.rdb_congr s.masterLost_timStat, State.holdFor, State.rdb, State.rd_wr_above _ _ _ (by decide) (by decide) (by decide),
    ← State.rdb, State.rdb_wrb_bit _ _ _ (by decide) (by decide), State.rdb_wrb _ _ _ (by decide)]

theorem State.masterLost_lock : s.masterLost.rdb Reg.TIM_STAT 31 = false := by
  rw [State.rdb_congr s.masterLost_timStat, State.holdFor, State.rdb, State.rd_wr_above _ _ _ (by decide) (by decide) (by decide),
    ← State.rdb, State.rdb_wrb _ _ _ (by decide)]

theorem State.otherMaster_lt : s.otherMaster < 2 ^ 16 := by
  rw [State.otherMaster]
  split
  · exact bits_lt _ 31 16
  · exact bits_lt _ 15 0

theorem State.masterLost_master : s.masterLost.rd Reg.TIM_STAT 15 0 = s.otherMaster := by
  rw [State.rd_congr s.masterLost_timStat, State.holdFor, State.rd_wr _ _ _ (by decide) (by decide)]
  exact Nat.mod_eq_of_lt s.otherMaster_lt

theorem State.masterLost_mswitch :
    s.masterLost.word Reg.MSWITCH = BitVec.ofNat 32 (sat32 ((s.word Reg.MSWITCH).toNat + 1)) := by
  rw [s.masterLost_word (by decide), State.word_bumpSat, s.holdFor_word _ (by decide)]

variable {s}

/-- The port of a SYNC rests on the map of the planes and on the state of the ports. -/
theorem State.syncPort_congr {t : State} (hmap : t.word Reg.PLANE_MAP = s.word Reg.PLANE_MAP)
    (hport : ∀ p < 16, t.word (Reg.PORT_STAT p) = s.word (Reg.PORT_STAT p)) : t.syncPort = s.syncPort := by
  have hplane : t.planePort = s.planePort := funext fun n => State.rd_congr hmap _ _
  rw [State.syncPort, State.syncPort, hplane]
  refine List.find?_congr fun p hp => ?_
  obtain ⟨n, -, rfl⟩ := List.mem_map.mp hp
  have hlt : s.planePort n < 16 := (bits_lt _ (4 * n + 3) (4 * n)).trans_eq (by rw [show 4 * n + 3 + 1 - 4 * n = 4 by omega]; rfl)
  exact State.portUp_congr (hport _ hlt)

theorem State.masterLost_syncPort (s : State) : s.masterLost.syncPort = s.syncPort := by
  refine State.syncPort_congr (s.masterLost_word_kept (by decide) (by decide) (by decide)) fun p hp => ?_
  have hoff : Reg.PORT_STAT p = 0x92000 + 0x40 * p := rfl
  refine s.masterLost_word_kept ?_ ?_ (not_mem_logRegs ?_ ?_)
  all_goals simp only [hoff, Reg.TIM_STAT, Reg.MSWITCH]
  all_goals omega

/-! ## The interval -/

/-- A SYNC that waits for its REPLY. -/
def State.awaiting (s : State) : State := { s with time := { s.time with waiting := true } }

/-- One more SYNC without REPLY. -/
def State.unanswered (s : State) : State := { s with time := { s.time with misses := s.time.misses + 1 } }

theorem exec_syncInterval_root (hp : s.powered = true) (hrole : s.role = 2) : exec .syncInterval s = .next s.setLock := by
  change execSyncInterval s = _
  rw [execSyncInterval, act_powered hp, if_pos hrole]

theorem exec_syncInterval_first (hp : s.powered = true) (hrole : s.role ≠ 2) (hwait : s.time.waiting = false)
    (hmiss : s.time.misses < 3) {p : Nat} (hport : s.syncPort = some p) :
    exec .syncInterval s = .next (s.awaiting.send p { mkPacket 0x40 s.pos (s.rd Reg.TIM_STAT 15 0) with
      gran := [s.syncGran], pver := BitVec.ofNat 4 (s.pver (s.rd Reg.TIM_STAT 15 0)) }) := by
  change execSyncInterval s = _
  rw [execSyncInterval, act_powered hp, if_neg hrole]
  refine congrArg _ ?_
  extract_lets _ s1 _ s2 _ s3 m k
  have hmissed : s1 = s := if_neg (by rw [hwait]; decide)
  have hkept : s2 = s := by
    simp only [s2, hmissed]
    rw [if_neg (by omega), hwait, Bool.and_false, if_neg Bool.false_ne_true]
  have hawait : s3 = s.awaiting := by rw [State.awaiting, ← hkept]
  have hport' : s.awaiting.syncPort = some p := hport
  have hm : m = s.rd Reg.TIM_STAT 15 0 := congrArg (·.rd Reg.TIM_STAT 15 0) hawait
  have hk : k = mkPacket 0x40 s.pos (s.rd Reg.TIM_STAT 15 0) := by
    simp only [k, hm, hawait]
    rfl
  rw [hawait, hport', hk, hm]
  rfl

theorem exec_syncInterval_third (hp : s.powered = true) (hrole : s.role ≠ 2) (hwait : s.time.waiting = true)
    (hmiss : s.time.misses = 2) (hport : s.syncPort = none) :
    exec .syncInterval s = .next s.unanswered.masterLost.awaiting := by
  change execSyncInterval s = _
  rw [execSyncInterval, act_powered hp, if_neg hrole]
  refine congrArg _ ?_
  extract_lets _ s1 _ s2 _ s3
  have hmissed : s1 = s.unanswered := if_pos hwait
  have hthree : s.unanswered.time.misses = 3 := congrArg (· + 1) hmiss
  have hlost : s2 = s.unanswered.masterLost := by
    simp only [s2, hmissed]
    exact if_pos hthree.ge
  have hawait : s3 = s.unanswered.masterLost.awaiting := by rw [State.awaiting, ← hlost]
  have hport' : s.unanswered.masterLost.awaiting.syncPort = none := (State.masterLost_syncPort s.unanswered).trans hport
  rw [hawait, hport']

end Sys2Proof.Machine
end

section
/-! SUPPORT. SYNC at a master: the granule of its REPLY (12_fabric_links.md R520, R521). -/

namespace Sys2Proof.Machine

/-! ## Bytes replaced in a granule -/

section Patch
variable {g bs : List Byte} {off : Nat}

theorem patch_length {n : Nat} (hg : g.length = n) (h : off + bs.length ≤ n) : (patch g off bs).length = n := by
  simp only [patch, List.length_append, List.length_take, List.length_drop]
  omega

theorem patch_here (h : off ≤ g.length) : ((patch g off bs).drop off).take bs.length = bs := by
  rw [patch, List.append_assoc, List.drop_left' (List.length_take_of_le h), List.take_left]

theorem patch_below {a n : Nat} (hoff : a + n ≤ off) (h : off ≤ g.length) :
    ((patch g off bs).drop a).take n = (g.drop a).take n := by
  rw [List.take_drop, List.take_drop, patch, List.append_assoc,
    List.take_append_of_le_length (by rw [List.length_take_of_le h]; omega), List.take_take, Nat.min_eq_left (by omega)]

theorem patch_above {a : Nat} (ha : off + bs.length ≤ a) (h : off + bs.length ≤ g.length) : (patch g off bs).drop a = g.drop a := by
  have hhead : (g.take off ++ bs).length = off + bs.length := by rw [List.length_append, List.length_take_of_le (by omega)]
  rw [patch, List.drop_append, hhead, List.drop_eq_nil_of_le (by omega), List.nil_append, List.drop_drop]
  congr 1
  omega

end Patch

/-! ## SYNC at a master -/

/-- The arrival and the departure of an exchange at the master, in ns. -/
def stampNs (g : List Byte) (now : Nat) : List Byte := patch (patch g 8 (leBytes 8 now)) 16 (leBytes 8 now)

/-- The same with their fractions. -/
def stamp (g : List Byte) (now frac : Nat) : List Byte := patch (patch (stampNs g now) 26 (leBytes 2 frac)) 28 (leBytes 2 frac)

/-- The granule of a REPLY, with the master's position and its distance from the root. -/
def replyGran (g : List Byte) (now frac pos dist : Nat) : List Byte :=
  patch (patch (stamp g now frac) 40 (leBytes 8 0)) 48 (leBytes 2 pos ++ leBytes 1 dist ++ leBytes 13 0)

section Reply
variable {g : List Byte} (h : g.length = 64) (now frac pos dist : Nat)
include h

theorem patch_first_length : (patch g 8 (leBytes 8 now)).length = 64 := patch_length h (by simp)

theorem stampNs_length : (stampNs g now).length = 64 := patch_length (patch_first_length h now) (by simp)

theorem stamp_length : (stamp g now frac).length = 64 := patch_length (patch_length (stampNs_length h now) (by simp)) (by simp)

theorem replyGran_length : (replyGran g now frac pos dist).length = 64 :=
  patch_length (patch_length (stamp_length h now frac) (by simp)) (by simp)

/-- The first 40 bytes of a REPLY are those of the stamps. -/
theorem replyGran_below {a n : Nat} (ha : a + n ≤ 40) :
    ((replyGran g now frac pos dist).drop a).take n = ((stamp g now frac).drop a).take n := by
  have hlen := stamp_length h now frac
  have hclear : (patch (stamp g now frac) 40 (leBytes 8 0)).length = 64 := patch_length hlen (by simp)
  rw [replyGran, patch_below (by omega) (by omega), patch_below ha (by omega)]

/-- The bytes before the fractions. -/
theorem stamp_below {a n : Nat} (ha : a + n ≤ 26) : ((stamp g now frac).drop a).take n = ((stampNs g now).drop a).take n := by
  have hlen := stampNs_length h now
  have hfrac : (patch (stampNs g now) 26 (leBytes 2 frac)).length = 64 := patch_length hlen (by simp)
  rw [stamp, patch_below (by omega) (by omega), patch_below ha (by omega)]

/-- The bytes after the fractions. -/
theorem stamp_above {a : Nat} (ha : 30 ≤ a) : (stamp g now frac).drop a = (stampNs g now).drop a := by
  have hlen := stampNs_length h now
  have hfrac : (patch (stampNs g now) 26 (leBytes 2 frac)).length = 64 := patch_length hlen (by simp)
  rw [stamp, patch_above (by rw [leBytes_length]; omega) (by rw [leBytes_length]; omega),
    patch_above (by rw [leBytes_length]; omega) (by rw [leBytes_length]; omega)]

theorem stampNs_below {a n : Nat} (ha : a + n ≤ 8) : ((stampNs g now).drop a).take n = (g.drop a).take n := by
  have hlen := patch_first_length h now
  rw [stampNs, patch_below (by omega) (by omega), patch_below ha (by omega)]

theorem stampNs_above {a : Nat} (ha : 24 ≤ a) : (stampNs g now).drop a = g.drop a := by
  have hlen := patch_first_length h now
  rw [stampNs, patch_above (by rw [leBytes_length]; omega) (by rw [leBytes_length]; omega),
    patch_above (by rw [leBytes_length]; omega) (by rw [leBytes_length]; omega)]

theorem stampNs_arrival : ((stampNs g now).drop 8).take 8 = leBytes 8 now := by
  have hlen := patch_first_length h now
  rw [stampNs, patch_below (by omega) (by omega)]
  simpa only [leBytes_length] using patch_here (bs := leBytes 8 now) (show 8 ≤ g.length by omega)

theorem stampNs_departure : ((stampNs g now).drop 16).take 8 = leBytes 8 now := by
  have hlen := patch_first_length h now
  rw [stampNs]
  simpa only [leBytes_length] using patch_here (bs := leBytes 8 now) (show 16 ≤ (patch g 8 (leBytes 8 now)).length by omega)

end Reply

theorem State.leNat_now (s : State) : leNat (leBytes 8 s.now) = s.now := by
  rw [leNat_leBytes]
  exact Nat.mod_eq_of_lt (Nat.mod_lt _ (by norm_num))

theorem sync_row (p : Fin 10) (src : BitVec 16) (g : List Byte) (s : State) (hp : s.powered = true) (h : g.length = 64) :
    ∃ t r, exec (.sync p src g) s = .next t ∧ t.tx = s.tx ++ [(p.val, { mkPacket 0x40 s.pos src.toNat with
        atop := 1, gran := [r], pver := BitVec.ofNat 4 (s.pver src.toNat) })] ∧
      r.length = 64 ∧ r.take 8 = g.take 8 ∧ leNat ((r.drop 8).take 8) = s.now ∧ leNat ((r.drop 16).take 8) = s.now ∧
      (r.drop 24).take 2 = (g.drop 24).take 2 ∧ (r.drop 32).take 8 = (g.drop 32).take 8 ∧ t.mem = s.mem := by
  refine ⟨_, replyGran g s.now (s.time.rack / 65536 % 65536) s.pos (s.rd Reg.TIM_STAT 23 16),
    actIf_powered (by rw [h]; rfl) hp fun s => s.rxSync p.val src.toNat g, s.send_tx _ _, replyGran_length h .., ?_, ?_, ?_, ?_, ?_, ?_⟩
  · have hfirst := (replyGran_below h s.now (s.time.rack / 65536 % 65536) s.pos (s.rd Reg.TIM_STAT 23 16) (a := 0) (n := 8) (by decide)).trans
      ((stamp_below h _ _ (by decide)).trans (stampNs_below h _ (by decide)))
    simpa only [List.drop_zero] using hfirst
  · rw [replyGran_below h _ _ _ _ (by decide), stamp_below h _ _ (by decide), stampNs_arrival h, s.leNat_now]
  · rw [replyGran_below h _ _ _ _ (by decide), stamp_below h _ _ (by decide), stampNs_departure h, s.leNat_now]
  · rw [replyGran_below h _ _ _ _ (by decide), stamp_below h _ _ (by decide), stampNs_above h _ (by decide)]
  · rw [replyGran_below h _ _ _ _ (by decide), stamp_above h _ _ (by decide), stampNs_above h _ (by decide)]
  · rw [State.rxSync, (s.send_sentOn p.isLt _).rest]

end Sys2Proof.Machine
end

section
/-! SUPPORT. REPLY at a follower (12_fabric_links.md R521, R522; 15_clocks_time.md R622, R625, R629), and the statement about rack
time. -/

namespace Sys2Proof.Machine

theorem LinkOnly.wrw {s t : State} (h : LinkOnly s t) (o : Nat) (w : W32) : LinkOnly s (t.wrw o w) := h.trans rfl

/-- A state with another time. -/
def State.withTime (s : State) (t : TimeRt) : State := { s with time := t }

@[simp] theorem State.withTime_time (s : State) (t : TimeRt) : (s.withTime t).time = t := rfl
@[simp] theorem State.withTime_mem (s : State) (t : TimeRt) : (s.withTime t).mem = s.mem := rfl
@[simp] theorem State.withTime_word (s : State) (t : TimeRt) (o : Nat) : (s.withTime t).word o = s.word o := rfl

/-! ## A REPLY that is accepted -/

section Note
variable (s : State) (g : List Byte) (o d : Int)

/-- The registers an exchange shows. -/
def State.shownReply : State :=
  (((s.bump Reg.SYNCS).wrw Reg.OFFSET (BitVec.ofNat 32 (satWord o))).wrw Reg.DELAY (BitVec.ofNat 32 (low32 d))).wr Reg.TIM_STAT 23 16
    ((g.getD 50 0).toNat + 1)

/-- In HOLD, a REPLY of another master than the one in use. -/
def State.otherReply : Prop := s.rdb Reg.TIM_STAT 30 = true ∧ leNat ((g.drop 48).take 2) ≠ s.rd Reg.TIM_STAT 15 0

/-- The wait for a REPLY is over. -/
def TimeRt.heard (t : TimeRt) : TimeRt := { t with waiting := false, misses := 0, lostBoth := false }

theorem State.shownReply_linkOnly : LinkOnly s (s.shownReply g o d) :=
  ((((LinkOnly.refl s).bump _ _).wrw _ _).wrw _ _).wr _ _ _ _

theorem State.shownReply_syncs : (s.shownReply g o d).word Reg.SYNCS = s.word Reg.SYNCS + 1 := by
  rw [State.shownReply, State.word_wr_ne _ _ _ _ (by decide), State.word_wrw_ne _ _ (by decide), State.word_wrw_ne _ _ (by decide),
    State.word_bump_one]

theorem State.shownReply_timStat_word :
    (s.shownReply g o d).word Reg.TIM_STAT = (s.wr Reg.TIM_STAT 23 16 ((g.getD 50 0).toNat + 1)).word Reg.TIM_STAT := by
  rw [State.shownReply, State.wr, State.word_wrw, State.wr, State.word_wrw, State.word_wrw_ne _ _ (by decide),
    State.word_wrw_ne _ _ (by decide), State.word_bump_ne _ _ (by decide)]

theorem State.shownReply_timStat {i : Nat} (h : 23 < i) : (s.shownReply g o d).rdb Reg.TIM_STAT i = s.rdb Reg.TIM_STAT i := by
  rw [State.rdb_congr (s.shownReply_timStat_word g o d), State.rdb, State.rd_wr_above _ _ _ (by decide) (by decide) h, State.rdb]

theorem State.shownReply_master : (s.shownReply g o d).rd Reg.TIM_STAT 15 0 = s.rd Reg.TIM_STAT 15 0 := by
  rw [State.rd_congr (s.shownReply_timStat_word g o d), State.rd_wr_below _ _ _ (by decide) (by decide) (by decide) (by decide)]

theorem State.noteReply_eq : s.noteReply g o d =
    if (s.shownReply g o d).rdb Reg.TIM_STAT 30 && leNat ((g.drop 48).take 2) != (s.shownReply g o d).rd Reg.TIM_STAT 15 0 then
      s.shownReply g o d
    else ((s.shownReply g o d).wrb Reg.TIM_STAT 30 false).withTime s.time.heard := rfl

theorem State.noteReply_other_iff : ((s.shownReply g o d).rdb Reg.TIM_STAT 30 &&
    leNat ((g.drop 48).take 2) != (s.shownReply g o d).rd Reg.TIM_STAT 15 0) = true ↔ s.otherReply g := by
  rw [s.shownReply_timStat g o d (by decide), s.shownReply_master, State.otherReply, Bool.and_eq_true, bne_iff_ne]

variable {g}

theorem State.noteReply_other (h : s.otherReply g) : s.noteReply g o d = s.shownReply g o d := by
  rw [s.noteReply_eq, if_pos ((s.noteReply_other_iff g o d).mpr h)]

theorem State.noteReply_heard (h : ¬ s.otherReply g) :
    s.noteReply g o d = ((s.shownReply g o d).wrb Reg.TIM_STAT 30 false).withTime s.time.heard := by
  rw [s.noteReply_eq, if_neg (mt (s.noteReply_other_iff g o d).mp h)]

variable (g)

theorem State.noteReply_mem : (s.noteReply g o d).mem = s.mem := by
  by_cases h : s.otherReply g
  · rw [s.noteReply_other o d h, s.shownReply_linkOnly]
  · rw [s.noteReply_heard o d h, State.withTime_mem, State.wrb, (s.shownReply_linkOnly g o d).wr]

/-- Rack time and its rate are left to what follows. -/
theorem State.noteReply_time : (s.noteReply g o d).time = s.time ∨ (s.noteReply g o d).time = s.time.heard := by
  by_cases h : s.otherReply g
  · exact Or.inl (by rw [s.noteReply_other o d h, s.shownReply_linkOnly])
  · exact Or.inr (by rw [s.noteReply_heard o d h, State.withTime_time])

theorem State.noteReply_syncs : (s.noteReply g o d).word Reg.SYNCS = s.word Reg.SYNCS + 1 := by
  by_cases h : s.otherReply g
  · rw [s.noteReply_other o d h, s.shownReply_syncs]
  · rw [s.noteReply_heard o d h, State.withTime_word, State.word_wrb_ne _ _ _ (by decide), s.shownReply_syncs]

theorem State.noteReply_stepped : (s.noteReply g o d).rdb Reg.TIM_STAT 28 = s.rdb Reg.TIM_STAT 28 := by
  by_cases h : s.otherReply g
  · rw [s.noteReply_other o d h, s.shownReply_timStat g o d (by decide)]
  · rw [s.noteReply_heard o d h, State.rdb_congr (State.withTime_word ..), State.rdb_wrb_bit _ _ _ (by decide) (by decide),
      s.shownReply_timStat g o d (by decide)]

variable {g}

theorem State.noteReply_hold_other (h : s.otherReply g) : (s.noteReply g o d).rdb Reg.TIM_STAT 30 = true := by
  rw [s.noteReply_other o d h, s.shownReply_timStat g o d (by decide), h.1]

theorem State.noteReply_hold_heard (h : ¬ s.otherReply g) : (s.noteReply g o d).rdb Reg.TIM_STAT 30 = false := by
  rw [s.noteReply_heard o d h, State.rdb_congr (State.withTime_word ..), State.rdb_wrb _ _ _ (by decide)]

end Note

/-! ## The step and the slew -/

section Adjust
variable (s : State) (o d : Int)

theorem State.stepTime_aligned : (s.stepTime o).rdb Reg.TIM_STAT 28 = true := by
  rw [State.stepTime, State.rdb_congr (State.word_wrw_ne _ _ (by decide))]
  exact State.rdb_wrb _ _ _ (by decide)

theorem State.stepTime_word {r : Nat} (ht : r ≠ Reg.TIM_STAT) (hr : r ≠ Reg.RATE) : (s.stepTime o).word r = s.word r := by
  rw [State.stepTime, State.word_wrw_ne _ _ hr]
  exact State.word_wrb_ne _ _ _ ht

/-- Rack time slewed by an offset, with a count of good exchanges, and RATE shown. -/
def State.slewed (good : Nat) : State :=
  ({ s with time := { s.time.adjust o with good := good } } : State).wrw Reg.RATE (BitVec.ofNat 32 (low32 (s.time.adjust o).rate))

/-- Before the first report of ready, a slew raises no fault. -/
theorem State.slewTime_cases (h : s.time.readyOnce = false) :
    ∃ good, s.slewTime o d = s.slewed o good ∨ s.slewTime o d = (s.slewed o good).setLock := by
  generalize hslew : s.slewTime o d = t
  unfold State.slewTime at hslew
  extract_lets t1 good u at hslew
  have hready : u.time.readyOnce = false := h
  rw [hready, Bool.false_and, if_neg Bool.false_ne_true] at hslew
  refine ⟨good, ?_⟩
  rw [← hslew]
  split
  · exact Or.inr rfl
  · exact Or.inl rfl

variable {s}

theorem State.slewTime_time (h : s.time.readyOnce = false) :
    ∃ good, (s.slewTime o d).time = { s.time.adjust o with good := good } := by
  obtain ⟨good, hslew | hslew⟩ := s.slewTime_cases o d h
  · exact ⟨good, congrArg State.time hslew⟩
  · refine ⟨good, ?_⟩
    rw [hslew, State.setLock_rest]
    rfl

theorem State.slewTime_mem (h : s.time.readyOnce = false) : (s.slewTime o d).mem = s.mem := by
  obtain ⟨good, hslew | hslew⟩ := s.slewTime_cases o d h
  · rw [hslew]
    rfl
  · rw [hslew, State.setLock_rest]
    rfl

theorem State.slewTime_hold (h : s.time.readyOnce = false) : (s.slewTime o d).rdb Reg.TIM_STAT 30 = s.rdb Reg.TIM_STAT 30 := by
  have hslewed (good : Nat) : (s.slewed o good).rdb Reg.TIM_STAT 30 = s.rdb Reg.TIM_STAT 30 :=
    State.rdb_congr (State.word_wrw_ne _ _ (by decide)) _
  obtain ⟨good, hslew | hslew⟩ := s.slewTime_cases o d h
  · rw [hslew, hslewed]
  · rw [hslew, State.setLock_timStat _ (by decide), hslewed]

end Adjust

/-! ## REPLY -/

section Reply
variable {s v : State} {g : List Byte} {a : Nat}

/-- An arrival moves rack time alone. -/
theorem State.arrives_rest {x : Nat} (h : s.arrives x = (v, a)) : v = { s with time := { s.time with rack := v.time.rack } } := by
  have hv : (s.arrives x).1 = v := congrArg Prod.fst h
  rw [← hv]
  rfl

theorem exec_reply (p : Fin 10) {t4 : Stamp} (hp : s.powered = true) (hlen : g.length = 64)
    (h : s.arrives (t4.ns.toNat * 65536 + t4.frac.toNat) = (v, a)) : exec (.reply p g t4) s = .next (v.rxReply g a) := by
  change execReply p g t4 s = _
  rw [execReply, actIf_powered (by rw [hlen]; rfl) hp, h]

theorem State.rxReply_root (t4 : Int) (h : v.role = 2) : v.rxReply g t4 = v := by rw [State.rxReply, if_pos h]

theorem within_iff (x lim : Int) : within x lim = true ↔ x ≤ lim ∧ -lim ≤ x := by
  rw [within, Bool.and_eq_true, decide_eq_true_iff, decide_eq_true_iff]

variable {t4 d o : Int}

theorem State.rxReply_late (hrole : v.role ≠ 2) (hx : (d, o) = exchange g t4) (hd : 655360000 < d) :
    v.rxReply g t4 = v.bumpSat Reg.TFAULTS := by
  have hout : within d 655360000 = false := Bool.eq_false_iff.mpr fun h => by
    obtain ⟨hle, -⟩ := (within_iff _ _).mp h
    omega
  rw [State.rxReply, if_neg hrole, ← hx]
  refine if_pos ?_
  rw [hout, Bool.not_false, Bool.true_and, decide_eq_true_iff]
  omega

theorem State.rxReply_accepted (hrole : v.role ≠ 2) (hx : (d, o) = exchange g t4) (hd : d ≤ 0 ∨ d ≤ 655360000) :
    v.rxReply g t4 = if v.rdb Reg.TIM_STAT 28 then (v.noteReply g o d).slewTime o d else (v.noteReply g o d).stepTime o := by
  have hin : ¬ (!(within d 655360000) && decide (0 < d)) = true := by
    rw [Bool.and_eq_true, Bool.not_eq_true', decide_eq_true_iff]
    rintro ⟨hout, hpos⟩
    rw [(within_iff _ _).mpr ⟨by omega, by omega⟩] at hout
    exact Bool.noConfusion hout
  rw [State.rxReply, if_neg hrole, ← hx]
  refine (if_neg hin).trans ?_
  refine if_congr ?_ rfl rfl
  rw [v.noteReply_stepped]

end Reply

/-! ## The statement about rack time -/

section Rows
variable {s v : State} {p : Fin 10} {g : List Byte} {t4 : Stamp} {a : Nat} {d o : Int}

theorem reply_step_row (hp : s.powered = true) (hlen : g.length = 64) (hrole : s.role ≠ 2)
    (hv : s.arrives (t4.ns.toNat * 65536 + t4.frac.toNat) = (v, a)) (hx : (d, o) = exchange g a) (hd : d ≤ 0 ∨ d ≤ 655360000)
    (h28 : s.rdb Reg.TIM_STAT 28 = false) :
    ∃ t, exec (.reply p g t4) s = .next t ∧ t.time.rack = ((v.time.rack : Int) + o * 65536).toNat ∧ t.time.rate = 0 ∧
      t.time.adj = 0 ∧ t.rdb Reg.TIM_STAT 28 = true ∧ t.word Reg.SYNCS = s.word Reg.SYNCS + 1 ∧ t.mem = s.mem := by
  have hword (r : Nat) : v.word r = s.word r := by rw [State.arrives_rest hv]; rfl
  have hmem : v.mem = s.mem := by rw [State.arrives_rest hv]
  have hrole' : v.role ≠ 2 := by rwa [State.role, State.rd_congr (hword _), ← State.role]
  have hrack : (v.noteReply g o d).time.rack = v.time.rack := by
    obtain h | h := v.noteReply_time g o d
    · rw [h]
    · rw [h, TimeRt.heard]
  refine ⟨(v.noteReply g o d).stepTime o, ?_, ?_, rfl, rfl, State.stepTime_aligned _ o, ?_, ?_⟩
  · rw [exec_reply p hp hlen hv, State.rxReply_accepted hrole' hx hd, State.rdb_congr (hword _), h28, if_neg Bool.false_ne_true]
  · rw [← hrack]
    rfl
  · rw [State.stepTime_word _ _ (by decide) (by decide), v.noteReply_syncs, hword]
  · rw [← hmem, ← v.noteReply_mem g o d]
    rfl

theorem reply_slew_row (hp : s.powered = true) (hlen : g.length = 64) (hrole : s.role ≠ 2)
    (hv : s.arrives (t4.ns.toNat * 65536 + t4.frac.toNat) = (v, a)) (hx : (d, o) = exchange g a) (hd : d ≤ 0 ∨ d ≤ 655360000)
    (h28 : s.rdb Reg.TIM_STAT 28 = true) (hready : s.time.readyOnce = false) :
    ∃ t, exec (.reply p g t4) s = .next t ∧ t.time.rack = v.time.rack ∧
      t.time.rate = signed64 (s.time.rate + (signed64 (o * 65536)).tdiv 8000000) ∧
      t.time.phase = (signed64 (o * 65536)).tdiv 250000 ∧
      t.time.adj = clampAdj (t.time.rate + t.time.phase) ∧ t.time.ticksLeft = 250000 ∧
      ((s.rdb Reg.TIM_STAT 30 = false ∨ leNat ((g.drop 48).take 2) = s.rd Reg.TIM_STAT 15 0) →
        t.time.waiting = false ∧ t.rdb Reg.TIM_STAT 30 = false) ∧
      ((s.rdb Reg.TIM_STAT 30 = true ∧ leNat ((g.drop 48).take 2) ≠ s.rd Reg.TIM_STAT 15 0) →
        t.time.waiting = s.time.waiting ∧ t.rdb Reg.TIM_STAT 30 = true) ∧ t.mem = s.mem := by
  have hword (r : Nat) : v.word r = s.word r := by rw [State.arrives_rest hv]; rfl
  have hmem : v.mem = s.mem := by rw [State.arrives_rest hv]
  have htime : v.time = { s.time with rack := v.time.rack } := congrArg State.time (State.arrives_rest hv)
  have hrole' : v.role ≠ 2 := by rwa [State.role, State.rd_congr (hword _), ← State.role]
  have hother : v.otherReply g ↔ s.otherReply g := by
    rw [State.otherReply, State.otherReply, State.rdb_congr (hword _), State.rd_congr (hword _)]
  have hnote : (v.noteReply g o d).time.readyOnce = false ∧ (v.noteReply g o d).time.rack = v.time.rack ∧
      (v.noteReply g o d).time.rate = s.time.rate := by
    obtain h | h := v.noteReply_time g o d
    · rw [h, htime]
      exact ⟨hready, rfl, rfl⟩
    · rw [h, htime]
      exact ⟨hready, rfl, rfl⟩
  obtain ⟨hready', hrack, hrate⟩ := hnote
  obtain ⟨good, hslew⟩ := State.slewTime_time o d hready'
  refine ⟨(v.noteReply g o d).slewTime o d, ?_, ?_, ?_, ?_, ?_, ?_, fun h => ?_, fun h => ?_, ?_⟩
  · rw [exec_reply p hp hlen hv, State.rxReply_accepted hrole' hx hd, State.rdb_congr (hword _), h28, if_pos rfl]
  · rw [hslew, ← hrack]
    rfl
  · rw [hslew, ← hrate]
    rfl
  · rw [hslew]
    rfl
  · rw [hslew]
    rfl
  · rw [hslew]
    rfl
  · have hheard : ¬ v.otherReply g := by
      rw [hother, State.otherReply, not_and_or, Bool.not_eq_true, not_ne_iff]
      exact h
    rw [hslew, State.slewTime_hold o d hready', v.noteReply_hold_heard o d hheard, v.noteReply_heard o d hheard]
    exact ⟨rfl, rfl⟩
  · have hkept : v.otherReply g := hother.mpr h
    rw [State.slewTime_hold o d hready', v.noteReply_hold_other o d hkept, hslew, v.noteReply_other o d hkept,
      v.shownReply_linkOnly, htime]
    exact ⟨rfl, rfl⟩
  · rw [State.slewTime_mem o d hready', v.noteReply_mem, hmem]

theorem reply_late_row (hp : s.powered = true) (hlen : g.length = 64) (hrole : s.role ≠ 2)
    (hv : s.arrives (t4.ns.toNat * 65536 + t4.frac.toNat) = (v, a)) (hx : (d, o) = exchange g a) (hd : 655360000 < d) :
    ∃ t, exec (.reply p g t4) s = .next t ∧ Only [Reg.TFAULTS] v t ∧
      t.word Reg.TFAULTS = BitVec.ofNat 32 (sat32 ((s.word Reg.TFAULTS).toNat + 1)) := by
  have hword (r : Nat) : v.word r = s.word r := by rw [State.arrives_rest hv]; rfl
  have hrole' : v.role ≠ 2 := by rwa [State.role, State.rd_congr (hword _), ← State.role]
  refine ⟨v.bumpSat Reg.TFAULTS, ?_, (Only.refl _ v).wrw _ (by simp), ?_⟩
  · rw [exec_reply p hp hlen hv, State.rxReply_late hrole' hx hd]
  · rw [State.word_bumpSat, hword]

end Rows

/-- Three SYNC without REPLY. -/
theorem syncInterval_lost_row (s : State) (hp : s.powered = true) (hrole : s.role ≠ 2) (hwait : s.time.waiting = true)
    (hmiss : s.time.misses = 2) (hport : s.syncPort = none) :
    ∃ t, exec .syncInterval s = .next t ∧ t.rdb Reg.TIM_STAT 30 = true ∧ t.rdb Reg.TIM_STAT 31 = false ∧ t.time.misses = 0 ∧
      t.rd Reg.TIM_STAT 15 0 = (if s.rd Reg.TIM_STAT 15 0 = s.rd Reg.MCFG 15 0 then s.rd Reg.MCFG 31 16 else s.rd Reg.MCFG 15 0) ∧
      t.word Reg.MSWITCH = BitVec.ofNat 32 (sat32 ((s.word Reg.MSWITCH).toNat + 1)) :=
  ⟨_, exec_syncInterval_third hp hrole hwait hmiss hport, s.unanswered.masterLost_hold, s.unanswered.masterLost_lock, rfl,
    s.unanswered.masterLost_master, s.unanswered.masterLost_mswitch⟩

theorem clampAdj_le (x : Int) : clampAdj x ≤ 4294967 := by
  rw [clampAdj]
  omega

theorem le_clampAdj (x : Int) : -4294967 ≤ clampAdj x := le_max_left _ _

section Timers
variable {s : State} (hp : s.powered = true)
include hp

theorem exec_phaseEnd :
    exec .phaseEnd s = .next { s with time := { s.time with phase := 0, ticksLeft := 0, adj := clampAdj s.time.rate } } := by
  change execPhaseEnd s = _
  rw [execPhaseEnd, act_powered hp]

theorem exec_refloss : exec .refloss s = .next ((s.wrb Reg.TIM_STAT 29 true).post 0x0A03 []) := by
  change execRefloss s = _
  rw [execRefloss, act_powered hp]

theorem exec_refclkReturn : exec .refclkReturn s = .next (s.wrb Reg.TIM_STAT 29 false) := by
  change execRefclkReturn s = _
  rw [execRefclkReturn, act_powered hp]

end Timers

/-- Settles O50: a SYNC by what a send keeps, a REPLY by what `noteReply` leaves to the step or to the slew. -/
theorem timeRows : Obligations.TimeRows := by
  refine ⟨fun s u hp hrole hu => ?_, fun s p hp hrole hwait hmiss hport => ?_, syncInterval_lost_row, sync_row,
    fun p g t4 s v a d o hp hlen hrole hv hx hd => ⟨reply_step_row hp hlen hrole hv hx hd, reply_slew_row hp hlen hrole hv hx hd⟩,
    fun p g t4 s v a d o hp hlen hrole hv hx hd => reply_late_row hp hlen hrole hv hx hd,
    fun s hp => ⟨_, exec_phaseEnd hp, rfl, rfl, clampAdj_le _, le_clampAdj _⟩, fun s hp => exec_refloss hp,
    fun s hp => ⟨_, exec_refclkReturn hp, s.rdb_wrb _ _ (by decide), (Only.refl _ s).wrw _ (by simp)⟩,
    fun p g t4 s v a hp hlen hv hrole => ?_⟩
  · subst hu
    rw [exec_syncInterval_root hp hrole, State.setLock_eq, State.aligned]
  · refine ⟨_, exec_syncInterval_first hp hrole hwait hmiss hport, ?_, State.send_tx .., ?_⟩
    · rw [State.send_sentOnly]
      rfl
    · rw [State.send_sentOnly]
      rfl
  · rw [exec_reply p hp hlen hv, State.rxReply_root _ hrole]

end Sys2Proof.Machine
end
